-- ==== Sys2Proof/Word.lean ====
section
/-! DEFINITION. The words of the Core: 64-bit words, 512-bit beats, 2048-bit lines and 64-bit trace ticks (R5, R6, R15). -/
namespace Sys2Proof

/-- A word: 64 bits, the native data unit (R15). -/
abbrev Word := BitVec 64

/-- A tick count of trace time: unsigned, 64 bits, wrapping (R15, R37). -/
abbrev Tick := BitVec 64

/-- One 512-bit transfer on a port data path: eight words (R15). -/
abbrev Beat := BitVec 512

/-- A line: 256 bytes, 32 words or 4 beats (R15). -/
abbrev Line := BitVec 2048

/-- The byte enables of one beat; bit `b` governs byte `b` (R6). -/
abbrev ByteEn := BitVec 64

/-- A 52-bit byte offset within a namespace below the 8-bit namespace number (R15, R63). -/
abbrev Addr := BitVec 60

/-- What a training step or a unit measured of a lane: its key, its results in the layout of LANE_RES, and its VREF margin. -/
structure LaneIn where
  key : BitVec 13
  res : BitVec 48
  margin : BitVec 6
  deriving DecidableEq, Repr, Inhabited

/-- What a factory capture measured of a lane at a rate (R353): channel, lane, rate (0 FULL, 1 HALF) and the four words of its set. -/
structure TrimIn where
  chan : BitVec 5
  lane : BitVec 2
  rate : BitVec 1
  set : BitVec 256
  deriving DecidableEq, Repr, Inhabited

/-- A namespace descriptor as the newest checkpoint and the delta log give it: number, DESC0, DESC1 and HOME (R174, R198). -/
structure NsIn where
  ns : BitVec 8
  d0 : Word
  d1 : Word
  home : BitVec 5
  deriving DecidableEq, Repr, Inhabited

/-- A root or an L1 word found in the map store: namespace, index and word (R189). -/
structure TreeIn where
  ns : BitVec 8
  idx : BitVec 23
  word : Word
  deriving DecidableEq, Repr, Inhabited

/-- A map entry found in the map store (R182). -/
structure EntIn where
  ns : BitVec 8
  u : BitVec 32
  entry : Word
  deriving DecidableEq, Repr, Inhabited

/-- The tags on the first segment of a unit (R215): the gap slot and slot 0 verify as position (4095 - r) mod 4096; the slots k that verify
as position (k - r - 1) mod 4096; the slots whose tag fails for both of their possible positions. -/
structure ShiftIn where
  ns : BitVec 8
  u : BitVec 32
  gap : Bool
  zero : Bool
  moved : BitVec 4096
  fails : BitVec 4096
  deriving DecidableEq, Repr, Inhabited

/-- A ledger word found in the map store: channel, segment, and the ceiling at each of the two positions (R209, R210). -/
structure WearIn where
  chan : BitVec 5
  seg : BitVec 27
  ceil0 : BitVec 32
  ceil1 : BitVec 32
  deriving DecidableEq, Repr, Inhabited

/-- A stripe, or a line, of a stream target as the scan of R145 reads it: class (two bits) and GEN (eight bits) by line, and the lines. -/
structure ScanIn where
  cls : BitVec 32
  gens : BitVec 128
  lines : List Line
  deriving DecidableEq, Repr, Inhabited

/-- What the map store says of a stream: whether a commit record holds it (R140) or it was RUNNING or STOPPING at the last checkpoint
(R196); its description; the lines from TAIL on (R145); and the index entries that verify from the checkpoint's IDX_COUNT on, as stream
offsets in 64-byte units, with the number of entries that the stream had written. -/
structure StreamIn where
  k : BitVec 5
  committed : Bool
  /-- the position of its last commit record (R193) -/
  at_ : BitVec 1
  mode : BitVec 13
  addr : BitVec 60
  len : BitVec 52
  stg : BitVec 27
  spill : BitVec 48
  pre : BitVec 52
  triggered : Bool
  trigTick : Word
  trigOff : Word
  tail : Word
  lap : Word
  endOff : Word
  winStart : Word
  stopInfo : BitVec 6
  idxAddr : BitVec 60
  idxLen : BitVec 52
  idxHead : Word
  idxCount : Word
  idxWritten : Word
  /-- OFFSET of the last checkpointed index entry (R145) -/
  idxLast : BitVec 58
  index : List (BitVec 58)
  scan : List ScanIn
  deriving DecidableEq, Repr, Inhabited

/-- A line of the delta log as found at a start (R195): its byte position, whether it verifies, and its records: the level of the tree that
a record of kind ENTRY changes (0 entry, 1 L1 word, 2 root word), word 0 and word 1. -/
structure DeltaIn where
  at_ : Word
  ok : Bool
  recs : List (BitVec 2 × Word × Word)
  deriving DecidableEq, Repr, Inhabited

/-- A checkpoint root record as found at a start, with the checkpointed map that it leads to (R196): whether it verifies, G, D_f and the
sequence of the first record there, R and S, the descriptors, the ALT bits and the tree. -/
structure RootIn where
  ok : Bool
  gen : Word
  df : Word
  seq : BitVec 20
  reserve : BitVec 27
  segs : BitVec 28
  ns : List NsIn
  rootAlt : List (BitVec 13)
  roots : List TreeIn
  l1 : List TreeIn
  ents : List EntIn
  deriving DecidableEq, Repr, Inhabited

/-- What the Core finds on the hubs at step 11 of the start (R198, R199, R210, R215): the checkpoint root records, the delta log, the slot
tests, the ledger words with the ledger lines that do not verify at each position, the stripes and the streams. -/
structure MapIn where
  cands : List RootIn
  log : List DeltaIn
  shifts : List ShiftIn
  wear : List WearIn
  bad0 : List (BitVec 26)
  bad1 : List (BitVec 26)
  readOnly : BitVec 32
  retired : List (BitVec 5 × BitVec 27)
  sparesUsed : List (BitVec 5 × BitVec 27)
  streams : List StreamIn
  deriving DecidableEq, Repr, Inhabited

end Sys2Proof
end

