-- ==== Sys2Proof/Syntax.lean ====
section
/-! DEFINITION. The commands: one constructor for each row of the table of operations and events, with what the command names and what the
Core's surroundings supply with it. `a` is the CFG agent of an access. -/
namespace Sys2Proof

/-- A command: what the Core's clients, hubs, stacks, agents and pins do to it, and each whole step that it takes by itself. -/
inductive Instr
  /-- CFG_WRITE (R11): A CFG write to a register with no row of its own sets fields by their access codes; misaligned or reserved accesses and reserved encodings are handled as R9 and R10 state. -/
  | cfgWrite (a : BitVec 3) (addr : BitVec 24) (full : Bool) (v : Word)
  /-- RC_READ (R12): A read of an RC field returns its value and then clears it; a hardware set or advance in the same domain cycle wins. -/
  | rcRead (a : BitVec 3) (addr : BitVec 24) (full : Bool)
  /-- EVENT_CLEAR_WRITE (R481): A W1C write to a page EVENT register clears bits, updates EVENT_FIRST VALID and the page summary, with hardware sets in the same cycle winning. -/
  | eventClearWrite (a : BitVec 3) (pg : BitVec 12) (v : Word)
  /-- EVENT_SET (R482): A write to EVENT_SET sets EVENT bits exactly as hardware would, including EVENT_FIRST, EVENT_TIME and the summary. -/
  | eventSet (a : BitVec 3) (pg : BitVec 12) (v : Word)
  /-- TIMEBASE_TICK (R35): On each TBCLK cycle without TB_LOAD, trace time advances by TB_ADV, or by the nominal rate while estimated, and window ticks are counted. -/
  | timebaseTick (adv : BitVec 3)
  /-- TB_LOAD (R39): A TB_LOAD sets trace time; the first sets TB_VALID and judges stored entries, later ones are confirmations or discontinuities. -/
  | tbLoad (v : Tick) (adv : BitVec 3)
  /-- TB_ALIVE_TOGGLE (R44): A change of level on TB_ALIVE restarts the loss timer and, while estimated, sets TIMEBASE_BACK. -/
  | tbAliveToggle
  /-- TIMEBASE_LOST (R42): When the time since the last TB_ALIVE change exceeds TB_LOSS_TIME, the Almanac enters the estimated state. -/
  | timebaseLost
  /-- ALM_ENTRY_FIRE (R41): A reached schedule entry fires, at most one per TBCLK cycle in tick and index order, is logged and becomes FREE. -/
  | almEntryFire
  /-- ENT_WRITE (R46): The WRITE command stores an entry at ENT_SEL, marking it PAST when its tick is already reached, or DENIED in the Loom reserve. -/
  | entWrite (a : BitVec 3)
  /-- ENT_CLEAR (R47): The CLEAR command frees an entry, completing ALREADY_DONE if it already fired, DENIED in the Loom reserve. -/
  | entClear (a : BitVec 3)
  /-- ENT_READ (R46): The READ command copies an entry into ENT_TICK, ENT_CTL and ENT_ARG. -/
  | entRead (a : BitVec 3)
  /-- LOG_POP (R49): A write of 1 to ALM.LOG_POP discards the oldest fire record. -/
  | logPop (a : BitVec 3)
  /-- LOOM_RESERVE_WRITE (R48): A write to ALM.LOOM_RESERVE takes effect only while every moved index is FREE, else PARAM_REJECT. -/
  | loomReserveWrite (a : BitVec 3) (v : BitVec 10)
  /-- GUARANTEED_PORTION_END (R50): After GUAR_TICKS plus shrink the period passes into its background portion. -/
  | guaranteedPortionEnd
  /-- PERIOD_END (R56): At each end of a period the lag, shrink and background budget of the next period are computed and held parameters are checked and applied. -/
  | periodEnd
  /-- REQ_ACCEPT (R69): A REQ transfer is accepted into the intake queue and checked in order; a failing request is answered with one beat of RANGE or DENIED. -/
  | reqAccept (port : BitVec 4) (op : BitVec 5) (tag : BitVec 12) (oid : BitVec 6) (addr : BitVec 60) (len : BitVec 6) (cls : BitVec 3) (attr : BitVec 8)
  /-- READ (R23): A READ returns LEN+1 beats served from Kiln, Hearth or the medium with per-line status. -/
  | read (port : BitVec 4) (tag : BitVec 12) (k : BitVec 4)
  /-- WRITE (R23): A WRITE writes every byte of its beats, into a stream or as dirty lines in Hearth, and completes with one beat. -/
  | write (port : BitVec 4) (tag : BitVec 12) (k : BitVec 4)
  /-- WRITE_MASKED (R67): A WRITE_MASKED writes the bytes whose byte enables are 1, merging partial lines. -/
  | writeMasked (port : BitVec 4) (tag : BitVec 12) (k : BitVec 4)
  /-- FENCE (R100): A FENCE takes effect after every earlier request of the port and holds later ones until then. -/
  | fence (port : BitVec 4) (tag : BitVec 12)
  /-- PERSIST (R104): A PERSIST forces writeback and padding so that every earlier write of its port becomes durable, then completes. -/
  | persist (port : BitVec 4) (tag : BitVec 12)
  /-- PERSIST_NS (R105): A PERSIST_NS makes the writes to one namespace covered by R105 durable, then completes. -/
  | persistNs (port : BitVec 4) (tag : BitVec 12)
  /-- APPEND (R121): An APPEND feeds a stream, receiving stream offsets in presentation order and returning the first offset. -/
  | append (port : BitVec 4) (tag : BitVec 12)
  /-- CLEAR_POISON (R251): A CLEAR_POISON turns every covered line that is not GOOD into zeros with a normal tag. -/
  | clearPoison (port : BitVec 4) (tag : BitVec 12) (k : BitVec 4)
  /-- PREFETCH (R68): A PREFETCH fills the covered lines into Hearth and completes OK. -/
  | prefetch (port : BitVec 4) (tag : BitVec 12) (k : BitVec 4)
  /-- ZERO (R67): A ZERO writes zeros to whole lines. -/
  | zero (port : BitVec 4) (tag : BitVec 12) (k : BitVec 4)
  /-- WDAT_BEAT (R70): A WDAT beat is accepted and assigned to the next write-bearing request, buffering up to 64 ahead. -/
  | wdatBeat (port : BitVec 4) (data : Beat) (be : ByteEn) (last : Bool)
  /-- INTAKE_PRESENT (R75): The intake queue presents an eligible request to Reeve by class and age, at most one per fabric cycle. -/
  | intakePresent (port : BitVec 4)
  /-- PORT_METER_HOLD_RELEASE (R365): A red request held at a HOLD port meter is metered again when Tp reaches L. -/
  | portMeterHoldRelease (p : BitVec 4)
  /-- CLASS_METER_HOLD_RELEASE (R367): A request held at a HOLD class meter passes once Tp is at least L. -/
  | classMeterHoldRelease (c : BitVec 3)
  /-- SHAPER_RELEASE (R368): A class shaper releases its head request when its credit is non-negative, splitting it into line requests queued at stage C. -/
  | shaperRelease (c : BitVec 3)
  /-- RSP_BEAT (R73): A response beat is transferred on RSP, completing the request on its final beat. -/
  | rspBeat (port : BitVec 4) (tag : BitVec 12)
  /-- PLY_PUSH (R161): Loom pushes a PLY beat when a credit is available, judging the entry's first beat on time or LATE. -/
  | plyPush (port : BitVec 4)
  /-- PLY_CREDIT (R77): A PLY_CREDIT returns one credit, usable next cycle; returns beyond PLY_CREDITS set CREDIT_OVF. -/
  | plyCredit (port : BitVec 4)
  /-- URG_CHANGE (R80): A rise on URG takes effect in the next cycle; a fall starts the 1 µs hold-off. -/
  | urgChange (port : BitVec 4) (v : BitVec 2)
  /-- URG_FALL_EXPIRE (R80): A lower URG held for 1 µs becomes the effective urgency. -/
  | urgFallExpire (port : BitVec 4)
  /-- PCLK_SEL_WRITE (R82): A write to PORT_2k.PCLK_SEL switches the pair clock glitch-free only while both ports are disabled and quiet. -/
  | pclkSelWrite (a : BitVec 3) (port : BitVec 4) (v : BitVec 2)
  /-- PORT_ENABLE_WRITE (R84): A write to PORT_n.CTL.ENABLE raises or lowers PORT_READY as the mode allows and starts or stops PCLK. -/
  | portEnableWrite (a : BitVec 3) (port : BitVec 4) (en : BitVec 1)
  /-- GFENCE_GO (R102): A write of 1 to GLOBAL.GFENCE.GO places marks in every queue, or sets MISSED while a fence is in progress. -/
  | gfenceGo (a : BitVec 3)
  /-- GFENCE_DONE (R103): When every pre-mark request has taken effect, GFENCE.DONE and GFENCE_DONE are set. -/
  | gfenceDone
  /-- PERSIST_COMPLETE (R106): Once every covered line is durable, the PERSIST completes OK or WRITE_POISONED. -/
  | persistComplete (port : BitVec 4) (tag : BitVec 12)
  /-- NS_BROADCAST (R178): A namespace change reaches the map cache banks; unstarted requests to a removed range complete ABORTED and streams, lists and holds end. -/
  | nsBroadcast
  /-- HELD_TIMEOUT (R115): A write stalled by a range hold for H completes with HELD_TIMEOUT and no effect. -/
  | heldTimeout (port : BitVec 4) (tag : BitVec 12)
  /-- RANGE_HOLD_DRAIN_DONE (R114): When earlier writes to a held range have taken effect, the RANGE_HOLD block completes DONE. -/
  | rangeHoldDrainDone
  /-- STREAM_START (R138): START checks the descriptor and moves an IDLE or COMMITTED stream to RUNNING, or is REFUSED with a reason. -/
  | streamStart (a : BitVec 3) (k : BitVec 5)
  /-- STREAM_STOP (R138): STOP moves a RUNNING stream to STOPPING with reason HOST, padding the open stripe. -/
  | streamStop (a : BitVec 3) (k : BitVec 5)
  /-- STREAM_ARM (R133): The ARM command arms a RUNNING stream's trigger. -/
  | streamArm (a : BitVec 3) (k : BitVec 5)
  /-- STREAM_DISARM (R133): The DISARM command disarms a stream's trigger. -/
  | streamDisarm (a : BitVec 3) (k : BitVec 5)
  /-- STREAM_RELEASE (R138): RELEASE moves a COMMITTED stream to IDLE and clears its commit record. -/
  | streamRelease (a : BitVec 3) (k : BitVec 5)
  /-- TRIG_EDGE (R133): The first edge of the sampled trigger level on an armed stream is the trigger, stamped and indexed. -/
  | trigEdge (levels : BitVec 8)
  /-- SPILL_SLOT_MOVE (R128): While spilling, a head slot that cannot be issued moves whole to the Hearth spill queue. -/
  | spillSlotMove (k : BitVec 5)
  /-- SPILL_DRAIN (R129): The spill queue head is read from Hearth, checked and sent to the medium with WRITE_LINE. -/
  | spillDrain (k : BitVec 5)
  /-- SPILL_EXIT (R129): The stream leaves spill when its spill queue is empty and STG_FILL is below SPILL_ON. -/
  | spillExit (k : BitVec 5)
  /-- PAD_TIMEOUT (R136): When the first byte of the open stripe has waited PAD_TIMEOUT, Kiln pads it with zeros. -/
  | padTimeout (k : BitVec 5)
  /-- RUNAHEAD_MAP (R131): The map walker takes formatted units from the Woodshed to keep RUNAHEAD units mapped ahead of NEXT_OFFSET. -/
  | runaheadMap (k : BitVec 5)
  /-- TAIL_ADVANCE (R137): The durable tail advances one stripe or line when the unit at TAIL is acknowledged. -/
  | tailAdvance (k : BitVec 5)
  /-- COMMIT_RECORD_WRITE (R140): A STOPPING stream whose tail, spill and index are complete writes its commit record. -/
  | commitRecordWrite (k : BitVec 5)
  /-- STREAM_COMMITTED (R138): When the commit record is durable the stream becomes COMMITTED and unused run-ahead is returned. -/
  | streamCommitted (k : BitVec 5)
  /-- SEQ_LOAD (R153): LOAD reads the list image through the random-access path. -/
  | seqLoad (a : BitVec 3) (k : BitVec 4)
  /-- LIST_LOAD_DONE (R153): When the image is read and checked the list becomes LOADED, or EMPTY with a refusal. -/
  | listLoadDone (k : BitVec 4)
  /-- SEQ_START (R153): START checks ranges, permissions and the port and moves a LOADED or DONE list to RUNNING. -/
  | seqStart (a : BitVec 3) (k : BitVec 4)
  /-- SEQ_STOP (R154): STOP moves a RUNNING list to STOPPING, squashing speculation and clearing unfired PLAY_DUE entries. -/
  | seqStop (a : BitVec 3) (k : BitVec 4)
  /-- SEQ_UNLOAD (R153): UNLOAD releases the Hearth copy and returns the list to EMPTY. -/
  | seqUnload (a : BitVec 3) (k : BitVec 4)
  /-- PRED_CLEAR (R153): PRED_CLEAR clears every branch's outcome history. -/
  | predClear (a : BitVec 3) (k : BitVec 4)
  /-- LOOM_WALK (R156): Loom walks the next entry once horizon, pin, branch depth and reserve allow, pinning units and placing PLAY_DUE entries. -/
  | loomWalk (k : BitVec 4)
  /-- LOOM_DUE_ISSUE (R159): When trace time reaches T minus LEAD_TICKS Loom issues the PLAY's line reads under LOOM_DUE. -/
  | loomDueIssue (k : BitVec 4)
  /-- BRANCH_RESOLVE (R162): A BRANCH resolves from COND at its sample tick and commits or squashes the predicted path. -/
  | branchResolve (k : BitVec 4) (cond : BitVec 16)
  /-- LIST_DONE (R153): A RUNNING list reaching END with all entries delivered, or a STOPPING list finishing its reads, becomes DONE. -/
  | listDone (k : BitVec 4)
  /-- LIST_RESTORE (R170): Loom rereads a lost list copy and compares its CRC, stopping or emptying the list on mismatch. -/
  | listRestore (k : BitVec 4)
  /-- STRIPE_UPDATE (R186): A due writeback of BUNDLE lines reads, computes parity, logs STRIPE_OPEN, programs data then parity, and closes. -/
  | stripeUpdate
  /-- WOODSHED_FORMAT (R194): A channel below its Woodshed target issues FORMAT_SEGMENT for a FREE segment or row under MAP_IO. -/
  | woodshedFormat (c : BitVec 5)
  /-- DELTA_LINE_TIMEOUT (R195): A partly filled delta line is written 2 µs after its first record was appended. -/
  | deltaLineTimeout
  /-- CKPT_GO (R196): A write to MAP.CKPT_CMD.GO starts a checkpoint, or marks one PENDING. -/
  | ckptGo (a : BitVec 3)
  /-- CKPT_INTERVAL_EXPIRE (R196): When CKPT_INTERVAL seconds have passed since the last checkpoint a new one starts. -/
  | ckptIntervalExpire
  /-- CKPT_DONE (R196): When the root record is durable ALT bits flip, log space is released and CKPT_GEN advances. -/
  | ckptDone
  /-- RECLAIM_VISIT (R203): The reclaimer visits a stale root word and frees its pages and segments. -/
  | reclaimVisit
  /-- ROT_SHIFT_START (R212): A due rotation shift sets MIGRATING on its unit when its window is open. -/
  | rotShiftStart
  /-- ROT_MOVE (R212): One rotation move copies a slot to the next after the previous move is acknowledged; the last sets ROT and clears MIGRATING. -/
  | rotMove
  /-- MIGRATE_COPY (R217): A migration copies one line of a queued unit to its destination under MIGRATE. -/
  | migrateCopy
  /-- MIGRATE_SWITCH (R217): After the last line and recopies the map switch rewrites SEG and ROT and frees the source. -/
  | migrateSwitch
  /-- DRIFT_CLOCK_TICK (R223): The drift clock advances one second and units whose AGE is due are promoted. -/
  | driftClockTick
  /-- REWRITE_LINE (R228): A drift rewrite reads a line of a due unit through the ladder and programs it in place with a new BIRTH. -/
  | rewriteLine
  /-- CANARY_PROGRAM (R229): A canary whose age reaches its interval is programmed with the drift clock and level pattern. -/
  | canaryProgram (c : BitVec 5) (k : BitVec 3)
  /-- CANARY_SAMPLE (R230): Every CANARY_INTERVAL/8 one canary per hub is read with CANARY_READ. -/
  | canarySample
  /-- AGE_ESTIMATE (R232): After PORST_N the drift clock is estimated from canary reads on every channel in service. -/
  | ageEstimate (store : BitVec 48)
  /-- RDATA_RECEIVE (R240): An RDATA line is classified GOOD, BLANK, POISON or FAIL and delivered or sent up the ladder. -/
  | rdataReceive (c : BitVec 5)
  /-- HEARTH_LINE_RETURN (R246): A Hearth line read returns and is checked; a FAIL runs the Hearth ladder by kind. -/
  | hearthLineReturn (n : BitVec 1) (xd : Line) (xt xm : BitVec 32)
  /-- FLIP_ARM (R256): A write to ERR.FLIP_CTL arms or disarms the flip masks, rejecting reserved targets. -/
  | flipArm (a : BitVec 3) (v : BitVec 28)
  /-- GLN_GO (R258): A write of 1 to GLN.GO starts a pass RUNNING or reports REFUSED. -/
  | glnGo (a : BitVec 3)
  /-- GLN_ABORT (R264): A write of 1 to GLN.ABORT ends a running pass after its lines in flight, or reads ALREADY_DONE. -/
  | glnAbort (a : BitVec 3)
  /-- GLEANER_VISIT (R259): The Gleaner visits the next line of its range, counting or reading it under GLEANER. -/
  | gleanerVisit
  /-- GLEANER_PASS_END (R262): A pass ends DONE or ABORTED with its final summary. -/
  | gleanerPassEnd
  /-- HEARTH_COMMAND_ISSUE (R286): A pseudo-channel serves its next request under first-ready, age cap and timing rules. -/
  | hearthCommandIssue (n : BitVec 1) (pc : BitVec 5)
  /-- HEARTH_QAVG_UPDATE (R288): Every 64 CK cycles each pseudo-channel's average occupancy is updated. -/
  | hearthQavgUpdate (n : BitVec 1)
  /-- REFRESH_DUE (R291): A due refresh is issued or postponed, and forced at the postponement limit. -/
  | refreshDue (n : BitVec 1) (pc : BitVec 5)
  /-- HEARTH_TEMP_READ (R291): Every 1 ms the stack temperature is read, halving refresh, throttling or tripping as thresholds are crossed. -/
  | hearthTempRead (n : BitVec 1) (temp : BitVec 8)
  /-- POWER_DOWN_ENTRY (R294): A pseudo-channel idle for PD_IDLE CK cycles enters power-down. -/
  | powerDownEntry (n : BitVec 1) (pc : BitVec 5)
  /-- HEARTH_FILL (R296): The fill engine writes every line of the stacks with zero data and valid metadata. -/
  | hearthFill (n : BitVec 1) (k : BitVec 29)
  /-- HEARTH_FILL_DONE (R296): When the fill ends the stacks are ready and lost entries are poisoned. -/
  | hearthFillDone (n : BitVec 1)
  /-- WRITEBACK_START (R281): The writeback engine reads a dirty slot under WRITEBACK by the first applicable trigger and programs it. -/
  | writebackStart
  /-- WRITEBACK_DONE (R281): On acknowledgement and a durable delta record the entry is freed or kept dirty when REWRITTEN. -/
  | writebackDone (e : BitVec 18)
  /-- SWEEP_LINE (R285): The sweeper empties a stale or failing home slot. -/
  | sweepLine
  /-- LAYOUT_APPLY (R276): APPLY to HT.LAYOUT_CMD moves region boundaries and increments every CGEN, or is REFUSED. -/
  | layoutApply (a : BitVec 3)
  /-- TIMING_APPLY (R289): APPLY to HT_n.TIMING_CMD holds traffic, closes rows and loads new timing values. -/
  | timingApply (a : BitVec 3) (n : BitVec 1)
  /-- STACK_FAIL (R298): A stack failing training, temperature or parity leaves service and the Core runs single-stack. -/
  | stackFail (n : BitVec 1) (errs : BitVec 8)
  /-- FULL_TRAINING (R304): A stack runs full training through impedance, CA, WDQS, deskew, VREF and lane repair. -/
  | fullTraining (n : BitVec 1) (kill : Bool) (b r : BitVec 4) (bin : BitVec 2) (need : Bool) (imt : BitVec 8) (mmt : BitVec 16) (ls : List LaneIn)
  /-- RESUME_TRAINING (R307): A stack runs resume training from stored codes, falling back to full training on failure. -/
  | resumeTraining (n : BitVec 1) (ok : Bool) (ls : List LaneIn)
  /-- RETRAIN_ROUND_DUE (R309): A periodic retraining round becomes due by time or temperature change. -/
  | retrainRoundDue (n : BitVec 1)
  /-- RETRAIN_UNIT (R310): One pseudo-channel is held and re-centred within 2 µs in an open window. -/
  | retrainUnit (n : BitVec 1) (ls : List LaneIn)
  /-- REPAIR_UNIT (R311): A lane below FLOOR_EYE is remapped onto its spare, or the stack fails. -/
  | repairUnit (n : BitVec 1) (ls : List LaneIn)
  /-- RETRAIN_OVERDUE (R312): A round incomplete RETRAIN.LIMIT ms after becoming due sets RETRAIN_OVERDUE. -/
  | retrainOverdue (n : BitVec 1)
  /-- LOOPBACK_TEST (R313): TEST_CTL.GO runs a PHY or stack loopback with PRBS31, or is REFUSED in service. -/
  | loopbackTest (a : BitVec 3) (n : BitVec 1) (mode : BitVec 2) (dur : BitVec 16) (errs : List (BitVec 13 × BitVec 32))
  /-- T1500_GO (R314): T1500_CMD.GO issues a host IEEE 1500 instruction, refusing writes in service. -/
  | t1500Go (a : BitVec 3) (n : BitVec 1) (out : Word)
  /-- CODEWORD_RECEIVE (R319): A received codeword is decoded, its flits passed on or discarded, and lock judged. -/
  | codewordReceive (c : BitVec 5) (ok : Bool) (hdr : BitVec 20) (f0 f1 f2 f3 f4 : BitVec 1024) (corr : List (BitVec 10))
  /-- FLIT_RECEIVE (R323): A flit is accepted in SEQ order or answered with NAK; ACK, NAK and credit reports are taken. -/
  | flitReceive (c : BitVec 5)
  /-- NAK_REPEAT (R323): A NAK unanswered for 2 µs is sent again. -/
  | nakRepeat (c : BitVec 5)
  /-- REPLAY_TIMEOUT (R324): With flits held and ACK unchanged for 2 µs the sender replays from the oldest held flit. -/
  | replayTimeout (c : BitVec 5)
  /-- PAD_FLIT_TIMEOUT (R322): A partly filled flit with no further message within 16 flit times is ended with PAD and sent. -/
  | padFlitTimeout (c : BitVec 5) (vc : BitVec 3)
  /-- HUB_RSP (R329): An RSP message from the hub is matched by CTAG and acted on by its status. -/
  | hubRsp (c : BitVec 5)
  /-- STATUS (R335): A hub STATUS message updates HUB_TEMP and the HOLD flag. -/
  | status (c : BitVec 5)
  /-- HUB_HOLD_TIMEOUT (R348): A hub still in HOLD 1 ms after an uncommanded HOLD takes the channel to RESET. -/
  | hubHoldTimeout (c : BitVec 5)
  /-- SIDEBAND_FRAME (R338): A hub sideband half-frame is checked and updates presence, READY, HOLD and identity. -/
  | sidebandFrame (c : BitVec 5) (half : BitVec 30)
  /-- HEARTBEAT_TOGGLE (R339): Every 8 µs the Core inverts HB on an enabled channel. -/
  | heartbeatToggle (c : BitVec 5)
  /-- TIME_MARK_SEND (R334): Each second of the drift clock the Core sends TIME_MARK to the hub. -/
  | timeMarkSend (c : BitVec 5)
  /-- LINK_DETECT (R341): A powered enabled channel leaves OFF for DETECT and starts sideband frames. -/
  | linkDetect (c : BitVec 5)
  /-- LINK_OFF (R341): ENABLE 0, a domain going off or SAFEHOLD takes a channel to OFF. -/
  | linkOff (c : BitVec 5)
  /-- LINK_TRAINING (R342): A channel runs the training steps and becomes ACTIVE, retries at a lower width or rate, or becomes LOST. -/
  | linkTraining (c : BitVec 5) (step : BitVec 3) (faults : BitVec 8) (params1 params2 status : Word) (info0 info1 drift0 drift1 : Line)
  /-- LANE_FAULT (R342): A lane fault in ACTIVE retrains the channel at the next lower width. -/
  | laneFault (c : BitVec 5) (faults : BitVec 8) (cdr : Bool)
  /-- LANE_ERR_INTERVAL (R342): Each 1 ms interval of pre-FEC errors per lane is compared with LANE_ERR_MAX. -/
  | laneErrInterval (c : BitVec 5)
  /-- COMMAND_TIMEOUT (R341): A command without a response within TIMEOUT retrains the channel unplanned. -/
  | commandTimeout (c : BitVec 5)
  /-- QUIESCE_DONE (R341): A quiescing channel with nothing outstanding and HOLD answered moves to OFF, RESET or TRAIN. -/
  | quiesceDone (c : BitVec 5)
  /-- QUIESCE_TIMEOUT (R341): A channel in QUIESCE for 100 µs moves to RESET or TRAIN. -/
  | quiesceTimeout (c : BitVec 5)
  /-- HUB_READY_TIMEOUT (R341): A hub not READY within 10 ms in DETECT or RESET moves the channel to RESET or LOST. -/
  | hubReadyTimeout (c : BitVec 5)
  /-- ZML_RETRAIN (R348): The RETRAIN command takes an ACTIVE channel through QUIESCE to TRAIN. -/
  | zmlRetrain (a : BitVec 3) (c : BitVec 5)
  /-- ZML_WIDEN (R348): The WIDEN command retrains an ACTIVE channel at four lanes and the highest allowed rate. -/
  | zmlWiden (a : BitVec 3) (c : BitVec 5)
  /-- RESET_HUB (R348): The RESET_HUB command takes the channel to RESET and sends RST frames. -/
  | resetHub (a : BitVec 3) (c : BitVec 5)
  /-- TRIM_TEMP_SAMPLE (R354): Every 100 µs the quad temperature is sampled and a new set marked due when it moved 4 °C. -/
  | trimTempSample (quad : BitVec 3) (temp : BitVec 8)
  /-- TRIM_APPLY_CMD (R355): A write to TRIM_CMD.APPLY marks a new set due for the channel. -/
  | trimApplyCmd (a : BitVec 3) (c : BitVec 5)
  /-- TRIM_APPLICATION (R356): A due set is stepped into one channel over 2.4 µs in a window, or at once below the floor. -/
  | trimApplication (c : BitVec 5)
  /-- EYE_SCAN (R359): Every EYE_CTL.PERIOD ms each active receive lane's eye is scanned and the trim floor judged. -/
  | eyeScan (c : BitVec 5) (lane : BitVec 2) (widths heights : List (List (BitVec 17)))
  /-- FEEDBACK_UPDATE (R374): Every 64 fabric cycles queue averages are compared with watermarks and the feedback level moves. -/
  | feedbackUpdate
  /-- DEBT_CLEAR (R369): A write of 1 to CL_c_DEBT_CLEAR forgives the shaper's debt. -/
  | debtClear (a : BitVec 3) (c : BitVec 3)
  /-- COMMIT (R378): A write to REEVE.COMMIT checks ranks, slots and oversubscription and applies shadows and slot tables, or REFUSED. -/
  | commit (a : BitVec 3)
  /-- SHORTFALL_WALK (R381): Within 1 µs of a capability change Reeve regrants guarantees in rank order and rebuilds effective tables. -/
  | shortfallWalk
  /-- TRAIN_OUTAGE_100US (R380): A channel in TRAIN for more than 100 µs counts at zero capability for the walk. -/
  | trainOutage100us (c : BitVec 5)
  /-- SHORT_BYTES_ACCRUE (R382): Every µs each short owner's SHORT_BYTES advances by its shortfall. -/
  | shortBytesAccrue
  /-- SAMPLE_TICK (R384): Every SAMPLE_CYCLES each enabled sampling ring records its queue's bytes and head age. -/
  | sampleTick
  /-- SAMP_SEL_WRITE (R384): A write to SAMP_SEL_k empties its ring and resets its position. -/
  | sampSelWrite (a : BitVec 3) (k : BitVec 2) (v : BitVec 17)
  /-- ROTA_H_DECISION (R391): At each command cycle ROTA_H_n grants floor, urgent, owner or stage C winner into a pseudo-channel queue. -/
  | rotaHDecision (n : BitVec 1)
  /-- ROTA_M_TX_DECISION (R391): At each TX decision point ROTA_M_n grants one WRITE_LINE or SEAL_WRITE by slot, balance and stage C. -/
  | rotaMTxDecision (c : BitVec 5) (adv : BitVec 7)
  /-- ROTA_M_RX_DECISION (R391): At each receive flit time ROTA_M_n grants one read and books its RDATA. -/
  | rotaMRxDecision (c : BitVec 5) (adv : BitVec 7)
  /-- WITHDRAW (R395): A granted request withdrawn before its slot leaves the slot dead and returns its debit. -/
  | withdraw (a : BitVec 6) (rx : Bool)
  /-- RESTART_HOLD_END (R398): An aborted program's restart hold ends on the read's RDATA or RESTART_WAIT and it rejoins its queue head. -/
  | restartHoldEnd (c : BitVec 5)
  /-- LATCH_READ (R409): A read of LATCH_k takes a free latch or returns the holder's owner number. -/
  | latchRead (a k : BitVec 3)
  /-- LATCH_REL (R410): A write to POST.LATCH_REL releases the writer's latches, setting NOT_HOLDER otherwise. -/
  | latchRel (a : BitVec 3) (v : BitVec 8)
  /-- LATCH_LEASE_EXPIRE (R410): A latch held by an agent for LATCH_LEASE is released with BROKEN set. -/
  | latchLeaseExpire (k : BitVec 3)
  /-- POST_NOTICE (R412): The holder's write of POST_IN_k_META with FULL posts the notice and records OWNER. -/
  | postNotice (a k : BitVec 3) (v : Word)
  /-- SERVICE_CYCLE (R413): Collier takes every full inbound post, checks and accepts blocks, then places outbound notices. -/
  | serviceCycle (us : BitVec 16)
  /-- POST_IN_TIMEOUT (R414): An inbound post not taken within POST.TIMEOUT sets TIMED_OUT and IN_TIMEOUT. -/
  | postInTimeout (k : BitVec 3)
  /-- WITHDRAW_POST (R414): A write to POST_IN_k_CTL.WITHDRAW by the owner empties a still-full post. -/
  | withdrawPost (a k : BitVec 3)
  /-- POST_OUT_ACK (R415): A write of the SEQ to POST_OUT_k_ACK takes the outbound notice. -/
  | postOutAck (a k : BitVec 3) (seq : BitVec 16)
  /-- POST_OUT_TIMEOUT (R415): An outbound notice not taken within POST.TIMEOUT sets OUT_TIMEOUT. -/
  | postOutTimeout (k : BitVec 3)
  /-- PW_DATA_READ (R407): A read of PW_DATA returns the Parish word at PW_ADDR and advances PW_ADDR. -/
  | pwDataRead (a : BitVec 3)
  /-- PW_DATA_WRITE (R408): A write of PW_DATA stores the Parish word at PW_ADDR, completing once held, and advances PW_ADDR. -/
  | pwDataWrite (a : BitVec 3) (v : Word)
  /-- CANCEL (R421): A write to POST.CANCEL aborts an abortable command before its commit point. -/
  | cancel (a : BitVec 3) (seq : BitVec 32)
  /-- NS_CREATE (R175): The NS_CREATE block creates a namespace with a new EPOCH, or is refused. -/
  | nsCreate
  /-- NS_DELETE (R177): The NS_DELETE block clears EXISTS and passes the units to the reclaimer. -/
  | nsDelete
  /-- NS_QUERY (R422): The NS_QUERY block returns a namespace descriptor. -/
  | nsQuery
  /-- NS_RESIZE (R176): The NS_RESIZE block changes size, permissions and HOME after a reservation check. -/
  | nsResize
  /-- SESSION_PURGE (R201): The SESSION_PURGE block increments the EPOCH of EPHEMERAL namespaces, dropping their contents. -/
  | sessionPurge
  /-- CHECKPOINT (R196): The CHECKPOINT block starts a checkpoint and completes with CKPT_GEN when durable. -/
  | checkpoint
  /-- RANGE_HOLD (R114): The RANGE_HOLD block places a hold on a range, stalling other ports' writes. -/
  | rangeHold
  /-- RANGE_RELEASE (R116): The RANGE_RELEASE block ends a hold, letting stalled requests proceed. -/
  | rangeRelease
  /-- HEALTH (R422): The HEALTH block returns the eight-word health record. -/
  | health
  /-- ERRLOG_READ (R422): The ERRLOG_READ block copies error ring entries into the result area. -/
  | errlogRead
  /-- FW_STAGE (R422): The FW_STAGE block writes a firmware image into the inactive slot and marks it valid. -/
  | fwStage
  /-- FW_ACTIVATE (R423): The FW_ACTIVATE block loads, hands off to and commits the staged firmware, or reverts. -/
  | fwActivate (outcome : BitVec 2)
  /-- TRIM_CAPTURE (R353): The TRIM_CAPTURE block measures trim sets at one temperature point in BRINGUP. -/
  | trimCapture (sets : List TrimIn)
  /-- TRIM_LOAD (R352): The TRIM_LOAD block installs a valid trim record. -/
  | trimLoad
  /-- HUB_INFO (R422): The HUB_INFO block returns a hub's HUB_INFO page. -/
  | hubInfo
  /-- RETIRE_QUERY (R422): The RETIRE_QUERY block returns spares and retired segments of a channel. -/
  | retireQuery
  /-- SCRUB_REQUEST (R422): The SCRUB_REQUEST block runs a Gleaner pass and returns its summary. -/
  | scrubRequest
  /-- BOOT_GO (R405): A write to COLLIER.BOOT_CMD.GO has the boot ROM check the host image and start Collier. -/
  | bootGo (a : BitVec 3)
  /-- COLLIER_BOOT (R405): Collier's boot ROM loads and checks an image from the hub, becoming RUNNING or HALTED. -/
  | collierBoot
  /-- COLLIER_WATCHDOG (R406): A service cycle not finished within WDOG restarts Collier cold. -/
  | collierWatchdog
  /-- AGENT_RST (R417): AGENT_RST_n breaks the agent's latches, drops its outbound queue, resets its banked registers and ends its holds. -/
  | agentRst (n : BitVec 3) (on : Bool)
  /-- PORST_ASSERT (R434): PORST_N asserted resets the Core and discards accepted requests. -/
  | porstAssert
  /-- SRST_ASSERT (R434): SRST_N asserted resets the Core except the PLL, clock and power state and the drift clock. -/
  | srstAssert
  /-- PORST_RELEASE (R428): PORST_N release starts the start sequence on the PLL bypass. -/
  | porstRelease
  /-- SRST_RELEASE (R428): SRST_N release starts the start sequence at SRAM fill. -/
  | srstRelease
  /-- START_KIND_DECIDE (R433): With every channel in service ACTIVE the seal records are read, the start kind decided and an OPEN record written. -/
  | startKindDecide (root : Bool)
  /-- MAP_REPLAY (R198): The map is replayed, open stripes resynchronised and ephemeral epochs incremented before service. -/
  | mapReplay (x : MapIn)
  /-- TRICKLE_SERVICE_BEGIN (R431): After replay, Trickle service begins and PORT_READY rises on enabled ports. -/
  | trickleServiceBegin
  /-- BRINGUP_EXIT (R432): When replay, warmth and channel conditions hold the Core leaves BRINGUP for RUN or DEGRADED. -/
  | bringupExit
  /-- FULL_WAIT_EXPIRE (R432): FULL_WAIT ms after step 12 channels below FULL no longer hold BRINGUP and count toward DEGRADED. -/
  | fullWaitExpire
  /-- ML_RESET (R438): A write to GLOBAL.ML_RESET.GO retrains or resets every enabled channel at once. -/
  | mlReset (a : BitVec 3)
  /-- DEGRADED_ENTER (R442): A DEGRADED condition arising in RUN moves the Core to DEGRADED and runs the shortfall walk. -/
  | degradedEnter
  /-- RUN_RESTORE (R442): When no DEGRADED condition holds the Core returns to RUN. -/
  | runRestore
  /-- SUPPLY_WARNING (R456): PWRWARN_N low or VDD_CORE at the warning level enters FLUSH or holds bring-up. -/
  | supplyWarning (low : Bool) (mv : BitVec 10)
  /-- SUPPLY_STOP (R459): PWRFAIL_N low or VDD_CORE at the stop level stops new programs and starting seal writes. -/
  | supplyStop (low : Bool) (mv : BitVec 10)
  /-- SUPPLY_CLEAR (R456): A supply level held clear for WARN_CLEAR clears the warning or stop, leaving FLUSH when not host-requested. -/
  | supplyClear (warnLow failLow : Bool) (mv : BitVec 10)
  /-- FLUSH_COMPLETE_SEAL (R458): When the flush is complete the Core writes a SEALED record to every hub in service. -/
  | flushCompleteSeal
  /-- OPEN_RECORD_WRITE (R458): The first program after a seal waits until an OPEN record is durable, then SEALED clears. -/
  | openRecordWrite
  /-- SLEEP_EMBER (R448): The SLEEP_EMBER command starts entry to EMBER. -/
  | sleepEmber (a : BitVec 3)
  /-- SLEEP_SMOULDER (R448): The SLEEP_SMOULDER command starts entry to SMOULDER. -/
  | sleepSmoulder (a : BitVec 3)
  /-- WAKE (R449): The WAKE command latches wake source HOST, or completes ALREADY_DONE outside sleep. -/
  | wake (a : BitVec 3)
  /-- FLUSH_SEAL (R460): The FLUSH_SEAL command enters host FLUSH and seals. -/
  | flushSeal (a : BitVec 3)
  /-- RESUME (R460): The RESUME command leaves a host FLUSH for PRIOR once the warning has cleared. -/
  | resume (a : BitVec 3)
  /-- SLEEP_CHOICE (R454): After IDLE_TIME of idleness the power controller chooses SMOULDER, EMBER or gating against the next event. -/
  | sleepChoice
  /-- WAKE_SOURCE (R449): A wake source latched while RESIDENT starts the exit sequence. -/
  | wakeSource (bad : BitVec 42)
  /-- PRE_EVENT_WAKE (R454): The armed pre-event wake falls due and raises wake source ALMANAC. -/
  | preEventWake
  /-- SMOULDER_VISIT (R453): Each SMOULDER_INT the WATCH sequencer powers one channel, reads its canaries and compares drift. -/
  | smoulderVisit (shifts : Word) (hubTemp quadTemp : BitVec 8)
  /-- PD_CTL_WRITE (R445): A write to POWER.PD_CTL switches off an allowed unused domain or is rejected. -/
  | pdCtlWrite (a : BitVec 3) (v : BitVec 17)
  /-- DOMAIN_HELD_TRANSFER (R446): A transfer to an off domain is held, switches the domain on within 0.3 ms, then completes. -/
  | domainHeldTransfer (d : BitVec 5)
  /-- SLEEP_CFG_WRITE (R455): A CFG write to a sleeping page is held and raises wake source CFG. -/
  | sleepCfgWrite (a : BitVec 3) (addr : BitVec 24) (v : Word)
  /-- REF_LOSS (R471): The Watchman detects loss of REFCLK, forces safe states and enters SAFEHOLD. -/
  | refLoss
  /-- REF_STABLE (R474): After 100,000 periods in range REF_BACK is set and the PLL relocks. -/
  | refStable
  /-- PLL_LOCK (R463): The root PLL locks, domains switch from bypass and SAFEHOLD catch-up is applied. -/
  | pllLock (us : BitVec 8) (safe : BitVec 32)
  /-- REF_CALIBRATE (R471): Every 1 ms the Watchman recalibrates its delay line against REFCLK. -/
  | refCalibrate (ps : BitVec 16)
  /-- CLOCK_GATE_CLOSE (R467): A domain idle for GATE_IDLE fabric cycles is gated. -/
  | clockGateClose (d : BitVec 6)
  /-- CLOCK_GATE_WAKE (R468): A transfer to a gated domain resumes its clock within 4 cycles and completes. -/
  | clockGateWake (d : BitVec 6)
  /-- SWITCH_FORCED (R470): An old clock with no edge within 64 new-clock cycles forces the switch. -/
  | switchForced (d : BitVec 6)
  deriving DecidableEq, Repr

end Sys2Proof
end

