-- ==== Sys2Proof/WellFormed.lean ====
section
/-! DEFINITION. Well-formed commands: every lane that a command names is a lane that an HBM stack has (R302). No other operand can name
what the part does not have: its bits admit exactly the values that the spec's field admits, or a value outside the spec's range changes
nothing. -/
namespace Sys2Proof

/-- A lane's key: 4096 × kind (0 data, 1 command and address) + 64 × pseudo-channel or channel + lane. -/
def laneKind (k : Nat) : Nat := k / 4096 % 2
def laneIdx (k : Nat) : Nat := k / 64 % 64
def laneNo (k : Nat) : Nat := k % 64

/-- The stack has the lane: 36 data lanes in each of 32 pseudo-channels, 19 command and address lanes in each of 16 channels (R302). -/
def laneOk (k : Nat) : Bool := if laneKind k = 0 then laneIdx k < 32 && laneNo k < 36 else laneIdx k < 16 && laneNo k < 19

/-- The lanes of a list are lanes that a stack has. -/
def lanesOk (ls : List LaneIn) : Bool := ls.all fun x => laneOk x.key.toNat

/-- The lanes with error counts are lanes that a stack has. -/
def errLanesOk (ls : List (BitVec 13 × BitVec 32)) : Bool := ls.all fun x => laneOk x.1.toNat

/-- A command's operands are well formed. -/
def Instr.wf : Instr → Bool
  | .cfgWrite _ _ _ _ => true
  | .rcRead _ _ _ => true
  | .eventClearWrite _ _ _ => true
  | .eventSet _ _ _ => true
  | .timebaseTick _ => true
  | .tbLoad _ _ => true
  | .tbAliveToggle => true
  | .timebaseLost => true
  | .almEntryFire => true
  | .entWrite _ => true
  | .entClear _ => true
  | .entRead _ => true
  | .logPop _ => true
  | .loomReserveWrite _ _ => true
  | .guaranteedPortionEnd => true
  | .periodEnd => true
  | .reqAccept _ _ _ _ _ _ _ _ => true
  | .read _ _ _ => true
  | .write _ _ _ => true
  | .writeMasked _ _ _ => true
  | .fence _ _ => true
  | .persist _ _ => true
  | .persistNs _ _ => true
  | .append _ _ => true
  | .clearPoison _ _ _ => true
  | .prefetch _ _ _ => true
  | .zero _ _ _ => true
  | .wdatBeat _ _ _ _ => true
  | .intakePresent _ => true
  | .portMeterHoldRelease _ => true
  | .classMeterHoldRelease _ => true
  | .shaperRelease _ => true
  | .rspBeat _ _ => true
  | .plyPush _ => true
  | .plyCredit _ => true
  | .urgChange _ _ => true
  | .urgFallExpire _ => true
  | .pclkSelWrite _ _ _ => true
  | .portEnableWrite _ _ _ => true
  | .gfenceGo _ => true
  | .gfenceDone => true
  | .persistComplete _ _ => true
  | .nsBroadcast => true
  | .heldTimeout _ _ => true
  | .rangeHoldDrainDone => true
  | .streamStart _ _ => true
  | .streamStop _ _ => true
  | .streamArm _ _ => true
  | .streamDisarm _ _ => true
  | .streamRelease _ _ => true
  | .trigEdge _ => true
  | .spillSlotMove _ => true
  | .spillDrain _ => true
  | .spillExit _ => true
  | .padTimeout _ => true
  | .runaheadMap _ => true
  | .tailAdvance _ => true
  | .commitRecordWrite _ => true
  | .streamCommitted _ => true
  | .seqLoad _ _ => true
  | .listLoadDone _ => true
  | .seqStart _ _ => true
  | .seqStop _ _ => true
  | .seqUnload _ _ => true
  | .predClear _ _ => true
  | .loomWalk _ => true
  | .loomDueIssue _ => true
  | .branchResolve _ _ => true
  | .listDone _ => true
  | .listRestore _ => true
  | .stripeUpdate => true
  | .woodshedFormat _ => true
  | .deltaLineTimeout => true
  | .ckptGo _ => true
  | .ckptIntervalExpire => true
  | .ckptDone => true
  | .reclaimVisit => true
  | .rotShiftStart => true
  | .rotMove => true
  | .migrateCopy => true
  | .migrateSwitch => true
  | .driftClockTick => true
  | .rewriteLine => true
  | .canaryProgram _ _ => true
  | .canarySample => true
  | .ageEstimate _ => true
  | .rdataReceive _ => true
  | .hearthLineReturn _ _ _ _ => true
  | .flipArm _ _ => true
  | .glnGo _ => true
  | .glnAbort _ => true
  | .gleanerVisit => true
  | .gleanerPassEnd => true
  | .hearthCommandIssue _ _ => true
  | .hearthQavgUpdate _ => true
  | .refreshDue _ _ => true
  | .hearthTempRead _ _ => true
  | .powerDownEntry _ _ => true
  | .hearthFill _ _ => true
  | .hearthFillDone _ => true
  | .writebackStart => true
  | .writebackDone _ => true
  | .sweepLine => true
  | .layoutApply _ => true
  | .timingApply _ _ => true
  | .stackFail _ _ => true
  | .fullTraining _ _ _ _ _ _ _ _ ls => lanesOk ls
  | .resumeTraining _ _ ls => lanesOk ls
  | .retrainRoundDue _ => true
  | .retrainUnit _ ls => lanesOk ls
  | .repairUnit _ ls => lanesOk ls
  | .retrainOverdue _ => true
  | .loopbackTest _ _ _ _ errs => errLanesOk errs
  | .t1500Go _ _ _ => true
  | .codewordReceive _ _ _ _ _ _ _ _ _ => true
  | .flitReceive _ => true
  | .nakRepeat _ => true
  | .replayTimeout _ => true
  | .padFlitTimeout _ _ => true
  | .hubRsp _ => true
  | .status _ => true
  | .hubHoldTimeout _ => true
  | .sidebandFrame _ _ => true
  | .heartbeatToggle _ => true
  | .timeMarkSend _ => true
  | .linkDetect _ => true
  | .linkOff _ => true
  | .linkTraining _ _ _ _ _ _ _ _ _ _ => true
  | .laneFault _ _ _ => true
  | .laneErrInterval _ => true
  | .commandTimeout _ => true
  | .quiesceDone _ => true
  | .quiesceTimeout _ => true
  | .hubReadyTimeout _ => true
  | .zmlRetrain _ _ => true
  | .zmlWiden _ _ => true
  | .resetHub _ _ => true
  | .trimTempSample _ _ => true
  | .trimApplyCmd _ _ => true
  | .trimApplication _ => true
  | .eyeScan _ _ _ _ => true
  | .feedbackUpdate => true
  | .debtClear _ _ => true
  | .commit _ => true
  | .shortfallWalk => true
  | .trainOutage100us _ => true
  | .shortBytesAccrue => true
  | .sampleTick => true
  | .sampSelWrite _ _ _ => true
  | .rotaHDecision _ => true
  | .rotaMTxDecision _ _ => true
  | .rotaMRxDecision _ _ => true
  | .withdraw _ _ => true
  | .restartHoldEnd _ => true
  | .latchRead _ _ => true
  | .latchRel _ _ => true
  | .latchLeaseExpire _ => true
  | .postNotice _ _ _ => true
  | .serviceCycle _ => true
  | .postInTimeout _ => true
  | .withdrawPost _ _ => true
  | .postOutAck _ _ _ => true
  | .postOutTimeout _ => true
  | .pwDataRead _ => true
  | .pwDataWrite _ _ => true
  | .cancel _ _ => true
  | .nsCreate => true
  | .nsDelete => true
  | .nsQuery => true
  | .nsResize => true
  | .sessionPurge => true
  | .checkpoint => true
  | .rangeHold => true
  | .rangeRelease => true
  | .health => true
  | .errlogRead => true
  | .fwStage => true
  | .fwActivate _ => true
  | .trimCapture _ => true
  | .trimLoad => true
  | .hubInfo => true
  | .retireQuery => true
  | .scrubRequest => true
  | .bootGo _ => true
  | .collierBoot => true
  | .collierWatchdog => true
  | .agentRst _ _ => true
  | .porstAssert => true
  | .srstAssert => true
  | .porstRelease => true
  | .srstRelease => true
  | .startKindDecide _ => true
  | .mapReplay _ => true
  | .trickleServiceBegin => true
  | .bringupExit => true
  | .fullWaitExpire => true
  | .mlReset _ => true
  | .degradedEnter => true
  | .runRestore => true
  | .supplyWarning _ _ => true
  | .supplyStop _ _ => true
  | .supplyClear _ _ _ => true
  | .flushCompleteSeal => true
  | .openRecordWrite => true
  | .sleepEmber _ => true
  | .sleepSmoulder _ => true
  | .wake _ => true
  | .flushSeal _ => true
  | .resume _ => true
  | .sleepChoice => true
  | .wakeSource _ => true
  | .preEventWake => true
  | .smoulderVisit _ _ _ => true
  | .pdCtlWrite _ _ => true
  | .domainHeldTransfer _ => true
  | .sleepCfgWrite _ _ _ => true
  | .refLoss => true
  | .refStable => true
  | .pllLock _ _ => true
  | .refCalibrate _ => true
  | .clockGateClose _ => true
  | .clockGateWake _ => true
  | .switchForced _ => true

end Sys2Proof
end

