-- ==== Sys2Proof/Config.lean ====
section
/-! DEFINITION. The values that the spec leaves open. Each is a constant without a body: nothing can evaluate it, and whatever is
proved holds for every value. -/
namespace Sys2Proof.Config

/-- A value the spec leaves open, fresh for each argument (the state's own counter). -/
opaque freeWord : Nat → BitVec 64

/-- The layout of the Core's own records in the medium, checkpoint roots and commit records (R140, R196), is not an interface. -/
opaque ownRecord : Nat → Line

/-- The hash that chooses the map cache bank of a line of map entries (R191) is not stated. -/
opaque mapBank : Nat → BitVec 4

/-- Word `k` mod 4 of lane `k` / 4 of the TRICKLE trim set built into the Core (R350); its contents are not stated. -/
opaque builtinTrim : Nat → BitVec 64

end Sys2Proof.Config
end

