-- ==== Sys2Proof/Machine/Crc.lean ====
section
/-! DEFINITION. The check codes of the Core: CRC-32C (R236), CRC-8 of polynomial 0x2F (R239) and CRC-64/ECMA-182 (R321), as
folds over bits. Registers are naturals below 2^w, so that a check code of a concrete message evaluates quickly. -/
namespace Sys2Proof.Machine

/-- One step of a reflected CRC with reflected polynomial `poly`: the input bit meets bit 0 and the register moves right. -/
def crcStepR (poly r b : Nat) : Nat :=
  if (r + b) % 2 = 1 then Nat.xor (r / 2) poly else r / 2

/-- Reflected CRC over the low `n` bits of `v`, bit 0 first. -/
def crcBitsR (poly : Nat) : Nat → Nat → Nat → Nat
  | 0, _, r => r
  | n + 1, v, r => crcBitsR poly n (v / 2) (crcStepR poly r (v % 2))

/-- One step of an unreflected CRC of width `w`: the input bit meets bit w-1 and the register moves left. -/
def crcStepM (w poly r b : Nat) : Nat :=
  if (r / 2 ^ (w - 1) + b) % 2 = 1 then Nat.xor (2 * r % 2 ^ w) poly else 2 * r % 2 ^ w

/-- One byte into an unreflected CRC, bit 7 first. -/
def crcByteM (w poly r b : Nat) : Nat :=
  [7, 6, 5, 4, 3, 2, 1, 0].foldl (fun r k => crcStepM w poly r (b / 2 ^ k % 2)) r

/-- Unreflected CRC over the low `n` bytes of `v`, byte 0 first. -/
def crcBytesM (w poly : Nat) : Nat → Nat → Nat → Nat
  | 0, _, r => r
  | n + 1, v, r => crcBytesM w poly n (v / 256) (crcByteM w poly r (v % 256))

/-- CRC-32C of the low `n` bytes of `v`, byte 0 first: 0x1EDC_6F41 reflected, all ones in and out (R236). -/
def crc32c (n v : Nat) : Nat := Nat.xor (crcBitsR 0x82F63B78 (8 * n) v 0xFFFFFFFF) 0xFFFFFFFF

/-- CRC-8 of polynomial 0x2F of the low `n` bytes of `v`, all ones in and out, no reflection (R239). -/
def crc8 (n v : Nat) : Nat := Nat.xor (crcBytesM 8 0x2F n v 0xFF) 0xFF

/-- CRC-64/ECMA-182 of the low `n` bytes of `v`: no reflection, zero in and out (R321). -/
def crc64 (n v : Nat) : Nat := crcBytesM 64 0x42F0E1EBA9EA3693 n v 0

/-- Bytes, first at the low end, as one natural. -/
def ofBytes : List Nat → Nat
  | [] => 0
  | b :: bs => b % 256 + 256 * ofBytes bs

end Sys2Proof.Machine
end

