-- ==== Sys2Proof/Machine/Bits.lean ====
section
/-! DEFINITION. Bit fields, byte order, tick arithmetic and saturating counts (R5, R6, R37, R477). -/
namespace Sys2Proof.Machine

/-- Bits `[lo + w - 1 : lo]` of `v` (R6). -/
def bits (v lo w : Nat) : Nat := v / 2 ^ lo % 2 ^ w

/-- `v` with bits `[lo + w - 1 : lo]` replaced by the low `w` bits of `x`. -/
def setBits (v lo w x : Nat) : Nat := v - bits v lo w * 2 ^ lo + x % 2 ^ w * 2 ^ lo

/-- Bit `k` of `v`. -/
def bitAt (v k : Nat) : Bool := v.testBit k

/-- 1 for true, 0 for false: a one-bit field. -/
def b2n (b : Bool) : Nat := if b then 1 else 0

/-- A tick has been reached when the wrapped difference from it to now is below 2^63 (R37). -/
def reached (now t : Tick) : Bool := (now - t).toNat < 2 ^ 63

/-- Tick `a` is earlier than tick `b` (R37). -/
def tickBefore (a b : Tick) : Bool := (b - a).toNat < 2 ^ 63 && a != b

/-- `v` as an unsigned saturating value of `w` bits. -/
def satU (w v : Nat) : Nat := min v (2 ^ w - 1)

/-- A `w`-bit field read as a two's complement number. -/
def sx (w v : Nat) : Int := if v < 2 ^ (w - 1) then v else (v : Int) - 2 ^ w

/-- A number as a `w`-bit two's complement field. -/
def toField (w : Nat) (i : Int) : Nat := (i % (2 ^ w : Nat)).toNat

/-- A counter of [62:0] with OVF at [63], advanced by `k`, saturating and setting OVF (R477). -/
def countUp (c k : Nat) : Nat :=
  let n := c % 2 ^ 63 + k
  if n < 2 ^ 63 then c + k else 2 ^ 64 - 1

/-- Index of the lowest set bit among the first `n`, if any. -/
def lowestBit (v : Nat) (n : Nat) : Option Nat := (List.range n).find? fun k => v.testBit k

/-- Number of set bits among the first `n`. -/
def popCount (v : Nat) (n : Nat) : Nat := ((List.range n).filter fun k => v.testBit k).length

/-- Word `k` of a line (R6, R15). -/
def Line.word (l : Line) (k : Nat) : Word := l.extractLsb' (64 * k) 64

/-- Beat `k` of a line: words 8k to 8k+7 (R6). -/
def Line.beat (l : Line) (k : Nat) : Beat := l.extractLsb' (512 * k) 512

/-- A mask of ones over `len` bits from `lo`. -/
def maskAt (w lo len : Nat) : BitVec w := BitVec.ofNat w ((2 ^ len - 1) * 2 ^ lo)

/-- `l` with beat `k` replaced. -/
def Line.setBeat (l : Line) (k : Nat) (b : Beat) : Line :=
  (l &&& ~~~ maskAt 2048 (512 * k) 512) ||| (b.setWidth 2048 <<< (512 * k))

/-- `l` with word `k` replaced. -/
def Line.setWord (l : Line) (k : Nat) (v : Word) : Line :=
  (l &&& ~~~ maskAt 2048 (64 * k) 64) ||| (v.setWidth 2048 <<< (64 * k))

/-- A line made of four beats, beat 0 first. -/
def Line.ofBeats (bs : List Beat) : Line :=
  (bs.take 4).foldr (fun b (a : Line) => (a <<< 512) ||| b.setWidth 2048) 0

/-- A line made of words, word 0 first (R6: little-endian). -/
def Line.ofWords (ws : List Word) : Line :=
  (ws.take 32).foldr (fun b (a : Line) => (a <<< 64) ||| b.setWidth 2048) 0

/-- Byte `b` of a line. -/
def Line.byte (l : Line) (b : Nat) : BitVec 8 := l.extractLsb' (8 * b) 8

/-- The 512-bit mask of the bytes that `be` enables, built a byte at a time from byte `n` down. -/
def beMask (be : ByteEn) : Nat → Beat
  | 0 => 0
  | n + 1 => beMask be n ||| (if be.getLsbD n then maskAt 512 (8 * n) 8 else 0)

/-- A beat with the enabled bytes taken from `new` (R6). -/
def mergeBeat (old new : Beat) (be : ByteEn) : Beat :=
  let k := beMask be 64
  (old &&& ~~~ k) ||| (new &&& k)

end Sys2Proof.Machine
end

