-- ==== Sys2Proof/Machine/Tab.lean ====
section
/-! DEFINITION. A table: a list of (key, value) pairs in one canonical form: keys strictly rising, and no entry equal to what
an unlisted key reads as (`default`). Every memory, register file and per-instance collection of the model is a table, so
that equal contents are equal data. -/
namespace Sys2Proof.Machine

/-- Sparse data by key. -/
abbrev Tab (α : Type) := List (Nat × α)

/-- The value at `k`; an unlisted key reads as `default`. -/
def Tab.get {α : Type} [Inhabited α] : Tab α → Nat → α
  | [], _ => default
  | (j, v) :: t, k => if k = j then v else Tab.get t k

/-- Insert `v` at `k`, keeping the keys in rising order, whatever `v` is. -/
def Tab.insert {α : Type} (k : Nat) (v : α) : Tab α → Tab α
  | [] => [(k, v)]
  | (j, w) :: t =>
    if k < j then (k, v) :: (j, w) :: t
    else if k = j then (k, v) :: t
    else (j, w) :: Tab.insert k v t

/-- Remove every entry of `k` (a table in canonical form has at most one). -/
def Tab.erase {α : Type} (k : Nat) : Tab α → Tab α
  | [] => []
  | (j, w) :: t => if k = j then Tab.erase k t else (j, w) :: Tab.erase k t

/-- Write `v` at `k` and keep the canonical form: writing `default` removes the entry. -/
def Tab.set {α : Type} [Inhabited α] [DecidableEq α] (t : Tab α) (k : Nat) (v : α) : Tab α :=
  if v = default then Tab.erase k t else Tab.insert k v t

/-- Change the value at `k`. -/
def Tab.upd {α : Type} [Inhabited α] [DecidableEq α] (t : Tab α) (k : Nat) (f : α → α) : Tab α :=
  t.set k (f (t.get k))

/-- Every key of the table is at least `n`. -/
def Tab.above {α : Type} (n : Nat) : Tab α → Bool
  | [] => true
  | (j, _) :: t => decide (n ≤ j) && Tab.above n t

/-- The canonical form: keys strictly rising and no entry equal to `default`. -/
def Tab.wf {α : Type} [Inhabited α] [DecidableEq α] : Tab α → Bool
  | [] => true
  | (j, v) :: t => decide (v ≠ default) && Tab.above (j + 1) t && Tab.wf t

/-- The keys listed. -/
def Tab.keys {α : Type} (t : Tab α) : List Nat := t.map (·.1)

/-- Sum of a measure over the listed entries. -/
def Tab.sum {α : Type} (f : Nat → α → Nat) (t : Tab α) : Nat := t.foldl (fun a e => a + f e.1 e.2) 0

/-- Number of listed entries that satisfy `p`. -/
def Tab.count {α : Type} (p : Nat → α → Bool) (t : Tab α) : Nat := (t.filter fun e => p e.1 e.2).length

/-- Apply `f` to every listed entry, keeping the canonical form. -/
def Tab.mapv {α : Type} [Inhabited α] [DecidableEq α] (f : Nat → α → α) (t : Tab α) : Tab α :=
  (t.map fun e => (e.1, f e.1 e.2)).filter fun e => decide (e.2 ≠ default)

end Sys2Proof.Machine
end

