-- ==== Sys2Proof/Machine/Page.lean ====
section
/-! DEFINITION. Register pages and register fields as the spec describes them: page kinds and their places in the 16 MiB CFG
window (R477 to R484), access codes (R11) and the shape of a field. The state holds one number per field (`Tab Nat`), kept as its
difference from the field's reset value, so that the reset state lists nothing. -/
namespace Sys2Proof.Machine

/-- The kinds of register page (R479). -/
inductive Page
  | global | clock | power | alm | post | collier | reeve | err | gln | map | kiln | loom
  | port | ht | hphy | rotaH | zml | rotaM | stream | seq
  deriving DecidableEq, Repr, Inhabited

/-- The block type code of PAGE_ID (R479). -/
def Page.code : Page → Nat
  | .global => 0x01 | .clock => 0x02 | .power => 0x03 | .alm => 0x04 | .post => 0x05 | .collier => 0x06 | .reeve => 0x07
  | .err => 0x08 | .gln => 0x09 | .map => 0x0A | .kiln => 0x0B | .loom => 0x0C | .port => 0x10 | .ht => 0x11 | .hphy => 0x12
  | .rotaH => 0x13 | .zml => 0x14 | .rotaM => 0x15 | .stream => 0x16 | .seq => 0x17

/-- How many pages of a kind the window holds (R483). -/
def Page.count : Page → Nat
  | .port => 16 | .ht => 2 | .hphy => 2 | .rotaH => 2 | .zml => 32 | .rotaM => 32 | .stream => 32 | .seq => 16
  | _ => 1

/-- The number of the 4 KiB page of instance `n` in the CFG window (R483). -/
def Page.number (p : Page) (n : Nat) : Nat :=
  match p with
  | .global => 0 | .clock => 1 | .power => 2 | .alm => 3 | .post => 4 | .collier => 5 | .reeve => 6 | .err => 7
  | .gln => 8 | .map => 9 | .kiln => 10 | .loom => 11
  | .port => 16 + n | .ht => 32 + n | .hphy => 34 + n | .rotaH => 36 + n
  | .zml => 48 + 2 * n | .rotaM => 49 + 2 * n | .stream => 112 + n | .seq => 144 + n

/-- The page and instance that a page number of the CFG window names, if one does (R483). -/
def Page.ofNumber (k : Nat) : Option (Page × Nat) :=
  match k with
  | 0 => some (.global, 0) | 1 => some (.clock, 0) | 2 => some (.power, 0) | 3 => some (.alm, 0) | 4 => some (.post, 0)
  | 5 => some (.collier, 0) | 6 => some (.reeve, 0) | 7 => some (.err, 0) | 8 => some (.gln, 0) | 9 => some (.map, 0)
  | 10 => some (.kiln, 0) | 11 => some (.loom, 0)
  | k =>
    if 16 ≤ k ∧ k < 32 then some (.port, k - 16)
    else if k = 32 ∨ k = 33 then some (.ht, k - 32)
    else if k = 34 ∨ k = 35 then some (.hphy, k - 34)
    else if k = 36 ∨ k = 37 then some (.rotaH, k - 36)
    else if 48 ≤ k ∧ k < 112 then (if k % 2 = 0 then some (.zml, (k - 48) / 2) else some (.rotaM, (k - 49) / 2))
    else if 112 ≤ k ∧ k < 144 then some (.stream, k - 112)
    else if 144 ≤ k ∧ k < 160 then some (.seq, k - 144)
    else none

/-- The index of a page's summary bit in EVT_SUM_0 to EVT_SUM_2 (R489). -/
def Page.sumIndex (p : Page) (n : Nat) : Nat :=
  match p with
  | .global => 0 | .clock => 1 | .power => 2 | .alm => 3 | .post => 4 | .collier => 5 | .reeve => 6 | .err => 7
  | .gln => 8 | .map => 9 | .kiln => 10 | .loom => 11
  | .port => 16 + n | .ht => 32 + n | .hphy => 34 + n | .rotaH => 36 + n | .zml => 64 + n | .rotaM => 96 + n
  | .stream => 128 + n | .seq => 160 + n

/-- Every page kind, in page-map order. -/
def Page.all : List Page :=
  [.global, .clock, .power, .alm, .post, .collier, .reeve, .err, .gln, .map, .kiln, .loom, .port, .ht, .hphy, .rotaH, .zml,
   .rotaM, .stream, .seq]

/-- Access codes (R11). -/
inductive Acc | rw | ro | w1c | w1s | wo | rc | rl | wop
  deriving DecidableEq, Repr, Inhabited

/-- Which written values a field takes. -/
inductive Chk
  /-- every value of the field's width -/
  | any
  /-- `lo` to `hi`; another value is kept out and sets the page's PARAM_REJECT -/
  | range (lo hi : Nat)
  /-- `lo` to `hi`; the chapter states no response to another value, which falls to the default of R10 -/
  | resv (lo hi : Nat)
  /-- a bit of `mask` has no meaning: a value that has one falls to the default of R10 -/
  | bits (mask : Nat)
  /-- judged with the whole register, where the page's meaning says how -/
  | whole
  deriving DecidableEq, Repr, Inhabited

/-- Where a field's reset value comes from. -/
inductive Rst
  | val (v : Nat)
  /-- the page's instance number (SEQ_n.PORT, R172) -/
  | inst
  /-- an integration parameter of R506 -/
  | trimSrc | bootSrc | parish
  deriving DecidableEq, Repr, Inhabited

/-- A register field. -/
structure Field where
  page : Page
  /-- offset of the register in its page -/
  off : Nat
  /-- lowest bit -/
  lo : Nat
  /-- width in bits -/
  w : Nat
  acc : Acc
  rst : Rst
  chk : Chk
  /-- on instance 0 only (R300, R361, R484) -/
  only0 : Bool
  deriving DecidableEq, Repr, Inhabited

/-- A counter register: [63] OVF, [62:0] count, RC (R477). -/
def Field.counter (p : Page) (off : Nat) : Field := ⟨p, off, 0, 64, .rc, .val 0, .any, false⟩

/-- The key of a field of instance `n` in the register table. -/
def Field.key (f : Field) (n : Nat) : Nat := (f.page.number n * 512 + f.off / 8) * 64 + f.lo

/-- EVENT of a page (R478). -/
def evField (p : Page) : Field := ⟨p, 0x20, 0, 64, .w1c, .val 0, .any, false⟩
/-- EVENT_EN of a page; CLOCK's resets to 0x2 (R478, R476). -/
def evEnField (p : Page) : Field := ⟨p, 0x28, 0, 64, .rw, .val (if p = .clock then 2 else 0), .any, false⟩
/-- EVENT_FIRST.BIT, EST and VALID, and EVENT_TIME (R478, R481). -/
def evFirstBit (p : Page) : Field := ⟨p, 0x38, 0, 6, .ro, .val 0, .any, false⟩
def evFirstEst (p : Page) : Field := ⟨p, 0x38, 62, 1, .ro, .val 0, .any, false⟩
def evFirstValid (p : Page) : Field := ⟨p, 0x38, 63, 1, .ro, .val 0, .any, false⟩
def evTime (p : Page) : Field := ⟨p, 0x40, 0, 64, .ro, .val 0, .any, false⟩

end Sys2Proof.Machine
end

