-- ==== Sys2Proof/Machine/Fields.lean ====
section
/-! DEFINITION. The register fields of every page, one definition each, with offset, place, access code, reset value and the
values a write may give them (the register and field tables of the spec: R60, R61, R89, R90, R146 to R148, R171 to R173, R205,
R206, R234, R235, R266 to R269, R299 to R301, R315, R316, R347, R348, R360 to R362, R385, R386, R424 to R427, R439, R462, R476,
R478, R485 to R488). A field's name is its register's with the field's own after it, shortened where the register's name says it. -/
namespace Sys2Proof.Machine


/-! Page GLOBAL. -/

def GLOBAL.STAT_BOOT_STEP : Field := ⟨.global, 0x18, 0, 4, .ro, (.val 0), .any, false⟩
def GLOBAL.STAT_RELEASED : Field := ⟨.global, 0x18, 4, 1, .ro, (.val 0), .any, false⟩
def GLOBAL.STAT_SERVICE : Field := ⟨.global, 0x18, 5, 1, .ro, (.val 0), .any, false⟩
def GLOBAL.STAT_START_KIND : Field := ⟨.global, 0x18, 6, 2, .ro, (.val 0), .any, false⟩
def GLOBAL.STAT_BRINGUP_FAIL : Field := ⟨.global, 0x18, 8, 1, .ro, (.val 0), .any, false⟩
def GLOBAL.CORE_VERSION : Field := ⟨.global, 0x100, 0, 64, .ro, (.val 196610), .any, false⟩
def GLOBAL.GFENCE_GO : Field := ⟨.global, 0x108, 0, 1, .wo, (.val 0), .any, false⟩
def GLOBAL.GFENCE_DONE : Field := ⟨.global, 0x108, 1, 1, .ro, (.val 0), .any, false⟩
def GLOBAL.GFENCE_MISSED : Field := ⟨.global, 0x108, 2, 1, .w1c, (.val 0), .any, false⟩
def GLOBAL.GFENCE_BUSY : Field := ⟨.global, 0x108, 3, 1, .ro, (.val 0), .any, false⟩
def GLOBAL.BRINGUP_HOLD : Field := ⟨.global, 0x110, 0, 1, .rw, (.val 0), .any, false⟩
def GLOBAL.FULL_WAIT : Field := ⟨.global, 0x110, 16, 16, .rw, (.val 200), .any, false⟩
def GLOBAL.RESET_KIND : Field := ⟨.global, 0x118, 0, 2, .ro, (.val 1), .any, false⟩
def GLOBAL.ML_GO : Field := ⟨.global, 0x120, 0, 1, .wo, (.val 0), .any, false⟩
def GLOBAL.ML_BUSY : Field := ⟨.global, 0x120, 1, 1, .ro, (.val 0), .any, false⟩
def GLOBAL.ML_MISSED : Field := ⟨.global, 0x120, 2, 1, .w1c, (.val 0), .any, false⟩
def GLOBAL.EVT_SUM_0 : Field := ⟨.global, 0x128, 0, 64, .ro, (.val 0), .any, false⟩
def GLOBAL.EVT_SUM_1 : Field := ⟨.global, 0x130, 0, 64, .ro, (.val 0), .any, false⟩
def GLOBAL.EVT_SUM_2 : Field := ⟨.global, 0x138, 0, 64, .ro, (.val 0), .any, false⟩
def GLOBAL.MASTER_EN : Field := ⟨.global, 0x140, 0, 1, .rw, (.val 1), .any, false⟩
def GLOBAL.RESV_OFFSET : Field := ⟨.global, 0x148, 3, 21, .ro, (.val 0), .any, false⟩
def GLOBAL.RESV_AGENT : Field := ⟨.global, 0x148, 24, 8, .ro, (.val 0), .any, false⟩
def GLOBAL.SCRATCH : Field := ⟨.global, 0x150, 0, 64, .rw, (.val 0), .any, false⟩
def GLOBAL.EV_BRINGUP_DONE : Nat := 8
def GLOBAL.EV_FULL_WAIT : Nat := 9
def GLOBAL.EV_CFG_RESERVED : Nat := 0
def GLOBAL.EV_GFENCE_DONE : Nat := 1
/-- The fields of page GLOBAL below. -/
def GLOBAL.fields : List Field :=
  [GLOBAL.STAT_BOOT_STEP, GLOBAL.STAT_RELEASED, GLOBAL.STAT_SERVICE, GLOBAL.STAT_START_KIND, GLOBAL.STAT_BRINGUP_FAIL, GLOBAL.CORE_VERSION, GLOBAL.GFENCE_GO, GLOBAL.GFENCE_DONE, GLOBAL.GFENCE_MISSED, GLOBAL.GFENCE_BUSY, GLOBAL.BRINGUP_HOLD, GLOBAL.FULL_WAIT, GLOBAL.RESET_KIND, GLOBAL.ML_GO, GLOBAL.ML_BUSY, GLOBAL.ML_MISSED, GLOBAL.EVT_SUM_0, GLOBAL.EVT_SUM_1, GLOBAL.EVT_SUM_2, GLOBAL.MASTER_EN, GLOBAL.RESV_OFFSET, GLOBAL.RESV_AGENT, GLOBAL.SCRATCH]

/-! Page CLOCK. -/

def CLOCK.STAT_PLL_LOCK : Field := ⟨.clock, 0x18, 0, 1, .ro, (.val 0), .any, false⟩
def CLOCK.STAT_BYPASS : Field := ⟨.clock, 0x18, 1, 1, .ro, (.val 1), .any, false⟩
def CLOCK.STAT_REF_OK : Field := ⟨.clock, 0x18, 2, 1, .ro, (.val 0), .any, false⟩
def CLOCK.SSC_DEPTH : Field := ⟨.clock, 0x100, 0, 4, .rw, (.val 0), (.range 0 10), false⟩
def CLOCK.SSC_RATE : Field := ⟨.clock, 0x100, 8, 6, .rw, (.val 33), (.range 25 50), false⟩
def CLOCK.GATE_EN : Field := ⟨.clock, 0x108, 0, 40, .rw, (.val 687194767356), .any, false⟩
def CLOCK.GATED : Field := ⟨.clock, 0x110, 0, 40, .ro, (.val 0), .any, false⟩
def CLOCK.GATE_IDLE : Field := ⟨.clock, 0x118, 0, 8, .rw, (.val 40), (.range 8 255), false⟩
def CLOCK.SWITCH_DOMAIN : Field := ⟨.clock, 0x120, 0, 6, .ro, (.val 0), .any, false⟩
def CLOCK.SAFE_TIME : Field := ⟨.clock, 0x128, 0, 32, .ro, (.val 0), .any, false⟩
def CLOCK.LOCK_TIME : Field := ⟨.clock, 0x130, 0, 8, .ro, (.val 0), .any, false⟩
def CLOCK.REF_PERIOD : Field := ⟨.clock, 0x138, 0, 16, .ro, (.val 0), .any, false⟩
def CLOCK.CNT_REF_LOSS : Field := .counter .clock 0x800
def CLOCK.CNT_FORCED_SWITCH : Field := .counter .clock 0x808
def CLOCK.CNT_GATE_WAKE : Field := .counter .clock 0x810
def CLOCK.EV_SWITCH_FORCED : Nat := 0
def CLOCK.EV_REF_LOST : Nat := 1
def CLOCK.EV_REF_BACK : Nat := 2
def CLOCK.EV_PLL_LOCKED : Nat := 3
def CLOCK.EV_PARAM_REJECT : Nat := 4
/-- The fields of page CLOCK below. -/
def CLOCK.fields : List Field :=
  [CLOCK.STAT_PLL_LOCK, CLOCK.STAT_BYPASS, CLOCK.STAT_REF_OK, CLOCK.SSC_DEPTH, CLOCK.SSC_RATE, CLOCK.GATE_EN, CLOCK.GATED, CLOCK.GATE_IDLE, CLOCK.SWITCH_DOMAIN, CLOCK.SAFE_TIME, CLOCK.LOCK_TIME, CLOCK.REF_PERIOD, CLOCK.CNT_REF_LOSS, CLOCK.CNT_FORCED_SWITCH, CLOCK.CNT_GATE_WAKE]

/-! Page POWER. -/

def POWER.STAT_MODE : Field := ⟨.power, 0x18, 0, 3, .ro, (.val 0), .any, false⟩
def POWER.STAT_PRIOR : Field := ⟨.power, 0x18, 3, 3, .ro, (.val 0), .any, false⟩
def POWER.STAT_PHASE : Field := ⟨.power, 0x18, 6, 2, .ro, (.val 0), .any, false⟩
def POWER.STAT_SEALED : Field := ⟨.power, 0x18, 8, 1, .ro, (.val 0), .any, false⟩
def POWER.STAT_STOPPED : Field := ⟨.power, 0x18, 9, 1, .ro, (.val 0), .any, false⟩
def POWER.STAT_HOST_FLUSH : Field := ⟨.power, 0x18, 10, 1, .ro, (.val 0), .any, false⟩
def POWER.STAT_WARN : Field := ⟨.power, 0x18, 11, 1, .ro, (.val 0), .any, false⟩
def POWER.STAT_VISITING : Field := ⟨.power, 0x18, 12, 1, .ro, (.val 0), .any, false⟩
def POWER.CMD : Field := ⟨.power, 0x100, 0, 3, .wo, (.val 0), .any, false⟩
def POWER.CMD_RESULT : Field := ⟨.power, 0x108, 0, 2, .ro, (.val 0), .any, false⟩
def POWER.CMD_REASON : Field := ⟨.power, 0x108, 4, 4, .ro, (.val 0), .any, false⟩
def POWER.DEGRADE_WHY : Field := ⟨.power, 0x110, 0, 7, .ro, (.val 0), .any, false⟩
def POWER.RETAIN_MASK : Field := ⟨.power, 0x118, 0, 42, .rw, (.val 3367254294528), (.bits (7 * 2 ^ 37)), false⟩
def POWER.HOLDUP_BYTES : Field := ⟨.power, 0x120, 0, 37, .wop, (.val 134217728), (.range 16777216 68719476736), false⟩
def POWER.DIRTY_NOW : Field := ⟨.power, 0x128, 0, 37, .ro, (.val 0), .any, false⟩
def POWER.SLEEP_EN : Field := ⟨.power, 0x130, 0, 1, .rw, (.val 0), .any, false⟩
def POWER.SLEEP_MAX : Field := ⟨.power, 0x130, 1, 2, .rw, (.val 2), (.range 0 2), false⟩
def POWER.IDLE_TIME : Field := ⟨.power, 0x130, 4, 20, .rw, (.val 1000), (.range 1 1000000), false⟩
def POWER.WAKE_MARGIN : Field := ⟨.power, 0x130, 24, 20, .rw, (.val 5000), (.range 0 1000000), false⟩
def POWER.MIN_RES : Field := ⟨.power, 0x130, 44, 20, .rw, (.val 1000), (.range 0 1000000), false⟩
def POWER.EST_ENTRY : Field := ⟨.power, 0x138, 0, 20, .ro, (.val 0), .any, false⟩
def POWER.EST_EXIT : Field := ⟨.power, 0x138, 20, 20, .ro, (.val 0), .any, false⟩
def POWER.EST_CHOICE : Field := ⟨.power, 0x138, 40, 2, .ro, (.val 0), .any, false⟩
def POWER.SMOULDER_INT : Field := ⟨.power, 0x140, 0, 12, .rw, (.val 60), (.range 1 3600), false⟩
def POWER.WAKE_SOURCE : Field := ⟨.power, 0x148, 0, 4, .ro, (.val 0), .any, false⟩
def POWER.WAKE_PORT : Field := ⟨.power, 0x148, 4, 4, .ro, (.val 0), .any, false⟩
def POWER.WAKE_CHANNEL : Field := ⟨.power, 0x148, 8, 5, .ro, (.val 0), .any, false⟩
def POWER.WAKE_POINT : Field := ⟨.power, 0x148, 13, 2, .ro, (.val 0), .any, false⟩
def POWER.WAKE_ABORT_OUT : Field := ⟨.power, 0x148, 15, 2, .ro, (.val 0), .any, false⟩
def POWER.VISIT_CHANNEL : Field := ⟨.power, 0x150, 0, 5, .ro, (.val 0), .any, false⟩
def POWER.VISIT_CANARY : Field := ⟨.power, 0x150, 5, 3, .ro, (.val 0), .any, false⟩
def POWER.VISIT_EXCESS : Field := ⟨.power, 0x150, 8, 8, .ro, (.val 0), .any, false⟩
def POWER.VISIT_HUB_TEMP : Field := ⟨.power, 0x150, 16, 8, .ro, (.val 0), .any, false⟩
def POWER.VISIT_QUAD_TEMP : Field := ⟨.power, 0x150, 24, 8, .ro, (.val 0), .any, false⟩
def POWER.PD_OFF : Field := ⟨.power, 0x158, 0, 17, .rw, (.val 0), .any, false⟩
def POWER.PD_ON : Field := ⟨.power, 0x160, 0, 17, .ro, (.val 0), .any, false⟩
def POWER.WARN_CLEAR : Field := ⟨.power, 0x168, 0, 16, .rw, (.val 100), (.range 10 65535), false⟩
def POWER.VDD_NOW : Field := ⟨.power, 0x170, 0, 10, .ro, (.val 0), .any, false⟩
def POWER.CNT_FLUSH : Field := .counter .power 0x800
def POWER.CNT_SEAL : Field := .counter .power 0x808
def POWER.CNT_SLEEP : Field := .counter .power 0x810
def POWER.CNT_ABORT : Field := .counter .power 0x818
def POWER.CNT_VISIT : Field := .counter .power 0x820
def POWER.EV_RETAIN_FAIL : Nat := 0
def POWER.EV_FLUSH : Nat := 48
def POWER.EV_SEALED : Nat := 49
def POWER.EV_STOPPED : Nat := 50
def POWER.EV_RESUMED : Nat := 51
def POWER.EV_WOKE : Nat := 52
def POWER.EV_ENTRY_ABORTED : Nat := 53
def POWER.EV_DEGRADED : Nat := 54
def POWER.EV_RUN : Nat := 55
def POWER.EV_PWRWARN_ASLEEP : Nat := 56
def POWER.EV_PARAM_REJECT : Nat := 57
/-- The fields of page POWER below. -/
def POWER.fields : List Field :=
  [POWER.STAT_MODE, POWER.STAT_PRIOR, POWER.STAT_PHASE, POWER.STAT_SEALED, POWER.STAT_STOPPED, POWER.STAT_HOST_FLUSH, POWER.STAT_WARN, POWER.STAT_VISITING, POWER.CMD, POWER.CMD_RESULT, POWER.CMD_REASON, POWER.DEGRADE_WHY, POWER.RETAIN_MASK, POWER.HOLDUP_BYTES, POWER.DIRTY_NOW, POWER.SLEEP_EN, POWER.SLEEP_MAX, POWER.IDLE_TIME, POWER.WAKE_MARGIN, POWER.MIN_RES, POWER.EST_ENTRY, POWER.EST_EXIT, POWER.EST_CHOICE, POWER.SMOULDER_INT, POWER.WAKE_SOURCE, POWER.WAKE_PORT, POWER.WAKE_CHANNEL, POWER.WAKE_POINT, POWER.WAKE_ABORT_OUT, POWER.VISIT_CHANNEL, POWER.VISIT_CANARY, POWER.VISIT_EXCESS, POWER.VISIT_HUB_TEMP, POWER.VISIT_QUAD_TEMP, POWER.PD_OFF, POWER.PD_ON, POWER.WARN_CLEAR, POWER.VDD_NOW, POWER.CNT_FLUSH, POWER.CNT_SEAL] ++
  [POWER.CNT_SLEEP, POWER.CNT_ABORT, POWER.CNT_VISIT]

/-! Page ALM. -/

def ALM.STAT_TB_VALID : Field := ⟨.alm, 0x18, 0, 1, .ro, (.val 0), .any, false⟩
def ALM.STAT_ESTIMATED : Field := ⟨.alm, 0x18, 1, 1, .ro, (.val 0), .any, false⟩
def ALM.STAT_IN_GUAR : Field := ⟨.alm, 0x18, 2, 1, .ro, (.val 0), .any, false⟩
def ALM.STAT_SHRINKING : Field := ⟨.alm, 0x18, 3, 1, .ro, (.val 0), .any, false⟩
def ALM.STAT_LOOM_FULL : Field := ⟨.alm, 0x18, 4, 1, .ro, (.val 0), .any, false⟩
def ALM.TB_NOW : Field := ⟨.alm, 0x100, 0, 64, .ro, (.val 0), .any, false⟩
def ALM.NOMINAL_RATE : Field := ⟨.alm, 0x108, 0, 33, .rw, (.val 800000000), (.range 1 5600000000), false⟩
def ALM.TB_LOSS_TIME : Field := ⟨.alm, 0x110, 0, 10, .rw, (.val 20), (.resv 2 1000), false⟩
def ALM.JUMP : Field := ⟨.alm, 0x118, 0, 64, .ro, (.val 0), .any, false⟩
def ALM.PERIOD_TICKS : Field := ⟨.alm, 0x120, 0, 32, .rw, (.val 8192), .any, false⟩
def ALM.GUAR_TICKS : Field := ⟨.alm, 0x128, 0, 32, .rw, (.val 6144), .any, false⟩
def ALM.BG_BYTES : Field := ⟨.alm, 0x130, 0, 40, .rw, (.val 262144), .any, false⟩
def ALM.SHRINK_MAX : Field := ⟨.alm, 0x138, 0, 9, .rw, (.val 128), (.resv 0 256), false⟩
def ALM.LAG : Field := ⟨.alm, 0x140, 0, 32, .ro, (.val 0), .any, false⟩
def ALM.PERIOD_BASE : Field := ⟨.alm, 0x148, 0, 64, .ro, (.val 0), .any, false⟩
def ALM.WIN_MASK : Field := ⟨.alm, 0x150, 0, 5, .ro, (.val 0), .any, false⟩
def ALM.WIN_PENDING : Field := ⟨.alm, 0x158, 0, 5, .w1c, (.val 0), .any, false⟩
def ALM.NEXT_TICK : Field := ⟨.alm, 0x160, 0, 64, .ro, (.val 0), .any, false⟩
def ALM.NEXT_KIND : Field := ⟨.alm, 0x168, 0, 3, .ro, (.val 0), .any, false⟩
def ALM.LOOM_RESERVE : Field := ⟨.alm, 0x170, 0, 10, .rw, (.val 256), .any, false⟩
def ALM.ENT_SEL : Field := ⟨.alm, 0x178, 0, 10, .rw, (.val 0), .any, false⟩
def ALM.ENT_TICK : Field := ⟨.alm, 0x180, 0, 64, .rw, (.val 0), .any, false⟩
def ALM.ENT_ARG : Field := ⟨.alm, 0x188, 0, 64, .rw, (.val 0), .any, false⟩
def ALM.ENT_CTL : Field := ⟨.alm, 0x190, 0, 3, .rw, (.val 0), .any, false⟩
def ALM.ENT_CMD : Field := ⟨.alm, 0x198, 0, 2, .wo, (.val 0), .any, false⟩
def ALM.ENT_STAT : Field := ⟨.alm, 0x1A0, 0, 2, .ro, (.val 0), .any, false⟩
def ALM.ENT_STAT_VALID : Field := ⟨.alm, 0x1A0, 8, 1, .ro, (.val 0), .any, false⟩
def ALM.LOG_TICK : Field := ⟨.alm, 0x1A8, 0, 64, .ro, (.val 0), .any, false⟩
def ALM.LOG_INDEX : Field := ⟨.alm, 0x1B0, 0, 10, .ro, (.val 0), .any, false⟩
def ALM.LOG_KIND : Field := ⟨.alm, 0x1B0, 10, 3, .ro, (.val 0), .any, false⟩
def ALM.LOG_SKEWED : Field := ⟨.alm, 0x1B0, 13, 1, .ro, (.val 0), .any, false⟩
def ALM.LOG_PAST : Field := ⟨.alm, 0x1B0, 14, 1, .ro, (.val 0), .any, false⟩
def ALM.LOG_ESTIMATED : Field := ⟨.alm, 0x1B0, 15, 1, .ro, (.val 0), .any, false⟩
def ALM.LOG_WAKE_TAG : Field := ⟨.alm, 0x1B0, 16, 16, .ro, (.val 0), .any, false⟩
def ALM.LOG_DELAY : Field := ⟨.alm, 0x1B0, 32, 32, .ro, (.val 0), .any, false⟩
def ALM.LOG_POP : Field := ⟨.alm, 0x1B8, 0, 1, .wo, (.val 0), .any, false⟩
def ALM.CNT_CONFIRM : Field := .counter .alm 0x800
def ALM.CNT_DISC : Field := .counter .alm 0x808
def ALM.CNT_SKEW : Field := .counter .alm 0x810
def ALM.CNT_EST : Field := .counter .alm 0x818
def ALM.CNT_WIN_SHORT : Field := .counter .alm 0x820
def ALM.CNT_WIN_TICKS : Field := .counter .alm 0x828
def ALM.CNT_LAG_REPAID : Field := .counter .alm 0x830
def ALM.EV_TIMEBASE_LOST : Nat := 0
def ALM.EV_TIMEBASE_BACK : Nat := 1
def ALM.EV_DISCONTINUITY : Nat := 2
def ALM.EV_SKEWED : Nat := 3
def ALM.EV_ENT_PAST : Nat := 4
def ALM.EV_ENT_DENIED : Nat := 5
def ALM.EV_WINDOW_SHORT : Nat := 6
def ALM.EV_LAG_SAT : Nat := 7
def ALM.EV_PARAM_REJECT : Nat := 8
def ALM.EV_LOG_OVF : Nat := 9
/-- The fields of page ALM below. -/
def ALM.fields : List Field :=
  [ALM.STAT_TB_VALID, ALM.STAT_ESTIMATED, ALM.STAT_IN_GUAR, ALM.STAT_SHRINKING, ALM.STAT_LOOM_FULL, ALM.TB_NOW, ALM.NOMINAL_RATE, ALM.TB_LOSS_TIME, ALM.JUMP, ALM.PERIOD_TICKS, ALM.GUAR_TICKS, ALM.BG_BYTES, ALM.SHRINK_MAX, ALM.LAG, ALM.PERIOD_BASE, ALM.WIN_MASK, ALM.WIN_PENDING, ALM.NEXT_TICK, ALM.NEXT_KIND, ALM.LOOM_RESERVE, ALM.ENT_SEL, ALM.ENT_TICK, ALM.ENT_ARG, ALM.ENT_CTL, ALM.ENT_CMD, ALM.ENT_STAT, ALM.ENT_STAT_VALID, ALM.LOG_TICK, ALM.LOG_INDEX, ALM.LOG_KIND, ALM.LOG_SKEWED, ALM.LOG_PAST, ALM.LOG_ESTIMATED, ALM.LOG_WAKE_TAG, ALM.LOG_DELAY, ALM.LOG_POP, ALM.CNT_CONFIRM, ALM.CNT_DISC, ALM.CNT_SKEW, ALM.CNT_EST] ++
  [ALM.CNT_WIN_SHORT, ALM.CNT_WIN_TICKS, ALM.CNT_LAG_REPAID]

/-! Page POST. -/

def POST.STAT_PARISH_HELD : Field := ⟨.post, 0x18, 0, 1, .ro, (.val 0), .any, false⟩
def POST.LATCH_REL : Field := ⟨.post, 0x140, 0, 8, .wo, (.val 0), .any, false⟩
def POST.LATCH_BROKEN : Field := ⟨.post, 0x148, 0, 8, .w1c, (.val 0), .any, false⟩
def POST.LATCH_HELD : Field := ⟨.post, 0x148, 8, 8, .ro, (.val 0), .any, false⟩
def POST.LATCH_LEASE : Field := ⟨.post, 0x150, 0, 20, .rw, (.val 10000), (.range 10 1000000), false⟩
def POST.TIMEOUT : Field := ⟨.post, 0x158, 0, 20, .rw, (.val 1000), (.range 1 1000000), false⟩
def POST.FLAGS : Field := ⟨.post, 0x160, 0, 32, .ro, (.val 0), .any, false⟩
def POST.CANCEL : Field := ⟨.post, 0x178, 0, 32, .wo, (.val 0), .any, false⟩
def POST.PARISH_INFO : Field := ⟨.post, 0x188, 0, 20, .ro, .parish, .any, false⟩
def POST.CNT_POSTS_IN : Field := .counter .post 0x800
def POST.CNT_POSTS_OUT : Field := .counter .post 0x808
def POST.CNT_IN_TIMEOUT : Field := .counter .post 0x810
def POST.CNT_OUT_TIMEOUT : Field := .counter .post 0x818
def POST.CNT_OUT_DROPPED : Field := .counter .post 0x820
def POST.CNT_BROKEN : Field := .counter .post 0x828
def POST.CNT_LEASE_EXPIRED : Field := .counter .post 0x830
def POST.CNT_WITHDRAW : Field := .counter .post 0x838
def POST.CNT_CMD_DONE : Field := .counter .post 0x840
def POST.CNT_CMD_FAILED : Field := .counter .post 0x848
def POST.EV_IN_TIMEOUT : Nat := 0
def POST.EV_OUT_TIMEOUT : Nat := 1
def POST.EV_NOT_HOLDER : Nat := 2
def POST.EV_PW_RANGE : Nat := 3
def POST.EV_PARISH_LOST : Nat := 4
def POST.EV_PARAM_REJECT : Nat := 5
/-- The fields of page POST below. -/
def POST.fields : List Field :=
  [POST.STAT_PARISH_HELD, POST.LATCH_REL, POST.LATCH_BROKEN, POST.LATCH_HELD, POST.LATCH_LEASE, POST.TIMEOUT, POST.FLAGS, POST.CANCEL, POST.PARISH_INFO, POST.CNT_POSTS_IN, POST.CNT_POSTS_OUT, POST.CNT_IN_TIMEOUT, POST.CNT_OUT_TIMEOUT, POST.CNT_OUT_DROPPED, POST.CNT_BROKEN, POST.CNT_LEASE_EXPIRED, POST.CNT_WITHDRAW, POST.CNT_CMD_DONE, POST.CNT_CMD_FAILED]

/-! Page COLLIER. -/

def COLLIER.STAT_STATE : Field := ⟨.collier, 0x18, 0, 3, .ro, (.val 0), .any, false⟩
def COLLIER.BOOT_SRC : Field := ⟨.collier, 0x100, 0, 2, .rw, .bootSrc, (.resv 1 2), false⟩
def COLLIER.BOOT_PTR : Field := ⟨.collier, 0x108, 0, 64, .rw, (.val 0), .any, false⟩
def COLLIER.BOOT_LEN : Field := ⟨.collier, 0x110, 0, 21, .rw, (.val 0), .any, false⟩
def COLLIER.BOOT_GO : Field := ⟨.collier, 0x118, 0, 1, .wo, (.val 0), .any, false⟩
def COLLIER.FW_VERSION : Field := ⟨.collier, 0x120, 0, 32, .ro, (.val 0), .any, false⟩
def COLLIER.FW_SLOT : Field := ⟨.collier, 0x120, 32, 1, .ro, (.val 0), .any, false⟩
def COLLIER.FW_HOST : Field := ⟨.collier, 0x120, 33, 1, .ro, (.val 0), .any, false⟩
def COLLIER.FW_STAGED_VERSION : Field := ⟨.collier, 0x128, 0, 32, .ro, (.val 0), .any, false⟩
def COLLIER.FW_STAGED_VALID : Field := ⟨.collier, 0x128, 32, 1, .ro, (.val 0), .any, false⟩
def COLLIER.WDOG : Field := ⟨.collier, 0x130, 0, 10, .rw, (.val 50), (.range 10 1000), false⟩
def COLLIER.SERVICE_MAX : Field := ⟨.collier, 0x138, 0, 16, .rc, (.val 0), .any, false⟩
def COLLIER.RESTART_CAUSE : Field := ⟨.collier, 0x140, 0, 4, .ro, (.val 0), .any, false⟩
def COLLIER.CNT_RESTART : Field := .counter .collier 0x800
def COLLIER.CNT_ACTIVATE : Field := .counter .collier 0x808
def COLLIER.CNT_SERVICE : Field := .counter .collier 0x810
def COLLIER.EV_BOOTED : Nat := 0
def COLLIER.EV_BOOT_FAIL : Nat := 1
def COLLIER.EV_RESTART : Nat := 2
def COLLIER.EV_WATCHDOG : Nat := 3
def COLLIER.EV_FW_ACTIVATED : Nat := 4
def COLLIER.EV_FW_REVERTED : Nat := 5
def COLLIER.EV_PARAM_REJECT : Nat := 6
/-- The fields of page COLLIER below. -/
def COLLIER.fields : List Field :=
  [COLLIER.STAT_STATE, COLLIER.BOOT_SRC, COLLIER.BOOT_PTR, COLLIER.BOOT_LEN, COLLIER.BOOT_GO, COLLIER.FW_VERSION, COLLIER.FW_SLOT, COLLIER.FW_HOST, COLLIER.FW_STAGED_VERSION, COLLIER.FW_STAGED_VALID, COLLIER.WDOG, COLLIER.SERVICE_MAX, COLLIER.RESTART_CAUSE, COLLIER.CNT_RESTART, COLLIER.CNT_ACTIVATE, COLLIER.CNT_SERVICE]

/-! Page REEVE. -/

def REEVE.STAT_FB_LEVEL : Field := ⟨.reeve, 0x18, 0, 2, .ro, (.val 0), .any, false⟩
def REEVE.STAT_COMMITTED : Field := ⟨.reeve, 0x18, 2, 1, .ro, (.val 0), .any, false⟩
def REEVE.STAT_SHORT : Field := ⟨.reeve, 0x18, 3, 1, .ro, (.val 0), .any, false⟩
def REEVE.OVERHEAD_H : Field := ⟨.reeve, 0x100, 0, 8, .rw, (.val 32), .any, false⟩
def REEVE.OVERHEAD_M : Field := ⟨.reeve, 0x100, 8, 8, .rw, (.val 55), .any, false⟩
def REEVE.FB_H_LOW : Field := ⟨.reeve, 0x108, 0, 11, .rw, (.val 256), .whole, false⟩
def REEVE.FB_H_MID : Field := ⟨.reeve, 0x108, 16, 11, .rw, (.val 512), .whole, false⟩
def REEVE.FB_H_HIGH : Field := ⟨.reeve, 0x108, 32, 11, .rw, (.val 768), .whole, false⟩
def REEVE.FB_M_LOW : Field := ⟨.reeve, 0x110, 0, 16, .rw, (.val 256), .whole, false⟩
def REEVE.FB_M_MID : Field := ⟨.reeve, 0x110, 16, 16, .rw, (.val 512), .whole, false⟩
def REEVE.FB_M_HIGH : Field := ⟨.reeve, 0x110, 32, 16, .rw, (.val 1024), .whole, false⟩
def REEVE.FB_WHERE_TARGET : Field := ⟨.reeve, 0x118, 0, 6, .ro, (.val 0), .any, false⟩
def REEVE.FB_WHERE_PC : Field := ⟨.reeve, 0x118, 6, 5, .ro, (.val 0), .any, false⟩
def REEVE.SAMPLE_CYCLES : Field := ⟨.reeve, 0x120, 0, 16, .rw, (.val 2400), (.range 1 65535), false⟩
def REEVE.ADMIT_PCT : Field := ⟨.reeve, 0x128, 0, 7, .rw, (.val 80), (.range 50 100), false⟩
def REEVE.COMMIT : Field := ⟨.reeve, 0x130, 0, 1, .wo, (.val 0), .any, false⟩
def REEVE.COMMIT_RESULT : Field := ⟨.reeve, 0x138, 0, 2, .ro, (.val 0), .any, false⟩
def REEVE.COMMIT_REASON : Field := ⟨.reeve, 0x138, 4, 4, .ro, (.val 0), .any, false⟩
def REEVE.COMMIT_TIER : Field := ⟨.reeve, 0x138, 8, 2, .ro, (.val 0), .any, false⟩
def REEVE.CAP_H : Field := ⟨.reeve, 0x140, 0, 32, .ro, (.val 0), .any, false⟩
def REEVE.DEM_H : Field := ⟨.reeve, 0x140, 32, 32, .ro, (.val 0), .any, false⟩
def REEVE.CAP_M_TX : Field := ⟨.reeve, 0x148, 0, 32, .ro, (.val 0), .any, false⟩
def REEVE.DEM_M_TX : Field := ⟨.reeve, 0x148, 32, 32, .ro, (.val 0), .any, false⟩
def REEVE.CAP_M_RX : Field := ⟨.reeve, 0x150, 0, 32, .ro, (.val 0), .any, false⟩
def REEVE.DEM_M_RX : Field := ⟨.reeve, 0x150, 32, 32, .ro, (.val 0), .any, false⟩
def REEVE.SHORT_NOW : Field := ⟨.reeve, 0x158, 0, 20, .ro, (.val 0), .any, false⟩
def REEVE.RANK_KILN_OUT : Field := ⟨.reeve, 0x160, 0, 4, .rw, (.val 0), .any, false⟩
def REEVE.RANK_LOOM_DUE : Field := ⟨.reeve, 0x160, 4, 4, .rw, (.val 1), .any, false⟩
def REEVE.VIEW_GUARANTEED : Field := ⟨.reeve, 0x168, 0, 8, .ro, (.val 0), .any, false⟩
def REEVE.VIEW_RANK_RQ : Field := ⟨.reeve, 0x168, 8, 8, .ro, (.val 16), .any, false⟩
def REEVE.SAMP_POS_0 : Field := ⟨.reeve, 0x1A8, 0, 4, .ro, (.val 0), .any, false⟩
def REEVE.SAMP_POS_1 : Field := ⟨.reeve, 0x1A8, 4, 4, .ro, (.val 0), .any, false⟩
def REEVE.SAMP_POS_2 : Field := ⟨.reeve, 0x1A8, 8, 4, .ro, (.val 0), .any, false⟩
def REEVE.SAMP_POS_3 : Field := ⟨.reeve, 0x1A8, 12, 4, .ro, (.val 0), .any, false⟩
def REEVE.SAMP_RD_RING : Field := ⟨.reeve, 0x1B0, 0, 2, .rw, (.val 0), .any, false⟩
def REEVE.SAMP_RD_ENTRY : Field := ⟨.reeve, 0x1B0, 8, 4, .rw, (.val 0), .any, false⟩
def REEVE.SAMP_RD_BYTES : Field := ⟨.reeve, 0x1B8, 0, 32, .ro, (.val 0), .any, false⟩
def REEVE.SAMP_RD_AGE : Field := ⟨.reeve, 0x1B8, 32, 32, .ro, (.val 0), .any, false⟩
def REEVE.CNT_DEMOTE : Field := .counter .reeve 0x800
def REEVE.CNT_HOLD_CYCLES : Field := .counter .reeve 0x808
def REEVE.CNT_FLOOR_GRANTS : Field := .counter .reeve 0x810
def REEVE.CNT_FB_CYCLES : Field := .counter .reeve 0x818
def REEVE.CNT_URG3_BYPASS : Field := .counter .reeve 0x820
def REEVE.CNT_DEBT_CLEARED : Field := .counter .reeve 0x828
def REEVE.CNT_COMMIT_REFUSED : Field := .counter .reeve 0x830
def REEVE.CNT_SHORT_EVENTS : Field := .counter .reeve 0x838
def REEVE.EV_GUARANTEE_SHORT : Nat := 0
def REEVE.EV_GUARANTEE_RESTORED : Nat := 1
def REEVE.EV_CFG_ERR_OVERSUB : Nat := 2
def REEVE.EV_FB_HIGH : Nat := 3
def REEVE.EV_HOLD : Nat := 4
def REEVE.EV_PARAM_REJECT : Nat := 5
/-- The fields of page REEVE below. -/
def REEVE.fields : List Field :=
  [REEVE.STAT_FB_LEVEL, REEVE.STAT_COMMITTED, REEVE.STAT_SHORT, REEVE.OVERHEAD_H, REEVE.OVERHEAD_M, REEVE.FB_H_LOW, REEVE.FB_H_MID, REEVE.FB_H_HIGH, REEVE.FB_M_LOW, REEVE.FB_M_MID, REEVE.FB_M_HIGH, REEVE.FB_WHERE_TARGET, REEVE.FB_WHERE_PC, REEVE.SAMPLE_CYCLES, REEVE.ADMIT_PCT, REEVE.COMMIT, REEVE.COMMIT_RESULT, REEVE.COMMIT_REASON, REEVE.COMMIT_TIER, REEVE.CAP_H, REEVE.DEM_H, REEVE.CAP_M_TX, REEVE.DEM_M_TX, REEVE.CAP_M_RX, REEVE.DEM_M_RX, REEVE.SHORT_NOW, REEVE.RANK_KILN_OUT, REEVE.RANK_LOOM_DUE, REEVE.VIEW_GUARANTEED, REEVE.VIEW_RANK_RQ, REEVE.SAMP_POS_0, REEVE.SAMP_POS_1, REEVE.SAMP_POS_2, REEVE.SAMP_POS_3, REEVE.SAMP_RD_RING, REEVE.SAMP_RD_ENTRY, REEVE.SAMP_RD_BYTES, REEVE.SAMP_RD_AGE, REEVE.CNT_DEMOTE, REEVE.CNT_HOLD_CYCLES] ++
  [REEVE.CNT_FLOOR_GRANTS, REEVE.CNT_FB_CYCLES, REEVE.CNT_URG3_BYPASS, REEVE.CNT_DEBT_CLEARED, REEVE.CNT_COMMIT_REFUSED, REEVE.CNT_SHORT_EVENTS]

/-! Page ERR. -/

def ERR.FLIP_MASK_H : Field := ⟨.err, 0x100, 0, 64, .rw, (.val 0), .any, false⟩
def ERR.FLIP_MASK_M : Field := ⟨.err, 0x108, 0, 64, .rw, (.val 0), .any, false⟩
def ERR.FLIP_MASK_S : Field := ⟨.err, 0x110, 0, 64, .rw, (.val 0), .any, false⟩
def ERR.FLIP_H_TARGET : Field := ⟨.err, 0x118, 0, 6, .rw, (.val 0), .any, false⟩
def ERR.FLIP_H_MATCH : Field := ⟨.err, 0x118, 6, 1, .rw, (.val 0), .any, false⟩
def ERR.FLIP_H_ARM : Field := ⟨.err, 0x118, 7, 1, .rw, (.val 0), .any, false⟩
def ERR.FLIP_M_TARGET : Field := ⟨.err, 0x118, 8, 6, .rw, (.val 0), .any, false⟩
def ERR.FLIP_M_MATCH : Field := ⟨.err, 0x118, 14, 1, .rw, (.val 0), .any, false⟩
def ERR.FLIP_M_ARM : Field := ⟨.err, 0x118, 15, 1, .rw, (.val 0), .any, false⟩
def ERR.FLIP_M_READS : Field := ⟨.err, 0x118, 16, 3, .rw, (.val 0), .any, false⟩
def ERR.FLIP_S_RAM : Field := ⟨.err, 0x118, 24, 2, .rw, (.val 0), .any, false⟩
def ERR.FLIP_S_TARGET : Field := ⟨.err, 0x118, 26, 1, .rw, (.val 0), .any, false⟩
def ERR.FLIP_S_ARM : Field := ⟨.err, 0x118, 27, 1, .rw, (.val 0), .any, false⟩
def ERR.FLIP_MATCH : Field := ⟨.err, 0x120, 8, 52, .rw, (.val 0), .any, false⟩
def ERR.RING_WR : Field := ⟨.err, 0x128, 0, 64, .ro, (.val 0), .any, false⟩
def ERR.RING_SEL : Field := ⟨.err, 0x130, 0, 10, .rw, (.val 0), .any, false⟩
def ERR.RING_W0 : Field := ⟨.err, 0x138, 0, 64, .ro, (.val 0), .any, false⟩
def ERR.RING_W1 : Field := ⟨.err, 0x140, 0, 64, .ro, (.val 0), .any, false⟩
def ERR.RING_W2 : Field := ⟨.err, 0x148, 0, 64, .ro, (.val 0), .any, false⟩
def ERR.RING_W3 : Field := ⟨.err, 0x150, 0, 64, .ro, (.val 0), .any, false⟩
def ERR.CNT_MEDIA_FAIL : Field := .counter .err 0x800
def ERR.CNT_HEARTH_FAIL : Field := .counter .err 0x808
def ERR.CNT_SRAM_FAIL : Field := .counter .err 0x810
def ERR.CNT_RETRIED : Field := .counter .err 0x818
def ERR.CNT_RECOMPUTED : Field := .counter .err 0x820
def ERR.CNT_MIRROR : Field := .counter .err 0x828
def ERR.CNT_REPAIR : Field := .counter .err 0x830
def ERR.CNT_POISONED : Field := .counter .err 0x838
def ERR.CNT_WRITE_POISONED : Field := .counter .err 0x840
def ERR.CNT_POISON_READ : Field := .counter .err 0x848
def ERR.CNT_UNREQ_POISON : Field := .counter .err 0x850
def ERR.CNT_OVER_BOUND : Field := .counter .err 0x858
def ERR.CNT_CLEARED : Field := .counter .err 0x860
def ERR.EV_FLIP_DONE_H : Nat := 0
def ERR.EV_FLIP_DONE_M : Nat := 1
def ERR.EV_FLIP_DONE_S : Nat := 2
def ERR.EV_POISON_WRITTEN : Nat := 3
def ERR.EV_UNREQ_POISON : Nat := 4
def ERR.EV_OVER_BOUND : Nat := 5
def ERR.EV_SRAM_FAIL : Nat := 6
def ERR.EV_MAP_REBUILD : Nat := 7
def ERR.EV_COLLIER_RESTART : Nat := 8
def ERR.EV_PARAM_REJECT : Nat := 9
/-- The fields of page ERR below. -/
def ERR.fields : List Field :=
  [ERR.FLIP_MASK_H, ERR.FLIP_MASK_M, ERR.FLIP_MASK_S, ERR.FLIP_H_TARGET, ERR.FLIP_H_MATCH, ERR.FLIP_H_ARM, ERR.FLIP_M_TARGET, ERR.FLIP_M_MATCH, ERR.FLIP_M_ARM, ERR.FLIP_M_READS, ERR.FLIP_S_RAM, ERR.FLIP_S_TARGET, ERR.FLIP_S_ARM, ERR.FLIP_MATCH, ERR.RING_WR, ERR.RING_SEL, ERR.RING_W0, ERR.RING_W1, ERR.RING_W2, ERR.RING_W3, ERR.CNT_MEDIA_FAIL, ERR.CNT_HEARTH_FAIL, ERR.CNT_SRAM_FAIL, ERR.CNT_RETRIED, ERR.CNT_RECOMPUTED, ERR.CNT_MIRROR, ERR.CNT_REPAIR, ERR.CNT_POISONED, ERR.CNT_WRITE_POISONED, ERR.CNT_POISON_READ, ERR.CNT_UNREQ_POISON, ERR.CNT_OVER_BOUND, ERR.CNT_CLEARED]

/-! Page GLN. -/

def GLN.STAT_RUNNING : Field := ⟨.gln, 0x18, 0, 1, .ro, (.val 0), .any, false⟩
def GLN.STAT_WAITING : Field := ⟨.gln, 0x18, 1, 1, .ro, (.val 0), .any, false⟩
def GLN.STAT_PAUSED : Field := ⟨.gln, 0x18, 2, 1, .ro, (.val 0), .any, false⟩
def GLN.START : Field := ⟨.gln, 0x100, 0, 60, .rw, (.val 0), .any, false⟩
def GLN.LENGTH : Field := ⟨.gln, 0x108, 0, 52, .rw, (.val 0), .any, false⟩
def GLN.MODE_KIND : Field := ⟨.gln, 0x110, 0, 2, .rw, (.val 0), .any, false⟩
def GLN.MODE_ANYTIME : Field := ⟨.gln, 0x110, 4, 1, .rw, (.val 0), .any, false⟩
def GLN.MODE_DEPTH : Field := ⟨.gln, 0x110, 8, 8, .rw, (.val 16), (.range 1 255), false⟩
def GLN.MODE_REFRESH_STEP : Field := ⟨.gln, 0x110, 16, 2, .rw, (.val 2), (.range 1 3), false⟩
def GLN.GO : Field := ⟨.gln, 0x118, 0, 1, .wo, (.val 0), .any, false⟩
def GLN.ABORT : Field := ⟨.gln, 0x120, 0, 1, .wo, (.val 0), .any, false⟩
def GLN.RESULT_STATE : Field := ⟨.gln, 0x128, 0, 3, .ro, (.val 0), .any, false⟩
def GLN.RESULT_REASON : Field := ⟨.gln, 0x128, 4, 4, .ro, (.val 0), .any, false⟩
def GLN.RESULT_ABORT_OUT : Field := ⟨.gln, 0x128, 8, 2, .ro, (.val 0), .any, false⟩
def GLN.PROGRESS : Field := ⟨.gln, 0x130, 0, 60, .ro, (.val 0), .any, false⟩
def GLN.SUM_CHECKED : Field := ⟨.gln, 0x138, 0, 64, .ro, (.val 0), .any, false⟩
def GLN.SUM_CLEAN : Field := ⟨.gln, 0x140, 0, 64, .ro, (.val 0), .any, false⟩
def GLN.SUM_UNWRITTEN : Field := ⟨.gln, 0x148, 0, 64, .ro, (.val 0), .any, false⟩
def GLN.SUM_RETRIED : Field := ⟨.gln, 0x150, 0, 64, .ro, (.val 0), .any, false⟩
def GLN.SUM_RECOMPUTED : Field := ⟨.gln, 0x158, 0, 64, .ro, (.val 0), .any, false⟩
def GLN.SUM_POISONED : Field := ⟨.gln, 0x160, 0, 64, .ro, (.val 0), .any, false⟩
def GLN.SUM_POISON_FOUND : Field := ⟨.gln, 0x168, 0, 64, .ro, (.val 0), .any, false⟩
def GLN.SUM_SKIPPED : Field := ⟨.gln, 0x170, 0, 64, .ro, (.val 0), .any, false⟩
def GLN.SUM_DEEPEST : Field := ⟨.gln, 0x178, 0, 2, .ro, (.val 0), .any, false⟩
def GLN.SUM_FIRST_BAD : Field := ⟨.gln, 0x180, 0, 60, .ro, (.val 0), .any, false⟩
def GLN.SUM_LAST_BAD : Field := ⟨.gln, 0x188, 0, 60, .ro, (.val 0), .any, false⟩
def GLN.SUM_TICKS : Field := ⟨.gln, 0x190, 0, 64, .ro, (.val 0), .any, false⟩
def GLN.CNT_PASSES : Field := .counter .gln 0x800
def GLN.CNT_LINES : Field := .counter .gln 0x808
def GLN.EV_DONE : Nat := 0
def GLN.EV_UNCORRECTABLE : Nat := 1
def GLN.EV_ABORTED : Nat := 2
def GLN.EV_REFUSED : Nat := 3
def GLN.EV_PARAM_REJECT : Nat := 4
/-- The fields of page GLN below. -/
def GLN.fields : List Field :=
  [GLN.STAT_RUNNING, GLN.STAT_WAITING, GLN.STAT_PAUSED, GLN.START, GLN.LENGTH, GLN.MODE_KIND, GLN.MODE_ANYTIME, GLN.MODE_DEPTH, GLN.MODE_REFRESH_STEP, GLN.GO, GLN.ABORT, GLN.RESULT_STATE, GLN.RESULT_REASON, GLN.RESULT_ABORT_OUT, GLN.PROGRESS, GLN.SUM_CHECKED, GLN.SUM_CLEAN, GLN.SUM_UNWRITTEN, GLN.SUM_RETRIED, GLN.SUM_RECOMPUTED, GLN.SUM_POISONED, GLN.SUM_POISON_FOUND, GLN.SUM_SKIPPED, GLN.SUM_DEEPEST, GLN.SUM_FIRST_BAD, GLN.SUM_LAST_BAD, GLN.SUM_TICKS, GLN.CNT_PASSES, GLN.CNT_LINES]

/-! Page MAP. -/

def MAP.STAT_WARM : Field := ⟨.map, 0x18, 0, 1, .ro, (.val 0), .any, false⟩
def MAP.STAT_DELTA_FULL : Field := ⟨.map, 0x18, 1, 1, .ro, (.val 0), .any, false⟩
def MAP.STAT_REPLAYING : Field := ⟨.map, 0x18, 2, 1, .ro, (.val 0), .any, false⟩
def MAP.CAP_SEGMENTS : Field := ⟨.map, 0x100, 0, 64, .ro, (.val 0), .any, false⟩
def MAP.CAP_RESERVED : Field := ⟨.map, 0x108, 0, 64, .ro, (.val 0), .any, false⟩
def MAP.WOODSHED_TARGET : Field := ⟨.map, 0x110, 0, 20, .rw, (.val 4096), .any, false⟩
def MAP.WOODSHED_LOW : Field := ⟨.map, 0x118, 0, 20, .rw, (.val 512), .any, false⟩
def MAP.WOODSHED_ROWS : Field := ⟨.map, 0x120, 0, 16, .rw, (.val 256), .any, false⟩
def MAP.HMAP_SIZE : Field := ⟨.map, 0x128, 0, 64, .ro, (.val 0), .any, false⟩
def MAP.WARM_THRESH : Field := ⟨.map, 0x130, 0, 9, .rw, (.val 256), (.range 1 256), false⟩
def MAP.CKPT_INTERVAL : Field := ⟨.map, 0x138, 0, 32, .rw, (.val 10), .any, false⟩
def MAP.CKPT_GO : Field := ⟨.map, 0x140, 0, 1, .wo, (.val 0), .any, false⟩
def MAP.CKPT_STATE : Field := ⟨.map, 0x148, 0, 2, .ro, (.val 0), .any, false⟩
def MAP.CKPT_PENDING : Field := ⟨.map, 0x148, 2, 1, .ro, (.val 0), .any, false⟩
def MAP.CKPT_GEN : Field := ⟨.map, 0x150, 0, 64, .ro, (.val 0), .any, false⟩
def MAP.CKPT_DIRTY : Field := ⟨.map, 0x158, 0, 24, .ro, (.val 0), .any, false⟩
def MAP.CKPT_LAST_PAGES : Field := ⟨.map, 0x160, 0, 25, .ro, (.val 0), .any, false⟩
def MAP.CKPT_LAST_TIME : Field := ⟨.map, 0x168, 0, 64, .ro, (.val 0), .any, false⟩
def MAP.DELTA_SIZE : Field := ⟨.map, 0x170, 0, 64, .ro, (.val 4294967296), .any, false⟩
def MAP.DELTA_FILL : Field := ⟨.map, 0x178, 0, 64, .ro, (.val 0), .any, false⟩
def MAP.DELTA_HIGH : Field := ⟨.map, 0x180, 0, 8, .rw, (.val 192), (.range 1 255), false⟩
def MAP.NS_SEL : Field := ⟨.map, 0x188, 0, 8, .rw, (.val 0), .any, false⟩
def MAP.NS_DESC0 : Field := ⟨.map, 0x190, 0, 64, .ro, (.val 0), .any, false⟩
def MAP.NS_DESC1 : Field := ⟨.map, 0x198, 0, 64, .ro, (.val 0), .any, false⟩
def MAP.NS_DESC2 : Field := ⟨.map, 0x1A0, 0, 64, .ro, (.val 0), .any, false⟩
def MAP.NS_DESC3 : Field := ⟨.map, 0x1A8, 0, 5, .ro, (.val 0), .any, false⟩
def MAP.RECLAIM_LEFT : Field := ⟨.map, 0x1B0, 0, 32, .ro, (.val 0), .any, false⟩
def MAP.CHAN_SEL : Field := ⟨.map, 0x1B8, 0, 5, .rw, (.val 0), .any, false⟩
def MAP.CHAN_COUNTS : Field := ⟨.map, 0x1C0, 0, 64, .ro, (.val 0), .any, false⟩
def MAP.CHAN_RESV : Field := ⟨.map, 0x1C8, 0, 64, .ro, (.val 0), .any, false⟩
def MAP.GAP_WRITES : Field := ⟨.map, 0x200, 0, 31, .rw, (.val 262144), .whole, false⟩
def MAP.SPREAD : Field := ⟨.map, 0x200, 32, 10, .rw, (.val 20), (.range 1 1023), false⟩
def MAP.RETIRE_PCT : Field := ⟨.map, 0x200, 48, 7, .rw, (.val 90), (.range 50 99), false⟩
def MAP.LEASE : Field := ⟨.map, 0x200, 56, 7, .rw, (.val 16), (.range 2 64), false⟩
def MAP.REWRITE_AGE : Field := ⟨.map, 0x208, 0, 5, .rw, (.val 21), (.range 12 23), false⟩
def MAP.CANARY_LIMIT : Field := ⟨.map, 0x208, 8, 8, .rw, (.val 6), (.range 1 255), false⟩
def MAP.CANARY_INTERVAL : Field := ⟨.map, 0x208, 16, 16, .rw, (.val 3600), (.range 60 65535), false⟩
def MAP.AGE_NOW : Field := ⟨.map, 0x210, 0, 48, .ro, (.val 0), .any, false⟩
def MAP.CHAN_WEAR : Field := ⟨.map, 0x218, 0, 64, .ro, (.val 0), .any, false⟩
def MAP.CHAN_LIFE : Field := ⟨.map, 0x220, 0, 29, .ro, (.val 0), .any, false⟩
def MAP.CHAN_SPARES : Field := ⟨.map, 0x228, 0, 33, .ro, (.val 0), .any, false⟩
def MAP.CHAN_DRIFT : Field := ⟨.map, 0x230, 0, 29, .ro, (.val 0), .any, false⟩
def MAP.DTBL_BUCKET : Field := ⟨.map, 0x238, 0, 5, .rw, (.val 0), .any, false⟩
def MAP.DTBL_BAND : Field := ⟨.map, 0x238, 8, 3, .rw, (.val 0), .any, false⟩
def MAP.DTBL : Field := ⟨.map, 0x240, 0, 24, .ro, (.val 0), .any, false⟩
def MAP.QUEUES : Field := ⟨.map, 0x248, 0, 64, .ro, (.val 0), .any, false⟩
def MAP.WD_EVENT : Field := ⟨.map, 0x250, 0, 7, .w1c, (.val 0), .any, false⟩
def MAP.WD_EVENT_EN : Field := ⟨.map, 0x258, 0, 7, .rw, (.val 0), .any, false⟩
def MAP.AGE_EST : Field := ⟨.map, 0x260, 0, 48, .ro, (.val 0), .any, false⟩
def MAP.AGE_EST_ESTIMATED : Field := ⟨.map, 0x260, 63, 1, .ro, (.val 0), .any, false⟩
def MAP.CNT_LOOKUP_SRAM : Field := .counter .map 0x800
def MAP.CNT_LOOKUP_HEARTH : Field := .counter .map 0x808
def MAP.CNT_LOOKUP_MEDIA : Field := .counter .map 0x810
def MAP.CNT_ALLOC : Field := .counter .map 0x818
def MAP.CNT_FORMAT : Field := .counter .map 0x820
def MAP.CNT_RECLAIM : Field := .counter .map 0x828
def MAP.CNT_CKPT : Field := .counter .map 0x830
def MAP.CNT_DELTA_STALL : Field := .counter .map 0x838
def MAP.CNT_EPOCH : Field := .counter .map 0x840
def MAP.CNT_PROGRAMS : Field := .counter .map 0x900
def MAP.CNT_ABORT_WEAR : Field := .counter .map 0x908
def MAP.CNT_ROT_MOVES : Field := .counter .map 0x910
def MAP.CNT_ROT_SHIFTS : Field := .counter .map 0x918
def MAP.CNT_MIGRATE : Field := .counter .map 0x920
def MAP.CNT_RETIRE : Field := .counter .map 0x928
def MAP.CNT_REWRITE_LINES : Field := .counter .map 0x930
def MAP.CNT_RETRY_1 : Field := .counter .map 0x938
def MAP.CNT_RETRY_2 : Field := .counter .map 0x940
def MAP.CNT_RETRY_3 : Field := .counter .map 0x948
def MAP.CNT_RETRY_FAIL : Field := .counter .map 0x950
def MAP.CNT_PROMOTE : Field := .counter .map 0x958
def MAP.CNT_CANARY : Field := .counter .map 0x960
def MAP.CNT_LEASE : Field := .counter .map 0x968
def MAP.EV_WOODSHED_LOW : Nat := 0
def MAP.EV_ROW_SHORT : Nat := 1
def MAP.EV_CKPT_DONE : Nat := 2
def MAP.EV_DELTA_HIGH : Nat := 3
def MAP.EV_PARAM_REJECT : Nat := 4
def MAP.EV_REPLAY_DONE : Nat := 5
/-- The fields of page MAP below. -/
def MAP.fields : List Field :=
  [MAP.STAT_WARM, MAP.STAT_DELTA_FULL, MAP.STAT_REPLAYING, MAP.CAP_SEGMENTS, MAP.CAP_RESERVED, MAP.WOODSHED_TARGET, MAP.WOODSHED_LOW, MAP.WOODSHED_ROWS, MAP.HMAP_SIZE, MAP.WARM_THRESH, MAP.CKPT_INTERVAL, MAP.CKPT_GO, MAP.CKPT_STATE, MAP.CKPT_PENDING, MAP.CKPT_GEN, MAP.CKPT_DIRTY, MAP.CKPT_LAST_PAGES, MAP.CKPT_LAST_TIME, MAP.DELTA_SIZE, MAP.DELTA_FILL, MAP.DELTA_HIGH, MAP.NS_SEL, MAP.NS_DESC0, MAP.NS_DESC1, MAP.NS_DESC2, MAP.NS_DESC3, MAP.RECLAIM_LEFT, MAP.CHAN_SEL, MAP.CHAN_COUNTS, MAP.CHAN_RESV, MAP.GAP_WRITES, MAP.SPREAD, MAP.RETIRE_PCT, MAP.LEASE, MAP.REWRITE_AGE, MAP.CANARY_LIMIT, MAP.CANARY_INTERVAL, MAP.AGE_NOW, MAP.CHAN_WEAR, MAP.CHAN_LIFE] ++
  [MAP.CHAN_SPARES, MAP.CHAN_DRIFT, MAP.DTBL_BUCKET, MAP.DTBL_BAND, MAP.DTBL, MAP.QUEUES, MAP.WD_EVENT, MAP.WD_EVENT_EN, MAP.AGE_EST, MAP.AGE_EST_ESTIMATED, MAP.CNT_LOOKUP_SRAM, MAP.CNT_LOOKUP_HEARTH, MAP.CNT_LOOKUP_MEDIA, MAP.CNT_ALLOC, MAP.CNT_FORMAT, MAP.CNT_RECLAIM, MAP.CNT_CKPT, MAP.CNT_DELTA_STALL, MAP.CNT_EPOCH, MAP.CNT_PROGRAMS, MAP.CNT_ABORT_WEAR, MAP.CNT_ROT_MOVES, MAP.CNT_ROT_SHIFTS, MAP.CNT_MIGRATE, MAP.CNT_RETIRE, MAP.CNT_REWRITE_LINES, MAP.CNT_RETRY_1, MAP.CNT_RETRY_2, MAP.CNT_RETRY_3, MAP.CNT_RETRY_FAIL, MAP.CNT_PROMOTE, MAP.CNT_CANARY, MAP.CNT_LEASE]

/-! Page KILN. -/

def KILN.SPILL_REGION : Field := ⟨.kiln, 0x100, 0, 64, .ro, (.val 0), .any, false⟩
def KILN.SPILL_LEVEL : Field := ⟨.kiln, 0x108, 0, 64, .ro, (.val 0), .any, false⟩
def KILN.UNDURABLE : Field := ⟨.kiln, 0x110, 0, 64, .ro, (.val 0), .any, false⟩
def KILN.ACTIVE : Field := ⟨.kiln, 0x118, 0, 32, .ro, (.val 0), .any, false⟩
def KILN.CNT_PARITY_STRIPES : Field := .counter .kiln 0x800
def KILN.CNT_GROUP_WAIT : Field := .counter .kiln 0x808
/-- The fields of page KILN below. -/
def KILN.fields : List Field :=
  [KILN.SPILL_REGION, KILN.SPILL_LEVEL, KILN.UNDURABLE, KILN.ACTIVE, KILN.CNT_PARITY_STRIPES, KILN.CNT_GROUP_WAIT]

/-! Page LOOM. -/

def LOOM.HORIZON : Field := ⟨.loom, 0x100, 0, 40, .rw, (.val 4194304), (.range 4096 1099511627775), false⟩
def LOOM.LEAD_TICKS : Field := ⟨.loom, 0x108, 0, 32, .rw, (.val 8192), (.range 256 2147483648), false⟩
def LOOM.SPEC_TOTAL : Field := ⟨.loom, 0x110, 0, 19, .rw, (.val 65536), (.range 0 262144), false⟩
def LOOM.ACTIVE : Field := ⟨.loom, 0x118, 0, 16, .ro, (.val 0), .any, false⟩
def LOOM.HELD_NOW : Field := ⟨.loom, 0x120, 0, 20, .ro, (.val 0), .any, false⟩
def LOOM.SPEC_NOW : Field := ⟨.loom, 0x128, 0, 19, .ro, (.val 0), .any, false⟩
def LOOM.KEEP_NOW : Field := ⟨.loom, 0x130, 0, 20, .ro, (.val 0), .any, false⟩
def LOOM.PINNED : Field := ⟨.loom, 0x138, 0, 17, .ro, (.val 0), .any, false⟩
def LOOM.SQUASH_MAX : Field := ⟨.loom, 0x140, 0, 7, .ro, (.val 0), .any, false⟩
def LOOM.CNT_SQUASH : Field := .counter .loom 0x800
def LOOM.CNT_ABORT : Field := .counter .loom 0x808
def LOOM.EV_PARAM_REJECT : Nat := 0
/-- The fields of page LOOM below. -/
def LOOM.fields : List Field :=
  [LOOM.HORIZON, LOOM.LEAD_TICKS, LOOM.SPEC_TOTAL, LOOM.ACTIVE, LOOM.HELD_NOW, LOOM.SPEC_NOW, LOOM.KEEP_NOW, LOOM.PINNED, LOOM.SQUASH_MAX, LOOM.CNT_SQUASH, LOOM.CNT_ABORT]

/-! Page PORT. -/

def PORT.CTL_ENABLE : Field := ⟨.port, 0x10, 0, 1, .rw, (.val 0), .any, false⟩
def PORT.STAT_READY : Field := ⟨.port, 0x18, 0, 1, .ro, (.val 0), .any, false⟩
def PORT.STAT_QUIET : Field := ⟨.port, 0x18, 1, 1, .ro, (.val 1), .any, false⟩
def PORT.STAT_URG_EFF : Field := ⟨.port, 0x18, 2, 2, .ro, (.val 0), .any, false⟩
def PORT.STAT_PCLK_RUN : Field := ⟨.port, 0x18, 4, 1, .ro, (.val 0), .any, false⟩
def PORT.STAT_TRICKLE : Field := ⟨.port, 0x18, 5, 1, .ro, (.val 0), .any, false⟩
def PORT.PCLK_SEL : Field := ⟨.port, 0x100, 0, 2, .rw, (.val 0), .any, false⟩
def PORT.PLY_CREDITS : Field := ⟨.port, 0x108, 0, 13, .rw, (.val 256), (.range 16 4096), false⟩
def PORT.PLY_CRED_NOW : Field := ⟨.port, 0x110, 0, 13, .ro, (.val 0), .any, false⟩
def PORT.CLASS_MASK : Field := ⟨.port, 0x118, 0, 8, .rw, (.val 255), .any, false⟩
def PORT.INTAKE_LEVEL : Field := ⟨.port, 0x120, 0, 10, .ro, (.val 0), .any, false⟩
def PORT.OUTSTANDING : Field := ⟨.port, 0x128, 0, 13, .ro, (.val 0), .any, false⟩
def PORT.FAULT_ADDR : Field := ⟨.port, 0x130, 0, 60, .ro, (.val 0), .any, false⟩
def PORT.FAULT_OP : Field := ⟨.port, 0x138, 0, 5, .ro, (.val 0), .any, false⟩
def PORT.FAULT_TAG : Field := ⟨.port, 0x138, 5, 12, .ro, (.val 0), .any, false⟩
def PORT.FAULT_OID : Field := ⟨.port, 0x138, 17, 6, .ro, (.val 0), .any, false⟩
def PORT.FAULT_STATUS : Field := ⟨.port, 0x138, 23, 4, .ro, (.val 0), .any, false⟩
def PORT.CNT_REQ : Field := .counter .port 0x800
def PORT.CNT_RD_BEATS : Field := .counter .port 0x808
def PORT.CNT_WR_BEATS : Field := .counter .port 0x810
def PORT.CNT_PLY_BEATS : Field := .counter .port 0x818
def PORT.CNT_DENIED : Field := .counter .port 0x820
def PORT.CNT_RANGE : Field := .counter .port 0x828
def PORT.CNT_ERR_RSP : Field := .counter .port 0x830
def PORT.CNT_RMW : Field := .counter .port 0x838
def PORT.CNT_URG3_CYCLES : Field := .counter .port 0x840
def PORT.CNT_TAG_STALL : Field := .counter .port 0x848
def PORT.CNT_PLY_LATE : Field := .counter .port 0x850
def PORT.EV_TAG_REUSE : Nat := 0
def PORT.EV_WDAT_FRAMING : Nat := 1
def PORT.EV_DENIED : Nat := 2
def PORT.EV_RANGE : Nat := 3
def PORT.EV_CREDIT_OVF : Nat := 4
def PORT.EV_PARAM_REJECT : Nat := 5
def PORT.EV_UNWRITTEN_FAULT : Nat := 6
def PORT.EV_HELD_TIMEOUT : Nat := 7
/-- The fields of page PORT below. -/
def PORT.fields : List Field :=
  [PORT.CTL_ENABLE, PORT.STAT_READY, PORT.STAT_QUIET, PORT.STAT_URG_EFF, PORT.STAT_PCLK_RUN, PORT.STAT_TRICKLE, PORT.PCLK_SEL, PORT.PLY_CREDITS, PORT.PLY_CRED_NOW, PORT.CLASS_MASK, PORT.INTAKE_LEVEL, PORT.OUTSTANDING, PORT.FAULT_ADDR, PORT.FAULT_OP, PORT.FAULT_TAG, PORT.FAULT_OID, PORT.FAULT_STATUS, PORT.CNT_REQ, PORT.CNT_RD_BEATS, PORT.CNT_WR_BEATS, PORT.CNT_PLY_BEATS, PORT.CNT_DENIED, PORT.CNT_RANGE, PORT.CNT_ERR_RSP, PORT.CNT_RMW, PORT.CNT_URG3_CYCLES, PORT.CNT_TAG_STALL, PORT.CNT_PLY_LATE]

/-! Page HT. -/

def HT.STAT_FITTED : Field := ⟨.ht, 0x18, 0, 1, .ro, (.val 0), .any, false⟩
def HT.STAT_IN_SERVICE : Field := ⟨.ht, 0x18, 1, 1, .ro, (.val 0), .any, false⟩
def HT.STAT_FAILED : Field := ⟨.ht, 0x18, 2, 1, .ro, (.val 0), .any, false⟩
def HT.STAT_SELF_REFRESH : Field := ⟨.ht, 0x18, 3, 1, .ro, (.val 0), .any, false⟩
def HT.STAT_FILLING : Field := ⟨.ht, 0x18, 4, 1, .ro, (.val 0), .any, false⟩
def HT.STAT_HOT : Field := ⟨.ht, 0x18, 5, 1, .ro, (.val 0), .any, false⟩
def HT.STAT_THROTTLED : Field := ⟨.ht, 0x18, 6, 1, .ro, (.val 0), .any, false⟩
def HT.STAT_SINGLE : Field := ⟨.ht, 0x18, 8, 1, .ro, (.val 0), .any, true⟩
def HT.STAT_MIRROR_OFF : Field := ⟨.ht, 0x18, 9, 1, .ro, (.val 0), .any, true⟩
def HT.GEOM_B : Field := ⟨.ht, 0x100, 0, 4, .ro, (.val 0), .any, false⟩
def HT.GEOM_R : Field := ⟨.ht, 0x100, 4, 4, .ro, (.val 0), .any, false⟩
def HT.GEOM_FITTED : Field := ⟨.ht, 0x100, 8, 1, .ro, (.val 0), .any, false⟩
def HT.GEOM_BIN : Field := ⟨.ht, 0x100, 9, 2, .ro, (.val 0), .any, false⟩
def HT.GEOM_C : Field := ⟨.ht, 0x100, 16, 8, .ro, (.val 0), .any, false⟩
def HT.CAPABILITY : Field := ⟨.ht, 0x108, 0, 32, .ro, (.val 0), .any, false⟩
def HT.T_RCDRD : Field := ⟨.ht, 0x110, 0, 8, .rw, (.val 23), .any, false⟩
def HT.T_RCDWR : Field := ⟨.ht, 0x110, 8, 8, .rw, (.val 16), .any, false⟩
def HT.T_RAS : Field := ⟨.ht, 0x110, 16, 8, .rw, (.val 45), .any, false⟩
def HT.T_RP : Field := ⟨.ht, 0x110, 24, 8, .rw, (.val 23), .any, false⟩
def HT.T_RC : Field := ⟨.ht, 0x110, 32, 8, .rw, (.val 68), .any, false⟩
def HT.T_RRDS : Field := ⟨.ht, 0x118, 0, 8, .rw, (.val 4), .any, false⟩
def HT.T_RRDL : Field := ⟨.ht, 0x118, 8, 8, .rw, (.val 6), .any, false⟩
def HT.T_FAW : Field := ⟨.ht, 0x118, 16, 8, .rw, (.val 20), .any, false⟩
def HT.T_CCDS : Field := ⟨.ht, 0x118, 24, 4, .rw, (.val 2), .any, false⟩
def HT.T_CCDL : Field := ⟨.ht, 0x118, 28, 4, .rw, (.val 4), .any, false⟩
def HT.T_RL : Field := ⟨.ht, 0x120, 0, 8, .rw, (.val 28), .any, false⟩
def HT.T_WL : Field := ⟨.ht, 0x120, 8, 8, .rw, (.val 8), .any, false⟩
def HT.T_WR : Field := ⟨.ht, 0x120, 16, 8, .rw, (.val 26), .any, false⟩
def HT.T_RTP : Field := ⟨.ht, 0x120, 24, 8, .rw, (.val 8), .any, false⟩
def HT.T_WTRS : Field := ⟨.ht, 0x120, 32, 8, .rw, (.val 4), .any, false⟩
def HT.T_WTRL : Field := ⟨.ht, 0x120, 40, 8, .rw, (.val 13), .any, false⟩
def HT.T_RTW : Field := ⟨.ht, 0x120, 48, 8, .rw, (.val 24), .any, false⟩
def HT.T_RFCAB : Field := ⟨.ht, 0x128, 0, 12, .rw, (.val 560), .any, false⟩
def HT.T_RFCPB : Field := ⟨.ht, 0x128, 12, 12, .rw, (.val 320), .any, false⟩
def HT.T_REFI : Field := ⟨.ht, 0x128, 24, 16, .rw, (.val 6240), .any, false⟩
def HT.T_RREFD : Field := ⟨.ht, 0x128, 40, 8, .rw, (.val 13), .any, false⟩
def HT.T_XP : Field := ⟨.ht, 0x130, 0, 8, .rw, (.val 12), .any, false⟩
def HT.T_XS : Field := ⟨.ht, 0x130, 8, 12, .rw, (.val 576), .any, false⟩
def HT.T_CKE : Field := ⟨.ht, 0x130, 20, 8, .rw, (.val 8), .any, false⟩
def HT.TIMING_CMD : Field := ⟨.ht, 0x138, 0, 1, .wo, (.val 0), .any, false⟩
def HT.SCHED_AGE_CAP : Field := ⟨.ht, 0x140, 0, 10, .rw, (.val 256), .any, false⟩
def HT.SCHED_WDRAIN_LO : Field := ⟨.ht, 0x140, 16, 6, .rw, (.val 16), .any, false⟩
def HT.SCHED_WDRAIN_HI : Field := ⟨.ht, 0x140, 24, 6, .rw, (.val 48), .any, false⟩
def HT.SCHED_WGROUP : Field := ⟨.ht, 0x140, 32, 6, .rw, (.val 8), .any, false⟩
def HT.REF_MODE : Field := ⟨.ht, 0x148, 0, 1, .rw, (.val 0), .any, false⟩
def HT.REF_POSTPONE : Field := ⟨.ht, 0x148, 1, 4, .rw, (.val 8), (.range 0 8), false⟩
def HT.REF_TEMP_HOT : Field := ⟨.ht, 0x148, 16, 8, .rw, (.val 85), .any, false⟩
def HT.REF_TEMP_THROTTLE : Field := ⟨.ht, 0x148, 24, 8, .rw, (.val 105), .any, false⟩
def HT.REF_TEMP_TRIP : Field := ⟨.ht, 0x148, 32, 8, .rw, (.val 115), .any, false⟩
def HT.RFM_ENABLE : Field := ⟨.ht, 0x150, 0, 1, .rw, (.val 0), .any, false⟩
def HT.RFM_RAAIMT : Field := ⟨.ht, 0x150, 8, 8, .rw, (.val 0), .any, false⟩
def HT.RFM_RAAMMT : Field := ⟨.ht, 0x150, 16, 16, .rw, (.val 0), .any, false⟩
def HT.PWR_PD_IDLE : Field := ⟨.ht, 0x158, 0, 16, .rw, (.val 256), .any, false⟩
def HT.TEMP : Field := ⟨.ht, 0x160, 0, 8, .ro, (.val 0), .any, false⟩
def HT.PC_SERVICE : Field := ⟨.ht, 0x168, 0, 32, .ro, (.val 0), .any, false⟩
def HT.QSEL : Field := ⟨.ht, 0x170, 0, 5, .rw, (.val 0), .any, false⟩
def HT.QLEVEL_AVG : Field := ⟨.ht, 0x178, 0, 16, .ro, (.val 0), .any, false⟩
def HT.QLEVEL_NOW : Field := ⟨.ht, 0x178, 16, 7, .ro, (.val 0), .any, false⟩
def HT.FILL_PROG : Field := ⟨.ht, 0x180, 0, 29, .ro, (.val 0), .any, false⟩
def HT.SAFE_RETAIN : Field := ⟨.ht, 0x200, 0, 17, .rw, (.val 32000), (.resv 0 64000), true⟩
def HT.MIRROR_CLASSES : Field := ⟨.ht, 0x208, 0, 8, .rw, (.val 0), .any, true⟩
def HT.LAYOUT_MAP : Field := ⟨.ht, 0x210, 0, 20, .rw, (.val 0), .any, true⟩
def HT.LAYOUT_SPILL : Field := ⟨.ht, 0x218, 0, 20, .rw, (.val 0), .any, true⟩
def HT.LAYOUT_LOOM : Field := ⟨.ht, 0x220, 0, 20, .rw, (.val 0), .any, true⟩
def HT.LAYOUT_PARISH : Field := ⟨.ht, 0x228, 0, 20, .ro, .parish, .any, true⟩
def HT.LAYOUT_CMD : Field := ⟨.ht, 0x230, 0, 1, .wo, (.val 0), .any, true⟩
def HT.LAYOUT_RESULT : Field := ⟨.ht, 0x238, 0, 2, .ro, (.val 0), .any, true⟩
def HT.LAYOUT_REASON : Field := ⟨.ht, 0x238, 4, 4, .ro, (.val 0), .any, true⟩
def HT.HOME_SLOTS : Field := ⟨.ht, 0x240, 0, 30, .ro, (.val 0), .any, true⟩
def HT.DIR_COUNT : Field := ⟨.ht, 0x248, 0, 19, .ro, (.val 0), .any, true⟩
def HT.WB_START : Field := ⟨.ht, 0x250, 0, 8, .rw, (.val 128), (.resv 1 255), true⟩
def HT.WB_AGE : Field := ⟨.ht, 0x250, 16, 16, .rw, (.val 1000), (.resv 32 65535), true⟩
def HT.CGEN_SEL : Field := ⟨.ht, 0x258, 0, 8, .rw, (.val 0), .any, true⟩
def HT.CGEN : Field := ⟨.ht, 0x260, 0, 32, .ro, (.val 0), .any, true⟩
def HT.SWEEP_NS : Field := ⟨.ht, 0x268, 0, 13, .rw, (.val 512), (.resv 64 4096), true⟩
def HT.SWEEP_LAST : Field := ⟨.ht, 0x270, 0, 32, .ro, (.val 0), .any, true⟩
def HT.CNT_RD_LINES : Field := .counter .ht 0x800
def HT.CNT_WR_LINES : Field := .counter .ht 0x808
def HT.CNT_ROW_HIT : Field := .counter .ht 0x810
def HT.CNT_ROW_MISS : Field := .counter .ht 0x818
def HT.CNT_REFAB : Field := .counter .ht 0x820
def HT.CNT_REFPB : Field := .counter .ht 0x828
def HT.CNT_REF_FORCED : Field := .counter .ht 0x830
def HT.CNT_RFM : Field := .counter .ht 0x838
def HT.CNT_RAA_WAIT : Field := .counter .ht 0x840
def HT.CNT_AGE_CAP : Field := .counter .ht 0x848
def HT.CNT_TURN : Field := .counter .ht 0x850
def HT.CNT_PD_ENTRY : Field := .counter .ht 0x858
def HT.CNT_THROTTLE_CK : Field := .counter .ht 0x860
def HT.CNT_HIT : Field := { Field.counter .ht 0x900 with only0 := true }
def HT.CNT_MISS : Field := { Field.counter .ht 0x908 with only0 := true }
def HT.CNT_NOKEEP : Field := { Field.counter .ht 0x910 with only0 := true }
def HT.CNT_WB_LINES : Field := { Field.counter .ht 0x918 with only0 := true }
def HT.CNT_DIR_WAIT : Field := { Field.counter .ht 0x920 with only0 := true }
def HT.CNT_SWEEP_EMPTIED : Field := { Field.counter .ht 0x928 with only0 := true }
def HT.EV_STACK_FAILED : Nat := 0
def HT.EV_CONTENT_LOST : Nat := 1
def HT.EV_HOT : Nat := 2
def HT.EV_THROTTLE : Nat := 3
def HT.EV_TRIP : Nat := 4
def HT.EV_PARITY : Nat := 5
def HT.EV_PARAM_REJECT : Nat := 6
def HT.EV_REF_FORCED : Nat := 7
def HT.EV_DIR_WAIT : Nat := 8
def HT.EV_CGEN_WAIT : Nat := 9
def HT.EV_LAYOUT_DONE : Nat := 10
/-- The fields of page HT below. -/
def HT.fields : List Field :=
  [HT.STAT_FITTED, HT.STAT_IN_SERVICE, HT.STAT_FAILED, HT.STAT_SELF_REFRESH, HT.STAT_FILLING, HT.STAT_HOT, HT.STAT_THROTTLED, HT.STAT_SINGLE, HT.STAT_MIRROR_OFF, HT.GEOM_B, HT.GEOM_R, HT.GEOM_FITTED, HT.GEOM_BIN, HT.GEOM_C, HT.CAPABILITY, HT.T_RCDRD, HT.T_RCDWR, HT.T_RAS, HT.T_RP, HT.T_RC, HT.T_RRDS, HT.T_RRDL, HT.T_FAW, HT.T_CCDS, HT.T_CCDL, HT.T_RL, HT.T_WL, HT.T_WR, HT.T_RTP, HT.T_WTRS, HT.T_WTRL, HT.T_RTW, HT.T_RFCAB, HT.T_RFCPB, HT.T_REFI, HT.T_RREFD, HT.T_XP, HT.T_XS, HT.T_CKE, HT.TIMING_CMD] ++
  [HT.SCHED_AGE_CAP, HT.SCHED_WDRAIN_LO, HT.SCHED_WDRAIN_HI, HT.SCHED_WGROUP, HT.REF_MODE, HT.REF_POSTPONE, HT.REF_TEMP_HOT, HT.REF_TEMP_THROTTLE, HT.REF_TEMP_TRIP, HT.RFM_ENABLE, HT.RFM_RAAIMT, HT.RFM_RAAMMT, HT.PWR_PD_IDLE, HT.TEMP, HT.PC_SERVICE, HT.QSEL, HT.QLEVEL_AVG, HT.QLEVEL_NOW, HT.FILL_PROG, HT.SAFE_RETAIN, HT.MIRROR_CLASSES, HT.LAYOUT_MAP, HT.LAYOUT_SPILL, HT.LAYOUT_LOOM, HT.LAYOUT_PARISH, HT.LAYOUT_CMD, HT.LAYOUT_RESULT, HT.LAYOUT_REASON, HT.HOME_SLOTS, HT.DIR_COUNT, HT.WB_START, HT.WB_AGE, HT.CGEN_SEL, HT.CGEN, HT.SWEEP_NS, HT.SWEEP_LAST, HT.CNT_RD_LINES, HT.CNT_WR_LINES, HT.CNT_ROW_HIT, HT.CNT_ROW_MISS] ++
  [HT.CNT_REFAB, HT.CNT_REFPB, HT.CNT_REF_FORCED, HT.CNT_RFM, HT.CNT_RAA_WAIT, HT.CNT_AGE_CAP, HT.CNT_TURN, HT.CNT_PD_ENTRY, HT.CNT_THROTTLE_CK, HT.CNT_HIT, HT.CNT_MISS, HT.CNT_NOKEEP, HT.CNT_WB_LINES, HT.CNT_DIR_WAIT, HT.CNT_SWEEP_EMPTIED]

/-! Page HPHY. -/

def HPHY.CTL_RETRAIN_EN : Field := ⟨.hphy, 0x10, 0, 1, .rw, (.val 1), .any, false⟩
def HPHY.STAT_TRAINING : Field := ⟨.hphy, 0x18, 0, 1, .ro, (.val 0), .any, false⟩
def HPHY.STAT_UNIT : Field := ⟨.hphy, 0x18, 1, 1, .ro, (.val 0), .any, false⟩
def HPHY.STAT_TESTING : Field := ⟨.hphy, 0x18, 2, 1, .ro, (.val 0), .any, false⟩
def HPHY.MIN_EYE : Field := ⟨.hphy, 0x100, 0, 7, .rw, (.val 38), (.range 16 96), false⟩
def HPHY.FLOOR_EYE : Field := ⟨.hphy, 0x100, 8, 7, .rw, (.val 26), .any, false⟩
def HPHY.MIN_VREF : Field := ⟨.hphy, 0x100, 16, 6, .rw, (.val 6), (.range 1 32), false⟩
def HPHY.RETRY : Field := ⟨.hphy, 0x100, 24, 2, .rw, (.val 1), .any, false⟩
def HPHY.RETRAIN_PERIOD : Field := ⟨.hphy, 0x108, 0, 16, .rw, (.val 100), (.range 10 65535), false⟩
def HPHY.RETRAIN_TEMP_STEP : Field := ⟨.hphy, 0x108, 16, 8, .rw, (.val 10), (.range 2 40), false⟩
def HPHY.RETRAIN_LIMIT : Field := ⟨.hphy, 0x108, 32, 16, .rw, (.val 1000), .any, false⟩
def HPHY.TRAIN_KIND : Field := ⟨.hphy, 0x110, 0, 2, .ro, (.val 0), .any, false⟩
def HPHY.TRAIN_STEP : Field := ⟨.hphy, 0x110, 4, 3, .ro, (.val 0), .any, false⟩
def HPHY.TRAIN_PASS : Field := ⟨.hphy, 0x110, 7, 1, .ro, (.val 0), .any, false⟩
def HPHY.TRAIN_ATTEMPTS : Field := ⟨.hphy, 0x110, 8, 8, .ro, (.val 0), .any, false⟩
def HPHY.TRAIN_DURATION : Field := ⟨.hphy, 0x110, 16, 32, .ro, (.val 0), .any, false⟩
def HPHY.REPAIR_DQ : Field := ⟨.hphy, 0x118, 0, 8, .ro, (.val 0), .any, false⟩
def HPHY.REPAIR_CA : Field := ⟨.hphy, 0x118, 8, 8, .ro, (.val 0), .any, false⟩
def HPHY.LANE_SEL_PC : Field := ⟨.hphy, 0x120, 0, 5, .rw, (.val 0), .any, false⟩
def HPHY.LANE_SEL_LANE : Field := ⟨.hphy, 0x120, 8, 6, .rw, (.val 0), .any, false⟩
def HPHY.LANE_SEL_KIND : Field := ⟨.hphy, 0x120, 16, 1, .rw, (.val 0), .any, false⟩
def HPHY.LANE_RES : Field := ⟨.hphy, 0x128, 0, 48, .ro, (.val 0), .any, false⟩
def HPHY.RETRAIN_POS : Field := ⟨.hphy, 0x130, 0, 5, .ro, (.val 0), .any, false⟩
def HPHY.RETRAIN_DUE : Field := ⟨.hphy, 0x130, 8, 1, .ro, (.val 0), .any, false⟩
def HPHY.TEST_MODE : Field := ⟨.hphy, 0x138, 0, 2, .rw, (.val 0), (.resv 0 2), false⟩
def HPHY.TEST_GO : Field := ⟨.hphy, 0x138, 4, 1, .rw, (.val 0), .any, false⟩
def HPHY.TEST_DURATION : Field := ⟨.hphy, 0x138, 16, 16, .rw, (.val 0), (.range 1 65535), false⟩
def HPHY.TEST_STAT : Field := ⟨.hphy, 0x140, 0, 2, .ro, (.val 0), .any, false⟩
def HPHY.TEST_RES : Field := ⟨.hphy, 0x148, 0, 32, .ro, (.val 0), .any, false⟩
def HPHY.T1500_INSTR : Field := ⟨.hphy, 0x150, 0, 8, .rw, (.val 0), .any, false⟩
def HPHY.T1500_CHANNEL : Field := ⟨.hphy, 0x150, 8, 4, .rw, (.val 0), .any, false⟩
def HPHY.T1500_WRITE : Field := ⟨.hphy, 0x150, 16, 1, .rw, (.val 0), .any, false⟩
def HPHY.T1500_DATA : Field := ⟨.hphy, 0x158, 0, 64, .rw, (.val 0), .any, false⟩
def HPHY.T1500_CMD : Field := ⟨.hphy, 0x160, 0, 1, .wo, (.val 0), .any, false⟩
def HPHY.T1500_STAT : Field := ⟨.hphy, 0x168, 0, 2, .ro, (.val 0), .any, false⟩
def HPHY.CNT_FULL : Field := .counter .hphy 0x800
def HPHY.CNT_RESUME : Field := .counter .hphy 0x808
def HPHY.CNT_UNITS : Field := .counter .hphy 0x810
def HPHY.CNT_REPAIR : Field := .counter .hphy 0x818
def HPHY.CNT_MARGINAL : Field := .counter .hphy 0x820
def HPHY.CNT_HOLD_NS : Field := .counter .hphy 0x828
def HPHY.EV_TRAIN_FAIL : Nat := 0
def HPHY.EV_RESUME_FAIL : Nat := 1
def HPHY.EV_MARGINAL : Nat := 2
def HPHY.EV_REPAIR : Nat := 3
def HPHY.EV_RETRAIN_OVERDUE : Nat := 4
def HPHY.EV_PARAM_REJECT : Nat := 5
/-- The fields of page HPHY below. -/
def HPHY.fields : List Field :=
  [HPHY.CTL_RETRAIN_EN, HPHY.STAT_TRAINING, HPHY.STAT_UNIT, HPHY.STAT_TESTING, HPHY.MIN_EYE, HPHY.FLOOR_EYE, HPHY.MIN_VREF, HPHY.RETRY, HPHY.RETRAIN_PERIOD, HPHY.RETRAIN_TEMP_STEP, HPHY.RETRAIN_LIMIT, HPHY.TRAIN_KIND, HPHY.TRAIN_STEP, HPHY.TRAIN_PASS, HPHY.TRAIN_ATTEMPTS, HPHY.TRAIN_DURATION, HPHY.REPAIR_DQ, HPHY.REPAIR_CA, HPHY.LANE_SEL_PC, HPHY.LANE_SEL_LANE, HPHY.LANE_SEL_KIND, HPHY.LANE_RES, HPHY.RETRAIN_POS, HPHY.RETRAIN_DUE, HPHY.TEST_MODE, HPHY.TEST_GO, HPHY.TEST_DURATION, HPHY.TEST_STAT, HPHY.TEST_RES, HPHY.T1500_INSTR, HPHY.T1500_CHANNEL, HPHY.T1500_WRITE, HPHY.T1500_DATA, HPHY.T1500_CMD, HPHY.T1500_STAT, HPHY.CNT_FULL, HPHY.CNT_RESUME, HPHY.CNT_UNITS, HPHY.CNT_REPAIR, HPHY.CNT_MARGINAL] ++
  [HPHY.CNT_HOLD_NS]

/-! Page ZML. -/

def ZML.CTL_ENABLE : Field := ⟨.zml, 0x10, 0, 1, .rw, (.val 1), .any, false⟩
def ZML.CTL_RATE_CAP : Field := ⟨.zml, 0x10, 1, 2, .rw, (.val 0), (.resv 0 2), false⟩
def ZML.STAT_PRESENT : Field := ⟨.zml, 0x18, 0, 1, .ro, (.val 0), .any, false⟩
def ZML.STAT_HUB_READY : Field := ⟨.zml, 0x18, 1, 1, .ro, (.val 0), .any, false⟩
def ZML.STAT_HUB_HOLD : Field := ⟨.zml, 0x18, 2, 1, .ro, (.val 0), .any, false⟩
def ZML.LINK_STATE : Field := ⟨.zml, 0x100, 0, 3, .ro, (.val 0), .any, false⟩
def ZML.LINK_RATE : Field := ⟨.zml, 0x100, 4, 2, .ro, (.val 0), .any, false⟩
def ZML.LINK_WIDTH : Field := ⟨.zml, 0x100, 6, 2, .ro, (.val 0), .any, false⟩
def ZML.LINK_TX_LANES : Field := ⟨.zml, 0x100, 8, 4, .ro, (.val 0), .any, false⟩
def ZML.LINK_RX_LANES : Field := ⟨.zml, 0x100, 12, 4, .ro, (.val 0), .any, false⟩
def ZML.LINK_LOST_REASON : Field := ⟨.zml, 0x100, 16, 4, .ro, (.val 0), .any, false⟩
def ZML.LINK_ATTEMPTS : Field := ⟨.zml, 0x100, 24, 8, .ro, (.val 0), .any, false⟩
def ZML.CAPABILITY : Field := ⟨.zml, 0x108, 0, 32, .ro, (.val 0), .any, false⟩
def ZML.HUB_VENDOR : Field := ⟨.zml, 0x110, 0, 16, .ro, (.val 0), .any, false⟩
def ZML.HUB_MODEL : Field := ⟨.zml, 0x110, 16, 16, .ro, (.val 0), .any, false⟩
def ZML.HUB_VERSION : Field := ⟨.zml, 0x110, 32, 16, .ro, (.val 0), .any, false⟩
def ZML.HUB_CONTRACT : Field := ⟨.zml, 0x110, 48, 8, .ro, (.val 0), .any, false⟩
def ZML.HUB_SERIAL : Field := ⟨.zml, 0x118, 0, 64, .ro, (.val 0), .any, false⟩
def ZML.HUB_SEGMENTS : Field := ⟨.zml, 0x120, 0, 28, .ro, (.val 0), .any, false⟩
def ZML.HUB_PROGRAMS : Field := ⟨.zml, 0x128, 0, 16, .ro, (.val 0), .any, false⟩
def ZML.HUB_READS : Field := ⟨.zml, 0x128, 16, 16, .ro, (.val 0), .any, false⟩
def ZML.HUB_REPLAY : Field := ⟨.zml, 0x128, 32, 16, .ro, (.val 0), .any, false⟩
def ZML.HUB_T_PROGRAM : Field := ⟨.zml, 0x130, 0, 16, .ro, (.val 0), .any, false⟩
def ZML.HUB_T_READ : Field := ⟨.zml, 0x130, 16, 16, .ro, (.val 0), .any, false⟩
def ZML.HUB_T_FORMAT : Field := ⟨.zml, 0x130, 32, 16, .ro, (.val 0), .any, false⟩
def ZML.HUB_CR_CMD : Field := ⟨.zml, 0x138, 0, 16, .ro, (.val 0), .any, false⟩
def ZML.HUB_CR_WDATA : Field := ⟨.zml, 0x138, 16, 16, .ro, (.val 0), .any, false⟩
def ZML.HUB_CR_MGMT : Field := ⟨.zml, 0x138, 32, 16, .ro, (.val 0), .any, false⟩
def ZML.HUB_TEMP : Field := ⟨.zml, 0x140, 0, 8, .ro, (.val 0), .any, false⟩
def ZML.HUB_TEMP_HOLD : Field := ⟨.zml, 0x140, 8, 1, .ro, (.val 0), .any, false⟩
def ZML.OUTSTANDING_WR : Field := ⟨.zml, 0x148, 0, 12, .ro, (.val 0), .any, false⟩
def ZML.OUTSTANDING_ALL : Field := ⟨.zml, 0x148, 16, 12, .ro, (.val 0), .any, false⟩
def ZML.CMD : Field := ⟨.zml, 0x150, 0, 2, .wo, (.val 0), .any, false⟩
def ZML.CMD_STAT : Field := ⟨.zml, 0x158, 0, 2, .ro, (.val 0), .any, false⟩
def ZML.TIMEOUT : Field := ⟨.zml, 0x160, 0, 10, .rw, (.val 100), (.range 10 1000), false⟩
def ZML.LANE_ERR_MAX : Field := ⟨.zml, 0x168, 0, 24, .rw, (.val 4096), (.range 16 16777215), false⟩
def ZML.REPLAY_MAX : Field := ⟨.zml, 0x170, 0, 4, .rw, (.val 8), (.range 2 15), false⟩
def ZML.SB_LAST : Field := ⟨.zml, 0x178, 0, 30, .ro, (.val 0), .any, false⟩
def ZML.SEAL_GEN : Field := ⟨.zml, 0x180, 0, 64, .ro, (.val 0), .any, false⟩
def ZML.TRIM_TEMP_T : Field := ⟨.zml, 0x200, 0, 8, .ro, (.val 0), .any, false⟩
def ZML.TRIM_TEMP_APPLIED : Field := ⟨.zml, 0x200, 8, 8, .ro, (.val 0), .any, false⟩
def ZML.FLOOR_WIDTH : Field := ⟨.zml, 0x208, 0, 8, .rw, (.val 64), (.range 16 192), false⟩
def ZML.FLOOR_HEIGHT : Field := ⟨.zml, 0x208, 8, 8, .rw, (.val 8), (.range 2 64), false⟩
def ZML.TRIM_SOURCE : Field := ⟨.zml, 0x210, 0, 2, .ro, (.val 0), .any, false⟩
def ZML.TRIM_DUE : Field := ⟨.zml, 0x210, 2, 1, .ro, (.val 0), .any, false⟩
def ZML.TRIM_BELOW : Field := ⟨.zml, 0x210, 3, 1, .ro, (.val 0), .any, false⟩
def ZML.TRIM_APPLYING : Field := ⟨.zml, 0x210, 4, 1, .ro, (.val 0), .any, false⟩
def ZML.TRIM_CMD : Field := ⟨.zml, 0x218, 0, 1, .wo, (.val 0), .any, false⟩
def ZML.EYE_SEL : Field := ⟨.zml, 0x220, 0, 2, .rw, (.val 0), .any, false⟩
def ZML.EYE : Field := ⟨.zml, 0x228, 0, 64, .ro, (.val 0), .any, false⟩
def ZML.EYE_MIN_WIDTH : Field := ⟨.zml, 0x230, 0, 8, .ro, (.val 0), .any, false⟩
def ZML.EYE_MIN_HEIGHT : Field := ⟨.zml, 0x230, 8, 8, .ro, (.val 0), .any, false⟩
def ZML.TRIM_WSEL_WORD : Field := ⟨.zml, 0x238, 0, 2, .rw, (.val 0), .any, false⟩
def ZML.TRIM_WSEL_LANE : Field := ⟨.zml, 0x238, 2, 2, .rw, (.val 0), .any, false⟩
def ZML.TRIM_WORD : Field := ⟨.zml, 0x240, 0, 64, .ro, (.val 0), .any, false⟩
def ZML.TRIM_SRC : Field := ⟨.zml, 0x300, 0, 2, .ro, .trimSrc, .any, true⟩
def ZML.TRIM_REC_VALID : Field := ⟨.zml, 0x308, 0, 1, .ro, (.val 0), .any, true⟩
def ZML.TRIM_REC_ORIGIN : Field := ⟨.zml, 0x308, 1, 2, .ro, (.val 0), .any, true⟩
def ZML.TRIM_REC_VERSION : Field := ⟨.zml, 0x308, 8, 8, .ro, (.val 0), .any, true⟩
def ZML.TRIM_REC_T0 : Field := ⟨.zml, 0x308, 16, 8, .ro, (.val 0), .any, true⟩
def ZML.TRIM_REC_T1 : Field := ⟨.zml, 0x308, 24, 8, .ro, (.val 0), .any, true⟩
def ZML.TRIM_REC_T2 : Field := ⟨.zml, 0x308, 32, 8, .ro, (.val 0), .any, true⟩
def ZML.EYE_PERIOD : Field := ⟨.zml, 0x310, 0, 8, .rw, (.val 1), (.range 1 255), true⟩
def ZML.EYE_MISMATCH : Field := ⟨.zml, 0x310, 8, 8, .rw, (.val 1), .any, true⟩
def ZML.CNT_FLITS_TX : Field := .counter .zml 0x800
def ZML.CNT_FLITS_RX : Field := .counter .zml 0x808
def ZML.CNT_FEC_SYM : Field := .counter .zml 0x810
def ZML.CNT_FEC_UNCORR : Field := .counter .zml 0x818
def ZML.CNT_CRC_ERR : Field := .counter .zml 0x820
def ZML.CNT_NAK_TX : Field := .counter .zml 0x828
def ZML.CNT_REPLAY : Field := .counter .zml 0x830
def ZML.CNT_REPLAY_FLITS : Field := .counter .zml 0x838
def ZML.CNT_TRAIN : Field := .counter .zml 0x840
def ZML.CNT_LINK_DOWN : Field := .counter .zml 0x848
def ZML.CNT_DEGRADE : Field := .counter .zml 0x850
def ZML.CNT_TIMEOUT : Field := .counter .zml 0x858
def ZML.CNT_REISSUE : Field := .counter .zml 0x860
def ZML.CNT_REFUSED : Field := .counter .zml 0x868
def ZML.CNT_ABORT : Field := .counter .zml 0x870
def ZML.CNT_ABORT_LATE : Field := .counter .zml 0x878
def ZML.CNT_WRITE_FAILED : Field := .counter .zml 0x880
def ZML.CNT_LINES_WR : Field := .counter .zml 0x888
def ZML.CNT_LINES_RD : Field := .counter .zml 0x890
def ZML.CNT_SB_ERR : Field := .counter .zml 0x898
def ZML.CNT_TRIM_APPLY : Field := .counter .zml 0x900
def ZML.CNT_TRIM_FLOOR : Field := .counter .zml 0x908
def ZML.CNT_PREFEC_L0 : Field := .counter .zml 0x910
def ZML.CNT_PREFEC_L1 : Field := .counter .zml 0x918
def ZML.CNT_PREFEC_L2 : Field := .counter .zml 0x920
def ZML.CNT_PREFEC_L3 : Field := .counter .zml 0x928
def ZML.EV_PRESENCE : Nat := 0
def ZML.EV_LINK_UP : Nat := 1
def ZML.EV_LINK_DOWN : Nat := 2
def ZML.EV_DEGRADE : Nat := 3
def ZML.EV_LOST : Nat := 4
def ZML.EV_HUB_HOLD : Nat := 5
def ZML.EV_TIMEOUT : Nat := 6
def ZML.EV_PROTOCOL : Nat := 7
def ZML.EV_SB_ERROR : Nat := 8
def ZML.EV_NONCONFORM : Nat := 9
def ZML.EV_PARAM_REJECT : Nat := 10
def ZML.EV_WRITE_FAILED : Nat := 11
def ZML.EV_TRIM_APPLIED : Nat := 12
def ZML.EV_BELOW_FLOOR : Nat := 13
def ZML.EV_TRIM_MISSING : Nat := 14
/-- The fields of page ZML below. -/
def ZML.fields : List Field :=
  [ZML.CTL_ENABLE, ZML.CTL_RATE_CAP, ZML.STAT_PRESENT, ZML.STAT_HUB_READY, ZML.STAT_HUB_HOLD, ZML.LINK_STATE, ZML.LINK_RATE, ZML.LINK_WIDTH, ZML.LINK_TX_LANES, ZML.LINK_RX_LANES, ZML.LINK_LOST_REASON, ZML.LINK_ATTEMPTS, ZML.CAPABILITY, ZML.HUB_VENDOR, ZML.HUB_MODEL, ZML.HUB_VERSION, ZML.HUB_CONTRACT, ZML.HUB_SERIAL, ZML.HUB_SEGMENTS, ZML.HUB_PROGRAMS, ZML.HUB_READS, ZML.HUB_REPLAY, ZML.HUB_T_PROGRAM, ZML.HUB_T_READ, ZML.HUB_T_FORMAT, ZML.HUB_CR_CMD, ZML.HUB_CR_WDATA, ZML.HUB_CR_MGMT, ZML.HUB_TEMP, ZML.HUB_TEMP_HOLD, ZML.OUTSTANDING_WR, ZML.OUTSTANDING_ALL, ZML.CMD, ZML.CMD_STAT, ZML.TIMEOUT, ZML.LANE_ERR_MAX, ZML.REPLAY_MAX, ZML.SB_LAST, ZML.SEAL_GEN, ZML.TRIM_TEMP_T] ++
  [ZML.TRIM_TEMP_APPLIED, ZML.FLOOR_WIDTH, ZML.FLOOR_HEIGHT, ZML.TRIM_SOURCE, ZML.TRIM_DUE, ZML.TRIM_BELOW, ZML.TRIM_APPLYING, ZML.TRIM_CMD, ZML.EYE_SEL, ZML.EYE, ZML.EYE_MIN_WIDTH, ZML.EYE_MIN_HEIGHT, ZML.TRIM_WSEL_WORD, ZML.TRIM_WSEL_LANE, ZML.TRIM_WORD, ZML.TRIM_SRC, ZML.TRIM_REC_VALID, ZML.TRIM_REC_ORIGIN, ZML.TRIM_REC_VERSION, ZML.TRIM_REC_T0, ZML.TRIM_REC_T1, ZML.TRIM_REC_T2, ZML.EYE_PERIOD, ZML.EYE_MISMATCH, ZML.CNT_FLITS_TX, ZML.CNT_FLITS_RX, ZML.CNT_FEC_SYM, ZML.CNT_FEC_UNCORR, ZML.CNT_CRC_ERR, ZML.CNT_NAK_TX, ZML.CNT_REPLAY, ZML.CNT_REPLAY_FLITS, ZML.CNT_TRAIN, ZML.CNT_LINK_DOWN, ZML.CNT_DEGRADE, ZML.CNT_TIMEOUT, ZML.CNT_REISSUE, ZML.CNT_REFUSED, ZML.CNT_ABORT, ZML.CNT_ABORT_LATE] ++
  [ZML.CNT_WRITE_FAILED, ZML.CNT_LINES_WR, ZML.CNT_LINES_RD, ZML.CNT_SB_ERR, ZML.CNT_TRIM_APPLY, ZML.CNT_TRIM_FLOOR, ZML.CNT_PREFEC_L0, ZML.CNT_PREFEC_L1, ZML.CNT_PREFEC_L2, ZML.CNT_PREFEC_L3]

/-! Page STREAM. -/

def STREAM.STAT_STATE : Field := ⟨.stream, 0x18, 0, 3, .ro, (.val 0), .any, false⟩
def STREAM.STAT_ARMED : Field := ⟨.stream, 0x18, 3, 1, .ro, (.val 0), .any, false⟩
def STREAM.STAT_TRIGGERED : Field := ⟨.stream, 0x18, 4, 1, .ro, (.val 0), .any, false⟩
def STREAM.STAT_SPILLING : Field := ⟨.stream, 0x18, 5, 1, .ro, (.val 0), .any, false⟩
def STREAM.STAT_HELD : Field := ⟨.stream, 0x18, 6, 1, .ro, (.val 0), .any, false⟩
def STREAM.STAT_GROUP_WAIT : Field := ⟨.stream, 0x18, 7, 1, .ro, (.val 0), .any, false⟩
def STREAM.MODE_RING : Field := ⟨.stream, 0x100, 0, 1, .rw, (.val 0), .any, false⟩
def STREAM.MODE_STAGING : Field := ⟨.stream, 0x100, 1, 1, .rw, (.val 0), .any, false⟩
def STREAM.MODE_INTAKE : Field := ⟨.stream, 0x100, 2, 1, .rw, (.val 0), .any, false⟩
def STREAM.MODE_IDX_SHIFT : Field := ⟨.stream, 0x100, 4, 5, .rw, (.val 16), (.range 12 24), false⟩
def STREAM.MODE_IDX_CLASS : Field := ⟨.stream, 0x100, 9, 3, .rw, (.val 6), .any, false⟩
def STREAM.MODE_IDX_ENABLE : Field := ⟨.stream, 0x100, 12, 1, .rw, (.val 1), .any, false⟩
def STREAM.TARGET_ADDR : Field := ⟨.stream, 0x108, 0, 60, .rw, (.val 0), .any, false⟩
def STREAM.TARGET_LEN : Field := ⟨.stream, 0x110, 0, 52, .rw, (.val 0), .any, false⟩
def STREAM.SRC_PORTS : Field := ⟨.stream, 0x118, 0, 16, .rw, (.val 0), .any, false⟩
def STREAM.STG_BASE : Field := ⟨.stream, 0x120, 0, 10, .rw, (.val 0), .any, false⟩
def STREAM.STG_SIZE : Field := ⟨.stream, 0x120, 16, 11, .rw, (.val 0), .any, false⟩
def STREAM.TRIG_SRC : Field := ⟨.stream, 0x128, 0, 3, .rw, (.val 0), .any, false⟩
def STREAM.TRIG_ENABLE : Field := ⟨.stream, 0x128, 3, 1, .rw, (.val 0), .any, false⟩
def STREAM.TRIG_FALLING : Field := ⟨.stream, 0x128, 4, 1, .rw, (.val 0), .any, false⟩
def STREAM.PRE_BYTES : Field := ⟨.stream, 0x130, 0, 52, .rw, (.val 0), .any, false⟩
def STREAM.POST_BYTES : Field := ⟨.stream, 0x138, 0, 52, .rw, (.val 0), .any, false⟩
def STREAM.IDX_ADDR : Field := ⟨.stream, 0x140, 0, 60, .rw, (.val 0), .any, false⟩
def STREAM.IDX_LEN : Field := ⟨.stream, 0x148, 0, 52, .rw, (.val 0), .any, false⟩
def STREAM.RUNAHEAD : Field := ⟨.stream, 0x150, 0, 13, .rw, (.val 64), (.range 4 4096), false⟩
def STREAM.PAD_TIMEOUT : Field := ⟨.stream, 0x158, 0, 20, .rw, (.val 1000), .any, false⟩
def STREAM.SPILL_ON : Field := ⟨.stream, 0x160, 0, 8, .rw, (.val 192), (.range 1 255), false⟩
def STREAM.QUOTA : Field := ⟨.stream, 0x160, 16, 32, .rw, (.val 6144), .any, false⟩
def STREAM.CMD : Field := ⟨.stream, 0x168, 0, 3, .wo, (.val 0), .any, false⟩
def STREAM.CMD_RESULT : Field := ⟨.stream, 0x170, 0, 2, .ro, (.val 0), .any, false⟩
def STREAM.CMD_REASON : Field := ⟨.stream, 0x170, 8, 4, .ro, (.val 0), .any, false⟩
def STREAM.NEXT_OFFSET : Field := ⟨.stream, 0x178, 0, 64, .ro, (.val 0), .any, false⟩
def STREAM.TAIL : Field := ⟨.stream, 0x180, 0, 64, .ro, (.val 0), .any, false⟩
def STREAM.END_OFFSET : Field := ⟨.stream, 0x188, 0, 64, .ro, (.val 0), .any, false⟩
def STREAM.WIN_START : Field := ⟨.stream, 0x190, 0, 64, .ro, (.val 0), .any, false⟩
def STREAM.TRIG_TICK : Field := ⟨.stream, 0x198, 0, 64, .ro, (.val 0), .any, false⟩
def STREAM.TRIG_OFFSET : Field := ⟨.stream, 0x1A0, 0, 64, .ro, (.val 0), .any, false⟩
def STREAM.IDX_HEAD : Field := ⟨.stream, 0x1A8, 0, 64, .ro, (.val 0), .any, false⟩
def STREAM.IDX_COUNT : Field := ⟨.stream, 0x1B0, 0, 64, .ro, (.val 0), .any, false⟩
def STREAM.STG_FILL : Field := ⟨.stream, 0x1B8, 0, 15, .ro, (.val 0), .any, false⟩
def STREAM.SPILL_BYTES : Field := ⟨.stream, 0x1C0, 0, 64, .ro, (.val 0), .any, false⟩
def STREAM.LAP : Field := ⟨.stream, 0x1C8, 0, 64, .ro, (.val 0), .any, false⟩
def STREAM.STOP_REASON : Field := ⟨.stream, 0x1D0, 0, 4, .ro, (.val 0), .any, false⟩
def STREAM.STOP_PRE_SHORT : Field := ⟨.stream, 0x1D0, 4, 1, .ro, (.val 0), .any, false⟩
def STREAM.STOP_IDX_PARTIAL : Field := ⟨.stream, 0x1D0, 5, 1, .ro, (.val 0), .any, false⟩
def STREAM.CNT_BYTES : Field := .counter .stream 0x800
def STREAM.CNT_STRIPES : Field := .counter .stream 0x808
def STREAM.CNT_SPILL_ENTRY : Field := .counter .stream 0x810
def STREAM.CNT_SPILL_BYTES : Field := .counter .stream 0x818
def STREAM.CNT_BP_CYCLES : Field := .counter .stream 0x820
def STREAM.CNT_PAD_BYTES : Field := .counter .stream 0x828
def STREAM.CNT_TRIG_IGNORED : Field := .counter .stream 0x830
def STREAM.CNT_ADDR_MISMATCH : Field := .counter .stream 0x838
def STREAM.CNT_IDX_DROPPED : Field := .counter .stream 0x840
def STREAM.EV_TRIGGER : Nat := 0
def STREAM.EV_STOPPED : Nat := 1
def STREAM.EV_COMMITTED : Nat := 2
def STREAM.EV_SPILL_ENTRY : Nat := 3
def STREAM.EV_SPILL_EXIT : Nat := 4
def STREAM.EV_SPILL_LIMIT : Nat := 5
def STREAM.EV_WOODSHED_LOW : Nat := 6
def STREAM.EV_FULL : Nat := 7
def STREAM.EV_IDX_WRAP : Nat := 8
def STREAM.EV_IDX_FULL : Nat := 9
def STREAM.EV_ADDR_MISMATCH : Nat := 10
def STREAM.EV_PARAM_REJECT : Nat := 11
def STREAM.EV_REFUSED : Nat := 12
/-- The fields of page STREAM below. -/
def STREAM.fields : List Field :=
  [STREAM.STAT_STATE, STREAM.STAT_ARMED, STREAM.STAT_TRIGGERED, STREAM.STAT_SPILLING, STREAM.STAT_HELD, STREAM.STAT_GROUP_WAIT, STREAM.MODE_RING, STREAM.MODE_STAGING, STREAM.MODE_INTAKE, STREAM.MODE_IDX_SHIFT, STREAM.MODE_IDX_CLASS, STREAM.MODE_IDX_ENABLE, STREAM.TARGET_ADDR, STREAM.TARGET_LEN, STREAM.SRC_PORTS, STREAM.STG_BASE, STREAM.STG_SIZE, STREAM.TRIG_SRC, STREAM.TRIG_ENABLE, STREAM.TRIG_FALLING, STREAM.PRE_BYTES, STREAM.POST_BYTES, STREAM.IDX_ADDR, STREAM.IDX_LEN, STREAM.RUNAHEAD, STREAM.PAD_TIMEOUT, STREAM.SPILL_ON, STREAM.QUOTA, STREAM.CMD, STREAM.CMD_RESULT, STREAM.CMD_REASON, STREAM.NEXT_OFFSET, STREAM.TAIL, STREAM.END_OFFSET, STREAM.WIN_START, STREAM.TRIG_TICK, STREAM.TRIG_OFFSET, STREAM.IDX_HEAD, STREAM.IDX_COUNT, STREAM.STG_FILL] ++
  [STREAM.SPILL_BYTES, STREAM.LAP, STREAM.STOP_REASON, STREAM.STOP_PRE_SHORT, STREAM.STOP_IDX_PARTIAL, STREAM.CNT_BYTES, STREAM.CNT_STRIPES, STREAM.CNT_SPILL_ENTRY, STREAM.CNT_SPILL_BYTES, STREAM.CNT_BP_CYCLES, STREAM.CNT_PAD_BYTES, STREAM.CNT_TRIG_IGNORED, STREAM.CNT_ADDR_MISMATCH, STREAM.CNT_IDX_DROPPED]

/-! Page SEQ. -/

def SEQ.STAT_STATE : Field := ⟨.seq, 0x18, 0, 3, .ro, (.val 0), .any, false⟩
def SEQ.STAT_HOLD : Field := ⟨.seq, 0x18, 4, 3, .ro, (.val 0), .any, false⟩
def SEQ.PORT : Field := ⟨.seq, 0x100, 0, 4, .rw, .inst, .any, false⟩
def SEQ.LIST_ADDR : Field := ⟨.seq, 0x108, 0, 60, .rw, (.val 0), .any, false⟩
def SEQ.LIST_LEN : Field := ⟨.seq, 0x110, 0, 13, .rw, (.val 0), (.range 1 4096), false⟩
def SEQ.LIST_CLASS : Field := ⟨.seq, 0x118, 0, 3, .rw, (.val 6), .any, false⟩
def SEQ.START_TICK : Field := ⟨.seq, 0x120, 0, 64, .rw, (.val 0), .any, false⟩
def SEQ.FETCH_DEPTH : Field := ⟨.seq, 0x128, 0, 13, .rw, (.val 512), (.range 16 4096), false⟩
def SEQ.SPEC_LINES : Field := ⟨.seq, 0x130, 0, 17, .rw, (.val 4096), (.range 0 65536), false⟩
def SEQ.KEEP_LINES : Field := ⟨.seq, 0x138, 0, 17, .rw, (.val 8192), (.range 0 65536), false⟩
def SEQ.SEG_AHEAD : Field := ⟨.seq, 0x140, 0, 13, .rw, (.val 4096), (.range 1 4096), false⟩
def SEQ.CMD : Field := ⟨.seq, 0x148, 0, 3, .wo, (.val 0), .any, false⟩
def SEQ.CMD_RESULT : Field := ⟨.seq, 0x150, 0, 2, .ro, (.val 0), .any, false⟩
def SEQ.CMD_REASON : Field := ⟨.seq, 0x150, 8, 4, .ro, (.val 0), .any, false⟩
def SEQ.CMD_INDEX : Field := ⟨.seq, 0x150, 16, 12, .ro, (.val 0), .any, false⟩
def SEQ.LIST_CRC : Field := ⟨.seq, 0x158, 0, 32, .ro, (.val 0), .any, false⟩
def SEQ.CURSOR : Field := ⟨.seq, 0x160, 0, 64, .ro, (.val 0), .any, false⟩
def SEQ.WALK_NEXT : Field := ⟨.seq, 0x168, 0, 12, .ro, (.val 0), .any, false⟩
def SEQ.WALK_SPEC : Field := ⟨.seq, 0x168, 16, 12, .ro, (.val 0), .any, false⟩
def SEQ.WALK_BRANCHES : Field := ⟨.seq, 0x168, 32, 4, .ro, (.val 0), .any, false⟩
def SEQ.WALK_PINS : Field := ⟨.seq, 0x168, 40, 13, .ro, (.val 0), .any, false⟩
def SEQ.DELIVER_ENTRY : Field := ⟨.seq, 0x170, 0, 12, .ro, (.val 0), .any, false⟩
def SEQ.DELIVER_LINES : Field := ⟨.seq, 0x170, 16, 24, .ro, (.val 0), .any, false⟩
def SEQ.MARK_ARG : Field := ⟨.seq, 0x178, 0, 64, .ro, (.val 0), .any, false⟩
def SEQ.MARK_TICK : Field := ⟨.seq, 0x180, 0, 64, .ro, (.val 0), .any, false⟩
def SEQ.LAST_LATE_TICKS : Field := ⟨.seq, 0x188, 0, 24, .ro, (.val 0), .any, false⟩
def SEQ.LAST_LATE_ENTRY : Field := ⟨.seq, 0x188, 32, 12, .ro, (.val 0), .any, false⟩
def SEQ.STOP_REASON : Field := ⟨.seq, 0x190, 0, 4, .ro, (.val 0), .any, false⟩
def SEQ.STOP_INDEX : Field := ⟨.seq, 0x190, 16, 12, .ro, (.val 0), .any, false⟩
def SEQ.CNT_ENTRIES : Field := .counter .seq 0x800
def SEQ.CNT_LINES : Field := .counter .seq 0x808
def SEQ.CNT_LATE : Field := .counter .seq 0x810
def SEQ.CNT_LATE_DATA : Field := .counter .seq 0x818
def SEQ.CNT_LATE_CREDIT : Field := .counter .seq 0x820
def SEQ.CNT_LATE_TICKS : Field := .counter .seq 0x828
def SEQ.CNT_BR_RESOLVED : Field := .counter .seq 0x830
def SEQ.CNT_BR_MISS : Field := .counter .seq 0x838
def SEQ.CNT_BR_LATE_SAMPLE : Field := .counter .seq 0x840
def SEQ.CNT_KEEP_HIT : Field := .counter .seq 0x848
def SEQ.CNT_WAIT_PAST : Field := .counter .seq 0x850
def SEQ.CNT_MARKS : Field := .counter .seq 0x858
def SEQ.SPEC_FETCH : Field := .counter .seq 0x860
def SEQ.SPEC_PROMOTE : Field := .counter .seq 0x868
def SEQ.SPEC_SQUASH : Field := .counter .seq 0x870
def SEQ.SPEC_CANCEL : Field := .counter .seq 0x878
def SEQ.SPEC_DISCARD : Field := .counter .seq 0x880
def SEQ.SPEC_ERR_DEFER : Field := .counter .seq 0x888
def SEQ.SPEC_ERR_DROP : Field := .counter .seq 0x890
def SEQ.SPEC_STALE : Field := .counter .seq 0x898
def SEQ.EV_LOADED : Nat := 0
def SEQ.EV_DONE : Nat := 1
def SEQ.EV_STOPPED : Nat := 2
def SEQ.EV_REFUSED : Nat := 3
def SEQ.EV_LATE : Nat := 4
def SEQ.EV_MARK : Nat := 5
def SEQ.EV_BR_LATE_SAMPLE : Nat := 6
def SEQ.EV_PARAM_REJECT : Nat := 7
def SEQ.EV_LIST_ERROR : Nat := 8
def SEQ.EV_KEEP_OVER : Nat := 9
/-- The fields of page SEQ below. -/
def SEQ.fields : List Field :=
  [SEQ.STAT_STATE, SEQ.STAT_HOLD, SEQ.PORT, SEQ.LIST_ADDR, SEQ.LIST_LEN, SEQ.LIST_CLASS, SEQ.START_TICK, SEQ.FETCH_DEPTH, SEQ.SPEC_LINES, SEQ.KEEP_LINES, SEQ.SEG_AHEAD, SEQ.CMD, SEQ.CMD_RESULT, SEQ.CMD_REASON, SEQ.CMD_INDEX, SEQ.LIST_CRC, SEQ.CURSOR, SEQ.WALK_NEXT, SEQ.WALK_SPEC, SEQ.WALK_BRANCHES, SEQ.WALK_PINS, SEQ.DELIVER_ENTRY, SEQ.DELIVER_LINES, SEQ.MARK_ARG, SEQ.MARK_TICK, SEQ.LAST_LATE_TICKS, SEQ.LAST_LATE_ENTRY, SEQ.STOP_REASON, SEQ.STOP_INDEX, SEQ.CNT_ENTRIES, SEQ.CNT_LINES, SEQ.CNT_LATE, SEQ.CNT_LATE_DATA, SEQ.CNT_LATE_CREDIT, SEQ.CNT_LATE_TICKS, SEQ.CNT_BR_RESOLVED, SEQ.CNT_BR_MISS, SEQ.CNT_BR_LATE_SAMPLE, SEQ.CNT_KEEP_HIT, SEQ.CNT_WAIT_PAST] ++
  [SEQ.CNT_MARKS, SEQ.SPEC_FETCH, SEQ.SPEC_PROMOTE, SEQ.SPEC_SQUASH, SEQ.SPEC_CANCEL, SEQ.SPEC_DISCARD, SEQ.SPEC_ERR_DEFER, SEQ.SPEC_ERR_DROP, SEQ.SPEC_STALE]
def ROTA.EV_PARAM_REJECT : Nat := 0
def ROTA.EV_TABLE_APPLIED : Nat := 1
def ROTA.EV_ABORT_DECLINED : Nat := 2

/-- EVENT_BITS of a page: the highest defined EVENT bit plus one (R480). -/
def Page.eventBits : Page → Nat
  | .global => 10
  | .clock => 5
  | .power => 58
  | .alm => 10
  | .post => 6
  | .collier => 7
  | .reeve => 6
  | .err => 10
  | .gln => 5
  | .map => 6
  | .kiln => 0
  | .loom => 1
  | .port => 8
  | .ht => 11
  | .hphy => 6
  | .zml => 15
  | .stream => 13
  | .seq => 10
  | .rotaH => 3
  | .rotaM => 3

/-- Whether EVENT bit `k` of a page is defined; POWER leaves 39:37 and 47:42 reserved, GLOBAL 7:2 (R462, R486). -/
def Page.eventDefined (p : Page) (k : Nat) : Bool :=
  match p with
  | .power => (k < 42 && !(37 ≤ k && k < 40)) || (48 ≤ k && k < 58)
  | .global => k < 2 || k = 8 || k = 9
  | p => decide (k < p.eventBits)

end Sys2Proof.Machine
end

