-- ==== Sys2Proof/Machine/FieldArrays.lean ====
section
/-! DEFINITION. The register fields that the spec gives as arrays: Reeve's per-port and per-class registers (R385, R386), Rota's
slot tables and per-owner counters (R388, R401), the posts (R424, R425), residency counters (R443). -/
namespace Sys2Proof.Machine

namespace REEVE
/-- Per-port meters (R385). -/
def PM_CIR (n : Nat) : Field := ⟨.reeve, 0x200 + 0x20 * n, 0, 32, .rw, .val 0, .any, false⟩
def PM_PIR (n : Nat) : Field := ⟨.reeve, 0x200 + 0x20 * n, 32, 32, .rw, .val 0, .any, false⟩
def PM_CBS (n : Nat) : Field := ⟨.reeve, 0x208 + 0x20 * n, 0, 32, .rw, .val 0x4000, .range 8176 (2 ^ 32 - 1), false⟩
def PM_PBS (n : Nat) : Field := ⟨.reeve, 0x208 + 0x20 * n, 32, 32, .rw, .val 0x4000, .range 8176 (2 ^ 32 - 1), false⟩
def PM_ENABLE (n : Nat) : Field := ⟨.reeve, 0x210 + 0x20 * n, 0, 1, .rw, .val 0, .any, false⟩
def PM_RED_ACT (n : Nat) : Field := ⟨.reeve, 0x210 + 0x20 * n, 1, 1, .rw, .val 0, .any, false⟩
def PM_BE (n : Nat) : Field := ⟨.reeve, 0x210 + 0x20 * n, 2, 1, .rw, .val 0, .any, false⟩
def PM_TC (n : Nat) : Field := ⟨.reeve, 0x218 + 0x20 * n, 0, 32, .ro, .val 0, .any, false⟩
def PM_TP (n : Nat) : Field := ⟨.reeve, 0x218 + 0x20 * n, 32, 32, .ro, .val 0, .any, false⟩
/-- Per-class meters, control and shapers (R385, R386). -/
def CL_CIR (c : Nat) : Field := ⟨.reeve, 0x400 + 0x40 * c, 0, 32, .rw, .val 0, .any, false⟩
def CL_PIR (c : Nat) : Field := ⟨.reeve, 0x400 + 0x40 * c, 32, 32, .rw, .val 0, .any, false⟩
def CL_CBS (c : Nat) : Field := ⟨.reeve, 0x408 + 0x40 * c, 0, 32, .rw, .val 0x4000, .range 8176 (2 ^ 32 - 1), false⟩
def CL_PBS (c : Nat) : Field := ⟨.reeve, 0x408 + 0x40 * c, 32, 32, .rw, .val 0x4000, .range 8176 (2 ^ 32 - 1), false⟩
def CL_METER_EN (c : Nat) : Field := ⟨.reeve, 0x410 + 0x40 * c, 0, 1, .rw, .val 0, .any, false⟩
def CL_RED_ACT (c : Nat) : Field := ⟨.reeve, 0x410 + 0x40 * c, 1, 1, .rw, .val 0, .any, false⟩
def CL_KIND (c : Nat) : Field := ⟨.reeve, 0x410 + 0x40 * c, 2, 1, .rw, .val 0, .any, false⟩
def CL_RANK (c : Nat) : Field := ⟨.reeve, 0x410 + 0x40 * c, 3, 4, .rw, .val (2 + c), .any, false⟩
def CL_TIER_H (c : Nat) : Field := ⟨.reeve, 0x410 + 0x40 * c, 8, 1, .rw, .val 1, .any, false⟩
def CL_TIER_M (c : Nat) : Field := ⟨.reeve, 0x410 + 0x40 * c, 9, 1, .rw, .val 1, .any, false⟩
def CL_SHAPE_EN (c : Nat) : Field := ⟨.reeve, 0x410 + 0x40 * c, 10, 1, .rw, .val 0, .any, false⟩
def CL_RATE (c : Nat) : Field := ⟨.reeve, 0x418 + 0x40 * c, 0, 32, .rw, .val 0, .any, false⟩
def CL_CAP (c : Nat) : Field := ⟨.reeve, 0x418 + 0x40 * c, 32, 32, .rw, .val 0x4000, .range 8176 (2 ^ 32 - 1), false⟩
def CL_CREDIT (c : Nat) : Field := ⟨.reeve, 0x420 + 0x40 * c, 0, 64, .ro, .val 0, .any, false⟩
def CL_DEBT_CLEAR (c : Nat) : Field := ⟨.reeve, 0x428 + 0x40 * c, 0, 1, .wo, .val 0, .any, false⟩
def CL_TC (c : Nat) : Field := ⟨.reeve, 0x430 + 0x40 * c, 0, 32, .ro, .val 0, .any, false⟩
def CL_TP (c : Nat) : Field := ⟨.reeve, 0x430 + 0x40 * c, 32, 32, .ro, .val 0, .any, false⟩
/-- Latency maxima (R383). -/
def MAXLAT_RD (n : Nat) : Field := ⟨.reeve, 0x600 + 0x10 * n, 0, 32, .rc, .val 0, .any, false⟩
def MAXLAT_RD_TAG (n : Nat) : Field := ⟨.reeve, 0x600 + 0x10 * n, 32, 12, .rc, .val 0, .any, false⟩
def MAXLAT_WR (n : Nat) : Field := ⟨.reeve, 0x608 + 0x10 * n, 0, 32, .rc, .val 0, .any, false⟩
def MAXLAT_WR_TAG (n : Nat) : Field := ⟨.reeve, 0x608 + 0x10 * n, 32, 12, .rc, .val 0, .any, false⟩
def MAXLAT_C (c : Nat) : Field := ⟨.reeve, 0x700 + 8 * c, 0, 32, .rc, .val 0, .any, false⟩
def MAXLAT_C_TAG (c : Nat) : Field := ⟨.reeve, 0x700 + 8 * c, 32, 12, .rc, .val 0, .any, false⟩
def MAXLAT_C_PORT (c : Nat) : Field := ⟨.reeve, 0x700 + 8 * c, 44, 4, .rc, .val 0, .any, false⟩
def SHORT_BYTES (r : Nat) : Field := .counter .reeve (0x840 + 8 * r)
/-- The reset weights of requesters 0 to 19, byte by byte from WEIGHT_0 to WEIGHT_2 (R385). -/
def weightReset (r : Nat) : Nat := bits (0xFF084004 * 2 ^ 128 + 0x0808102010402040 * 2 ^ 64 + 0x4038302820181008) (8 * r) 8
def WEIGHT (r : Nat) : Field := ⟨.reeve, 0x170 + 8 * (r / 8), 8 * (r % 8), 8, .rw, .val (weightReset r), .range 1 255, false⟩
/-- Sampling ring selectors (R384, R385). -/
def SAMP_TARGET (k : Nat) : Field := ⟨.reeve, 0x188 + 8 * k, 0, 6, .rw, .val 0, .any, false⟩
def SAMP_REQ (k : Nat) : Field := ⟨.reeve, 0x188 + 8 * k, 8, 5, .rw, .val 0, .any, false⟩
def SAMP_ENABLE (k : Nat) : Field := ⟨.reeve, 0x188 + 8 * k, 16, 1, .rw, .val 0, .any, false⟩
def SAMP_POS (k : Nat) : Field := ⟨.reeve, 0x1A8, 4 * k, 4, .ro, .val 0, .any, false⟩
/-- Every field of the array registers of the page. -/
def arrays : List Field :=
  ((List.range 16).flatMap fun n => [PM_CIR n, PM_PIR n, PM_CBS n, PM_PBS n, PM_ENABLE n, PM_RED_ACT n, PM_BE n, PM_TC n, PM_TP n,
      MAXLAT_RD n, MAXLAT_RD_TAG n, MAXLAT_WR n, MAXLAT_WR_TAG n]) ++
  ((List.range 8).flatMap fun c => [CL_CIR c, CL_PIR c, CL_CBS c, CL_PBS c, CL_METER_EN c, CL_RED_ACT c, CL_KIND c, CL_RANK c,
      CL_TIER_H c, CL_TIER_M c, CL_SHAPE_EN c, CL_RATE c, CL_CAP c, CL_CREDIT c, CL_DEBT_CLEAR c, CL_TC c, CL_TP c,
      MAXLAT_C c, MAXLAT_C_TAG c, MAXLAT_C_PORT c]) ++
  ((List.range 20).flatMap fun r => [SHORT_BYTES r, WEIGHT r]) ++
  ((List.range 4).flatMap fun k => [SAMP_TARGET k, SAMP_REQ k, SAMP_ENABLE k])
end REEVE

namespace ROTA
/-- STAT.SHORTENED (R402). -/
def STAT_SHORTENED (p : Page) : Field := ⟨p, 0x18, 0, 1, .ro, .val 0, .any, false⟩
/-- Entry `k` of the slot table: OWNER and URG (R388). The field holds the shadow. -/
def OWNER (p : Page) (k : Nat) : Field := ⟨p, 0x100 + 8 * (k / 8), 8 * (k % 8), 5, .rw, .val 31, .whole, false⟩
def URG (p : Page) (k : Nat) : Field := ⟨p, 0x100 + 8 * (k / 8), 8 * (k % 8) + 5, 1, .rw, .val 0, .whole, false⟩
def EFF_SEL (p : Page) : Field := ⟨p, 0x200, 0, 8, .rw, .val 0, .resv 0 (if p = .rotaH then 255 else 127), false⟩
def EFF_OWNER (p : Page) : Field := ⟨p, 0x208, 0, 5, .ro, .val 31, .any, false⟩
def EFF_URG (p : Page) : Field := ⟨p, 0x208, 5, 1, .ro, .val 0, .any, false⟩
def EFF_MOVED (p : Page) : Field := ⟨p, 0x208, 6, 1, .ro, .val 0, .any, false⟩
/-- Hearth pointer or media TX pointer, and media RX pointer (R401). -/
def POINTER (p : Page) : Field := ⟨p, 0x210, 0, 8, .ro, .val 0, .any, false⟩
def POINTER_RX : Field := ⟨.rotaM, 0x210, 8, 7, .ro, .val 0, .any, false⟩
def DIE_MASK : Field := ⟨.rotaM, 0x218, 0, 27, .rw, .val 0x7FFFFFF, .any, false⟩
def ABORT_LIMIT : Field := ⟨.rotaM, 0x220, 0, 3, .rw, .val 2, .any, false⟩
def RESTART_WAIT : Field := ⟨.rotaM, 0x220, 8, 8, .rw, .val 4, .range 1 255, false⟩
def BAL_SEL_REQ : Field := ⟨.rotaM, 0x228, 0, 5, .rw, .val 0, .resv 0 19, false⟩
def BAL_SEL_RX : Field := ⟨.rotaM, 0x228, 8, 1, .rw, .val 0, .any, false⟩
def BAL : Field := ⟨.rotaM, 0x230, 0, 8, .ro, .val 0, .any, false⟩
def CNT_GRANT (p : Page) (r : Nat) : Field := .counter p (0x800 + 0x20 * r)
def CNT_WAIT (p : Page) (r : Nat) : Field := .counter p (0x808 + 0x20 * r)
def MAXWAIT (p : Page) (r : Nat) : Field := ⟨p, 0x810 + 0x20 * r, 0, 32, .rc, .val 0, .any, false⟩
def CNT_WITHDRAW (p : Page) (r : Nat) : Field := .counter p (0x818 + 0x20 * r)
def CNT_DEAD (p : Page) : Field := .counter p 0xA80
def CNT_URGENT (p : Page) : Field := .counter p 0xA88
def CNT_ABORT_DECLINED : Field := .counter .rotaM 0xA90
def CNT_RESTART : Field := .counter .rotaM 0xA98
/-- Table length: 256 entries on Hearth, 128 on media (R388). -/
def entries (p : Page) : Nat := if p = .rotaH then 256 else 128
/-- Every field of a Rota page. -/
def fields (p : Page) : List Field :=
  [STAT_SHORTENED p, EFF_SEL p, EFF_OWNER p, EFF_URG p, EFF_MOVED p, POINTER p, CNT_DEAD p, CNT_URGENT p] ++
  (if p = .rotaM then [POINTER_RX, DIE_MASK, ABORT_LIMIT, RESTART_WAIT, BAL_SEL_REQ, BAL_SEL_RX, BAL, CNT_ABORT_DECLINED,
    CNT_RESTART] else []) ++
  ((List.range (entries p)).flatMap fun k => [OWNER p k, URG p k]) ++
  ((List.range 20).flatMap fun r => [CNT_GRANT p r, CNT_WAIT p r, MAXWAIT p r, CNT_WITHDRAW p r])
end ROTA

namespace POST
/-- The latches (R409): the field holds the holder's owner number, 0 when free. -/
def LATCH (k : Nat) : Field := ⟨.post, 0x100 + 8 * k, 0, 4, .rl, .val 0, .any, false⟩
/-- Inbound posts (R412, R425). -/
def IN_PTR (k : Nat) : Field := ⟨.post, 0x200 + 0x20 * k, 0, 64, .rw, .val 0, .any, false⟩
def IN_LEN (k : Nat) : Field := ⟨.post, 0x208 + 0x20 * k, 0, 32, .rw, .val 0, .any, false⟩
def IN_SEQ (k : Nat) : Field := ⟨.post, 0x208 + 0x20 * k, 32, 16, .rw, .val 0, .any, false⟩
def IN_OWNER (k : Nat) : Field := ⟨.post, 0x208 + 0x20 * k, 48, 4, .ro, .val 0, .any, false⟩
def IN_TIMED_OUT (k : Nat) : Field := ⟨.post, 0x208 + 0x20 * k, 62, 1, .ro, .val 0, .any, false⟩
def IN_FULL (k : Nat) : Field := ⟨.post, 0x208 + 0x20 * k, 63, 1, .w1s, .val 0, .any, false⟩
def IN_WITHDRAW (k : Nat) : Field := ⟨.post, 0x210 + 0x20 * k, 0, 1, .wo, .val 0, .any, false⟩
def IN_LAST_SEQ (k : Nat) : Field := ⟨.post, 0x218 + 0x20 * k, 0, 16, .ro, .val 0, .any, false⟩
def IN_LAST_OWNER (k : Nat) : Field := ⟨.post, 0x218 + 0x20 * k, 16, 4, .ro, .val 0, .any, false⟩
def IN_LAST_BUSY (k : Nat) : Field := ⟨.post, 0x218 + 0x20 * k, 20, 1, .ro, .val 0, .any, false⟩
/-- Outbound posts (R415). -/
def OUT_PTR (k : Nat) : Field := ⟨.post, 0x300 + 0x20 * k, 0, 64, .ro, .val 0, .any, false⟩
def OUT_LEN (k : Nat) : Field := ⟨.post, 0x308 + 0x20 * k, 0, 32, .ro, .val 0, .any, false⟩
def OUT_SEQ (k : Nat) : Field := ⟨.post, 0x308 + 0x20 * k, 32, 16, .ro, .val 0, .any, false⟩
def OUT_FULL (k : Nat) : Field := ⟨.post, 0x308 + 0x20 * k, 63, 1, .ro, .val 0, .any, false⟩
def OUT_ACK (k : Nat) : Field := ⟨.post, 0x310 + 0x20 * k, 0, 16, .wo, .val 0, .any, false⟩
/-- Every field of the post arrays. -/
def arrays : List Field :=
  (List.range 8).flatMap fun k => [LATCH k, IN_PTR k, IN_LEN k, IN_SEQ k, IN_OWNER k, IN_TIMED_OUT k, IN_FULL k, IN_WITHDRAW k,
    IN_LAST_SEQ k, IN_LAST_OWNER k, IN_LAST_BUSY k, OUT_PTR k, OUT_LEN k, OUT_SEQ k, OUT_FULL k, OUT_ACK k]
end POST

namespace POWER
/-- Residency counters, one per mode code (R443). -/
def RES (k : Nat) : Field := ⟨.power, 0x180 + 8 * k, 0, 64, .ro, .val 0, .any, false⟩
end POWER

/-- EVENT bit PARAM_REJECT of a page, where the page has one. -/
def Page.paramReject : Page → Option Nat
  | .clock => some CLOCK.EV_PARAM_REJECT | .power => some POWER.EV_PARAM_REJECT | .alm => some ALM.EV_PARAM_REJECT
  | .post => some POST.EV_PARAM_REJECT | .collier => some COLLIER.EV_PARAM_REJECT | .reeve => some REEVE.EV_PARAM_REJECT
  | .err => some ERR.EV_PARAM_REJECT | .gln => some GLN.EV_PARAM_REJECT | .map => some MAP.EV_PARAM_REJECT
  | .loom => some LOOM.EV_PARAM_REJECT | .port => some PORT.EV_PARAM_REJECT | .ht => some HT.EV_PARAM_REJECT
  | .hphy => some HPHY.EV_PARAM_REJECT | .zml => some ZML.EV_PARAM_REJECT | .rotaH => some ROTA.EV_PARAM_REJECT
  | .rotaM => some ROTA.EV_PARAM_REJECT | .stream => some STREAM.EV_PARAM_REJECT | .seq => some SEQ.EV_PARAM_REJECT
  | .global => none | .kiln => none

/-- The fields of the registers of a page, its header's EVENT group and banked registers apart. -/
def Page.fields : Page → List Field
  | .global => GLOBAL.fields | .clock => CLOCK.fields
  | .power => POWER.fields ++ (List.range 8).map POWER.RES
  | .alm => ALM.fields
  | .post => POST.fields ++ POST.arrays
  | .collier => COLLIER.fields
  | .reeve => REEVE.fields ++ REEVE.arrays
  | .err => ERR.fields | .gln => GLN.fields | .map => MAP.fields | .kiln => KILN.fields | .loom => LOOM.fields
  | .port => PORT.fields | .ht => HT.fields | .hphy => HPHY.fields | .zml => ZML.fields
  | .stream => STREAM.fields | .seq => SEQ.fields
  | .rotaH => ROTA.fields .rotaH | .rotaM => ROTA.fields .rotaM

/-- The fields of the register at offset `off` of instance `n` of page `p`. -/
def fieldsAt (p : Page) (n off : Nat) : List Field :=
  p.fields.filter fun f => f.off = off && (!f.only0 || n = 0)

/-- How many counters a page has (R480). -/
def Page.counters (p : Page) (n : Nat) : Nat :=
  (p.fields.filter fun f => 0x800 ≤ f.off && f.lo = 0 && (!f.only0 || n = 0)).length

end Sys2Proof.Machine
end

