-- ==== Sys2Proof/Machine/Types.lean ====
section
/-! DEFINITION. The kinds of data the blocks hold besides their registers, chapter by chapter. Every structure is plain data
whose all-zero value (`default`) is the value after reset. -/
namespace Sys2Proof.Machine

/-! ### The Almanac (chapter "Trace time and the Almanac") -/

/-- Kinds of schedule entry (R45). -/
inductive EntKind | free | windowOpen | windowClose | period | playDue | arm | disarm | wake
  deriving DecidableEq, Repr, Inhabited

/-- The code of a kind (R45). -/
def EntKind.code : EntKind → Nat
  | .free => 0 | .windowOpen => 1 | .windowClose => 2 | .period => 3 | .playDue => 4 | .arm => 5 | .disarm => 6 | .wake => 7

/-- The kind of a code (R45). -/
def EntKind.ofCode : Nat → EntKind
  | 1 => .windowOpen | 2 => .windowClose | 3 => .period | 4 => .playDue | 5 => .arm | 6 => .disarm | 7 => .wake
  | _ => .free

/-- One schedule entry (R45); `past` and `skewed` are the marks that the fire log takes (R38, R39, R46). -/
structure Entry where
  kind : EntKind
  tick : Tick
  arg : Word
  past : Bool
  skewed : Bool
  deriving DecidableEq, Repr, Inhabited

/-- One record of the fire log (R49, R61). -/
structure FireRec where
  index : Nat
  kind : EntKind
  skewed : Bool
  past : Bool
  est : Bool
  wakeTag : Nat
  delay : Nat
  tick : Tick
  deriving DecidableEq, Repr, Inhabited

/-- The four period parameters (R52). -/
structure PeriodParams where
  period : Nat
  guar : Nat
  bg : Nat
  shrinkMax : Nat
  deriving DecidableEq, Repr, Inhabited

/-- What the Almanac holds besides its registers. -/
structure AlmSt where
  /-- the 1024 schedule entries (R45) -/
  sched : Tab Entry
  /-- the fire log, oldest first, at most 64 records (R49) -/
  log : List FireRec
  /-- carried fraction of a tick while estimating, in 1/800,000,000 (R42) -/
  frac : Nat
  /-- last level of TB_ALIVE and the wall-clock time of its last change (R36, R42) -/
  alive : Bool
  aliveAt : Nat
  /-- TB_ALIVE has changed since the loss (R44) -/
  backSeen : Bool
  /-- the period parameters in force; none while they are those of reset. The registers hold what was last written (R52) -/
  act : Option PeriodParams
  /-- shrink of the current period, in ticks, and the lateness recorded in it (R55, R56) -/
  shrink : Nat
  late : Nat
  /-- background bytes granted in this period, per target (R51, R372) -/
  spent : Tab Nat
  /-- discontinuities so far (R39, R141) -/
  disc : Nat
  /-- by work bit, one entry for each unit that was under way at a WINDOW_CLOSE and has not ended: what it works on, and the tick of
  that close (R54) -/
  overruns : Tab (List (Nat × Tick))
  deriving DecidableEq, Repr, Inhabited

/-! ### Client ports (chapter "Iresk client ports") -/

/-- One WDAT beat (R62, R70). -/
structure WBeat where
  data : Beat
  be : ByteEn
  deriving DecidableEq, Repr, Inhabited

/-- Colours of Reeve's meters (R364). -/
inductive Color | green | yellow | red
  deriving DecidableEq, Repr, Inhabited

/-- Where an accepted request stands. -/
inductive Phase
  /-- in the intake queue, unpresented (R75) -/
  | intake
  /-- red at a HOLD port meter (R365) -/
  | portHeld
  /-- in its class meter's queue (R367) -/
  | classWait
  /-- in a class shaper (R368) -/
  | shaper
  /-- released to stage C, its lines being served -/
  | lines
  /-- at Kiln, waiting for its turn in the stream (R121) -/
  | kiln
  /-- presented FENCE, PERSIST or PERSIST_NS (R100, R104) -/
  | order
  /-- every effect taken; its response may be delivered in its ordered place -/
  | ready
  deriving DecidableEq, Repr, Inhabited

/-- Where one line of a released request stands. -/
inductive LPhase
  /-- its Hearth access is queued or under way -/
  | hearth
  /-- the Hearth access has been served -/
  | served
  /-- its media read is queued or under way (R23) -/
  | media
  /-- the medium's answer is here -/
  | filled
  /-- a write waits for a directory way or for hold-up room (R279) -/
  | dirWait
  /-- the request has taken effect on the line -/
  | done
  deriving DecidableEq, Repr, Inhabited

/-- A Hearth line that failed its check and is being replaced: its stack, the logical line, trace time and estimated flag of the check, and
when it was made (R246, R254). -/
structure HFail where
  stack : Nat
  line : Nat
  tick : Nat
  est : Bool
  at_ : Nat
  deriving DecidableEq, Repr, Inhabited

/-- One line of a released request. -/
structure LineSt where
  phase : LPhase
  /-- status code of the line (R74) -/
  status : Nat
  data : Line
  /-- the classification of the line that `data` holds: 0 GOOD, 1 BLANK, 2 POISON, 3 FAIL (R240) -/
  cls : Nat
  /-- a clean Hearth copy failed its check: trace time and estimated flag of that check (R246, R254) -/
  hfail : Option HFail
  /-- the bound of R242 for the media read of the line -/
  bound : Nat
  /-- wall-clock time at which it began to wait for a directory way (R279) -/
  waitAt : Option Nat
  deriving DecidableEq, Repr, Inhabited

/-- An accepted request, kept from the transfer of its REQ to that of its final RSP beat (R65, R76). -/
structure Req where
  /-- serial number: the order of acceptance over all ports -/
  id : Nat
  op : Nat
  tag : Nat
  oid : Nat
  addr : Nat
  len : Nat
  cls : Nat
  attr : Nat
  /-- wall-clock time of issue (R91, R383) -/
  at_ : Nat
  /-- WDAT beats accepted so far, in order; `closed` once none is missing -/
  beats : List WBeat
  closed : Bool
  /-- the status that a failed intake check or framing error decided (R69, R71) -/
  fail : Option Nat
  phase : Phase
  color : Color
  /-- the class under which Reeve regulates it: CLASS_0 once demoted (R365) -/
  rcls : Nat
  /-- wall-clock time at which a range hold began to stall it (R115) -/
  stall : Option Nat
  /-- wall-clock time of entry into its present meter hold (R365) -/
  heldAt : Nat
  /-- its lines, lowest address first, once released -/
  lines : List LineSt
  /-- it has taken effect on at least one line; its namespace or range has since been removed (R509) -/
  began : Bool
  past : Bool
  /-- status and word 0 of a single-beat response -/
  status : Nat
  word0 : Word
  /-- response beats transferred -/
  sent : Nat
  /-- its place in the order of presentation over all ports (R97) -/
  pseq : Nat
  /-- serial numbers of the requests a PERSIST or PERSIST_NS covers (R104, R105) -/
  covers : List Nat
  /-- lines of other ports that a PERSIST_NS covers, with the serial of the write, and stream offsets of other ports (R105) -/
  coverLines : List (Nat × Nat)
  coverStr : List (Nat × Nat)
  /-- a line that it covers in a stream that has started anew became durable as poison (R106) -/
  lostSeen : Bool
  /-- at Kiln: the stream it feeds (R121) -/
  stream : Option Nat
  deriving DecidableEq, Repr, Inhabited

/-- One RSP beat (R62, R73). -/
structure RspBeat where
  data : Beat
  tag : Nat
  status : Nat
  last : Bool
  deriving DecidableEq, Repr, Inhabited

/-- One PLY beat (R62, R79). -/
structure PlyBeat where
  data : Beat
  kind : Nat
  status : Nat
  first : Bool
  last : Bool
  est : Bool
  info : Nat
  deriving DecidableEq, Repr, Inhabited

/-- What a port holds besides its registers. -/
structure PortSt where
  /-- accepted requests, oldest first, until their final RSP beat -/
  reqs : List Req
  /-- WDAT beats accepted before their request, at most 64 (R70) -/
  early : List (WBeat × Bool)
  /-- discarding beats up to and including the next WDAT_LAST (R71) -/
  discard : Bool
  /-- presentations made, modulo 64 (R75) -/
  presented : Nat
  /-- URG as last sampled, and the wall-clock time at which it last fell below URG_EFF (R80) -/
  urg : Nat
  urgFall : Option Nat
  /-- wall-clock time, plus 1, since which the AON watch has seen URG at 3 with PORT_READY low in a sleeping mode or its entry (R81) -/
  urg3At : Nat
  /-- wall-clock time up to which CNT_URG3_CYCLES and the tag stall have been counted -/
  urgAt : Nat
  /-- the last fall of PORT_READY was one across which the credit count carries on (R78) -/
  carryCredit : Bool
  /-- PLY_CREDITS in force since the last rise of PORT_READY (R89) -/
  credits : Nat
  /-- wall-clock time at which PCLK began to run (R83) -/
  pclkAt : Nat
  /-- a chunk in delivery: the request's serial number (R73) -/
  chunk : Option Nat
  /-- a request is held on the reused tag `tagHeld`: wall-clock time up to which its stall has been counted (R76) -/
  tagStall : Option Nat
  tagHeld : Nat
  /-- what the port's writes left that is not known durable: logical line, request, serial of the effect (R104) -/
  wrote : List (Nat × Nat × Nat)
  /-- what they left in streams: stream, request, first and end offset (R107) -/
  fed : List (Nat × Nat × Nat × Nat)
  /-- lines that became durable only as poison: logical line, request (R106) -/
  lostTo : List (Nat × Nat)
  /-- the last beats driven on RSP and PLY -/
  rsp : Option RspBeat
  ply : Option PlyBeat
  deriving DecidableEq, Repr, Inhabited

/-! ### Reeve (chapter "Reeve: metering, scheduling and regulation") -/

/-- A two-rate meter's buckets Tc and Tp in 2^-16 byte, as they stood at wall-clock time `at_` (R364). `on` is ENABLE or METER_EN
as last seen, so that a meter is filled when it is enabled. -/
structure Meter where
  on : Bool
  tc : Nat
  tp : Nat
  at_ : Nat
  deriving DecidableEq, Repr, Inhabited

/-- A class shaper: signed credit in 2^-16 byte at wall-clock time `at_`, and the requests waiting, first in first (R368). -/
structure Shaper where
  credit : Int
  at_ : Nat
  fifo : List (Nat × Nat)
  deriving DecidableEq, Repr, Inhabited

/-- One entry of a sampling ring (R384). -/
structure Sample where
  bytes : Nat
  age : Nat
  deriving DecidableEq, Repr, Inhabited

/-- A guarantee that Reeve keeps in rank order, with what was granted (R377, R381). -/
structure Grant where
  owner : Nat
  short : Nat
  deriving DecidableEq, Repr, Inhabited

/-- What Reeve holds besides its registers and the stage C queues. -/
structure ReeveSt where
  /-- port meters, by port; class meters, by class -/
  pm : Tab Meter
  cm : Tab Meter
  /-- class meter queues: (port, serial), first in first (R367) -/
  cq : Tab (List (Nat × Nat))
  shapers : Tab Shaper
  /-- media averages in 1/16 KiB, by channel (R374) -/
  mavg : Tab Nat
  /-- comparisons in a row that showed a lower level (R374) -/
  falls : Nat
  /-- values in force of the shadowed fields: KIND, RANK, TIER_H, TIER_M, CIR by class; RANK_RQ (R379) -/
  kind : Tab Nat
  rank : Tab (Option Nat)
  tierH : Tab (Option Nat)
  tierM : Tab (Option Nat)
  cir : Tab (Option Nat)
  rankRq : Option Nat
  /-- capability of each target at the last COMMIT (R381) -/
  capAt : Tab Nat
  /-- granted CIR of a short class (R381) -/
  granted : Tab (Option Nat)
  /-- shortfall of each owner in MB/s (R382) -/
  short : Tab Nat
  rings : Tab (List Sample)
  /-- wall-clock time from which HOLD and feedback cycle counts run -/
  fbAt : Nat
  /-- what a field held before the write, or the clearing read, of its register in the cycle that ends at a time: the value, and the
  time + 1 (R366, R383) -/
  prev : Tab (Nat × Nat)
  /-- wall-clock time of the last sampling tick (R384) -/
  sampAt : Nat
  /-- the outcome of the COMMIT whose check is BUSY (R378) -/
  outcome : Nat
  deriving DecidableEq, Repr, Inhabited

/-! ### Line requests at stage C and the Rota arbiters -/

/-- What a line request at stage C, or a media command, is for. -/
inductive Job
  /-- traffic whose content was applied when it was queued -/
  | none
  /-- the Hearth access or the media read of line `k` of a client request (R279) -/
  | client (port id k : Nat)
  /-- a Hearth read of a line of the map, by its key in the map cache SRAM (R190) -/
  | mapLine (key : Nat)
  /-- a media read of a line of the map, by the same key (R190) -/
  | mapPage (key : Nat)
  /-- the reads of a whole map page that warm the Hearth map region (R191) -/
  | mapWarm (page : Nat)
  /-- a read of its own copy made by ladder `id` (R242), or its helper `idx` (R243) -/
  | ladder (id : Nat)
  | helper (id idx : Nat)
  /-- a repair or poison program (R244, R248, R260): line key (a parity line is that of data line 0 of its stripe plus 2^56), and what
  the Gleaner counted the line as when it waits for it: 0 it does not, 1 RETRIED, 2 RECOMPUTED, 3 POISONED; 4 is a repair of R244 that
  no pass waits for -/
  | repair (line glean : Nat)
  /-- the read of dirty slot `e` by its writeback, and its program (R281) -/
  | wbH (e : Nat)
  | wb (e : Nat)
  /-- stripe update `k`: read of line `idx` (15 is the parity), program of it (R186) -/
  | stripeRd (k idx : Nat)
  | stripeWr (k idx : Nat)
  /-- delta line `n` (R195), checkpoint page and root (R196), ledger line at a position (R210) -/
  | delta (n : Nat)
  | ckptPage
  | ckptRoot
  | ledger (line pos : Nat)
  /-- rotation move of unit `uk` (R212), migration copy and drift rewrite of its line `l` (R217, R228) -/
  | rotRd (uk seg : Nat)
  | rotWr (uk seg : Nat)
  | migRd (uk idx : Nat)
  | migWr (uk idx : Nat)
  | rwRd (uk idx : Nat)
  | rwWr (uk idx : Nat)
  /-- canary program and read (R229, R230) -/
  | canaryWr (idx : Nat)
  | canaryRd (idx : Nat)
  /-- a Gleaner read (R259): line key as in `repair` -/
  | glean (line : Nat)
  /-- a stream line (R127): stream, offset of the line in the stream, copy; its time index line and commit record (R141, R140) -/
  | kiln (k off : Nat)
  | index (k line : Nat)
  | commit (k : Nat)
  /-- the Hearth reads of a spilled slot that drains (R129) -/
  | spill (k no : Nat)
  /-- playback reads of the medium (R159, R164) and list images (R153); then their Hearth reads, and that of a line of a list copy -/
  | loom (l n chunk : Nat)
  | image (l n : Nat)
  | loomH (l n chunk : Nat)
  | imageH (l n : Nat)
  | listH (l n : Nat)
  /-- stream hint fill (R146, R241) -/
  | hint (line : Nat)
  /-- seal records (R337), hub pages (R333), firmware and trim images (R404, R352), copy `k` of the trim record (R352) -/
  | sealWr (slot : Nat)
  | sealRd (slot : Nat)
  | hubInfo (cmd : Nat)
  | fwWr (cmd n : Nat)
  /-- lines of a firmware image or of the selector, by the number of the reading (R405, R423) -/
  | fwRd (id : Nat)
  | trimRd (k : Nat)
  /-- a format (R194), and the remaining commands (R326) -/
  | format (seg : Nat) (row : Bool)
  | hold
  | release
  | timeMark
  deriving DecidableEq, Repr, Inhabited

/-- The media side of a line request (R326, R327): the command, where it goes and what it carries. -/
structure Media where
  op : Nat
  seg : Nat
  pos : Nat
  /-- slot on the hub, settled at the grant (R214) -/
  slot : Nat
  nlines : Nat
  oset : Nat
  /-- a read whose offset set is found when it is issued (R226): 1 by the unit's bucket then, b + 2 by bucket b; 0 takes `oset` -/
  bkt : Nat
  /-- 0 segment line, 1 canary, 2 seal (R237) -/
  area : Nat
  data : Line
  gen : Nat
  /-- BIRTH; none to take it at issue (R221) -/
  birth : Option Nat
  /-- marker of the tag: 0 none, 1 BLANK, 2 POISON (R236) -/
  mark : Nat
  /-- logical line ADDR[59:8] it carries, for FLIP_MATCH (R256) and the error ring (R254); a parity line, marked `par`, is named by
  data line 0 of its stripe -/
  line : Option Nat
  par : Bool
  /-- map key of its unit, for the rotation (R214) -/
  uk : Option Nat
  /-- attempts so far (R329) -/
  tries : Nat
  /-- a read: a newer value has taken effect on the line since it was queued (R244) -/
  newer : Bool
  deriving DecidableEq, Repr, Inhabited

/-- A line request in a stage C queue, in a Rota pipeline or in a pseudo-channel queue (R370). -/
structure LineReq where
  id : Nat
  /-- requester ID (R387) -/
  rq : Nat
  /-- the client port, or the port of the Loom list, whose URG_EFF bears on it (R376, R169) -/
  port : Option Nat
  /-- a green request of its class (R372) -/
  green : Bool
  /-- length L in bytes (R363) -/
  len : Nat
  /-- finish tag with 16 fractional bits, stamped when it becomes the head (R371) -/
  ftag : Option Nat
  /-- finish tag of its queue before it was granted (R395) -/
  fprev : Nat
  /-- wall-clock time of arrival in the queue -/
  since : Nat
  /-- slots waited while eligible (R400) -/
  wait : Nat
  /-- a write: WRITE_LINE or SEAL_WRITE on media, a column write on Hearth -/
  write : Bool
  /-- Hearth: pseudo-channel, bank, row and stack line index (R275) -/
  pc : Nat
  bank : Nat
  row : Nat
  h : Nat
  md : Media
  /-- a restart after PROGRAM_ABORT: times aborted, and the end of its hold (R398) -/
  aborts : Nat
  holdEnd : Option Nat
  /-- the read that aborted it (R398) -/
  abortBy : Nat
  /-- it is a restart that has not been issued (R398) -/
  restart : Bool
  job : Job
  deriving DecidableEq, Repr, Inhabited

/-- The stage C queues of every target and direction (R370). A direction key is 2 × target, plus 1 for media receive. -/
structure StageC where
  /-- queues by 32 × direction key + requester -/
  queues : Tab (List LineReq)
  /-- last finish tag of each queue, and virtual time of each direction (R371) -/
  fprev : Tab Nat
  vt : Tab Nat
  /-- decisions made, modulo 64 (R372) -/
  decisions : Tab Nat
  deriving DecidableEq, Repr, Inhabited

/-- The Rota arbiters: written and effective tables, balances, pointers, pipelines (R388 to R395). -/
structure RotaSt where
  /-- written entry k of arbiter a (0, 1 Hearth; 2 + n media) at 256 a + k: the entry byte, none for FREE -/
  written : Tab (Option Nat)
  /-- effective entries that differ from the written ones (R389) -/
  moved : Tab (Option Nat)
  /-- balance of an owner at 32 × direction key + owner, in sevenths of a flit time (R393) -/
  bal : Tab Int
  /-- the grant made for the next slot, by direction key (R394) -/
  next : Tab (Option LineReq)
  /-- the row at which it was granted (R391), and the requests withdrawn after their grant (R395) -/
  rows : Tab Nat
  withdrawn : List Nat
  /-- the next slot is dead (R395) -/
  dead : Tab Bool
  /-- restarts in their hold, by channel (R398) -/
  restarts : Tab (List LineReq)
  deriving DecidableEq, Repr, Inhabited

/-! ### Namespaces (chapter "Namespaces, the map and placement") -/

/-- A namespace descriptor (R174). -/
structure NsDesc where
  size : Nat
  prot : Nat
  ephemeral : Bool
  /-- unwritten policy FAULT -/
  faultPolicy : Bool
  exists_ : Bool
  readPorts : Nat
  writePorts : Nat
  epoch : Nat
  mapped : Nat
  /-- HOME, held as its difference (xor) from the reset value k mod 32 -/
  homeX : Nat
  deriving DecidableEq, Repr, Inhabited

/-! ### Hearth (chapter "Hearth: the HBM tier controller") -/

/-- One line of a stack with its metadata (R273). TAG and MCRC are held as their difference (xor) from the correct CRC of what the
line holds, so that the line that a fill leaves is all zero (R296). -/
structure HLine where
  data : Line
  ltag : Nat
  gen : Nat
  /-- 0 EMPTY, 1 CLEAN, 2 DIRTY -/
  st : Nat
  lastUse : Bool
  tagX : Nat
  mcrcX : Nat
  deriving DecidableEq, Repr, Inhabited

/-- One entry of the dirty-line directory (R278). AGE is counted from `since`, the wall-clock time of the entry's making. -/
structure DirEnt where
  line : Nat
  valid : Bool
  mirrored : Bool
  wb : Bool
  rewritten : Bool
  lost : Bool
  lastUse : Bool
  since : Nat
  /-- serial of the oldest write that no finished writeback has made durable (R104) -/
  born : Nat
  deriving DecidableEq, Repr, Inhabited

/-- One bank of a pseudo-channel: open row, times of its last commands in CK cycles, its activation count, and the end of a refresh
that blocks it (R289 to R292). A row is held as row + 1; 0 is closed. -/
structure BankSt where
  row : Nat
  act : Option Nat
  pre : Option Nat
  rd : Option Nat
  wr : Option Nat
  raa : Nat
  /-- CK cycle from which an ACT waits for RFM at RAAMMT (R292) -/
  raaAt : Option Nat
  blocked : Nat
  deriving DecidableEq, Repr, Inhabited

/-- One pseudo-channel (R286 to R294, R310). Times are CK cycles. -/
structure PcSt where
  queue : List LineReq
  writeMode : Bool
  /-- writes served since write mode was entered (R287) -/
  served : Nat
  /-- average occupancy in 1/16 entries (R288) -/
  avg : Nat
  banks : Tab BankSt
  /-- times and bank groups of the last activations, newest first (R289) -/
  acts : List (Nat × Nat)
  /-- last column read and write: time and bank group -/
  lastRd : Option (Nat × Nat)
  lastWr : Option (Nat × Nat)
  /-- refreshes postponed, the bank whose turn it is, and the last REFpb (R291) -/
  postponed : Nat
  refBank : Nat
  lastRef : Option Nat
  /-- whole pseudo-channel blocked until, by REFab or power-down exit -/
  blocked : Nat
  pd : Bool
  /-- CK cycle of the last work (R294) -/
  idleAt : Nat
  /-- held by a retraining unit or a timing change (R289, R310) -/
  hold : Bool
  deriving DecidableEq, Repr, Inhabited

/-- A Hearth read whose data has left the array. -/
structure HFlight where
  req : LineReq
  stack : Nat
  deriving DecidableEq, Repr, Inhabited

/-- A writeback under way (R281): programs not acknowledged, the delta record it waits for, and the stripe update it goes through. -/
structure WbSt where
  left : Nat
  delta : Option Nat
  stripe : Option Nat
  waiting : Bool
  poison : Bool
  serial : Nat
  /-- its read of the dirty line is under way (R17) -/
  reading : Bool
  deriving DecidableEq, Repr, Inhabited

/-- Sizes of the map, spill and Loom regions in force, in MiB per stack (R276). -/
structure Layout where
  map : Nat
  spill : Nat
  loom : Nat
  deriving DecidableEq, Repr, Inhabited

/-- What the PHY of a stack holds besides its registers (chapter "Hearth PHY and interface training"). -/
structure PhySt where
  /-- training that the stack waits for or runs: 0 none, 1 full, 2 resume; its last step, and the wall-clock time of its start -/
  want : Nat
  step : Nat
  startAt : Nat
  /-- the contents outlive a full training that follows a failed resume (R308); a fill is due or under way (R296) -/
  keeps : Bool
  fill : Bool
  /-- a contents loss beyond SAFE_RETAIN waits for the fill (R297) -/
  lostFill : Bool
  /-- geometry codes and bin that the stack itself reports (R270, R271) -/
  b : Nat
  r : Nat
  bin : Nat
  /-- lanes recorded in this attempt (R304), and results as LANE_RES shows them, by lane key 4096 × kind + 64 × index + lane -/
  recorded : List Nat
  lanes : Tab Nat
  /-- the codes of the last full training, with the lane repairs made since (R307) -/
  codes : Tab Nat
  /-- the contents are declared lost once this full training has ended (R308) -/
  lostAfter : Bool
  /-- wall-clock time, plus 1, from which T_XS is kept after the exit from self-refresh (R295) -/
  srxAt : Nat
  /-- lanes recorded by units, waiting for a repair unit, by pseudo-channel (R311) -/
  repair : Tab (List Nat)
  /-- wall-clock time and temperature at which the last round began, when a round became due, and whether it has been reported -/
  roundAt : Nat
  roundTemp : Int
  dueAt : Nat
  overdue : Bool
  /-- wall-clock time at which the unit in progress took its pseudo-channel (R310) -/
  unitAt : Nat
  /-- bit errors of the last loopback by lane key; after one that a register write started, they are free values, counted from here less 1
  (R313) -/
  errs : Tab Nat
  errsFrom : Nat
  deriving DecidableEq, Repr, Inhabited

/-- What the Hearth controller holds besides its registers. -/
structure HtSt where
  phy : Tab PhySt
  /-- lines by stack * 2^28 + stack line index -/
  cells : Tab HLine
  /-- the dirty-line directory by entry number -/
  dir : Tab DirEnt
  wbs : Tab WbSt
  /-- CGEN of each namespace, its increments since the start of the sweeper's last complete pass, those of them since the start of the
  present pass, and the increments that wait (R283, R285) -/
  cgen : Tab Nat
  cgenInc : Tab Nat
  cgenPass : Tab Nat
  cgenOwed : Tab Nat
  /-- timing values in force by stack, in the order of `HT.timing`; none listed: the registers' own reset values (R289) -/
  timing : Tab (List Nat)
  layout : Option Layout
  /-- pseudo-channels by stack * 32 + number -/
  pcs : Tab PcSt
  flights : List HFlight
  /-- next home slot of the sweeper, and the wall-clock time at which its pass began -/
  sweep : Nat
  sweepAt : Nat
  /-- geometry codes b and r in use by both stacks, and the bin (R271), as after reset until training reads them -/
  geomB : Nat
  geomR : Nat
  bin : Nat
  /-- refresh-management figures that each stack reported: required, RAAIMT, RAAMMT (R292) -/
  rfmNeed : Tab Bool
  raaimt : Tab Nat
  raammt : Tab Nat
  /-- command-address parity errors: wall-clock times of the last ones (R298) -/
  parity : Tab (List Nat)
  /-- lines of stream targets still watched by a START scan (R284): line range, stream -/
  scans : List (Nat × Nat × Nat)
  /-- reserved stream targets: stream → first line and number of lines (R122, R284) -/
  targets : Tab (Nat × Nat)
  /-- wall-clock time from which CNT_DIR_WAIT and throttled cycles are counted -/
  waitAt : Nat
  thrAt : Tab Nat
  deriving DecidableEq, Repr, Inhabited

/-! ### The map, wear and drift (chapters "Namespaces, the map and placement" and "Wear and drift of the medium") -/

/-- A root or L1 word (R189). -/
structure MapWord where
  slot : Nat
  epoch : Nat
  alt : Bool
  valid : Bool
  deriving DecidableEq, Repr, Inhabited

/-- State of a media segment outside the reserve (R194). `formatFailed` is FREE, tried again after every other FREE segment. -/
inductive SegSt | free | formatting | woodshed | mapped | retired | formatFailed
  deriving DecidableEq, Repr, Inhabited

/-- A stripe update (R186). -/
structure Stripe where
  uk : Nat
  s : Nat
  /-- the requester whose program needs it -/
  rq : Nat
  /-- directory entries of the covered lines, and the lines themselves, by data line -/
  covered : Tab Nat
  entries : Tab Nat
  newData : Tab Line
  /-- lines as read: data, class; reads not yet back; drift-retry steps made by line -/
  read : Tab Line
  cls : Tab Nat
  wait : Nat
  tries : Tab (List Nat)
  /-- the first failed check of a line, and GEN as read (R254) -/
  fails : Tab (Option (HFail × Nat))
  /-- 0 none, 1 reading, 2 fallback reading, 3 opening, 4 programming data, 5 programming parity; 9 an update found open at a start, whose
  stripe is read to be resynchronised: `covered` has 2 for a line that was BLANK (R199) -/
  stage : Nat
  parity : Line
  /-- delta record that must be durable -/
  delta : Nat
  left : Nat
  deriving DecidableEq, Repr, Inhabited

/-- The delta log (R195): records appended since the log began, the records of the line in the making, and the written lines not
yet durable (first record, last record, programs left). -/
structure DeltaSt where
  appended : Nat
  seq : Nat
  cur : List (Nat × Nat)
  curAt : Nat
  lines : List (Nat × Nat × Nat × Nat)
  lineNo : Nat
  /-- bytes written to the log since it began -/
  pos : Nat
  deriving DecidableEq, Repr, Inhabited

/-- A checkpoint under way (R196). -/
structure CkptSt where
  /-- log position D_f, record number that must be durable, pages left to write, in flight, root programs left -/
  df : Nat
  mark : Nat
  pages : List Nat
  flight : Nat
  root : Nat
  total : Nat
  startAt : Nat
  cmd : Option Nat
  /-- serial of the newest stripe update opened before D_f -/
  stripes : List Nat
  /-- ledger lines written alongside and not durable at both positions: the key of a word of each (R197, R210) -/
  ledgers : List Nat
  deriving DecidableEq, Repr, Inhabited

/-- A rotation shift (R212); `delta` is the number, plus 1, of the record that must be durable before the first move. -/
structure RotSt where
  /-- 0 marking, 1 between moves, 2 a move is in flight -/
  stage : Nat
  /-- moves acknowledged, of the 4097 that a shift makes -/
  acked : Nat
  /-- programs of the present move not acknowledged, over the unit's segments -/
  flight : Nat
  delta : Nat
  deriving DecidableEq, Repr, Inhabited

/-- A migration (R217): destination segment, next line copy, copies in flight, copies marked for recopy; the destination channel of a NONE
unit that leaves its own (R219), and the channel, plus 1, whose copies were omitted (R127, R219). -/
structure MigSt where
  segNew : Nat
  chanNew : Nat
  stale : Nat
  next : Nat
  flight : Nat
  marked : List Nat
  deriving DecidableEq, Repr, Inhabited

/-- A drift rewrite (R228): next line copy, copies in flight, line keys whose program is to be dropped, the record to go out. -/
structure RwSt where
  next : Nat
  flight : Nat
  dropped : List Nat
  deriving DecidableEq, Repr, Inhabited

/-- A canary of a hub (R229 to R231). -/
structure Canary where
  /-- drift clock at its program, plus 1; 0 when never programmed -/
  at_ : Nat
  deriving DecidableEq, Repr, Inhabited

/-- A canary in the estimate of R232: 0 not begun, 1 being read, 2 its statistics read, 3 counted, 4 left out; the bucket tried, the
drift clock in its word 0, and its estimate. -/
structure CanEst where
  stage : Nat
  bucket : Nat
  word0 : Nat
  est : Nat
  deriving DecidableEq, Repr, Inhabited

/-- What the map and the wear engine hold besides their registers. -/
structure MapSt where
  /-- root words by ns * 2^14 + index; L1 words by ns * 2^23 + index; entries by ns * 2^32 + u (R189) -/
  root : Tab MapWord
  l1 : Tab MapWord
  /-- ALT of each 4 KiB block of the root table (R196) -/
  rootAlt : Tab Bool
  ents : Tab Nat
  /-- pool slots in use (R189) -/
  pool : Tab Bool
  /-- dirty pages: page number (R196) -/
  dirty : Tab Bool
  /-- map cache SRAM: bank → lines, most recent first; Hearth map region: pages held, most recent first (R191). A line of entries goes by
  uk / 32, a line of L1 words by that of its page plus 2^40 -/
  sram : Tab (List Nat)
  hmap : List Nat
  /-- lines that lookups wait for: 1 read from the Hearth map region, 2 from the medium, 3 arrived, its lookup counted already (R190) -/
  reads : Tab Nat
  /-- R and S of R192 -/
  reserve : Nat
  segS : Nat
  segs : Tab SegSt
  sparesUsed : Tab Nat
  /-- reservations by namespace and channel; 256 + k is what a deleted namespace k held until the reclaimer has finished (R177, R204) -/
  resv : Tab (Tab Nat)
  delta : DeltaSt
  /-- wall-clock time, plus 1, from which map changes wait for the delta log (R195) -/
  stallAt : Nat
  ckpt : CkptSt
  ckptAt : Nat
  stripes : Tab Stripe
  stripeNo : Nat
  /-- ranges still to reclaim: ns, root index, first unit, last unit (R203) -/
  reclaim : List (Nat × Nat × Nat × Nat)
  /-- pins by unit (R188) -/
  pins : Tab Nat
  /-- entries of removed units that pins or commands still need: unit and old entry (R188) -/
  orphans : List (Nat × Nat)
  /-- flag changes that wait for room in the delta log: unit, flag, value (R195) -/
  flagDue : List (Nat × Nat × Bool)
  /-- corrupted lines of the map cache SRAM (R256) -/
  sramBad : List Nat
  /-- segments to free once reads issued before the switch have returned (R188, R217): channel, segment, whether the unit was RETIRED -/
  oldSegs : List (Nat × Nat × Bool)
  /-- by segment, the line positions on which a program failed three times (R329) -/
  bad : Tab (List Nat)
  /-- number, plus 1, of the delta record that locates each unit (R195) -/
  locRec : Tab Nat
  /-- drift clock up to which promotions have been made (R224), later for single units, and the canary to sample next (R230) -/
  promoAt : Nat
  promoUk : Tab Nat
  canaryIdx : Nat
  /-- canaries whose statistics are still to be asked for: channel, canary (R230) -/
  canDue : List (Nat × Nat)
  /-- exact programs A, ceiling C less the lease, durable ceiling less the lease, by chan * 2^27 + seg (R209) -/
  wearA : Tab Nat
  wearC : Tab Nat
  wearD : Tab Nat
  /-- A of a segment that `wearA` does not list, and the base of those that it does (R209) -/
  wearA0 : Nat
  /-- commands that need no grant and wait for a lease or for their segment: channel, the CTAG of one to be sent again, none for a format,
  command (R209, R330); ledger pages written since the last checkpoint (R210) -/
  leaseWait : List (Nat × Option Nat × LineReq)
  ledgerDirty : List Nat
  readOnly : Tab Bool
  /-- rated endurance E of each hub (R207) -/
  endur : Tab Nat
  rots : Tab RotSt
  rotDue : List Nat
  migs : Tab MigSt
  migDue : List Nat
  rws : Tab RwSt
  rwDue : List Nat
  bias : Tab Nat
  canaries : Tab Canary
  /-- drift tables: 1024 * channel + 32 * band + bucket → 256 × shift + offset set; loaded channels (R225) -/
  dtbl : Tab Nat
  dloaded : Tab Bool
  /-- level patterns of HUB_INFO page 1 (R229) -/
  pattern : Tab Line
  lastCanary : Tab (Nat × Int × Int)
  /-- the estimate of R232, by 8 × channel + canary; the drift clock has been set for this start -/
  ests : Tab CanEst
  estDone : Bool
  deriving DecidableEq, Repr, Inhabited

/-! ### Line integrity (chapter "Line integrity, recovery and scrubbing") -/

/-- What a media read of a line ended with: the status to a demand (R74), its data, its class 0 GOOD, 1 BLANK or 2 POISON, GEN and
BIRTH of the copy (none when step 4 gave the line), and whether its ladder ended uncorrectable (R242). -/
structure Out where
  status : Nat
  data : Line
  cls : Nat
  gen : Nat
  birth : Option Nat
  lost : Bool
  /-- drift-retry steps made, and whether a newer value took effect on the line before the ladder ended (R244, R262) -/
  steps : Nat
  newer : Bool
  /-- the bound of R242 from the issue of the read, for the steps that were taken -/
  bound : Nat
  deriving DecidableEq, Repr, Inhabited

/-- A recovery ladder of the media path (R242). -/
structure Ladder where
  id : Nat
  /-- reads that take its outcome -/
  jobs : List Job
  /-- logical line, or none for a line of the reserve -/
  line : Option Nat
  chan : Nat
  seg : Nat
  pos : Nat
  uk : Option Nat
  rq : Nat
  port : Option Nat
  demand : Bool
  /-- a Gleaner pass of kind CHECK or CHECK_REFRESH alone reads it (R244) -/
  noRepair : Bool
  step : Nat
  /-- buckets still to try -/
  todo : List Nat
  /-- data, GEN and BIRTH as first read -/
  first : Line
  gen : Nat
  tick : Nat
  est : Bool
  at_ : Nat
  /-- helpers: not yet back, xor so far, any failed, any not blank, retries left by helper -/
  wait : Nat
  acc : Line
  bad : Bool
  solid : Bool
  tries : Tab (List Nat)
  /-- a newer value took effect on the line: no repair, no poison program (R244) -/
  overtaken : Bool
  /-- the fill of a partial write reads it: the merge poisons the line (R250) -/
  merge : Bool
  birth : Nat
  /-- the line is the parity line of the stripe whose data line 0 is `line` -/
  par : Bool
  /-- its own copy was read, and drift-retry steps were open to it (R242) -/
  own : Bool
  drift : Bool
  /-- it has waited before step 4 for a channel of its group that is not ACTIVE, in BRINGUP (R431) -/
  held : Bool
  deriving DecidableEq, Repr, Inhabited

/-- An entry of the error ring (R254). -/
structure RingEnt where
  w0 : Nat
  w1 : Nat
  w2 : Nat
  w3 : Nat
  deriving DecidableEq, Repr, Inhabited

/-- What line recovery and the Gleaner hold besides their registers. -/
structure ErrSt where
  ring : Tab RingEnt
  ladders : List Ladder
  /-- reads that the armed media mask has still to corrupt (R256) -/
  flipReads : Nat
  /-- Gleaner: the visit that each outstanding read and program of the pass belongs to, by its line (R261) -/
  gFly : List Nat
  /-- Gleaner: the lines counted RETRIED, RECOMPUTED, POISONED or POISON_FOUND (R262) -/
  gBad : List Nat
  gTick : Nat
  gCmd : Option Nat
  gAbort : Bool
  /-- units wholly checked so far: unit key → lines checked without poison -/
  gClean : Tab Nat
  /-- range removed since GO (R259): namespace, from offset -/
  gCut : List (Nat × Nat)
  /-- canaries (8 × channel + index) and seal lines (256 + 8 × channel + slot) whose read has failed and is tried again: the first
  failure, and the GEN as read (R254) -/
  probes : Tab (HFail × Nat)
  deriving DecidableEq, Repr, Inhabited

/-! ### Trim sets (chapter "Link trim sets and eye statistics") -/

/-- The last scan of a receive lane (R359). -/
structure Eye where
  width : Nat
  height : Nat
  worst : Nat
  errs : Nat
  /-- scans below the floor in a row (R357) -/
  below : Nat
  deriving DecidableEq, Repr, Inhabited

/-- What the trim engine holds besides its registers. -/
structure TrimSt where
  /-- the record in use and the image that a capture builds, by line (R351, R353) -/
  rec_ : Tab Line
  image : Tab Line
  /-- words of the sets in use, by 16 × channel + 4 × lane + word (R354) -/
  now : Tab Nat
  /-- TRIM_CMD.APPLY has been written (R355) -/
  asked : Tab Bool
  eyes : Tab Eye
  /-- wall-clock time of the last application outside a window, plus 1 (R357) -/
  floorAt : Tab Nat
  /-- the channel has fallen below its floor and has not taken its application yet (R357) -/
  owed : Tab Bool
  /-- applications under way, by channel: wall-clock time, plus 1, of step 1, the temperature then, and the sets that they lead to, by
  4 × channel + lane (R356) -/
  apps : Tab Nat
  appT : Tab Int
  goals : Tab (List Nat)
  /-- the last application left the channel on an intermediate set (R356) -/
  rest : Tab Bool
  /-- what waits for an application to finish: 1 RETRAIN, 2 WIDEN, 3 RESET_HUB, 4 the entry to a sleeping mode, 5 ML_RESET (R358) -/
  after : Tab Nat
  /-- wall-clock time, plus 1, of the last scan of a lane, by 4 × channel + lane (R359) -/
  scanAt : Tab Nat
  /-- the search of the boot area for a record, by copy: 0 not begun, 1 its lines are being read, 2 it has been read (R352); the lines read, by
  128 × copy + line, and those still to come, by copy -/
  search : Tab Nat
  copy : Tab Line
  copyLeft : Tab Nat
  deriving DecidableEq, Repr, Inhabited

/-! ### The Zilold media link (chapter "Zilold Media Link and the hub contract") -/

/-- A byte stream of one virtual channel in the making: bytes held, their value, and where messages start in it (R322). -/
structure VcTx where
  len : Nat
  val : Nat
  starts : List Nat
  deriving DecidableEq, Repr, Inhabited

/-- A sequenced flit, sent and not yet acknowledged (R324). -/
structure FlitSt where
  seq : Nat
  val : Nat
  deriving DecidableEq, Repr, Inhabited

/-- A command without a response (R327). -/
structure Outst where
  req : LineReq
  ctag : Nat
  sentAt : Nat
  /-- order of first sending (R343) -/
  order : Nat
  /-- a PROGRAM_ABORT was sent for it in this attempt, by this read's id (R330) -/
  abortBy : Option Nat
  abortAt : Nat
  /-- RDATA lines still to come -/
  left : Nat
  /-- the read was discarded: its data is dropped on arrival, and no restart waits for it (R166, R398) -/
  drop : Bool
  /-- where its message ends in the byte stream of its virtual channel (R330) -/
  endAt : Nat
  deriving DecidableEq, Repr, Inhabited

/-- What a media link holds besides its registers. -/
structure ZmlSt where
  locked : Bool
  cwNext : Nat
  cwRun : Nat
  badRun : Nat
  /-- received flits not yet looked at -/
  rxq : List Nat
  rxSeq : Nat
  /-- a NAK was sent and not yet answered, and when; the next flit carries it (R323) -/
  nakAt : Option Nat
  nakDue : Bool
  rx : Tab VcTx
  rxStarted : Tab Bool
  inbox : List (Nat × Nat)
  /-- flits accepted by virtual channel, modulo 256 (credit reports of the Core) -/
  freed : Tab Nat
  txSeq : Nat
  tx : Tab VcTx
  /-- bytes of messages that have joined each virtual channel's stream since training (R322) -/
  queued : Tab Nat
  /-- flits sent that no codeword holds yet, flits since the last NULL flit, and the number of the flit sent last (R318, R320, R325) -/
  txq : List Nat
  sinceNull : Nat
  sent : Nat
  /-- CW_COUNT of the next codeword, and the message of the last codeword sent: its header, then its five flits (R318) -/
  cwTx : Nat
  cwOut : Nat
  held : List FlitSt
  ackAt : Nat
  replays : Nat
  credit : Tab Nat
  lastCr : Tab Nat
  outs : List Outst
  ctag : Nat
  order : Nat
  /-- sideband: frames with SYNC in a row, frames without, identity words -/
  sbGood : Nat
  sbBad : Nat
  sbId : Tab Nat
  idIdx : Nat
  rst : Nat
  hb : Bool
  /-- the Core's half of the last sideband frame (R338) -/
  sbTx : Nat
  stateAt : Nat
  /-- attempts failed at the present rate and width -/
  fails : Nat
  /-- the highest rate left by fallbacks, until a WIDEN or the next start (R342) -/
  fall : Nat
  /-- training: a first FULL training has been made since start -/
  fullOnce : Bool
  unplanned : Bool
  resetGiven : Bool
  quiesceOff : Bool
  holdSent : Bool
  holdEvAt : Option Nat
  /-- rate and width of the present or next attempt, and its lanes: transmit [3:0], receive [7:4] (R342) -/
  rate : Nat
  width : Nat
  lanes : Nat
  /-- faulty lanes, transmit [3:0], receive [7:4], and 1 ms intervals over LANE_ERR_MAX in a row by lane -/
  faulty : Nat
  laneRuns : Tab Nat
  /-- symbols that the decoder has corrected in the present 1 ms interval, by receive lane (R342, R359) -/
  preErr : Tab Nat
  /-- commands refused in HOLD, to be sent again after RELEASE (R329) -/
  refused : List LineReq
  /-- response timeout flags, TIME_MARK drift second last sent -/
  markAt : Nat
  deriving DecidableEq, Repr, Inhabited

/-! ### Ordering (chapter "Ordering, visibility and durability") -/

/-- A range hold (R114): holder port, namespace, offset and length in bytes, hold time in µs, the agent that placed it, and its
command block. `id` is the hold ID. -/
structure Hold where
  id : Nat
  port : Nat
  ns : Nat
  off : Nat
  len : Nat
  time : Nat
  agent : Nat
  cmd : Nat
  deriving DecidableEq, Repr, Inhabited

/-- The global fence in progress and the range holds. -/
structure OrderSt where
  /-- serial number that the mark carries: requests below it are before the mark (R102) -/
  mark : Nat
  holds : List Hold
  deriving DecidableEq, Repr, Inhabited

/-! ### Capture streams (chapter "Capture streams (Kiln)") -/

/-- A staging or spill slot: a stripe slot of a PARITY stream, a line slot of another (R124, R128). -/
structure Slot where
  /-- its number in the stream: it begins at stream offset number × span -/
  no : Nat
  /-- data lines as they arrive, the parity line at index 15 once the stripe is complete (R126) -/
  lines : Tab Line
  /-- bytes that have arrived, pad included -/
  filled : Nat
  /-- staged words that fail their CRC-8, 32 × line + word, and lines marked poison at a failed check (R239, R247) -/
  bad : List Nat
  poison : List Nat
  /-- its place in the staging region, in slots (R124) -/
  pos : Nat
  /-- wall-clock time of its first byte (R136), its half (R124), whether its half or the slot itself is closed for filling -/
  since : Nat
  half : Nat
  closed : Bool
  /-- the place of its first line in the spill region once it has been spilled (R128) -/
  spill : Option Nat
  /-- it was spilled when two stacks were in service, and one has failed since (R298) -/
  laid2 : Bool
  /-- its programs are queued or under way, and how many are not acknowledged -/
  issued : Bool
  left : Nat
  /-- lines of it that are being read back from spill (R129) -/
  reading : Nat
  deriving DecidableEq, Repr, Inhabited

/-- What a stream holds besides its registers. -/
structure StrSt where
  /-- slots in offset order, from the one at TAIL to the one being filled -/
  slots : List Slot
  /-- PINGPONG: the half that fills, and slots taken in it (R124) -/
  half : Nat
  used : Nat
  /-- map units mapped ahead, and those that the walker took (R131, R132) -/
  mapped : Nat
  took : List Nat
  /-- index entries not yet written to the range, oldest first; entries appended in this run; offsets of the valid entries (R142) -/
  idxBuf : List (Nat × Nat)
  idxTotal : Nat
  idxOffs : List Nat
  /-- logical lines of the index written and not yet known durable -/
  idxLines : List Nat
  /-- discontinuities seen at the last entry (R141) -/
  disc : Nat
  /-- programs of the commit record not acknowledged, plus 1; 0 while none is written (R140) -/
  commit : Nat
  /-- position of the next commit record (R193) -/
  commitPos : Nat
  /-- wall-clock time from which held cycles run -/
  heldAt : Nat
  /-- a case of R130 that sets SPILL_LIMIT holds, and the hold-up case does -/
  limited : Bool
  heldUp : Bool
  /-- wall-clock time of the stop that ended the stream's arm (R135) -/
  armedEnd : Option Nat
  deriving DecidableEq, Repr, Inhabited

/-- What Kiln holds besides its registers: the streams, the last sampled trigger levels (R33), and the wall-clock time from which
cycles with a stream in GROUP_WAIT run. -/
structure KilnSt where
  streams : Tab StrSt
  trig : Nat
  gwAt : Nat
  deriving DecidableEq, Repr, Inhabited

/-! ### Playback (chapter "Playback sequences (Loom)") -/

/-- A BRANCH that has been walked and whose path is not yet committed: its checkpoint and its outcome (R162 to R164). -/
structure LBranch where
  id : Nat
  idx : Nat
  /-- the index on the path that was not predicted -/
  other : Nat
  t : Tick
  loops : Tab Nat
  loopT : Tab (Option Tick)
  cond : Nat
  sense : Bool
  sample : Tick
  pred : Bool
  out : Option Bool
  /-- its sample tick was already reached when it was walked; reached by a discontinuity -/
  late : Bool
  skew : Bool
  est : Bool
  /-- WAIT entries on its path whose tick had passed (R151) -/
  waits : Nat
  deriving DecidableEq, Repr, Inhabited

/-- A PLAY or MARK that has been walked and is not yet delivered. -/
structure LEnt where
  id : Nat
  idx : Nat
  mark : Bool
  t : Tick
  line : Nat
  lines : Nat
  keep : Bool
  ply : Bool
  evt : Bool
  arg : Word
  /-- the uncommitted branch on whose predicted path it lies -/
  spec : Option Nat
  /-- the units it pins (R157) -/
  pins : List Nat
  /-- its PLAY_DUE entry in the Almanac, and whether that has fired (R158) -/
  due : Option Nat
  fired : Bool
  firedAt : Nat
  /-- its lines not yet pushed: 0 to be read, 1 read under way, 2 copy in Hearth, 3 nothing to fetch, 4 keep copy, 5 read under way and
  stale, 7 here and on the way to PLY with credit for it, 8 and 9 as 2 and 4 with its copy read, or being read, for the push (R17) -/
  ph : Tab Nat
  /-- the lines on the way: status, class, data (R22) -/
  here : Tab (Option (Nat × Nat × Line))
  /-- first failed check of a copy, by line (R246) -/
  hf : Tab (Option HFail)
  pushed : Nat
  beat : Nat
  done : Bool
  /-- what has not been read is pushed as UNWRITTEN (R155) -/
  cut : Bool
  deriving DecidableEq, Repr, Inhabited

/-- A copy that Loom holds in its Hearth area. -/
structure LCopy where
  seq : Nat
  line : Nat
  /-- line of the Loom area -/
  slot : Nat
  /-- 0 held or promoted, 1 speculative, 2 keep, 3 squashed, 4 list image -/
  kind : Nat
  /-- serial of the walked entry; entry index of a keep copy -/
  ent : Nat
  n : Nat
  status : Nat
  failed : Bool
  deriving DecidableEq, Repr, Inhabited

/-- What a list holds besides its registers. -/
structure SeqSt where
  idx : Nat
  t : Tick
  /-- loop counters, and T at the last pass of a LOOP whose COUNT is 0 (R151, R152) -/
  loops : Tab Nat
  loopT : Tab (Option Tick)
  end_ : Bool
  brs : List LBranch
  queue : List LEnt
  /-- outcome history by index: bit 0 recorded, 1 taken, 2 estimated, 3 skewed (R162, R163) -/
  hist : Tab Nat
  /-- image lines being read, with their status plus 1, 99 while the read is under way; first failed check of a Hearth copy of one; 0 idle,
  1 LOAD, 2 restore -/
  img : Tab Line
  imgSt : Tab Nat
  imgHf : Tab (Option HFail)
  reading : Nat
  /-- the list copy is lost (R170), and a START waits for its restore to make its checks -/
  lost : Bool
  startWaits : Bool
  /-- the line of the list copy that the walk has read, whether one is being read, and the failed checks of list-copy lines that the
  restore recovers (R17, R170, R254) -/
  buf : Option (Nat × Line)
  bufWait : Bool
  fails : List HFail
  deriving DecidableEq, Repr, Inhabited

/-- What Loom holds besides its registers. -/
structure LoomSt where
  seqs : Tab SeqSt
  copies : List LCopy
  deriving DecidableEq, Repr, Inhabited

/-! ### Power (chapter "Operating modes, power domains and supply sag") -/

/-- A CFG access held for a sleeping page (R13, R455). -/
structure HeldAcc where
  agent : Nat
  addr : Nat
  data : Word
  write : Bool
  deriving DecidableEq, Repr, Inhabited

/-- A seal line of a hub as read at the start (R337): 0 not asked for, 1 being read, 2 GOOD, 3 given up, 4 failed at offset set 0 and
waiting for the drift table; the bucket tried last, and its data. -/
structure SealRd where
  stage : Nat
  bucket : Nat
  data : Line
  deriving DecidableEq, Repr, Inhabited

/-- What the power controller holds besides its registers. -/
structure PowerSt where
  /-- seal lines read at the start, by 8 × channel + slot (R337) -/
  sealRd : Tab SealRd
  /-- the seal record being written: 0 none, 1 OPEN, 2 SEALED; its generation (R337, R458) -/
  sealPhase : Nat
  sealGen : Nat
  /-- wall-clock time at which the present mode began, for the residency counters (R443) -/
  modeAt : Nat
  /-- wake sources latched, bit k for code k (R449) -/
  wakes : Nat
  held : List HeldAcc
  /-- last step finished of the entry or exit sequence (R448, R451); a privileged source abandons the entry (R450) -/
  step : Nat
  /-- channels in service at entry, and the next of them to visit (R453), with the wall-clock time of the last visit -/
  inSvc : List Nat
  visitIdx : Nat
  visitAt : Nat
  /-- wall-clock time, plus 1, since which the Core has been found idle; the choice has been made for this idleness (R454) -/
  idleAt : Nat
  chosen : Bool
  /-- wall-clock time, plus 1, at which the pre-event wake falls due -/
  preAt : Nat
  /-- supply inputs as last seen: PWRWARN_N low, PWRFAIL_N low (R456); wall-clock times, plus 1, since which a level is held clear -/
  warnLow : Bool
  failLow : Bool
  warnClr : Nat
  stopClr : Nat
  /-- the present seal record is written by a flush (1), a sleep entry (2), an OPEN before a program (3) or the start (4) -/
  sealFor : Nat
  /-- wall-clock time of the detection of the reference loss, and of the return of its edges (R473, R474) -/
  lossAt : Nat
  /-- 0 the reference is good, 1 lost, 2 stable again and the PLL relocking -/
  ref : Nat
  /-- wall-clock time, plus 1, since which a domain has been found without work, by domain number (R467) -/
  quiet : Tab Nat
  /-- FULL_WAIT runs from here (R432): wall-clock time of step 12; it has run out -/
  serviceAt : Nat
  fullOver : Bool
  /-- HOLDUP_BYTES has been set since power-on (R11 WOP) -/
  holdupSet : Bool
  /-- RETAIN_MASK as read at the entry in progress (R450) -/
  retain : Nat
  /-- channels that DEGRADED counts as lost, narrow or slow until they are ACTIVE again (R441) -/
  lostCh : Nat
  lanesCh : Nat
  rateCh : Nat
  /-- wall-clock time, plus 1, at which the Core last left FLUSH on its own (R460) -/
  leftAt : Nat
  deriving DecidableEq, Repr, Inhabited

/-! ### Posts and command blocks (chapter "Collier, posts and command blocks") -/

/-- A latch: its holder's owner number, 0 when it is free, and the wall-clock time of the take (R409, R410). -/
structure Latch where
  owner : Nat
  since : Nat
  /-- its lease has run out in this fabric cycle (R410, R411) -/
  expiring : Bool
  deriving DecidableEq, Repr, Inhabited

/-- An inbound post (R412 to R414): its notice, the wall-clock time of posting, and the notice last taken. -/
structure InPost where
  ptr : Nat
  len : Nat
  seq : Nat
  owner : Nat
  full : Bool
  timedOut : Bool
  /-- its timeout has come in this fabric cycle (R414) -/
  due : Bool
  at_ : Nat
  lastSeq : Nat
  lastOwner : Nat
  busy : Bool
  /-- the command that BUSY speaks of -/
  lastId : Nat
  deriving DecidableEq, Repr, Inhabited

/-- A notice on its way to an agent. -/
structure Notice where
  ptr : Nat
  len : Nat
  seq : Nat
  deriving DecidableEq, Repr, Inhabited

/-- An outbound post and its queue (R415). -/
structure OutPost where
  note : Notice
  full : Bool
  timedOut : Bool
  at_ : Nat
  queue : List Notice
  deriving DecidableEq, Repr, Inhabited

/-- An accepted command: its block as copied into Collier RAM, and how far it has come (R420). -/
structure Cmd where
  id : Nat
  /-- the post it came by, its notice's SEQ, the agent, and the block's Parish offset -/
  post : Nat
  pseq : Nat
  agent : Nat
  ptr : Nat
  op : Nat
  notify : Bool
  sequence : Nat
  len : Nat
  result : Nat
  p0 : Word
  p1 : Word
  p2 : Word
  /-- the header as copied -/
  hdr : Beat
  /-- its commit point has been passed (R406) -/
  committed : Bool
  /-- a cancel has been accepted (R421) -/
  cancelled : Bool
  /-- accepted before a loss of the Parish: its results are not written (R417) -/
  parishLost : Bool
  /-- 0 accepted, then stages of its own; media commands not answered; a number and a line of its own -/
  stage : Nat
  left : Nat
  arg : Nat
  line : Line
  /-- a RANGE_HOLD's older writes that have still to take effect: port and request (R114) -/
  waits : List (Nat × Nat)
  /-- it was broken off by a restart and is completed after it (R406) -/
  restart : Bool
  deriving DecidableEq, Repr, Inhabited

/-- The media programs that the command waits for are those of its commit point: the selector of FW_STAGE and of FW_ACTIVATE, the record
of TRIM_CAPTURE (R422). -/
def Cmd.lastProgs (c : Cmd) : Bool := (c.op = 11 && c.stage = 2) || (c.op = 12 && c.stage = 3) || (c.op = 13 && c.stage = 2)

/-- A firmware image that Collier reads from the medium (R405, R423): the slots still to try, by channel, 2 standing for the selector line;
what is being read, 0 nothing, 1 the selector, 2 a header, 3 the rest of an image, 4 the header of the staged image; the number of the
reading and its lines not yet here; whether one failed its check; the lines; what the selector said; and the version found. -/
structure FwRead where
  on : Bool
  cands : List (Nat × Nat)
  stage : Nat
  id : Nat
  left : Nat
  bad : Bool
  img : Tab Line
  sel : Nat
  version : Nat
  deriving DecidableEq, Repr, Inhabited

/-- What the posts and Collier hold besides their registers. -/
structure PostSt where
  latches : Tab Latch
  ins : Tab InPost
  outs : Tab OutPost
  /-- banked PW_ADDR, none at its area start, and CANCEL_STAT, by agent (R407, R424) -/
  pwAddr : Tab (Option Nat)
  cancelStat : Tab Nat
  /-- accepted commands not yet complete, in acceptance order -/
  cmds : List Cmd
  /-- levels of AGENT_RST_n, by agent (R417) -/
  agentRst : Nat
  /-- wall-clock time of the last finished service cycle (R406) -/
  servedAt : Nat
  /-- a corrupted word of Collier RAM waits to be read (R247, R256) -/
  ramBad : Bool
  /-- the Parish has been lost since the reset (R417) -/
  lost : Bool
  /-- cancels not yet answered, oldest first: agent and SEQUENCE (R421) -/
  cancels : List (Nat × Nat)
  fw : FwRead
  deriving DecidableEq, Repr, Inhabited

end Sys2Proof.Machine
end

