-- ==== Sys2Proof/Machine/State.lean ====
section
/-! DEFINITION. The state of the Core: every register field, every block's own state, and the queue of waiting commands. -/
namespace Sys2Proof.Machine

/-- The integration parameters (R506), fixed when the Core is configured. -/
structure Integration where
  stackCount : Nat
  /-- bit n: MEDIA_CH_n fitted -/
  channels : Nat
  trimSrc : Nat
  bootSrc : Nat
  parishMiB : Nat
  deriving DecidableEq, Repr, Inhabited

/-- The defaults of R506. -/
def Integration.defaults : Integration := ⟨2, 2 ^ 32 - 1, 1, 1, 64⟩

/-- The answer on the CFG port to the last access (R9). -/
structure CfgResp where
  agent : Nat
  data : Word
  busError : Bool
  deriving DecidableEq, Repr, Inhabited

/-- The machine without its command queue. -/
structure Mach where
  integ : Integration
  /-- wall-clock time in periods of the nominal 19.2 GHz root (R5) -/
  now : Nat
  /-- the model's own counter that makes each free value fresh -/
  free : Nat
  /-- the model's own serial numbers of requests and line requests -/
  serial : Nat
  /-- register fields, each held as its difference (xor) from its reset value -/
  regs : Tab Nat
  /-- levels of the reset inputs: PORST_N (false: asserted) and whether SRST_N is low (R31) -/
  porstN : Bool
  srstLow : Bool
  cfg : Option CfgResp
  power : PowerSt
  alm : AlmSt
  ports : Tab PortSt
  reeve : ReeveSt
  sc : StageC
  rota : RotaSt
  ns : Tab NsDesc
  order : OrderSt
  ht : HtSt
  map : MapSt
  err : ErrSt
  zml : Tab ZmlSt
  trim : TrimSt
  kiln : KilnSt
  loom : LoomSt
  post : PostSt
  deriving DecidableEq, Repr

/-- The state of the Core: the machine, and the commands that wait, first in first out. -/
structure State where
  m : Mach
  pending : List Instr
  deriving DecidableEq, Repr

/-- Why the Core's surroundings have left what the spec describes. -/
inductive Fault
  /-- raised by no meaning at present; kept so that the type is inhabited -/
  | none
  deriving DecidableEq, Repr, Inhabited

/-- Why a command has no meaning. -/
inductive Refusal
  /-- raised by the dispatcher for a command that has no meaning yet; safe -/
  | notModelled (mnemonic : String)
  /-- raised when a command's operands name nothing the part has (`Instr.wf` fails), such as a beat list of the wrong length;
  safe: no such happening exists on the ports -/
  | illFormed
  deriving DecidableEq, Repr, Inhabited

/-- The machine at reset (R434): every register at its reset value, every block empty. -/
def Mach.reset : Mach where
  integ := Integration.defaults
  now := 0
  free := 0
  serial := 0
  regs := []
  porstN := false
  srstLow := false
  cfg := none
  power := default
  alm := default
  ports := []
  reeve := default
  sc := default
  rota := default
  ns := []
  order := default
  ht := default
  map := default
  err := default
  zml := []
  trim := default
  kiln := default
  loom := default
  post := default

/-- The Core with PORST_N asserted, no command waiting. -/
def State.reset : State := ⟨Mach.reset, []⟩

end Sys2Proof.Machine
end

