-- ==== Sys2Proof/Machine/Ops.lean ====
section
/-! DEFINITION. The named operations over registers, events and counters that every meaning uses. -/
namespace Sys2Proof.Machine

/-- The reset value of a field of instance `n` (R478, R506). -/
def Field.reset (g : Integration) (f : Field) (n : Nat) : Nat :=
  match f.rst with
  | .val v => v
  | .inst => n
  | .trimSrc => g.trimSrc
  | .bootSrc => g.bootSrc
  | .parish => g.parishMiB

/-- The value of field `f` of instance `n`. -/
def Mach.get (m : Mach) (f : Field) (n : Nat := 0) : Nat :=
  Nat.xor (m.regs.get (f.key n)) (f.reset m.integ n)

/-- Field `f` of instance `n` becomes `v`, cut to the field's width. -/
def Mach.put (m : Mach) (f : Field) (n : Nat := 0) (v : Nat) : Mach :=
  { m with regs := m.regs.set (f.key n) (Nat.xor (v % 2 ^ f.w) (f.reset m.integ n)) }

/-- A one-bit field as a truth value. -/
def Mach.flag (m : Mach) (f : Field) (n : Nat := 0) : Bool := m.get f n = 1

/-- Set a one-bit field. -/
def Mach.setFlag (m : Mach) (f : Field) (n : Nat := 0) (b : Bool) : Mach := m.put f n (b2n b)

/-- Advance a counter by `k`, saturating and setting OVF (R477). -/
def Mach.count (m : Mach) (f : Field) (n : Nat := 0) (k : Nat := 1) : Mach := m.put f n (countUp (m.get f n) k)

/-- Current trace time (R35). -/
def Mach.tb (m : Mach) : Tick := BitVec.ofNat 64 (m.get ALM.TB_NOW)

/-- Trace time is estimated (R42). -/
def Mach.estimated (m : Mach) : Bool := m.flag ALM.STAT_ESTIMATED

/-- Advance ALM.CNT_EST by a judgement made on estimated trace time (R43). -/
def Mach.judgeEst (m : Mach) : Mach := if m.estimated then m.count ALM.CNT_EST else m

/-- Hardware sets the EVENT bits of `mask` on page `p` of instance `n` in one cycle: with VALID at 0, EVENT_FIRST and EVENT_TIME
take the lowest of them, and the time stamp is a deadline judgement of R43 (R481). -/
def Mach.events (m : Mach) (p : Page) (n : Nat) (mask : Nat) : Mach :=
  match lowestBit mask 64 with
  | none => m
  | some b =>
    let m1 := m.put (evField p) n (m.get (evField p) n ||| mask)
    if m.flag (evFirstValid p) n then m1
    else
      ((((m1.put (evFirstBit p) n b).setFlag (evFirstEst p) n m.estimated).setFlag (evFirstValid p) n true).put
        (evTime p) n (m.get ALM.TB_NOW)).judgeEst

/-- Hardware sets one EVENT bit. -/
def Mach.event (m : Mach) (p : Page) (n : Nat) (b : Nat) : Mach := m.events p n (2 ^ b)

/-- PARAM_REJECT of a page is set, where the page has the bit. -/
def Mach.reject (m : Mach) (p : Page) (n : Nat := 0) : Mach :=
  match p.paramReject with
  | some b => m.event p n b
  | none => m

/-- A write of a reserved encoding by agent `a` to offset `off` of a page (R10): GLOBAL.EVENT.CFG_RESERVED sets, and RESV_ADDR keeps the
first such write while the bit is 0 (R485, R486). -/
def Mach.cfgReserved (m : Mach) (a : Nat) (p : Page) (n off : Nat) : Mach :=
  let m1 := if m.get (evField .global) % 2 = 1 then m
    else (m.put GLOBAL.RESV_OFFSET 0 ((p.number n * 4096 + off) / 8)).put GLOBAL.RESV_AGENT 0 (a + 1)
  m1.event .global 0 GLOBAL.EV_CFG_RESERVED

/-- The page is pending: an enabled EVENT bit is set; MAP also counts WD_EVENT (R489). -/
def Mach.pendingPage (m : Mach) (p : Page) (n : Nat) : Bool :=
  (m.get (evField p) n &&& m.get (evEnField p) n) != 0 ||
    (p == .map && (m.get MAP.WD_EVENT &&& m.get MAP.WD_EVENT_EN) != 0)

/-- The 192-bit summary vector (R489). -/
def Mach.summary (m : Mach) : Nat :=
  Page.all.foldl (fun v p => (List.range p.count).foldl (fun v n =>
    if m.pendingPage p n then v ||| 2 ^ p.sumIndex n else v) v) 0

/-- Take the next serial number. -/
def Mach.fresh (m : Mach) : Nat × Mach := (m.serial, { m with serial := m.serial + 1 })

/-- Wall-clock microseconds, milliseconds and seconds in root periods (R5): 19.2 GHz. -/
def usec (k : Nat) : Nat := 19200 * k
def msec (k : Nat) : Nat := 19200000 * k
def secs (k : Nat) : Nat := 19200000000 * k
/-- Fabric cycles (root/8) from `t0` to `t1`. -/
def fabricCycles (t0 t1 : Nat) : Nat := t1 / 8 - t0 / 8
/-- AON ticks of 10 ns from `t0` to `t1` (R443). -/
def aonTicks (t0 t1 : Nat) : Nat := t1 / 192 - t0 / 192

/-- Mode codes (R440). -/
def mReset : Nat := 0
def mBringup : Nat := 1
def mRun : Nat := 2
def mDegraded : Nat := 3
def mFlush : Nat := 4
def mSafehold : Nat := 5
def mEmber : Nat := 6
def mSmoulder : Nat := 7

/-- The mode (R440). -/
def Mach.mode (m : Mach) : Nat := m.get POWER.STAT_MODE
/-- EMBER or SMOULDER. -/
def Mach.asleep (m : Mach) : Bool := m.mode == mEmber || m.mode == mSmoulder
/-- Neither reset input is asserted. -/
def Mach.outOfReset (m : Mach) : Bool := m.porstN && !m.srstLow
/-- The Core's release has been reached (step 6 of R428). -/
def Mach.released (m : Mach) : Bool := m.flag GLOBAL.STAT_RELEASED
/-- The data paths run: released, not in SAFEHOLD, and awake or still entering a sleeping mode (R27, R448). -/
def Mach.running (m : Mach) : Bool :=
  m.released && m.mode != mSafehold && (!m.asleep || m.get POWER.STAT_PHASE == 1)
/-- Maintenance units may start: in RUN and DEGRADED only (R431, R448, R457). -/
def Mach.maint (m : Mach) : Bool := m.mode == mRun || m.mode == mDegraded
/-- The Almanac's domain runs: from release, except in SAFEHOLD (R34, R59). -/
def Mach.almRuns (m : Mach) : Bool := m.released && m.mode != mSafehold

/-- Bring the residency counter of the present mode up to now (R443). -/
def Mach.settleRes (m : Mach) : Mach :=
  let f := POWER.RES m.mode
  let m1 := m.put f 0 (satU 64 (m.get f + aonTicks m.power.modeAt m.now))
  { m1 with power := { m1.power with modeAt := m1.now } }

/-- Change the mode, settling the residency counter of the one left (R440, R443). -/
def Mach.setMode (m : Mach) (k : Nat) : Mach := m.settleRes.put POWER.STAT_MODE 0 k

/-- Whether a wake source code is privileged (R449). -/
def wakePrivileged (k : Nat) : Bool := k == 3 || k == 4 || k == 5

/-- Latch wake source `k` in any phase of EMBER and SMOULDER; WAKE_INFO records it unless one as strong is recorded (R449). A privileged
source that arrives once the last abort point has passed is reported with outcome 2 (R450). -/
def Mach.wake (m : Mach) (k : Nat) (port : Nat := 0) (chan : Nat := 0) : Mach :=
  if !m.asleep then m
  else
    let old := m.power.wakes
    let take := old = 0 || (wakePrivileged k && !wakePrivileged (m.get POWER.WAKE_SOURCE))
    let m0 := if wakePrivileged k && m.get POWER.STAT_PHASE = 1 && 4 ≤ m.power.step then m.put POWER.WAKE_ABORT_OUT 0 2 else m
    let m1 : Mach := { m0 with power := { m.power with wakes := old ||| 2 ^ k } }
    if take then
      let m2 := m1.put POWER.WAKE_SOURCE 0 k
      let m3 := if k = 4 then m2.put POWER.WAKE_PORT 0 port else m2
      if k = 6 then m3.put POWER.WAKE_CHANNEL 0 chan else m3
    else m1

/-- The switchable power domain of a page, by its POWER.PD_CTL bit; none for PD_AON (R444). -/
def Page.domain (p : Page) (n : Nat) : Option Nat :=
  match p with
  | .global => none | .clock => none | .power => none | .alm => none | .post => none
  | .collier => some 1
  | .kiln => some 2 | .stream => some 2
  | .ht => some (3 + n) | .hphy => some (3 + n)
  | .zml => some (5 + n / 4)
  | .port => some (13 + n / 4)
  | .reeve => some 0 | .err => some 0 | .gln => some 0 | .map => some 0 | .loom => some 0 | .seq => some 0
  | .rotaH => some 0 | .rotaM => some 0

/-- The clock domain of a page, by its number in R464, where the domain can be gated. -/
def Page.clockDomain (p : Page) (n : Nat) : Option Nat :=
  match p with
  | .global => none | .clock => none | .power => none | .alm => none | .post => none
  | .collier => some 3
  | .err => some 4 | .map => some 5 | .kiln => some 6 | .stream => some 6 | .loom => some 7 | .seq => some 7
  | .gln => some 8 | .reeve => some 9
  | .ht => some (10 + n) | .rotaH => some (10 + n) | .hphy => some (12 + n)
  | .zml => some (14 + n / 4) | .rotaM => some (14 + n / 4)
  | .port => some (30 + n / 2)

/-- A transfer to a gated clock domain resumes its clock; CNT_GATE_WAKE counts it (R468). -/
def Mach.wakeClock (m : Mach) (d : Nat) : Mach :=
  if bitAt (m.get CLOCK.GATED) (d - 1) then
    (m.put CLOCK.GATED 0 (m.get CLOCK.GATED - 2 ^ (d - 1))).count CLOCK.CNT_GATE_WAKE
  else m

/-- A held transfer clears the domain's PD_CTL bit and switches the domain on (R446). -/
def Mach.wakeDomain (m : Mach) (d : Nat) : Mach :=
  let m1 := if bitAt (m.get POWER.PD_OFF) d then m.put POWER.PD_OFF 0 (m.get POWER.PD_OFF - 2 ^ d) else m
  if bitAt (m1.get POWER.PD_ON) d then m1 else m1.put POWER.PD_ON 0 (m1.get POWER.PD_ON + 2 ^ d)

/-- A stack page of a stack that is not fitted (R480). -/
def Mach.absentPage (m : Mach) (p : Page) (n : Nat) : Bool :=
  (p == .ht || p == .hphy || p == .rotaH) && !(n < m.integ.stackCount)

/-- A CFG access of agent `a` to offset `off` of page `p`, instance `n`, whose action is `act`: nothing happens while a reset is
asserted or in SAFEHOLD (R437); `write` is false for a read; a page other than GLOBAL, CLOCK and POWER ignores it before release (R429),
and so does a page with PRESENT = 0 (R480); while the Core sleeps a write to a page outside PD_AON, and any access to PW_DATA, is held
and raises wake source CFG, and a read of such a page returns what is retained (R455); else an off domain is switched on (R446) and a
gated clock resumed (R468) before the access acts. -/
def Mach.viaCfg (m : Mach) (a : Nat) (p : Page) (n off : Nat) (data : Nat) (act : Mach → Mach) (write : Bool := true) : Mach :=
  if !m.outOfReset || m.mode == mSafehold then m
  else
    let m0 : Mach := { m with cfg := some ⟨a, 0, false⟩ }
    if !m.released && p != .global && p != .clock && p != .power then m0
    else if m.absentPage p n then m0
    else if m.asleep && (((p.domain n).isSome && write) || (p == .post && off == 0x170)) then
      Mach.wake { m with power := { m.power with
          held := m.power.held ++ [⟨a, p.number n * 4096 + off, BitVec.ofNat 64 data, write⟩] } } 7
    else if m.asleep then act m0
    else
      let m1 := match p.domain n with | some d => m0.wakeDomain d | none => m0
      act (match p.clockDomain n with | some d => m1.wakeClock d | none => m1)

/-- The state of port `n`. -/
def Mach.port (m : Mach) (n : Nat) : PortSt := m.ports.get n
/-- Change the state of port `n`. -/
def Mach.modPort (m : Mach) (n : Nat) (f : PortSt → PortSt) : Mach := { m with ports := m.ports.upd n f }

/-- Namespace descriptor `k` (R174). -/
def Mach.nsDesc (m : Mach) (k : Nat) : NsDesc := m.ns.get k
/-- Change namespace descriptor `k`. -/
def Mach.modNs (m : Mach) (k : Nat) (f : NsDesc → NsDesc) : Mach := { m with ns := m.ns.upd k f }
/-- HOME of namespace `k`, reset to k mod 32 (R174). -/
def Mach.nsHome (m : Mach) (k : Nat) : Nat := Nat.xor (m.nsDesc k).homeX (k % 32)

/-- Requests are moved in the fabric: the data paths run and PD_CTRL is on (R27, R444). -/
def Mach.fabricUp (m : Mach) : Bool := m.running && bitAt (m.get POWER.PD_ON) 0

/-- Nothing waits: one fabric cycle, 8 periods of the root, passes (R5, R464). DESIGN CHOICE: commands take no time of their own. -/
def Mach.passTime (m : Mach) : Mach := { m with now := m.now + 8 }

/-- The answer of a meaning: the machine after it, the queue untouched. -/
def answer (s : State) (f : Mach → Mach) : Host.Outcome State Fault Refusal := .next { s with m := f s.m }

/-- The answer of a meaning whose operands must be well formed. -/
def answerIf (ok : Bool) (s : State) (f : Mach → Mach) : Host.Outcome State Fault Refusal :=
  if ok then answer s f else .refused .illFormed

end Sys2Proof.Machine
end

