-- ==== Sys2Proof/Machine/Almanac.lean ====
section
/-! DEFINITION. Trace time, the schedule and the periods (chapter "Trace time and the Almanac", R34 to R61). What a fired entry
does to other blocks stands in AlmanacFire.lean. -/
namespace Sys2Proof.Machine

/-- Change the Almanac's own state. -/
def Mach.modAlm (m : Mach) (f : AlmSt → AlmSt) : Mach := { m with alm := f m.alm }

/-- The period parameters in force (R52); those of reset before any boundary has applied others. -/
def Mach.periodAct (m : Mach) : PeriodParams := m.alm.act.getD ⟨8192, 6144, 262144, 128⟩

/-- BG_TICKS of the period in force (R50). -/
def Mach.bgTicks (m : Mach) : Nat := m.periodAct.period - m.periodAct.guar

/-- Background budget of the current period per target, in bytes (R56). -/
def Mach.bgBudget (m : Mach) : Nat :=
  if m.bgTicks = 0 then 0 else m.periodAct.bg * (m.bgTicks - m.alm.shrink) / m.bgTicks

/-- The check of R52 on two lengths. -/
def periodOk (period guar : Nat) : Bool := 256 ≤ period && guar < period

/-- At a period boundary the written parameters are checked and applied together, or all four keep their values (R52). -/
def Mach.applyPeriod (m : Mach) : Mach :=
  let p := m.get ALM.PERIOD_TICKS
  let g := m.get ALM.GUAR_TICKS
  if periodOk p g then m.modAlm fun a => { a with act := some ⟨p, g, m.get ALM.BG_BYTES, m.get ALM.SHRINK_MAX⟩ }
  else
    let o := m.periodAct
    ((((m.put ALM.PERIOD_TICKS 0 o.period).put ALM.GUAR_TICKS 0 o.guar).put ALM.BG_BYTES 0 o.bg).put
      ALM.SHRINK_MAX 0 o.shrinkMax).reject .alm

/-- A PERIOD entry's lengths replace PERIOD_TICKS and GUAR_TICKS, or it changes neither and sets PARAM_REJECT (R45, R52). -/
def Mach.entryLengths (m : Mach) (arg : Word) : Mach :=
  let p := bits arg.toNat 0 32
  let g := bits arg.toNat 32 32
  if periodOk p g then
    ((m.put ALM.PERIOD_TICKS 0 p).put ALM.GUAR_TICKS 0 g).modAlm fun a =>
      { a with act := some { m.periodAct with period := p, guar := g } }
  else m.reject .alm

/-- The shrink that the period's parameters allow (R56). -/
def Mach.shrinkCap (m : Mach) : Nat := m.periodAct.shrinkMax * m.bgTicks / 256

/-- Start a period at tick `base` with shrink `sh` (R50, R56). -/
def Mach.beginPeriod (m : Mach) (base : Tick) (sh : Nat) : Mach :=
  let m1 := m.modAlm fun a => { a with shrink := sh, spent := [] }
  ((m1.put ALM.PERIOD_BASE 0 base.toNat).setFlag ALM.STAT_IN_GUAR 0 (0 < m.periodAct.guar + sh)).setFlag
    ALM.STAT_SHRINKING 0 (0 < sh)

/-- The shrunk ticks of the ending period that count: all at its full length, else those elapsed after GUAR_TICKS (R56). -/
def Mach.shrinkRepaid (m : Mach) (elapsed : Option Nat) : Nat :=
  match elapsed with
  | none => m.alm.shrink
  | some e => min m.alm.shrink (e - m.periodAct.guar)

/-- The end of a period and the start of the next at `base` (R52, R56). `elapsed` is e for a period that ends before its full
length; `arg` is the argument of a PERIOD entry. -/
def Mach.endPeriod (m : Mach) (base : Tick) (elapsed : Option Nat) (arg : Option Word) : Mach :=
  let sh := m.shrinkRepaid elapsed
  let lag := m.get ALM.LAG - sh + m.alm.late
  let m1 := m.applyPeriod
  let m2 := match arg with | some w => m1.entryLengths w | none => m1
  let m3 := if lag > 0xFFFFFFFF then m2.event .alm 0 ALM.EV_LAG_SAT else m2
  let m4 := (m3.count ALM.CNT_LAG_REPAID 0 sh).modAlm fun a => { a with late := 0 }
  let lag' := satU 32 lag
  (m4.put ALM.LAG 0 lag').beginPeriod base (min lag' m4.shrinkCap)

/-- Ticks of the current period gone before the present one (R56). -/
def Mach.periodElapsed (m : Mach) : Nat := (m.tb - BitVec.ofNat 64 (m.get ALM.PERIOD_BASE)).toNat

/-- The end of the current period's full length is reached (R37, R50). -/
def Mach.boundaryReached (m : Mach) : Bool :=
  reached m.tb (BitVec.ofNat 64 (m.get ALM.PERIOD_BASE) + BitVec.ofNat 64 m.periodAct.period)

/-- A PERIOD entry of tick `t` fires: it begins one period with the entry's lengths. On a boundary tick that is the period due there; when
its tick is the first of the current period, or it fires on that tick, it only replaces the lengths; later it ends the period before its
full length (R50). DESIGN CHOICE, log entry 82: with replaced lengths the shrink and the bytes spent stay as they are; the period that a
later tick begins has the trace time of the firing as its first tick; and an entry that fires while a boundary is reached belongs to that
boundary, whatever its own tick. -/
def Mach.periodEntry (m : Mach) (t : Tick) (arg : Word) : Mach :=
  if m.boundaryReached then
    m.endPeriod (BitVec.ofNat 64 (m.get ALM.PERIOD_BASE) + BitVec.ofNat 64 m.periodAct.period) none (some arg)
  else if m.periodElapsed = 0 || t = BitVec.ofNat 64 (m.get ALM.PERIOD_BASE) then
    let m1 := m.entryLengths arg
    m1.setFlag ALM.STAT_IN_GUAR 0 (m.periodElapsed < m1.periodAct.guar + m1.alm.shrink)
  else m.endPeriod m.tb (some (m.periodElapsed + 1)) (some arg)

/-- Lateness is recorded in the current period: the largest counts (R55); none is while no period runs (R38). -/
def Mach.recordLate (m : Mach) (ticks : Nat) : Mach :=
  if m.flag ALM.STAT_TB_VALID then m.modAlm fun a => { a with late := max a.late ticks } else m

/-- What the maintenance units of a work bit can work on: map units, the Gleaner pass, stacks (R24). -/
def Mach.unitIds (m : Mach) (kind : Nat) : List Nat :=
  match kind with
  | 0 => m.map.rws.keys
  | 1 => m.map.migs.keys ++ m.map.rots.keys
  | 2 => [0]
  | 3 => m.trim.apps.keys
  | _ => [0, 1]

/-- Lines of the Gleaner pass in flight: their visits have a read or a program outstanding (R261). -/
def Mach.gleanLines (m : Mach) : Nat := m.err.gFly.eraseDups.length

/-- Maintenance units of a work bit under way on `id` (R24, R54). -/
def Mach.underWay (m : Mach) (kind id : Nat) : Nat :=
  match kind with
  | 0 => (m.map.rws.get id).flight
  | 1 => (m.map.migs.get id).flight + b2n ((m.map.rots.get id).stage = 2)
  | 2 => m.gleanLines
  | 3 => b2n (m.trim.apps.get id ≠ 0)
  | _ => b2n (m.flag HPHY.STAT_UNIT id)

/-- The first `n` entries of `id` are taken out of `l`: the ticks they hold, and what stays. -/
def takeOverruns (id : Nat) : Nat → List (Nat × Tick) → List Tick × List (Nat × Tick)
  | _, [] => ([], [])
  | 0, l => ([], l)
  | n + 1, x :: l =>
    if x.1 = id then
      let r := takeOverruns id n l
      (x.2 :: r.1, r.2)
    else
      let r := takeOverruns id (n + 1) l
      (r.1, x :: r.2)

/-- Units of a work bit have ended since `m0`: those that were under way at a WINDOW_CLOSE count their overrun as lateness (R54, R55).
DESIGN CHOICE, log entry 82: the units on one map unit, and the lines of a Gleaner pass, end in the order in which they began, and an
overrun is measured modulo 2^64 across a backward jump. -/
def Mach.unitsEnded (m m0 : Mach) (kind : Nat) : Mach :=
  (((m.alm.overruns.get kind).map (·.1)).eraseDups).foldl (fun (m : Mach) id =>
    let r := takeOverruns id (m0.underWay kind id - m.underWay kind id) (m.alm.overruns.get kind)
    r.1.foldl (fun (m : Mach) t => m.recordLate (m.tb - t).toNat) (m.modAlm fun a => { a with overruns := a.overruns.set kind r.2 })) m

/-- At a WINDOW_CLOSE of tick `t` the units of a work bit that are under way begin to overrun (R54). -/
def Mach.overrunFrom (m : Mach) (kind : Nat) (t : Tick) : Mach :=
  let more (l : List (Nat × Tick)) (id : Nat) : List (Nat × Tick) :=
    List.replicate (m.underWay kind id - (l.filter fun x => x.1 = id).length) (id, t)
  m.modAlm fun a => { a with
    overruns := a.overruns.upd kind (fun l => l ++ (m.unitIds kind).eraseDups.flatMap (more l)) }

/-- Trace time moves on by `k` ticks; ticks with an open window are counted (R35, R53). -/
def Mach.advanceTb (m : Mach) (k : Nat) : Mach :=
  let m1 := m.put ALM.TB_NOW 0 (m.tb + BitVec.ofNat 64 k).toNat
  if m.get ALM.WIN_MASK = 0 then m1 else m1.count ALM.CNT_WIN_TICKS 0 k

/-- Ticks that the next TBCLK cycle adds: TB_ADV, or the nominal rate with its carried fraction while estimated (R35, R42). -/
def Mach.tickStep (m : Mach) (adv : Nat) : Nat × Nat :=
  if m.estimated then
    let s := m.alm.frac + m.get ALM.NOMINAL_RATE
    (s / 800000000, s % 800000000)
  else (adv, m.alm.frac)

/-- The schedule entry at index `i` (R45). -/
def Mach.entry (m : Mach) (i : Nat) : Entry := m.alm.sched.get i
/-- Write the schedule entry at index `i`. -/
def Mach.setEntry (m : Mach) (i : Nat) (e : Entry) : Mach := m.modAlm fun a => { a with sched := a.sched.set i e }

/-- The valid entries whose tick is reached, with their indices (R37). -/
def Mach.reachedEntries (m : Mach) : List (Nat × Entry) := m.alm.sched.filter fun e => reached m.tb e.2.tick

/-- Of two valid entries, whether the first fires first: the earlier tick by R37, then the lower index (R41). -/
def firesBefore (now : Tick) (a b : Nat × Entry) : Bool :=
  let da := (now - a.2.tick).toNat
  let db := (now - b.2.tick).toNat
  da > db || (da = db && a.1 < b.1)

/-- The entry that fires next, if one is reached (R41). -/
def Mach.nextToFire (m : Mach) : Option (Nat × Entry) :=
  m.reachedEntries.foldl (fun best e =>
    match best with
    | none => some e
    | some b => if firesBefore m.tb e b then some e else some b) none

/-- Every valid entry that is reached gets the marks of a first load or a discontinuity (R38, R39). DESIGN CHOICE, log entry 82: an
entry keeps its mark when a later backward jump puts its tick in the future again before it has fired. -/
def Mach.markReached (m : Mach) (f : Entry → Entry) : Mach :=
  m.modAlm fun a => { a with sched := a.sched.mapv fun _ e => if reached m.tb e.tick then f e else e }

/-- The earliest valid entry by R37, or none (R58). -/
def Mach.nextKnown (m : Mach) : Option (Nat × Entry) :=
  m.alm.sched.foldl (fun best e =>
    match best with
    | none => some e
    | some b => if tickBefore e.2.tick b.2.tick then some e else some b) none

/-- NEXT_TICK and NEXT_KIND show the next known event; none reads 0 and FREE (R58). -/
def Mach.showNext (m : Mach) : Mach :=
  match m.nextKnown with
  | some (_, e) => (m.put ALM.NEXT_TICK 0 e.tick.toNat).put ALM.NEXT_KIND 0 e.kind.code
  | none => (m.put ALM.NEXT_TICK 0 0).put ALM.NEXT_KIND 0 0

/-- LOG_TICK and LOG_INFO show the oldest record not yet taken; an empty log reads zero (R49, R61). -/
def Mach.showLog (m : Mach) : Mach :=
  let r := m.alm.log.headD default
  ((((((m.put ALM.LOG_TICK 0 r.tick.toNat).put ALM.LOG_INDEX 0 r.index).put ALM.LOG_KIND 0 r.kind.code).setFlag
    ALM.LOG_SKEWED 0 r.skewed).setFlag ALM.LOG_PAST 0 r.past).setFlag ALM.LOG_ESTIMATED 0 r.est).put
    ALM.LOG_WAKE_TAG 0 r.wakeTag |>.put ALM.LOG_DELAY 0 r.delay

/-- Append a record to the fire log; a full log loses its oldest and sets LOG_OVF (R49). -/
def Mach.appendLog (m : Mach) (r : FireRec) : Mach :=
  let m1 := if m.alm.log.length < 64 then m else
    (m.modAlm fun a => { a with log := a.log.drop 1 }).event .alm 0 ALM.EV_LOG_OVF
  (m1.modAlm fun a => { a with log := a.log ++ [r] }).showLog

/-- Index `i` belongs to the Loom reserve: the highest LOOM_RESERVE indices (R48). -/
def Mach.inReserve (m : Mach) (i : Nat) : Bool := 1024 - m.get ALM.LOOM_RESERVE ≤ i

/-- ENT_STAT takes a status (R46): 0 DONE, 1 ALREADY_DONE, 2 DENIED. -/
def Mach.entStat (m : Mach) (k : Nat) : Mach := (m.put ALM.ENT_STAT 0 k).setFlag ALM.ENT_STAT_VALID 0 false

/-- The reserve holds no FREE index (R48, R61). -/
def Mach.showLoomFull (m : Mach) (wanted : Bool) : Mach :=
  let n := m.get ALM.LOOM_RESERVE
  let full := (List.range n).all fun k => (m.entry (1023 - k)).kind != .free
  m.setFlag ALM.STAT_LOOM_FULL 0 (full && (wanted || m.flag ALM.STAT_LOOM_FULL))

/-- TIMEBASE_TICK (R35): one TBCLK cycle without TB_LOAD. -/
def timebaseTick (adv : Nat) (m : Mach) : Mach :=
  if !m.almRuns then m
  else
    let st := m.tickStep adv
    (m.advanceTb st.1).modAlm fun a => { a with frac := st.2 }

/-- A discontinuity marks the branches whose sample tick it reaches as SKEWED (R162). `old` is trace time before it. -/
def Mach.skewBranches (m : Mach) (old : Tick) : Mach :=
  let mark (b : LBranch) : LBranch :=
    if b.out.isNone && reached m.tb b.sample && !reached old b.sample then { b with skew := true } else b
  { m with loom := { m.loom with seqs := m.loom.seqs.mapv (fun _ s => { s with brs := s.brs.map mark }) } }

/-- A discontinuity: trace time becomes `v` where R35 gives `expected` (R39). DESIGN CHOICE, log entry 82: CNT_WIN_TICKS counts none of the
ticks that it passes over, nor one for its own cycle (R53). -/
def Mach.jumpTo (m : Mach) (v expected : Tick) : Mach :=
  let e := m.periodElapsed + 1
  let m2 := (m.put ALM.TB_NOW 0 v.toNat).put ALM.JUMP 0 (v - expected).toNat
  let m3 := ((m2.event .alm 0 ALM.EV_DISCONTINUITY).count ALM.CNT_DISC).modAlm fun a => { a with disc := a.disc + 1 }
  let m4 := m3.endPeriod v (some e) none
  ((m4.markReached fun x => { x with skewed := true }).showNext).skewBranches m.tb

/-- The first TB_LOAD after TIMEBASE_BACK ends the estimated state (R44). -/
def Mach.endEstimate (m : Mach) : Mach :=
  if m.estimated && m.alm.backSeen then
    (m.setFlag ALM.STAT_ESTIMATED 0 false).modAlm fun a => { a with backSeen := false, frac := 0 }
  else m

/-- TB_LOAD (R38, R39, R44): the loaded value `v`, in a cycle whose TB_ADV is `adv`. DESIGN CHOICE, log entry 82: the first load is no
period boundary (R52), so the first period has the parameters of reset. -/
def tbLoad (v : Tick) (adv : Nat) (m : Mach) : Mach :=
  if !m.almRuns then m
  else if !m.flag ALM.STAT_TB_VALID then
    let m1 := ((m.endEstimate.put ALM.TB_NOW 0 v.toNat).setFlag ALM.STAT_TB_VALID 0 true).beginPeriod v 0
    let any := !m1.reachedEntries.isEmpty
    let m2 := m1.markReached fun e => { e with past := true }
    (if any then m2.event .alm 0 ALM.EV_ENT_PAST else m2).showNext
  else
    let st := m.tickStep adv
    let expected := m.tb + BitVec.ofNat 64 st.1
    let m0 := m.modAlm fun a => { a with frac := st.2 }
    let m1 := m0.endEstimate
    if v = expected then (m1.advanceTb st.1).count ALM.CNT_CONFIRM
    else m1.jumpTo v expected

/-- TB_ALIVE_TOGGLE (R36, R44): TB_ALIVE changes level. -/
def tbAliveToggle (m : Mach) : Mach :=
  if !m.almRuns then m
  else
    let m1 := m.modAlm fun a => { a with alive := !a.alive, aliveAt := m.now }
    if m.estimated then (m1.modAlm fun a => { a with backSeen := true }).event .alm 0 ALM.EV_TIMEBASE_BACK else m1

/-- TIMEBASE_LOST (R42): more than TB_LOSS_TIME has passed since the last change of TB_ALIVE. DESIGN CHOICE, log entry 82: a second
silence before the load of R44 is a loss of its own, which forgets TIMEBASE_BACK. -/
def timebaseLost (m : Mach) : Mach :=
  if m.almRuns && usec (m.get ALM.TB_LOSS_TIME) < m.now - m.alm.aliveAt && (!m.estimated || m.alm.backSeen) then
    let m1 := if m.estimated then m else m.modAlm fun a => { a with frac := 0 }
    ((m1.modAlm fun a => { a with backSeen := false }).event .alm 0 ALM.EV_TIMEBASE_LOST).setFlag ALM.STAT_ESTIMATED 0 true
  else m

/-- CLEAR of the entry at ENT_SEL (R46 to R48). -/
def entClear (m : Mach) : Mach :=
  if m.get ALM.ENT_STAT = 3 then m.reject .alm
  else
    let i := m.get ALM.ENT_SEL
    if m.inReserve i then (m.entStat 2).event .alm 0 ALM.EV_ENT_DENIED
    else if (m.entry i).kind = .free then m.entStat 1
    else ((m.setEntry i default).entStat 0).showNext

/-- WRITE of an entry at ENT_SEL (R46 to R48). -/
def entWrite (m : Mach) : Mach :=
  if m.get ALM.ENT_STAT = 3 then m.reject .alm
  else
    let i := m.get ALM.ENT_SEL
    let k := EntKind.ofCode (m.get ALM.ENT_CTL)
    if k = .free then entClear m
    else if m.inReserve i || k = .playDue then (m.entStat 2).event .alm 0 ALM.EV_ENT_DENIED
    else
      let t := BitVec.ofNat 64 (m.get ALM.ENT_TICK)
      let past := m.flag ALM.STAT_TB_VALID && reached m.tb t
      let m1 := (m.setEntry i ⟨k, t, BitVec.ofNat 64 (m.get ALM.ENT_ARG), past, false⟩).entStat 0
      (if past then m1.event .alm 0 ALM.EV_ENT_PAST else m1).showNext

/-- READ of the entry at ENT_SEL into ENT_TICK, ENT_CTL and ENT_ARG (R46). -/
def entRead (m : Mach) : Mach :=
  if m.get ALM.ENT_STAT = 3 then m.reject .alm
  else
    let e := m.entry (m.get ALM.ENT_SEL)
    (((((m.put ALM.ENT_TICK 0 e.tick.toNat).put ALM.ENT_CTL 0 e.kind.code).put ALM.ENT_ARG 0 e.arg.toNat).entStat 0).setFlag
      ALM.ENT_STAT_VALID 0 (e.kind != .free))

/-- LOG_POP: the oldest fire record is discarded (R49). -/
def logPop (m : Mach) : Mach := (m.modAlm fun a => { a with log := a.log.drop 1 }).showLog

/-- A write of `v` to LOOM_RESERVE: taken only in its range and while every index it moves is FREE (R48). -/
def loomReserveWrite (v : Nat) (m : Mach) : Mach :=
  let old := m.get ALM.LOOM_RESERVE
  let lo := 1024 - max v old
  let n := max v old - min v old
  if v ≤ 512 && (List.range n).all fun k => (m.entry (lo + k)).kind == .free then
    (m.put ALM.LOOM_RESERVE 0 v).showLoomFull false
  else m.reject .alm

/-- GUARANTEED_PORTION_END: after GUAR_TICKS plus shrink the period passes into its background portion (R50, R56). -/
def guaranteedEnd (m : Mach) : Mach :=
  if m.almRuns && m.flag ALM.STAT_TB_VALID && m.flag ALM.STAT_IN_GUAR &&
      reached m.tb (BitVec.ofNat 64 (m.get ALM.PERIOD_BASE) + BitVec.ofNat 64 (m.periodAct.guar + m.alm.shrink)) then
    m.setFlag ALM.STAT_IN_GUAR 0 false
  else m

/-- PERIOD_END: the period ends at its full length (R50, R52, R56). -/
def periodEnd (m : Mach) : Mach :=
  if m.almRuns && m.flag ALM.STAT_TB_VALID && m.boundaryReached then
    m.endPeriod (BitVec.ofNat 64 (m.get ALM.PERIOD_BASE) + BitVec.ofNat 64 m.periodAct.period) none none
  else m

/-- Trace time has not been loaded, or the background portion with budget left at a target: both sets compete (R38, R51, R372). -/
def Mach.bgOpen (m : Mach) (target : Nat) : Bool :=
  !m.flag ALM.STAT_TB_VALID || (!m.flag ALM.STAT_IN_GUAR && m.alm.spent.get target < m.bgBudget)

/-! The meanings. -/

def execTimebaseTick (adv : BitVec 3) (s : State) := answer s (timebaseTick adv.toNat)
def execTbLoad (v : Tick) (adv : BitVec 3) (s : State) := answer s (tbLoad v adv.toNat)
def execTbAliveToggle (s : State) := answer s tbAliveToggle
def execTimebaseLost (s : State) := answer s timebaseLost
def execEntWrite (a : BitVec 3) (s : State) := answer s fun m => m.viaCfg a.toNat .alm 0 0x198 1 entWrite
def execEntClear (a : BitVec 3) (s : State) := answer s fun m => m.viaCfg a.toNat .alm 0 0x198 2 entClear
def execEntRead (a : BitVec 3) (s : State) := answer s fun m => m.viaCfg a.toNat .alm 0 0x198 3 entRead
def execLogPop (a : BitVec 3) (s : State) := answer s fun m => m.viaCfg a.toNat .alm 0 0x1B8 1 logPop
def execLoomReserveWrite (a : BitVec 3) (v : BitVec 10) (s : State) :=
  answer s fun m => m.viaCfg a.toNat .alm 0 0x170 v.toNat (loomReserveWrite v.toNat)
def execGuaranteedPortionEnd (s : State) := answer s guaranteedEnd
def execPeriodEnd (s : State) := answer s periodEnd

end Sys2Proof.Machine
end

