-- ==== Sys2Proof/Machine/Reeve.lean ====
section
/-! DEFINITION. Reeve's stages A, B and C (chapter "Reeve: metering, scheduling and regulation", R363 to R376, R383, R384). COMMIT
and the shortfall walk stand in ReeveAdmit.lean. -/
namespace Sys2Proof.Machine

/-- Change Reeve's own state. -/
def Mach.modReeve (m : Mach) (f : ReeveSt → ReeveSt) : Mach := { m with reeve := f m.reeve }

/-! ### Writes take effect in the next cycle (R366) -/

/-- A field of the REEVE page as this fabric cycle uses it: as it was before a write, or a clearing read, in the same cycle (R366, R383). -/
def Mach.rget (m : Mach) (f : Field) : Nat :=
  let p := m.reeve.prev.get (f.key 0)
  if p.2 = m.now + 1 then p.1 else m.get f
def Mach.rflag (m : Mach) (f : Field) : Bool := m.rget f != 0
/-- The fields of a register keep what this cycle uses before an access changes them: the meters, shapers, weights and overheads (R366), and
the latency maxima (R383). -/
def Mach.keepOld (m : Mach) (off : Nat) : Mach :=
  if off = 0x100 || (0x170 ≤ off && off ≤ 0x180) || (0x200 ≤ off && off < 0x740) then
    (fieldsAt .reeve 0 off).foldl (fun (m : Mach) f =>
      if (m.reeve.prev.get (f.key 0)).2 = m.now + 1 then m
      else m.modReeve fun r => { r with prev := r.prev.set (f.key 0) (m.get f, m.now + 1) }) m
  else m

/-! ### Ops and lengths -/

def opRead : Nat := 0x00
def opWrite : Nat := 0x01
def opWriteMasked : Nat := 0x02
def opFence : Nat := 0x03
def opPersist : Nat := 0x04
def opPersistNs : Nat := 0x05
def opAppend : Nat := 0x06
def opClearPoison : Nat := 0x07
def opPrefetch : Nat := 0x08
def opZero : Nat := 0x09

/-- An op with WDAT beats (R67). -/
def writeBearing (op : Nat) : Bool := op == opWrite || op == opWriteMasked || op == opAppend
/-- An op that counts as a write for order, holds and FLUSH: write-bearing, ZERO and CLEAR_POISON (R84, R94, R115). -/
def writesLines (op : Nat) : Bool := writeBearing op || op == opZero || op == opClearPoison
/-- An op whose address use is ADDR and LEN (R67). -/
def addressed (op : Nat) : Bool :=
  op == opRead || op == opWrite || op == opWriteMasked || op == opClearPoison || op == opPrefetch || op == opZero
/-- FENCE, PERSIST and PERSIST_NS. -/
def ordering (op : Nat) : Bool := op == opFence || op == opPersist || op == opPersistNs

/-- Bytes a request covers: 64 × (LEN + 1) (R65). -/
def Req.bytes (r : Req) : Nat := 64 * (r.len + 1)
/-- The namespace of a request's address (R65). -/
def Req.ns (r : Req) : Nat := r.addr / 2 ^ 52
/-- Lines the request touches (R363). -/
def Req.nlines (r : Req) : Nat := (r.addr % 256 + r.bytes + 255) / 256
/-- The logical line ADDR[59:8] of line `k` of a request. -/
def Req.line (r : Req) (k : Nat) : Nat := r.addr / 256 + k
/-- Whether an addressed request touches logical line `l`. -/
def Req.touches (r : Req) (l : Nat) : Bool := r.addr / 256 ≤ l && l < r.addr / 256 + r.nlines
/-- Whether two addressed requests touch a common line. -/
def Req.meets (a b : Req) : Bool := a.addr / 256 < b.addr / 256 + b.nlines && b.addr / 256 < a.addr / 256 + a.nlines

/-- The length L at which Reeve counts a request (R363); `stream` when it feeds a capture stream. -/
def Mach.reqLen (m : Mach) (r : Req) : Nat :=
  let ov := if r.stream.isSome then m.rget REEVE.OVERHEAD_M else m.rget REEVE.OVERHEAD_H
  let n := if r.op = opAppend then (r.bytes + 255) / 256 else r.nlines
  r.bytes + ov * n

/-! ### Meters -/

/-- Bucket units of 2^-16 byte that a rate in MB/s adds in `n` fabric cycles, at a resolution of one unit per cycle (R364). -/
def fillUnits (rate n : Nat) : Nat := rate * 65536 / 2400 * n

/-- A meter brought up to now: at rest while it is disabled, filled when it is enabled, else risen at its rates up to its bursts
(R364, R366). -/
def Meter.advance (mt : Meter) (en : Bool) (now cir pir cbs pbs : Nat) : Meter :=
  if !en then { mt with on := false, at_ := now }
  else if !mt.on then ⟨true, cbs * 65536, pbs * 65536, now⟩
  else
    let n := fabricCycles mt.at_ now
    ⟨true, min (cbs * 65536) (mt.tc + fillUnits cir n), min (pbs * 65536) (mt.tp + fillUnits pir n), now⟩

/-- One metering (R364, R367): the incoming colour is respected. -/
def Meter.meter (mt : Meter) (c : Color) (len : Nat) : Color × Meter :=
  let l := len * 65536
  if c = .red || mt.tp < l then (.red, mt)
  else if c = .yellow || mt.tc < l then (.yellow, { mt with tp := mt.tp - l })
  else (.green, { mt with tp := mt.tp - l, tc := mt.tc - l })

/-- A port's URG_EFF (R80). -/
def Mach.urgEff (m : Mach) (n : Nat) : Nat := m.get PORT.STAT_URG_EFF n

/-- The CIR of a port meter after feedback scaling (R375). -/
def Mach.portCir (m : Mach) (n : Nat) : Nat :=
  let c := m.rget (REEVE.PM_CIR n)
  if m.rflag (REEVE.PM_BE n) && m.urgEff n != 3 then c / 2 ^ m.get REEVE.STAT_FB_LEVEL else c

/-- The port meter of port `n` brought up to now. -/
def Mach.portMeter (m : Mach) (n : Nat) : Meter :=
  (m.reeve.pm.get n).advance (m.rflag (REEVE.PM_ENABLE n)) m.now (m.portCir n) (m.rget (REEVE.PM_PIR n)) (m.rget (REEVE.PM_CBS n)) (m.rget (REEVE.PM_PBS n))

/-- CIR of a class in force: a shadowed write waits for COMMIT (R379). -/
def Mach.cirForce (m : Mach) (c : Nat) : Nat := (m.reeve.cir.get c).getD (m.rget (REEVE.CL_CIR c))

/-- The CIR of a class meter: the granted figure while the class is short (R381). -/
def Mach.classCir (m : Mach) (c : Nat) : Nat := (m.reeve.granted.get c).getD (m.cirForce c)

/-- The class meter of class `c` brought up to now. -/
def Mach.classMeter (m : Mach) (c : Nat) : Meter :=
  (m.reeve.cm.get c).advance (m.rflag (REEVE.CL_METER_EN c)) m.now (m.classCir c) (m.rget (REEVE.CL_PIR c)) (m.rget (REEVE.CL_CBS c)) (m.rget (REEVE.CL_PBS c))

/-- Store a port meter, and show its tokens in PM_n_TOKENS in whole bytes. -/
def Mach.setPortMeter (m : Mach) (n : Nat) (mt : Meter) : Mach :=
  ((m.modReeve fun r => { r with pm := r.pm.set n mt }).put (REEVE.PM_TC n) 0 (mt.tc / 65536)).put (REEVE.PM_TP n) 0 (mt.tp / 65536)
/-- Store a class meter, and show its tokens in CL_c_TOKENS. -/
def Mach.setClassMeter (m : Mach) (c : Nat) (mt : Meter) : Mach :=
  ((m.modReeve fun r => { r with cm := r.cm.set c mt }).put (REEVE.CL_TC c) 0 (mt.tc / 65536)).put (REEVE.CL_TP c) 0 (mt.tp / 65536)

/-- Every port meter that feedback scales is brought up to now, before the level changes (R375). -/
def Mach.settleBe (m : Mach) : Mach :=
  (List.range 16).foldl (fun (m : Mach) n => if m.rflag (REEVE.PM_BE n) then m.setPortMeter n (m.portMeter n) else m) m
/-- Every class meter is brought up to now, before the CIRs in force change (R379, R381). -/
def Mach.settleClasses (m : Mach) : Mach :=
  (List.range 8).foldl (fun (m : Mach) c => m.setClassMeter c (m.classMeter c)) m

/-- The request of a port with serial number `id`. -/
def Mach.req? (m : Mach) (port id : Nat) : Option Req := (m.port port).reqs.find? fun r => r.id == id
/-- A request lies behind the mark of a global fence in progress: it takes no effect yet (R102). -/
def Mach.behindMark (m : Mach) (id : Nat) : Bool := m.flag GLOBAL.GFENCE_BUSY && m.order.mark ≤ id
/-- Change one request. -/
def Mach.modReq (m : Mach) (port id : Nat) (f : Req → Req) : Mach :=
  m.modPort port fun p => { p with reqs := p.reqs.map fun r => if r.id = id then f r else r }

/-! ### Shapers -/

/-- A shaper's credit brought up to now: it rises at RATE while a request waits or it is in debt, never above CAP; a credit above a
lowered CAP becomes the cap (R366, R368, R369). -/
def Shaper.advance (s : Shaper) (now rate cap : Nat) (en : Bool) : Shaper :=
  if !en then { s with credit := 0, at_ := now }
  else
    let old : Int := min s.credit (cap * 65536)
    let lim : Int := if s.fifo.isEmpty then max 0 old else cap * 65536
    { s with credit := max old (min (old + fillUnits rate (fabricCycles s.at_ now)) lim), at_ := now }

/-- The shaper of class `c` brought up to now. -/
def Mach.shaper (m : Mach) (c : Nat) : Shaper :=
  (m.reeve.shapers.get c).advance m.now (m.rget (REEVE.CL_RATE c)) (m.rget (REEVE.CL_CAP c)) (m.rflag (REEVE.CL_SHAPE_EN c))

/-- Store a shaper and show its credit in CL_c_CREDIT in whole bytes, signed (R368). -/
def Mach.setShaper (m : Mach) (c : Nat) (s : Shaper) : Mach :=
  (m.modReeve fun r => { r with shapers := r.shapers.set c s }).put (REEVE.CL_CREDIT c) 0 (toField 64 (s.credit / 65536))

/-- A request joins the shaper of the class under which it is regulated. -/
def Mach.toShaper (m : Mach) (port id c : Nat) (col : Color) : Mach :=
  let s := m.shaper c
  (m.setShaper c { s with fifo := s.fifo ++ [(port, id)] }).modReq port id fun r =>
    { r with phase := .shaper, color := col, rcls := c }

/-- Meter a request at the class meter of `c` and pass it on, or leave it at the meter's head (R367). `queue` says that it is not
yet in the class meter's queue. -/
def Mach.classStep (m : Mach) (port id c : Nat) (col : Color) (len : Nat) (queue : Bool) : Mach :=
  if !m.rflag (REEVE.CL_METER_EN c) then m.toShaper port id c col
  else
    let res := (m.classMeter c).meter col len
    if res.1 = .red then
      if m.rflag (REEVE.CL_RED_ACT c) then
        let m1 := m.setClassMeter c res.2
        if queue then
          (m1.modReeve fun r => { r with cq := r.cq.upd c (· ++ [(port, id)]) }).modReq port id fun r =>
            { r with phase := .classWait, color := col, heldAt := m.now }
        else m1
      else ((m.setClassMeter c res.2).count REEVE.CNT_DEMOTE).toShaper port id 0 .red
    else (m.setClassMeter c res.2).toShaper port id c res.1

/-- A request reaches stage B with colour `col` (R367). -/
def Mach.toClass (m : Mach) (port id c : Nat) (col : Color) (len : Nat) : Mach :=
  if col = .red then m.toShaper port id 0 .red
  else if !(m.reeve.cq.get c).isEmpty then
    (m.modReeve fun r => { r with cq := r.cq.upd c (· ++ [(port, id)]) }).modReq port id fun r =>
      { r with phase := .classWait, color := col, heldAt := m.now }
  else m.classStep port id c col len true

/-- A request is metered at its port's meter and passed on, or held there red (R364, R365). -/
def Mach.portStep (m : Mach) (port : Nat) (r : Req) (held : Bool) : Mach :=
  let len := m.reqLen r
  if !m.rflag (REEVE.PM_ENABLE port) then m.toClass port r.id r.cls .green len
  else
    let res := (m.portMeter port).meter .green len
    let m1 := m.setPortMeter port res.2
    if res.1 = .red then
      if m.rflag (REEVE.PM_RED_ACT port) then
        if held then m1
        else (m1.modReq port r.id fun x => { x with phase := .portHeld, heldAt := m.now }).event .reeve 0 REEVE.EV_HOLD
      else (m1.count REEVE.CNT_DEMOTE).toClass port r.id 0 .red len
    else m1.toClass port r.id r.cls res.1 len

/-- CNT_HOLD_CYCLES is brought up to now: the fabric cycles of the holds in progress (R365). -/
def Mach.settleHolds (m : Mach) : Mach :=
  (List.range 16).foldl (fun (m : Mach) n => (m.port n).reqs.foldl (fun (m : Mach) r =>
    if r.phase == .portHeld then
      (m.count REEVE.CNT_HOLD_CYCLES 0 (fabricCycles r.heldAt m.now)).modReq n r.id fun x => { x with heldAt := m.now }
    else m) m) m

/-- PORT_METER_HOLD_RELEASE (R365): the port's held request is metered again once Tp reaches L. -/
def portMeterRelease (port : Nat) (m : Mach) : Mach :=
  match (m.port port).reqs.find? fun r => r.phase == .portHeld with
  | none => m
  | some r =>
    if m.fabricUp && (!m.rflag (REEVE.PM_ENABLE port) || m.reqLen r * 65536 ≤ (m.portMeter port).tp) then
      (m.count REEVE.CNT_HOLD_CYCLES 0 (fabricCycles r.heldAt m.now)).portStep port r true
    else m

/-- CLASS_METER_HOLD_RELEASE (R367): the head of a class meter's queue is metered again and passes when it may. -/
def classMeterRelease (c : Nat) (m : Mach) : Mach :=
  match m.reeve.cq.get c with
  | [] => m
  | (port, id) :: rest =>
    match m.req? port id with
    | none => m.modReeve fun r => { r with cq := r.cq.set c rest }
    | some r =>
      if m.fabricUp && !(m.rflag (REEVE.CL_METER_EN c) && m.rflag (REEVE.CL_RED_ACT c) &&
          (m.classMeter c).tp < m.reqLen r * 65536) then
        (m.modReeve fun x => { x with cq := x.cq.set c rest }).classStep port id c r.color (m.reqLen r) false
      else m

/-- DEBT_CLEAR (R369): a negative credit becomes 0 and the debt forgiven is counted. -/
def debtClear (c : Nat) (m : Mach) : Mach :=
  let s := m.shaper c
  if s.credit < 0 then
    (m.setShaper c { s with credit := 0 }).count REEVE.CNT_DEBT_CLEARED 0 ((-s.credit + 65535) / 65536).toNat
  else m.setShaper c s

/-! ### Stage C -/

/-- The direction key of a target: 2 × target, plus 1 for media receive (R390). -/
def dirKey (target : Nat) (rx : Bool) : Nat := 2 * target + b2n rx
/-- The target numbers of a stack and of a channel (R370). -/
def tgtHearth (stack : Nat) : Nat := stack
def tgtMedia (chan : Nat) : Nat := 2 + chan

/-- Change stage C. -/
def Mach.modSc (m : Mach) (f : StageC → StageC) : Mach := { m with sc := f m.sc }
/-- The queue of requester `rq` at direction key `k` (R370). -/
def Mach.scQueue (m : Mach) (k rq : Nat) : List LineReq := m.sc.queues.get (32 * k + rq)

/-- The stage C weight of a request: its requester's, doubled and saturating at 510 for an urgent port's request (R371, R376). -/
def Mach.weight (m : Mach) (q : LineReq) : Nat :=
  let w := m.rget (REEVE.WEIGHT q.rq)
  match q.port with
  | some p => if 1 ≤ m.urgEff p then min 510 (2 * w) else w
  | none => w

/-- L / w with 16 fractional bits (R371). -/
def Mach.tagStep (m : Mach) (q : LineReq) : Nat := q.len * 65536 / max 1 (m.weight q)

/-- Put a line request at the tail of its stage C queue; a new head is stamped from the virtual time, from which the queue then runs
(R371, R373). -/
def Mach.enqueue (m : Mach) (k : Nat) (q : LineReq) : Mach :=
  let qs := m.scQueue k q.rq
  let v := m.sc.vt.get k
  let q1 := if qs.isEmpty then { q with ftag := some (v + m.tagStep q) } else { q with ftag := none }
  m.modSc fun s => { s with
    queues := s.queues.set (32 * k + q.rq) (qs ++ [{ q1 with since := m.now }]),
    fprev := if qs.isEmpty then s.fprev.set (32 * k + q.rq) v else s.fprev }

/-- Stamp the new head of a queue that has just advanced past finish tag `f` (R371). -/
def Mach.stampHead (m : Mach) (f : Nat) : List LineReq → List LineReq
  | [] => []
  | q :: t => (match q.ftag with | some _ => q | none => { q with ftag := some (f + m.tagStep q) }) :: t

/-- The head of a foreground queue (R372): a green request of a GUARANTEED class; KILN_OUT, KILN_SPILL, LOOM_DUE, LOOM_SPEC; SEAL. -/
def Mach.foreground (m : Mach) (q : LineReq) : Bool :=
  if q.rq < 8 then q.green && m.reeve.kind.get q.rq == 1
  else q.rq == 8 || q.rq == 9 || q.rq == 10 || q.rq == 11 || q.rq == 19

/-- Of two heads, the better: smaller finish tag, then lower requester ID (R371). -/
def betterHead (a b : LineReq) : Bool :=
  let fa := a.ftag.getD 0
  let fb := b.ftag.getD 0
  fa < fb || (fa = fb && a.rq < b.rq)

/-- The best of a list of heads (R371). -/
def bestHead (l : List LineReq) : Option LineReq :=
  l.foldl (fun b q => match b with | none => some q | some x => if betterHead q x then some q else some x) none

/-- The heads at a direction key. -/
def Mach.heads (m : Mach) (k : Nat) : List LineReq :=
  (List.range 20).filterMap fun r => (m.scQueue k r).head?

/-- The stage C winner among eligible heads (R372): the floor decision ranks the background alone, the guaranteed portion the
foreground first, an open background portion both together. -/
def Mach.winner (m : Mach) (target : Nat) (floor : Bool) (heads : List LineReq) : Option LineReq :=
  let fg := heads.filter m.foreground
  let bg := heads.filter fun q => !m.foreground q
  if floor && !bg.isEmpty then bestHead bg
  else if m.bgOpen target then bestHead heads
  else if fg.isEmpty then bestHead bg else bestHead fg

/-- Take the granted head `q` out of its queue: V becomes its tag, the next head is stamped, and background bytes are counted
against the period's budget (R371, R372). -/
def Mach.takeHead (m : Mach) (k : Nat) (q : LineReq) : Mach :=
  let f := q.ftag.getD 0
  let rest := (m.scQueue k q.rq).drop 1
  let m1 := m.modSc fun s => { s with
    queues := s.queues.set (32 * k + q.rq) (m.stampHead f rest),
    fprev := s.fprev.set (32 * k + q.rq) f,
    vt := s.vt.set k f }
  if m.foreground q then m1 else m1.modAlm fun a => { a with spent := a.spent.upd (k / 2) (· + q.len) }

/-- Withdraw from stage C every request that `p` names, without a charge; a new head is stamped as though the queue had just
advanced (R373). -/
def Mach.withdrawWhere (m : Mach) (p : LineReq → Bool) : Mach :=
  m.modSc fun s =>
    { s with queues := s.queues.mapv (fun key l => m.stampHead (s.fprev.get key) (l.filter (fun q => !p q))) }

/-- Bytes queued at stage C for a direction key (R374, R184). -/
def Mach.scBytes (m : Mach) (k : Nat) : Nat :=
  (List.range 20).foldl (fun a r => a + (m.scQueue k r).foldl (fun b q => b + q.len) 0) 0

/-! ### Feedback and sampling -/

/-- The level of a figure against three watermarks (R374). -/
def fbLevel (x lo mid hi : Nat) : Nat := if hi ≤ x then 3 else if mid ≤ x then 2 else if lo ≤ x then 1 else 0

/-- SAMP_SEL_k write by agent `a` (R384): the ring is emptied and its position returns to 0. A target that no tier has and a requester
ID that R387 reserves are encodings without a meaning: the field keeps its value (R10). -/
def sampSelWrite (a k v : Nat) (m : Mach) : Mach :=
  let off := 0x188 + 8 * k
  let m1 := if bits v 0 6 < 34 then m.put (REEVE.SAMP_TARGET k) 0 (bits v 0 6) else m.cfgReserved a .reeve 0 off
  let m2 := if bits v 8 5 < 20 then m1.put (REEVE.SAMP_REQ k) 0 (bits v 8 5) else m1.cfgReserved a .reeve 0 off
  ((m2.put (REEVE.SAMP_ENABLE k) 0 (bits v 16 1)).put (REEVE.SAMP_POS k) 0 0).modReeve fun r => { r with rings := r.rings.set k [] }

/-- Bytes and head age of a requester's queues at a target, both directions (R384). -/
def Mach.sampleOf (m : Mach) (target rq : Nat) : Sample :=
  let l := m.scQueue (dirKey target false) rq ++ m.scQueue (dirKey target true) rq
  let ages := l.map fun q => fabricCycles q.since m.now
  ⟨satU 32 (l.foldl (fun a q => a + q.len) 0), satU 32 (ages.foldl max 0)⟩

/-- Write an entry of a ring of 16. -/
def ringSet (l : List Sample) (i : Nat) (x : Sample) : List Sample :=
  (l ++ List.replicate (16 - l.length) default).set i x

/-- SAMPLE_TICK (R384): SAMPLE_CYCLES after the last tick, each enabled ring records its queue's bytes and head age. -/
def sampleTick (m0 : Mach) : Mach :=
  let m := m0.modReeve fun r => { r with sampAt := m0.now }
  if !m0.fabricUp || fabricCycles m0.reeve.sampAt m0.now < m0.get REEVE.SAMPLE_CYCLES then m0
  else (List.range 4).foldl (fun m k =>
    if m.flag (REEVE.SAMP_ENABLE k) then
      let pos := m.get (REEVE.SAMP_POS k)
      let x := m.sampleOf (m.get (REEVE.SAMP_TARGET k)) (m.get (REEVE.SAMP_REQ k))
      (m.modReeve fun r => { r with rings := r.rings.upd k fun l => ringSet l pos x }).put (REEVE.SAMP_POS k) 0 ((pos + 1) % 16)
    else m) m

/-- Record a completion's latency in a pair of MAXLAT fields. One in the cycle of the clearing read is judged against the value before the
clear (R383). -/
def Mach.maxlat (m : Mach) (f ft : Field) (lat tag : Nat) : Mach :=
  if max (m.get f) (m.rget f) < lat then (m.put f 0 (satU 32 lat)).put ft 0 tag else m

/-- A completion is judged against the latency maxima of its port and class (R383). -/
def Mach.recordLatency (m : Mach) (port : Nat) (r : Req) : Mach :=
  if ordering r.op then m
  else
    let lat := satU 32 (fabricCycles r.at_ m.now)
    let m1 := if r.op = opRead then m.maxlat (REEVE.MAXLAT_RD port) (REEVE.MAXLAT_RD_TAG port) lat r.tag else m
    let m2 := if writeBearing r.op then m1.maxlat (REEVE.MAXLAT_WR port) (REEVE.MAXLAT_WR_TAG port) lat r.tag else m1
    if max (m2.get (REEVE.MAXLAT_C r.cls)) (m2.rget (REEVE.MAXLAT_C r.cls)) < lat then
      (m2.maxlat (REEVE.MAXLAT_C r.cls) (REEVE.MAXLAT_C_TAG r.cls) lat r.tag).put (REEVE.MAXLAT_C_PORT r.cls) 0 port
    else m2

def execPortMeterHoldRelease (p : BitVec 4) (s : State) := answer s (portMeterRelease p.toNat)
def execClassMeterHoldRelease (c : BitVec 3) (s : State) := answer s (classMeterRelease c.toNat)
def execDebtClear (a : BitVec 3) (c : BitVec 3) (s : State) :=
  answer s fun m => m.viaCfg a.toNat .reeve 0 (0x428 + 0x40 * c.toNat) 1 (debtClear c.toNat)
def execSampleTick (s : State) := answer s sampleTick
def execSampSelWrite (a : BitVec 3) (k : BitVec 2) (v : BitVec 17) (s : State) :=
  answer s fun m => m.viaCfg a.toNat .reeve 0 (0x188 + 8 * k.toNat) v.toNat (sampSelWrite a.toNat k.toNat v.toNat)

end Sys2Proof.Machine
end

