-- ==== Sys2Proof/Machine/Hearth.lean ====
section
/-! DEFINITION. Where a line lies in Hearth and what is held there: geometry, regions, placement, home slots, the dirty-line
directory, cache generations, the Hearth check and ladder, the error ring (chapters "Hearth: the HBM tier controller", R270 to
R285, and "Line integrity, recovery and scrubbing", R238 to R254). -/
namespace Sys2Proof.Machine

/-! ### The error ring (R254, R255) -/

/-- The markers of R236. -/
def blankXor : Nat := 0xB1A40C0D
def poisonXor : Nat := 0x5A5A0F0F

/-- What an entry of the error ring says (R254). -/
structure RingInfo where
  line : Nat
  path : Nat
  tick : Nat
  chan : Nat
  stack : Nat
  seg : Nat
  pos : Nat
  rq : Nat
  port : Nat
  demand : Bool
  est : Bool
  step : Nat
  outcome : Nat
  overBound : Bool
  status : Nat
  gen : Nat
  dur : Nat
  deriving DecidableEq, Repr, Inhabited

/-- The four words of an entry with number `i` (R254). -/
def RingInfo.entry (r : RingInfo) (i : Nat) : RingEnt where
  w0 := r.line % 2 ^ 52 * 256 + r.path * 2 ^ 60
  w1 := r.tick
  w2 := r.chan % 32 + r.stack % 2 * 2 ^ 5 + r.seg % 2 ^ 27 * 2 ^ 6 + r.pos % 4096 * 2 ^ 33 + r.rq % 32 * 2 ^ 45 +
    r.port % 16 * 2 ^ 50 + b2n r.demand * 2 ^ 54 + b2n r.est * 2 ^ 55 + r.step % 8 * 2 ^ 56 + r.outcome % 16 * 2 ^ 59 +
    b2n r.overBound * 2 ^ 63
  w3 := i % 2 ^ 32 + r.status % 16 * 2 ^ 32 + r.gen % 256 * 2 ^ 40 + satU 16 r.dur * 2 ^ 48

/-- RING_W0 to RING_W3 show the entry at RING_SEL (R255). -/
def Mach.showRing (m : Mach) : Mach :=
  let e := m.err.ring.get (m.get ERR.RING_SEL)
  (((m.put ERR.RING_W0 0 e.w0).put ERR.RING_W1 0 e.w1).put ERR.RING_W2 0 e.w2).put ERR.RING_W3 0 e.w3

/-- Make one entry of the error ring, and count the outcome of the ladder that it ends (R254, R266). -/
def Mach.ringAdd (m : Mach) (r : RingInfo) : Mach :=
  let i := m.get ERR.RING_WR
  let m1 : Mach := { m with err := { m.err with ring := m.err.ring.set (i % 1024) (r.entry i) } }
  let m2 := (m1.put ERR.RING_WR 0 (i + 1)).showRing
  let m3 := if r.outcome = 0 || r.outcome = 3 then m2.count ERR.CNT_RETRIED
    else if r.outcome = 1 then m2.count ERR.CNT_RECOMPUTED
    else if r.outcome = 2 then m2.count ERR.CNT_MIRROR else m2
  if r.overBound then (m3.event .err 0 ERR.EV_OVER_BOUND).count ERR.CNT_OVER_BOUND else m3

/-- A line becomes poison (R248): counted and signalled. -/
def Mach.poisoned (m : Mach) (k : Nat := 1) : Mach :=
  (m.count ERR.CNT_POISONED 0 k).event .err 0 ERR.EV_POISON_WRITTEN

/-! ### Loom's copies of a line (R160) -/

/-- Change Loom's own state. -/
def Mach.modLoom (m : Mach) (f : LoomSt → LoomSt) : Mach := { m with loom := f m.loom }
/-- The phase of a line of a walked entry once its copy is discarded: it is read again (R160). `here` says that the copy has been read for
the push, and `flying` that a read under way is stale too. -/
def stalePhase (here flying : Bool) (p : Nat) : Nat :=
  if p = 2 || p = 4 || ((p = 8 || p = 9) && here) then 0 else if (p = 1 && flying) || p = 8 || p = 9 then 5 else p

/-- The walked entry has line `l`, whose copies are discarded. What an entry that was cut has read stays (R155). -/
def LEnt.discard (e : LEnt) (l : Nat) (flying : Bool) : LEnt :=
  if e.mark || e.cut || l < e.line || e.line + e.lines ≤ l then e
  else
    let n := l - e.line
    let p := e.ph.get n
    { e with
      ph := e.ph.set n (stalePhase (e.here.get n).isSome flying p)
      here := if p = 8 || p = 9 then e.here.erase n else e.here }

/-- A copy serves an entry that was cut when its namespace changed: the line has been read (R155). -/
def Mach.cutHeld (m : Mach) (c : LCopy) : Bool := (m.loom.seqs.get c.seq).queue.any fun e =>
  e.cut && ((c.kind = 0 && c.ent = e.id) ||
    (c.kind = 2 && e.line ≤ c.line && (e.ph.get (c.line - e.line) = 4 || e.ph.get (c.line - e.line) = 9)))

/-- A write, ZERO, CLEAR_POISON, stream write or poisoning takes effect on a line: Loom's copies of it are discarded (R21, R160). -/
def Mach.loomDiscard (m : Mach) (l : Nat) (flying : Bool := true) : Mach :=
  let mine (c : LCopy) : Bool := c.line = l && c.kind ≠ 4 && !m.cutHeld c
  let stale := m.loom.copies.filter fun c => mine c && (c.kind = 1 || c.kind = 3)
  let m1 := m.modLoom fun s => { s with
    copies := s.copies.filter (fun c => !mine c),
    seqs := s.seqs.mapv (fun _ q => { q with queue := q.queue.map (fun e => e.discard l flying) }) }
  stale.foldl (fun (m : Mach) c => m.count SEQ.SPEC_STALE c.seq) m1

/-- A line becomes poison (R248), which discards Loom's copies of it (R160). A read under way takes the ladder's outcome (R159, R165). -/
def Mach.poisonLine (m : Mach) (l : Nat) : Mach := (m.loomDiscard l false).poisoned

/-! ### Geometry and regions (R270 to R276) -/

/-- Change the Hearth controller's own state. -/
def Mach.modHt (m : Mach) (f : HtSt → HtSt) : Mach := { m with ht := f m.ht }

/-- Stack `k` is in service. -/
def Mach.stackIn (m : Mach) (k : Nat) : Bool := m.flag HT.STAT_IN_SERVICE k
/-- S, the number of stacks in service (R270). -/
def Mach.stacksIn (m : Mach) : Nat := b2n (m.stackIn 0) + b2n (m.stackIn 1)
/-- The stack count that the regions were laid out for: a stack that failed since does not move them (R276, R298). -/
def Mach.stacksLaid (m : Mach) : Nat := if m.flag HT.STAT_SINGLE then 2 else m.stacksIn
/-- The lowest-numbered stack in service. -/
def Mach.survivor (m : Mach) : Nat := if m.stackIn 0 then 0 else 1

/-- Capacity of one stack in MiB (R271). -/
def Mach.stackMiB (m : Mach) : Nat := 2 ^ (m.ht.geomB + m.ht.geomR) / 32
/-- Lines of one stack. -/
def Mach.stackLines (m : Mach) : Nat := 4096 * m.stackMiB

/-- The default sizes of R274, rounded down to a multiple of 64 MiB. -/
def Mach.defaultLayout (m : Mach) : Layout :=
  let c := m.stackMiB
  ⟨c / 4 / 64 * 64, 3 * c / 8 / 64 * 64, c / 128 / 64 * 64⟩

/-- The sizes in force (R276). -/
def Mach.layout (m : Mach) : Layout := m.ht.layout.getD m.defaultLayout

/-- First lines of the regions on a stack, in the order of R274. -/
def Mach.dirtyBase (m : Mach) : Nat := 4096 * m.integ.parishMiB
def Mach.mirrorBase (m : Mach) : Nat := m.dirtyBase + 4096 * (64 / max 1 m.stacksLaid)
def Mach.mapBase (m : Mach) : Nat := m.mirrorBase + (if m.stacksLaid = 2 then 4096 * 32 else 0)
def Mach.spillBase (m : Mach) : Nat := m.mapBase + 4096 * m.layout.map
def Mach.loomBase (m : Mach) : Nat := m.spillBase + 4096 * m.layout.spill
def Mach.homeBase (m : Mach) : Nat := m.loomBase + 4096 * m.layout.loom

/-- N, the home slots over all stacks (R274, R298). -/
def Mach.homeSlots (m : Mach) : Nat := m.stacksIn * (m.stackLines - m.homeBase)

/-- Where index `x` of a spread region lies: stack and stack line index (R275). -/
def Mach.spread (m : Mach) (base x : Nat) : Nat × Nat :=
  if m.stacksIn = 2 then (x % 2, base + x / 2) else (m.survivor, base + x)

/-- Where dirty slot `e` lies (R275, R298). -/
def Mach.dirtyPlace (m : Mach) (e : Nat) : Nat × Nat :=
  if m.stacksLaid = 2 then
    if m.stacksIn = 2 then (e % 2, m.dirtyBase + e / 2)
    else if e % 2 = m.survivor then (m.survivor, m.dirtyBase + e / 2) else (m.survivor, m.mirrorBase + e / 2)
  else (m.survivor, m.dirtyBase + e)

/-- Where the mirror copy of dirty slot `e` lies (R275). -/
def Mach.mirrorPlace (m : Mach) (e : Nat) : Nat × Nat := (1 - e % 2, m.mirrorBase + e / 2)

/-- The place of stack line index `h` in the arrays: pseudo-channel, column slot, bank, row (R275). -/
def placeOf (b r h : Nat) : Nat × Nat × Nat × Nat :=
  let w := 7 + b + r
  (Nat.xor (bits h 0 5) (bits h 17 5), bits h 5 2, Nat.xor (bits h 7 b) (bits h (w - b) b), bits h (7 + b) r)

/-- The key of a line in the cell table. -/
def cellKey (p : Nat × Nat) : Nat := p.1 * 2 ^ 28 + p.2
/-- The line held at a place. -/
def Mach.cell (m : Mach) (p : Nat × Nat) : HLine := m.ht.cells.get (cellKey p)

/-- The class of a Hearth line (R240, R273): 0 GOOD, 1 BLANK, 2 POISON, 3 FAIL. -/
def HLine.cls (l : HLine) : Nat :=
  if l.mcrcX ≠ 0 then 3
  else if l.tagX = 0 then 0 else if l.tagX = blankXor then 1 else if l.tagX = poisonXor then 2 else 3

/-- The tag difference that marks a class. -/
def markX (cls : Nat) : Nat := if cls = 1 then blankXor else if cls = 2 then poisonXor else 0

/-- The Hearth tag of data at a place (R238). -/
def hearthTag (d : Line) (p : Nat × Nat) : Nat := crc32c 264 (d.toNat + (p.1 + 2 * p.2) * 2 ^ 2048)

/-- A line with bits of its data and tag inverted after its tag was computed. -/
def HLine.corrupt (l : HLine) (p : Nat × Nat) (xd : Line) (xt xm : Nat) : HLine :=
  let d := l.data ^^^ xd
  let t := if xd = 0 then 0 else Nat.xor (hearthTag l.data p) (hearthTag d p)
  { l with data := d, tagX := Nat.xor (Nat.xor l.tagX t) xt, mcrcX := Nat.xor l.mcrcX xm }

/-- Write a line of Hearth; an armed Hearth flip mask corrupts the next qualifying write (R256). `line` is the logical line. -/
def Mach.hWrite (m : Mach) (p : Nat × Nat) (line : Nat) (l : HLine) : Mach :=
  let hit := m.flag ERR.FLIP_H_ARM && (!m.flag ERR.FLIP_H_MATCH || m.get ERR.FLIP_MATCH = line)
  let mask := m.get ERR.FLIP_MASK_H
  let t := m.get ERR.FLIP_H_TARGET
  let l' := if !hit then l
    else if t < 32 then l.corrupt p ((BitVec.ofNat 2048 mask) <<< (64 * t)) 0 0 else l.corrupt p 0 (mask % 2 ^ 32) 0
  let m1 := m.modHt fun h => { h with cells := h.cells.set (cellKey p) l' }
  if hit then (m1.setFlag ERR.FLIP_H_ARM 0 false).event .err 0 ERR.EV_FLIP_DONE_H else m1

/-! ### Cache generations (R283, R285) -/

/-- CGEN of a namespace. -/
def Mach.cgen (m : Mach) (ns : Nat) : Nat := m.ht.cgen.get ns

/-- Increment a namespace's CGEN; the increment that would be the 2^32nd since the sweeper's last pass waits for it (R285). -/
def Mach.bumpCgen (m : Mach) (ns : Nat) : Mach :=
  if m.ht.cgenInc.get ns + 1 = 2 ^ 32 then
    (m.modHt fun h => { h with cgenOwed := h.cgenOwed.upd ns (· + 1) }).event .ht 0 HT.EV_CGEN_WAIT
  else m.modHt fun h => { h with
    cgen := h.cgen.upd ns fun g => (g + 1) % 2 ^ 32, cgenInc := h.cgenInc.upd ns (· + 1), cgenPass := h.cgenPass.upd ns (· + 1) }

/-! ### Home slots and the directory (R277 to R280) -/

/-- The namespace of a logical line. -/
def lineNs (l : Nat) : Nat := l / 2 ^ 44
/-- The byte offset of a logical line in its namespace. -/
def lineOff (l : Nat) : Nat := l % 2 ^ 44 * 256

/-- The check of R277 from which home slot and bucket come. -/
def lineHash (l : Nat) : Nat := crc32c 8 (l % 2 ^ 52)
/-- The bucket of a logical line (R277). -/
def lineBucket (l : Nat) : Nat := bits (lineHash l) 18 14
/-- The place of the home slot of a logical line (R277). -/
def Mach.homePlace (m : Mach) (l : Nat) : Nat × Nat := m.spread m.homeBase (lineHash l % max 1 m.homeSlots)

/-- Directory entry `e`. -/
def Mach.dirEnt (m : Mach) (e : Nat) : DirEnt := m.ht.dir.get e
/-- Write directory entry `e`; DIR_COUNT counts the VALID entries. -/
def Mach.setDir (m : Mach) (e : Nat) (d : DirEnt) : Mach :=
  let old := m.ht.dir.get e
  let n := m.get HT.DIR_COUNT
  (m.modHt fun h => { h with dir := h.dir.set e d }).put HT.DIR_COUNT 0 (n + b2n d.valid - b2n old.valid)

/-- EPOCH of a namespace (R174). -/
def Mach.epoch (m : Mach) (ns : Nat) : Nat := (m.nsDesc ns).epoch

/-- Entry `e` is current: VALID, and its slot carries the EPOCH of its namespace, or its Hearth data is lost (R278, R297). -/
def Mach.dirCurrent (m : Mach) (e : Nat) : Bool :=
  let d := m.dirEnt e
  d.valid && (d.lost || (m.cell (m.dirtyPlace e)).gen == m.epoch (lineNs d.line))

/-- The VALID entry of a logical line, current or stale. -/
def Mach.dirAny (m : Mach) (l : Nat) : Option Nat :=
  let b := lineBucket l
  ((List.range 16).find? fun w => let d := m.dirEnt (16 * b + w); d.valid && d.line == l).map (16 * b + ·)

/-- The current entry of a logical line (R278). -/
def Mach.dirFind (m : Mach) (l : Nat) : Option Nat := (m.dirAny l).filter m.dirCurrent

/-- A free way of a bucket. -/
def Mach.dirFree (m : Mach) (b : Nat) : Option Nat :=
  ((List.range 16).find? fun w => !(m.dirEnt (16 * b + w)).valid).map (16 * b + ·)

/-- Dirty bytes in Hearth (R279). -/
def Mach.dirtyBytes (m : Mach) : Nat := 256 * m.get HT.DIR_COUNT

/-- The line lies in a target that a stream reserves (R122, R284). -/
def Mach.reserved (m : Mach) (l : Nat) : Bool := m.ht.targets.any fun t => t.2.1 ≤ l && l < t.2.1 + t.2.2

/-- The home copy of a logical line hits (R277). -/
def Mach.homeHit (m : Mach) (l : Nat) : Bool :=
  let c := m.cell (m.homePlace l)
  m.stacksIn ≠ 0 && c.st == 1 && c.ltag == l && c.gen == m.cgen (lineNs l) && !m.reserved l

/-- Write a logical line's home copy as CLEAN (R280, R281). -/
def Mach.homeWrite (m : Mach) (l : Nat) (d : Line) (cls : Nat) (lastUse : Bool) : Mach :=
  m.hWrite (m.homePlace l) l ⟨d, l, m.cgen (lineNs l), 1, lastUse, markX cls, 0⟩

/-- Mark a home slot EMPTY: zero data and a valid TAG (R281, R285). -/
def Mach.homeEmpty (m : Mach) (p : Nat × Nat) : Mach := m.hWrite p (m.cell p).ltag default

/-- A line read from the medium on a miss is kept, or not, by R280. `fill` says that the read is a PREFETCH or a hint fill. -/
def Mach.keepHome (m : Mach) (l : Nat) (d : Line) (cls : Nat) (noalloc lastUse fill : Bool) : Mach :=
  let c := m.cell (m.homePlace l)
  let other := c.st == 1 && c.ltag != l && c.gen == m.cgen (lineNs c.ltag) && !m.reserved c.ltag && !c.lastUse && c.cls != 3
  if noalloc || m.reserved l || (fill && other) || m.stacksIn = 0 then m.count HT.CNT_NOKEEP
  else m.homeWrite l d cls lastUse

/-! ### Hearth traffic -/

/-- A blank media part. -/
def Media.none : Media := default

/-- A Hearth line request of requester `rq` for the line at a place (R370). -/
def Mach.hReq (m : Mach) (rq : Nat) (p : Nat × Nat) (write : Bool) (port : Option Nat) (green : Bool) (job : Job) : LineReq :=
  let pl := placeOf m.ht.geomB m.ht.geomR p.2
  { (default : LineReq) with
    id := m.serial, rq, port, green, len := 256 + m.rget REEVE.OVERHEAD_H, write,
    pc := pl.1, bank := pl.2.2.1, row := pl.2.2.2, h := p.2, job }

/-- Queue a Hearth line request at stage C of its stack. -/
def Mach.hQueue (m : Mach) (rq : Nat) (p : Nat × Nat) (write : Bool) (job : Job := .none) (port : Option Nat := none)
    (green : Bool := false) : Mach :=
  let q := m.hReq rq p write port green job
  { m.enqueue (dirKey (tgtHearth p.1) false) q with serial := m.serial + 1 }

/-! ### Dirty lines -/

/-- CLASS_c is a mirroring class now (R282). -/
def Mach.mirrors (m : Mach) (c : Nat) : Bool := m.stacksIn = 2 && bitAt (m.get HT.MIRROR_CLASSES) c

/-- Write dirty slot `e`, and its mirror copy when MIRRORED; REWRITTEN is set while a writeback is in flight (R279, R282). -/
def Mach.dirtyWrite (m : Mach) (e : Nat) (d : Line) (cls : Nat) : Mach :=
  let en := m.dirEnt e
  let l : HLine := ⟨d, en.line, m.epoch (lineNs en.line), 2, en.lastUse, markX cls, 0⟩
  let m1 := m.hWrite (m.dirtyPlace e) en.line l
  let m2 := if en.mirrored then m1.hWrite (m1.mirrorPlace e) en.line l else m1
  m2.setDir e { en with rewritten := en.rewritten || en.wb, lost := false }

/-- The data a FAIL dirty line stands for, after the Hearth ladder of R246: the line as it is then held, and the status to a
demand. `rq`, `port`, `demand`, `merge` (the fill of a partial write) and `at_` (its issue) describe the access for the error ring; a
non-demand that ends uncorrectable is signalled by R252. -/
def Mach.dirtyLadder (m : Mach) (e rq port : Nat) (demand merge : Bool) (at_ : Nat) : Nat × Mach :=
  let p := m.dirtyPlace e
  let c := m.cell p
  let en := m.dirEnt e
  let info : RingInfo :=
    { line := en.line, path := 1, tick := m.get ALM.TB_NOW, chan := 0, stack := p.1, seg := 0, pos := 0, rq, port, demand,
      est := m.estimated, step := 4, outcome := 2, status := if demand then 1 else 0, gen := 0, dur := (m.now - at_) / 192,
      overBound := demand && usec (if en.mirrored then 32 else 16) / 100 < m.now - at_ }
  let m1 := (m.count ERR.CNT_HEARTH_FAIL).judgeEst
  let unreq (m : Mach) : Mach := if demand then m else (m.event .err 0 ERR.EV_UNREQ_POISON).count ERR.CNT_UNREQ_POISON
  let bad := (m1.hQueue rq p true).hWrite p en.line { c with tagX := poisonXor, mcrcX := 0, ltag := en.line, gen := m.epoch (lineNs en.line), st := 2 }
  if en.mirrored then
    let q := m.mirrorPlace e
    let o := m.cell q
    if o.cls ≠ 3 then (1, (((m1.hQueue rq q false).hQueue rq p true).hWrite p en.line o).ringAdd info)
    else
      let both := (((bad.count ERR.CNT_HEARTH_FAIL).hQueue rq q false).hQueue rq q true).hWrite q en.line { o with tagX := poisonXor, mcrcX := 0 }
      (4, (unreq (both.poisonLine en.line)).ringAdd
        { info with step := 5, outcome := if merge then 5 else 4, status := if merge then 5 else if demand then 4 else 0 })
  else (4, (unreq (bad.poisonLine en.line)).ringAdd
    { info with step := 5, outcome := if merge then 5 else 4, status := if merge then 5 else if demand then 4 else 0 })

/-- Read dirty slot `e`, running the Hearth ladder when it fails its check: status, line and machine (R246). -/
def Mach.dirtyRead (m : Mach) (e rq port : Nat) (demand merge : Bool) (at_ : Nat) : Nat × HLine × Mach :=
  let c := m.cell (m.dirtyPlace e)
  if (m.dirEnt e).lost then (4, { c with tagX := poisonXor }, m)
  else if c.cls = 3 then
    let r := m.dirtyLadder e rq port demand merge at_
    (r.1, r.2.cell (m.dirtyPlace e), r.2)
  else (0, c, m)

/-- Free an entry and its mirror slot (R281). -/
def Mach.dirFreeEnt (m : Mach) (e : Nat) : Mach :=
  (m.setDir e default).modHt fun h => { h with wbs := h.wbs.erase e }

end Sys2Proof.Machine
end

