-- ==== Sys2Proof/Machine/HearthCtl.lean ====
section
/-! DEFINITION. The pseudo-channel queues and what the controller does by itself: command issue, refresh and refresh management,
power-down, queue averages, layout and timing changes, the sweeper (chapter "Hearth: the HBM tier controller", R276, R285 to
R296). -/
namespace Sys2Proof.Machine

/-- Root periods of one CK cycle of the stacks' bin (R270). -/
def Mach.ckDiv (m : Mach) : Nat := if m.ht.bin = 1 then 12 else if m.ht.bin = 2 then 10 else 8
/-- The present CK cycle. -/
def Mach.ck (m : Mach) : Nat := m.now / m.ckDiv

/-- Stack `n` serves line requests: trained, not in self-refresh, and not being trained or filled (R295, R296, R310). -/
def Mach.stackUp (m : Mach) (n : Nat) : Bool :=
  m.stackIn n && !m.flag HT.STAT_SELF_REFRESH n && (m.ht.phy.get n).want = 0 && !(m.ht.phy.get n).fill

/-- The timing fields, in the order of R299. -/
def HT.timing : List Field :=
  [HT.T_RCDRD, HT.T_RCDWR, HT.T_RAS, HT.T_RP, HT.T_RC, HT.T_RRDS, HT.T_RRDL, HT.T_FAW, HT.T_CCDS, HT.T_CCDL, HT.T_RL, HT.T_WL,
   HT.T_WR, HT.T_RTP, HT.T_WTRS, HT.T_WTRL, HT.T_RTW, HT.T_RFCAB, HT.T_RFCPB, HT.T_REFI, HT.T_RREFD, HT.T_XP, HT.T_XS, HT.T_CKE]

/-- The defaults of R290 for a bin code: 1 6.4, 2 8.0, 3 9.6 Gb/s. -/
def timingDefaults (bin : Nat) : List Nat :=
  if bin = 3 then [34, 24, 68, 34, 102, 6, 9, 29, 2, 4, 40, 12, 39, 12, 6, 20, 32, 840, 480, 9360, 20, 18, 864, 12]
  else if bin = 2 then [27, 20, 54, 27, 81, 5, 8, 24, 2, 4, 32, 10, 31, 10, 5, 16, 26, 672, 384, 7488, 16, 15, 692, 10]
  else [23, 16, 45, 23, 68, 4, 6, 20, 2, 4, 28, 8, 26, 8, 4, 13, 24, 560, 320, 6240, 13, 12, 576, 8]

/-- Timing value number `i` in force on stack `n`; a throttled stack doubles FAW and RRDL (R289, R293). -/
def Mach.tim (m : Mach) (n i : Nat) : Nat :=
  let v := (m.ht.timing.get n).getD i ((timingDefaults m.ht.bin).getD i 0)
  if m.flag HT.STAT_THROTTLED n && (i = 6 || i = 7) then 2 * v else v

/-- A pseudo-channel's key, and the pseudo-channel. -/
def pcKey (n pc : Nat) : Nat := 32 * n + pc
def Mach.pcSt (m : Mach) (n pc : Nat) : PcSt := m.ht.pcs.get (pcKey n pc)
/-- Change a pseudo-channel. -/
def Mach.modPc (m : Mach) (n pc : Nat) (f : PcSt → PcSt) : Mach := m.modHt fun h => { h with pcs := h.pcs.upd (pcKey n pc) f }

/-- QLEVEL shows the pseudo-channel on QSEL (R288). -/
def Mach.showQ (m : Mach) (n : Nat) : Mach :=
  let p := m.pcSt n (m.get HT.QSEL n)
  (m.put HT.QLEVEL_AVG n p.avg).put HT.QLEVEL_NOW n p.queue.length

/-- The bank group of a bank (R275). -/
def bankGroup (bank : Nat) : Nat := bits bank 2 2

/-- Whether `t` lies at least `d` cycles back, when it is set. -/
def past (ck : Nat) (t : Option Nat) (d : Nat) : Bool := match t with | none => true | some x => x + d ≤ ck

/-- A column command for `q` may issue now: its row is open and RCD, CCD and the turnarounds allow it (R289). A line takes eight
bursts CCDS apart (R272). -/
def Mach.colReady (m : Mach) (n : Nat) (p : PcSt) (q : LineReq) : Bool :=
  let ck := m.ck
  let b := p.banks.get q.bank
  let burst := 8 * m.tim n 8
  let gap (o : Option (Nat × Nat)) := match o with
    | none => true
    | some (t, g) => t + burst - m.tim n 8 + (if g = bankGroup q.bank then m.tim n 9 else m.tim n 8) ≤ ck
  let turn := if q.write then past ck (p.lastRd.map (·.1)) (burst - m.tim n 8 + m.tim n 16)
    else match p.lastWr with
      | none => true
      | some (t, g) => t + m.tim n 11 + burst + (if g = bankGroup q.bank then m.tim n 15 else m.tim n 14) ≤ ck
  b.row = q.row + 1 && b.blocked ≤ ck && past ck b.act (if q.write then m.tim n 1 else m.tim n 0) &&
    gap p.lastRd && gap p.lastWr && turn

/-- An ACT of `q`'s row may issue now (R289, R292). -/
def Mach.actReady (m : Mach) (n : Nat) (p : PcSt) (q : LineReq) : Bool :=
  let ck := m.ck
  let b := p.banks.get q.bank
  let rrd := p.acts.all fun a => a.1 + (if a.2 = bankGroup q.bank then m.tim n 6 else m.tim n 5) ≤ ck
  let faw := match p.acts[3]? with | none => true | some a => a.1 + m.tim n 7 ≤ ck
  b.row = 0 && b.blocked ≤ ck && past ck b.pre (m.tim n 3) && past ck b.act (m.tim n 4) && rrd && faw &&
    !(m.flag HT.RFM_ENABLE n && m.get HT.RFM_RAAMMT n ≤ b.raa && 0 < b.raa)

/-- The cycle from which T_RAS, T_RTP and T_WR allow the bank's open row to be precharged (R286, R289). -/
def Mach.preAt (m : Mach) (n : Nat) (b : BankSt) : Nat :=
  let burst := 8 * m.tim n 8
  let after (o : Option Nat) (d : Nat) := match o with | none => 0 | some x => x + d
  max b.blocked (max (after b.act (m.tim n 2))
    (max (after b.rd (burst - m.tim n 8 + m.tim n 13)) (after b.wr (m.tim n 11 + burst + m.tim n 12))))

/-- A queued request hits the bank's open row (R286). -/
def PcSt.rowHit (p : PcSt) (bank : Nat) (b : BankSt) : Bool := p.queue.any fun q => q.bank = bank && q.row + 1 = b.row

/-- A PRE of the open row of `q`'s bank may issue now: the times allow it, and no queued request hits the row or `q` has passed the age
cap, which serves it before all of them (R286; DEDUCED, log entry 81). -/
def Mach.preReady (m : Mach) (n : Nat) (p : PcSt) (q : LineReq) : Bool :=
  let b := p.banks.get q.bank
  b.row ≠ 0 && m.preAt n b ≤ m.ck && (m.get HT.SCHED_AGE_CAP n < m.ck - q.since / m.ckDiv || !p.rowHit q.bank b)

/-- Rows that no queued request hits were precharged as soon as the times allowed (R286). -/
def Mach.closeRows (m : Mach) (n pc : Nat) : Mach :=
  m.modPc n pc fun p =>
    let close (k : Nat) (b : BankSt) : BankSt :=
      if b.row ≠ 0 && m.preAt n b ≤ m.ck && !p.rowHit k b then { b with row := 0, pre := some (m.preAt n b) } else b
    { p with banks := p.banks.mapv close }

/-- The kind of a request's next command: 0 column, 1 ACT, 2 PRE. -/
def PcSt.nextCmd (p : PcSt) (q : LineReq) : Nat :=
  let b := p.banks.get q.bank
  if b.row = q.row + 1 then 0 else if b.row = 0 then 1 else 2

/-- The timing rules allow a request's next command now (R286). -/
def Mach.cmdReady (m : Mach) (n : Nat) (p : PcSt) (q : LineReq) : Bool :=
  match p.nextCmd q with
  | 0 => m.colReady n p q
  | 1 => m.actReady n p q
  | _ => m.preReady n p q

/-- The request has waited more than AGE_CAP (R286). -/
def Mach.aged (m : Mach) (n : Nat) (q : LineReq) : Bool := m.get HT.SCHED_AGE_CAP n < m.ck - q.since / m.ckDiv

/-- Read mode or write mode for the next command, by R287. While no read is queued write mode stands, and it does not come back before
a read that ended it at its age cap has been served (DEDUCED, log entry 87). -/
def Mach.writeModeNext (m : Mach) (n : Nat) (p : PcSt) : Bool :=
  let w := (p.queue.filter (·.write)).length
  let r := p.queue.length - w
  if p.writeMode then
    !(w = 0 || (w ≤ m.get HT.SCHED_WDRAIN_LO n && m.get HT.SCHED_WGROUP n ≤ p.served && 0 < r) ||
      p.queue.any fun q => !q.write && m.aged n q)
  else (m.get HT.SCHED_WDRAIN_HI n ≤ w && !p.queue.any fun q => !q.write && m.aged n q) || (0 < w && r = 0)

/-- The pseudo-channel takes the mode that R287 gives it; a change is counted. -/
def Mach.turnMode (m : Mach) (n pc : Nat) : Mach :=
  let p := m.pcSt n pc
  let wm := m.writeModeNext n p
  if wm = p.writeMode then m
  else (m.modPc n pc fun p => { p with writeMode := wm, served := 0 }).count HT.CNT_TURN n

/-- No earlier request of the queue is for the same line (R286). -/
def firstOfLine (l : List LineReq) (q : LineReq) : Bool :=
  match l.find? fun x => x.h = q.h with
  | some x => x.id == q.id
  | none => true

/-- The request to serve next (R286): the oldest that has reached the age cap; else, in the mode's direction, column commands
first and then the oldest. -/
def Mach.pcChoice (m : Mach) (n : Nat) (p : PcSt) : Option LineReq :=
  let ok := p.queue.filter (firstOfLine p.queue)
  match ok.find? (m.aged n) with
  | some q => some q
  | none =>
    let c := (ok.filter fun q => q.write == p.writeMode).filter (m.cmdReady n p)
    match c.find? fun q => p.nextCmd q = 0 with
    | some q => some q
    | none => c.head?

/-- A served line request takes its effect: a client's write access is served, a read's data leaves the array. -/
def Mach.lineServed (m : Mach) (n : Nat) (q : LineReq) : Mach :=
  if q.write then
    match q.job with
    | .client p id k => m.modReq p id fun (r : Req) =>
      { r with lines := r.lines.modify k (fun l => if l.phase = .hearth then ({ l with phase := .served } : LineSt) else l) }
    | _ => m
  else if q.job = .none then m
  else m.modHt fun h => { h with flights := h.flights ++ [⟨q, n⟩] }

/-- CK cycles for which an ACT of the bank has waited for RFM (R292). -/
def BankSt.raaWait (b : BankSt) (ck : Nat) : Nat := match b.raaAt with | some t => ck - t | none => 0

/-- Banks at RAAMMT for which a queued request waits with its ACT begin to count that waiting (R292). -/
def Mach.raaWaits (m : Mach) (n pc : Nat) : Mach :=
  m.modPc n pc fun p =>
    let wait (k : Nat) (b : BankSt) : BankSt :=
      if m.flag HT.RFM_ENABLE n && 0 < b.raa && m.get HT.RFM_RAAMMT n ≤ b.raa && b.row = 0 && p.queue.any (fun q => q.bank = k) then
        { b with raaAt := some (b.raaAt.getD m.ck) } else b
    { p with banks := p.banks.mapv wait }

/-- RFM is due on a bank: refresh management is on and its count has reached RAAIMT (R292). -/
def Mach.rfmOwed (m : Mach) (n : Nat) (b : BankSt) : Bool :=
  m.flag HT.RFM_ENABLE n && 0 < m.get HT.RFM_RAAIMT n && m.get HT.RFM_RAAIMT n ≤ b.raa

/-- The bank that takes an RFM now: it is due, its row is closed and T_RP has passed (R289, R292). -/
def Mach.rfmBank (m : Mach) (n pc : Nat) : Option Nat :=
  (((m.closeRows n pc).pcSt n pc).banks.find? fun b =>
    m.rfmOwed n b.2 && b.2.row = 0 && b.2.blocked ≤ m.ck && past m.ck b.2.pre (m.tim n 3)).map (·.1)

/-- Issue RFM to a bank: RAAIMT is subtracted and the bank is blocked for T_RFCPB (R292). -/
def Mach.rfm (m : Mach) (n pc k : Nat) : Mach :=
  let m0 := m.closeRows n pc
  let b := (m0.pcSt n pc).banks.get k
  let b' := { b with raa := b.raa - m.get HT.RFM_RAAIMT n, blocked := m.ck + m.tim n 18, raaAt := none }
  ((m0.modPc n pc fun p => { p with banks := p.banks.set k b' }).count HT.CNT_RFM n).count HT.CNT_RAA_WAIT n (b.raaWait m.ck)

/-- HEARTH_COMMAND_ISSUE (R286, R287, R292): one command of a pseudo-channel. An RFM that a bank needs goes first, at its next
opportunity. -/
def hearthIssue (n pc : Nat) (m0 : Mach) : Mach :=
  let m := m0.turnMode n pc
  let p := m.pcSt n pc
  if !m0.stackUp n || m0.mode = mSafehold || p.hold then m0
  else if p.queue.isEmpty && (p.pd || (m.rfmBank n pc).isNone) then m
  else if p.pd then m.modPc n pc fun p => { p with pd := false, blocked := m.ck + m.tim n 21, idleAt := m.ck }
  else if m.ck < p.blocked then m
  else match m.rfmBank n pc with
  | some k => m.rfm n pc k
  | none =>
    match m.pcChoice n p with
    | none => m.raaWaits n pc
    | some q =>
      let ck := m.ck
      let b := p.banks.get q.bank
      if !m.cmdReady n p q then m.raaWaits n pc
      else if p.nextCmd q = 2 then
        m.modPc n pc fun p => { p with banks := p.banks.set q.bank { b with row := 0, pre := some ck } }
      else if p.nextCmd q = 1 then
        m.modPc n pc fun p => { p with
          banks := p.banks.set q.bank { b with row := q.row + 1, act := some ck, raa := b.raa + 1 },
          acts := ((ck, bankGroup q.bank) :: p.acts).take 4,
          queue := p.queue.map (fun x => if x.id = q.id then { x with wait := 1 } else x) }
      else
        let g := (ck, bankGroup q.bank)
        let aged := m.aged n q
        let m2 := m.modPc n pc fun p => { p with
          banks := p.banks.set q.bank (if q.write then { b with wr := some ck } else { b with rd := some ck }),
          lastRd := if q.write then p.lastRd else some g, lastWr := if q.write then some g else p.lastWr,
          served := if q.write then p.served + 1 else p.served, idleAt := ck,
          queue := p.queue.filter (fun x => x.id != q.id) }
        let m3 := if q.write then m2.count HT.CNT_WR_LINES n else m2.count HT.CNT_RD_LINES n
        let m4 := if q.wait = 1 then m3.count HT.CNT_ROW_MISS n else m3.count HT.CNT_ROW_HIT n
        ((if aged then m4.count HT.CNT_AGE_CAP n else m4).lineServed n q).showQ n

/-- HEARTH_QAVG_UPDATE (R288): every pseudo-channel's average moves by a sixteenth towards its occupancy. -/
def hearthQavg (n : Nat) (m : Mach) : Mach :=
  if !m.stackUp n || m.mode = mSafehold then m
  else
    ((List.range 32).foldl (fun m pc => m.modPc n pc fun p =>
      { p with avg := (((p.avg : Int) + ((16 * p.queue.length : Int) - p.avg) / 16).toNat) }) m).showQ n

/-- The bank's count after a refresh (R292). -/
def Mach.raaDown (m : Mach) (n : Nat) (b : BankSt) : BankSt := { b with raa := b.raa - m.get HT.RFM_RAAIMT n, raaAt := none }

/-- The cycle in which a bank can be refreshed: its row is closed, T_RP has passed, and nothing blocks it (R289). -/
def Mach.restAt (m : Mach) (n : Nat) (b : BankSt) : Nat :=
  max b.blocked (if b.row = 0 then (match b.pre with | none => 0 | some x => x + m.tim n 3) else m.preAt n b + m.tim n 3)

/-- Issue one refresh on a pseudo-channel, as soon as its banks are closed and T_RREFD has passed: per bank in turn, or `ab`, all banks
(R291, R292). -/
def Mach.refreshAs (m : Mach) (n pc : Nat) (ab : Bool) : Mach :=
  let p0 := m.pcSt n pc
  let nb := 2 ^ m.ht.geomB
  let hit (b : Nat) : Bool := ab || b = p0.refBank
  let bs := p0.banks.filter fun x => hit x.1
  let next := max p0.blocked (if ab then 0 else match p0.lastRef with | none => 0 | some x => x + m.tim n 20)
  let at_ := bs.foldl (fun a x => max a (m.restAt n x.2)) (max m.ck next)
  let waited := (bs.map fun x => x.2.raaWait m.ck).sum
  (fun (m : Mach) => m.count HT.CNT_RAA_WAIT n waited) <| if ab then
    (m.modPc n pc fun p => { p with
      banks := p.banks.mapv (fun _ b => { m.raaDown n b with row := 0 }), blocked := at_ + m.tim n 17, lastRef := some at_ }).count
      HT.CNT_REFAB n
  else
    (m.modPc n pc fun p => { p with
      banks := p.banks.upd p.refBank (fun b => { m.raaDown n b with row := 0, blocked := at_ + m.tim n 18 }),
      refBank := (p.refBank + 1) % nb, lastRef := some at_ }).count HT.CNT_REFPB n

/-- Issue one refresh in the mode that the register names (R291). -/
def Mach.refresh (m : Mach) (n pc : Nat) : Mach := m.refreshAs n pc (m.flag HT.REF_MODE n)

/-- Issue `k` refreshes. -/
def Mach.refreshes (m : Mach) (n pc : Nat) : Nat → Mach
  | 0 => m
  | k + 1 => (m.refresh n pc).refreshes n pc k

/-- REFRESH_DUE (R291): a due refresh is postponed while requests are queued, up to POSTPONE intervals, and during a retraining unit (R310);
an idle pseudo-channel pulls the postponed ones in; at the limit it is forced. -/
def refreshDue (n pc : Nat) (m : Mach) : Mach :=
  if !m.stackIn n || m.mode = mSafehold || m.flag HT.STAT_SELF_REFRESH n || (m.ht.phy.get n).want ≠ 0 && !(m.ht.phy.get n).keeps then m
  else
    let p := m.pcSt n pc
    let m0 := if p.pd then m.modPc n pc fun p => { p with pd := false, blocked := m.ck + m.tim n 21 } else m
    let m1 := m0.modPc n pc fun p => { p with idleAt := m.ck }
    if p.hold then m1.modPc n pc fun p => { p with postponed := p.postponed + 1 }
    else if p.queue.isEmpty then (m1.refreshes n pc (p.postponed + 1)).modPc n pc fun p => { p with postponed := 0 }
    else if p.postponed < m.get HT.REF_POSTPONE n then m1.modPc n pc fun p => { p with postponed := p.postponed + 1 }
    else ((m1.refresh n pc).event .ht n HT.EV_REF_FORCED).count HT.CNT_REF_FORCED n

/-- POWER_DOWN_ENTRY (R294): after PD_IDLE CK cycles with no request and no refresh due. -/
def powerDownEntry (n pc : Nat) (m : Mach) : Mach :=
  let p := m.pcSt n pc
  let i := m.get HT.PWR_PD_IDLE n
  if m.stackUp n && m.mode ≠ mSafehold && !p.pd && p.queue.isEmpty && p.postponed = 0 && 0 < i &&
      max i (m.tim n 23) ≤ m.ck - p.idleAt then
    (m.modPc n pc fun p => { p with pd := true }).count HT.CNT_PD_ENTRY n
  else m

/-- The registers that report the regions show the layout in force (R274). -/
def Mach.showLayout (m : Mach) : Mach :=
  let l := m.layout
  ((((((m.put HT.LAYOUT_MAP 0 l.map).put HT.LAYOUT_SPILL 0 l.spill).put HT.LAYOUT_LOOM 0 l.loom).put HT.HOME_SLOTS 0
    m.homeSlots).put MAP.HMAP_SIZE 0 (l.map * 2 ^ 20)).put KILN.SPILL_REGION 0 (m.stacksIn * l.spill * 2 ^ 20))

/-- CAPABILITY of one pseudo-channel in MB/s, by the speed bin (R288). -/
def Mach.pcRate (m : Mach) : Nat := if m.ht.bin = 1 then 25600 else if m.ht.bin = 2 then 30720 else 38400
/-- CAPABILITY of a stack (R288). -/
def Mach.showCapability (m : Mach) (n : Nat) : Mach :=
  let v := if m.stackIn n then popCount (m.get HT.PC_SERVICE n) 32 * m.pcRate else 0
  m.put HT.CAPABILITY n (if m.flag HT.STAT_THROTTLED n then v / 2 else v)

/-- MAP.STAT.WARM (R191). `used` is the bytes of pool pages in use. -/
def Mach.showWarm (m : Mach) : Mach :=
  let used := 4096 * m.map.pool.length
  let lim := min (m.get MAP.HMAP_SIZE) used
  m.setFlag MAP.STAT_WARM 0 (m.get MAP.WARM_THRESH * lim ≤ 256 * (4096 * m.map.hmap.length) && 0 < m.stacksIn)

/-- Every namespace's CGEN is incremented (R276, R283). -/
def Mach.bumpAllCgen (m : Mach) : Mach := (List.range 256).foldl (fun m k => m.bumpCgen k) m

/-- A bank with its row closed now. -/
def Mach.closeBank (m : Mach) (b : BankSt) : BankSt := if b.row = 0 then b else { b with row := 0, pre := some m.ck }

/-- TIMING_APPLY (R289): new commands are held, every row is closed, and the written values are taken; a value of 0 keeps the old
value of its field. -/
def timingApply (n : Nat) (m : Mach) : Mach :=
  let old := (List.range 24).map fun i => (m.ht.timing.get n).getD i ((timingDefaults m.ht.bin).getD i 0)
  let new := HT.timing.map fun f => m.get f n
  let eff := List.zipWith (fun o v => if v = 0 then o else v) old new
  let m1 := m.modHt fun h => { h with
    timing := h.timing.set n eff,
    pcs := h.pcs.mapv (fun k p => if k / 32 = n then { p with banks := p.banks.mapv (fun _ b => m.closeBank b) } else p) }
  let m2 := (List.zip HT.timing eff).foldl (fun m fv => m.put fv.1 n fv.2) m1
  if new.any (· = 0) then m2.event .ht n HT.EV_PARAM_REJECT else m2

/-- A finding of the sweeper or of the dropped clean line of R246 enters the ring: the copy is dropped, to be fetched again. -/
def Mach.cleanFailRing (m : Mach) (p : Nat × Nat) (rq : Nat) : Mach :=
  ((m.count ERR.CNT_HEARTH_FAIL).judgeEst).ringAdd
    { (default : RingInfo) with
      line := (m.cell p).ltag, path := 1, tick := m.get ALM.TB_NOW, stack := p.1, rq := rq, est := m.estimated, outcome := 3 }

/-- SWEEP_LINE (R285): the sweeper reads its next home slot and empties it when it is stale or fails its check. -/
def sweepLine (m : Mach) : Mach :=
  if !m.running || m.stacksIn = 0 || m.homeSlots = 0 then m
  else
    let p := m.spread m.homeBase (m.ht.sweep % m.homeSlots)
    let c := m.cell p
    let m0 := m.hQueue 13 p false
    let m1 := if c.cls = 3 then ((m0.cleanFailRing p 13).homeEmpty p).count HT.CNT_SWEEP_EMPTIED
      else if c.st = 1 && (!(m.nsDesc (lineNs c.ltag)).exists_ || c.gen ≠ m.cgen (lineNs c.ltag)) then
        (m0.homeEmpty p).count HT.CNT_SWEEP_EMPTIED
      else m0
    if m.ht.sweep + 1 < m.homeSlots then m1.modHt fun h => { h with sweep := h.sweep + 1 }
    else
      let owed := m1.ht.cgenOwed
      let m2 := m1.modHt fun h => { h with sweep := 0, sweepAt := m.now, cgenInc := h.cgenPass, cgenPass := [], cgenOwed := [] }
      (owed.keys.foldl (fun m ns => (List.range (owed.get ns)).foldl (fun m _ => m.bumpCgen ns) m) m2).put HT.SWEEP_LAST 0
        (satU 32 ((m.now - m.ht.sweepAt) / msec 1))

/-! ### Self-refresh (R295) -/

/-- Nothing waits or is under way at stack `n`, and the directory is empty (R295 step 1). -/
def Mach.hearthStill (m : Mach) (n : Nat) : Bool :=
  let k := dirKey (tgtHearth n) false
  (List.range 32).all (fun pc => (m.pcSt n pc).queue.isEmpty && !(m.pcSt n pc).hold) && !(m.ht.flights.any fun f => f.stack = n) &&
    (m.rota.next.get k).isNone && (List.range 32).all (fun rq => (m.scQueue k rq).isEmpty) && m.get HT.DIR_COUNT = 0

/-- Step 1 of self-refresh entry (R295): every row is closed, and a REFab is issued to each pseudo-channel. -/
def Mach.sreBegin (m : Mach) (n : Nat) : Mach :=
  (List.range 32).foldl (fun (m : Mach) pc =>
    ((m.modPc n pc fun p => { p with
      pd := false, blocked := if p.pd then m.ck + m.tim n 21 else p.blocked, postponed := 0 }).refreshAs n pc true)) m

/-- T_RFCAB after the REFab of every pseudo-channel SRE may be issued (R295 step 2). -/
def Mach.sreReady (m : Mach) (n : Nat) : Bool := (List.range 32).all fun pc => (m.pcSt n pc).blocked ≤ m.ck

/-- Wake (R295 step 4): CK runs again, and SRX is issued. -/
def Mach.srx (m : Mach) (n : Nat) : Mach :=
  (m.setFlag HT.STAT_SELF_REFRESH n false).modHt fun h => { h with phy := h.phy.upd n fun p => { p with srxAt := m.now + 1 } }

/-- The stack is out of self-refresh: 64 CK cycles and T_XS have passed since the wake (R295 steps 4 and 5, R307). -/
def Mach.srxOver (m : Mach) (n : Nat) : Bool :=
  let t := (m.ht.phy.get n).srxAt
  t = 0 || t - 1 + (64 + m.tim n 22) * m.ckDiv ≤ m.now

def execHearthCommandIssue (n : BitVec 1) (pc : BitVec 5) (s : State) := answer s (hearthIssue n.toNat pc.toNat)
def execHearthQavgUpdate (n : BitVec 1) (s : State) := answer s (hearthQavg n.toNat)
def execRefreshDue (n : BitVec 1) (pc : BitVec 5) (s : State) := answer s (refreshDue n.toNat pc.toNat)
def execPowerDownEntry (n : BitVec 1) (pc : BitVec 5) (s : State) := answer s (powerDownEntry n.toNat pc.toNat)
def execSweepLine (s : State) := answer s sweepLine
def execTimingApply (a : BitVec 3) (n : BitVec 1) (s : State) :=
  answer s fun m => m.viaCfg a.toNat .ht n.toNat 0x138 1 (timingApply n.toNat)

end Sys2Proof.Machine
end

