-- ==== Sys2Proof/Machine/Map.lean ====
section
/-! DEFINITION. The map: entries and their fields, placement of lines, lookups, the media store, the delta log, checkpoints,
segments and allocation (chapter "Namespaces, the map and placement", R181 to R204), and the counting of programs (R208 to R211). -/
namespace Sys2Proof.Machine

/-- Change the map's own state. -/
def Mach.modMap (m : Mach) (f : MapSt → MapSt) : Mach := { m with map := f m.map }

/-! ### Units and entries (R181, R182) -/

/-- Lines of a map unit: 4096, or 61,440 in a PARITY namespace (R181). -/
def unitLines (prot : Nat) : Nat := if prot = 2 then 61440 else 4096

/-- The key of unit `u` of namespace `ns`. -/
def unitKey (ns u : Nat) : Nat := ns * 2 ^ 32 + u
def unitNs (uk : Nat) : Nat := uk / 2 ^ 32
def unitU (uk : Nat) : Nat := uk % 2 ^ 32

/-- The unit of a logical line and the line's index in it (R181). -/
def Mach.unitOf (m : Mach) (l : Nat) : Nat × Nat :=
  let n := unitLines (m.nsDesc (lineNs l)).prot
  let o := l % 2 ^ 44
  (unitKey (lineNs l) (o / n), o % n)

/-- The logical line with index `i` in a unit. -/
def Mach.lineOf (m : Mach) (uk i : Nat) : Nat :=
  unitNs uk * 2 ^ 44 + unitU uk * unitLines (m.nsDesc (unitNs uk)).prot + i

/-- Fields of a map entry (R182). -/
def eKind (e : Nat) : Nat := bits e 60 4
def eChan (e : Nat) : Nat := bits e 55 5
def eSeg (e : Nat) : Nat := bits e 28 27
def eRot (e : Nat) : Nat := bits e 16 12
def eAge (e : Nat) : Nat := bits e 8 8
def fFormatted : Nat := 0
def fPoison : Nat := 1
def fRetired : Nat := 2
def fMigrating : Nat := 3
def fRunahead : Nat := 4
def fRebuild : Nat := 5
def eFlag (e k : Nat) : Bool := bitAt e k
def eSetFlag (e k : Nat) (b : Bool) : Nat := setBits e k 1 (b2n b)

/-- A new entry (R182): kind, channel, pair or group, segment; FORMATTED, ROT 0, AGE 0. -/
def eMake (kind chan seg : Nat) (runahead : Bool) : Nat :=
  kind * 2 ^ 60 + chan * 2 ^ 55 + seg * 2 ^ 28 + 1 + b2n runahead * 2 ^ fRunahead

/-- The entry kind of a protection (R182). -/
def protKind (prot : Nat) : Nat := prot + 1

/-! ### Placement (R183 to R185) -/

/-- The position in its group of stripe `s`'s parity line (R185). -/
def parityPos (s : Nat) : Nat := 15 - s % 16
/-- The channel of data line `d` of stripe `s` in group `g`; `d` = 15 is the parity line (R185). -/
def bundleChan (g s d : Nat) : Nat := 16 * g + (if d = 15 then parityPos s else (parityPos s + 1 + d) % 16)

/-- The copies of line `i` of a unit with entry `e`: channel, segment, line position (R183 to R185). -/
def copiesOf (e i : Nat) : List (Nat × Nat × Nat) :=
  match eKind e with
  | 1 => [(eChan e, eSeg e, i)]
  | 2 => [(eChan e % 16, eSeg e, i), (eChan e % 16 + 16, eSeg e, i)]
  | 3 => [(bundleChan (eChan e % 2) (i / 15) (i % 15), eSeg e, i / 15)]
  | _ => []

/-- The channels on which a unit has segments. -/
def unitChans (e : Nat) : List Nat :=
  match eKind e with
  | 1 => [eChan e]
  | 2 => [eChan e % 16, eChan e % 16 + 16]
  | 3 => (List.range 16).map (16 * (eChan e % 2) + ·)
  | _ => []

/-- The channel that REBUILD names: RUPPER's copy of a MIRROR unit, RPOS's channel of a BUNDLE (R182). -/
def staleChan (e : Nat) : Option Nat :=
  if !eFlag e fRebuild then none
  else if eKind e = 2 then some (eChan e % 16 + 16 * (eChan e / 16))
  else if eKind e = 3 then some (16 * (eChan e % 2) + bits e 56 4)
  else none

/-- REBUILD set for a channel (R182). -/
def eRebuild (e c : Nat) : Nat :=
  let e1 := eSetFlag e fRebuild true
  if eKind e = 2 then setBits e1 59 1 (c / 16) else if eKind e = 3 then setBits e1 56 4 (c % 16) else e1

/-! ### Channels as the map sees them -/

/-- The state of a link (R341): 0 OFF, 1 DETECT, 2 RESET, 3 TRAIN, 4 ACTIVE, 5 QUIESCE, 6 LOST. -/
def Mach.link (m : Mach) (c : Nat) : Nat := m.get ZML.LINK_STATE c
/-- A lost channel: LOST, switched off by CTL.ENABLE, or not fitted (R127, R341). -/
def Mach.chanLost (m : Mach) (c : Nat) : Bool :=
  m.link c = 6 || !m.flag ZML.CTL_ENABLE c || !bitAt m.integ.channels c
/-- A read-only channel (R219). -/
def Mach.chanRO (m : Mach) (c : Nat) : Bool := m.map.readOnly.get c
/-- A channel in service: enabled, and neither LOST nor absent (R428, R441). -/
def Mach.chanIn (m : Mach) (c : Nat) : Bool := m.flag ZML.CTL_ENABLE c && m.link c != 6
/-- The channels in service. -/
def Mach.chansIn (m : Mach) : List Nat := (List.range 32).filter m.chanIn

/-! ### The tree (R189) -/

def rootKey (ns u : Nat) : Nat := ns * 2 ^ 14 + u / 2 ^ 18
def l1Key (ns u : Nat) : Nat := ns * 2 ^ 23 + u / 2 ^ 9

/-- The root word above a unit is current (R189). -/
def Mach.rootCurrent (m : Mach) (uk : Nat) : Bool :=
  let r := m.map.root.get (rootKey (unitNs uk) (unitU uk))
  r.valid && r.epoch == m.epoch (unitNs uk)

/-- The current entry of a unit, 0 when it is unmapped (R182, R189); a unit above SIZE has none (R176). -/
def Mach.ent (m : Mach) (uk : Nat) : Nat :=
  let d := m.nsDesc (unitNs uk)
  if d.exists_ && unitU uk < d.size / (256 * unitLines d.prot) && m.rootCurrent uk &&
      (m.map.l1.get (l1Key (unitNs uk) (unitU uk))).valid then
    let e := m.map.ents.get uk
    if eKind e = protKind (m.nsDesc (unitNs uk)).prot then e else 0
  else 0

/-- Page numbers: map pages, L1 pages, 4 KiB blocks of the root table. -/
def pgMap (uk : Nat) : Nat := l1Key (unitNs uk) (unitU uk)
def pgL1 (uk : Nat) : Nat := 2 ^ 32 + rootKey (unitNs uk) (unitU uk)
def pgRoot (uk : Nat) : Nat := 2 ^ 33 + rootKey (unitNs uk) (unitU uk) / 512

/-- Word `i` of a page as it stands (R189). -/
def Mach.pageWord (m : Mach) (pg i : Nat) : Nat :=
  let w (x : MapWord) (root : Bool) : Nat :=
    x.slot % 2 ^ 24 + (if root then x.epoch % 2 ^ 32 * 2 ^ 24 else 0) + b2n x.alt * 2 ^ 56 + b2n x.valid * 2 ^ 63
  if pg < 2 ^ 32 then m.map.ents.get (pg / 2 ^ 23 * 2 ^ 32 + pg % 2 ^ 23 * 512 + i)
  else if pg < 2 ^ 33 then w (m.map.l1.get ((pg - 2 ^ 32) / 2 ^ 14 * 2 ^ 23 + (pg - 2 ^ 32) % 2 ^ 14 * 512 + i)) false
  else w (m.map.root.get ((pg - 2 ^ 33) * 512 + i)) true

/-- Line `j` of a page. -/
def Mach.pageLine (m : Mach) (pg j : Nat) : Line :=
  Line.ofWords ((List.range 32).map fun i => BitVec.ofNat 64 (m.pageWord pg (32 * j + i)))

/-! ### Media line requests and the store (R192, R193) -/

/-- Length of a media line request (R363). -/
def Mach.mediaLen (m : Mach) (n : Nat) : Nat := n * (256 + m.rget REEVE.OVERHEAD_M)

/-- Queue a media line request at stage C of a channel and direction; its serial number is the machine's next. -/
def Mach.mQueue (m : Mach) (c : Nat) (rx : Bool) (rq : Nat) (md : Media) (job : Job) (port : Option Nat := none)
    (green : Bool := false) : Mach :=
  let q : LineReq := { (default : LineReq) with
    id := m.serial, rq := rq, port := port, green := green, len := m.mediaLen (max 1 md.nlines), write := !rx, md := md, job := job }
  { m.enqueue (dirKey (tgtMedia c) rx) q with serial := m.serial + 1 }

/-- The op codes used here (R326). -/
def opReadLine : Nat := 1
def opReadLines : Nat := 2
def opWriteLine : Nat := 3
def opFormat : Nat := 5
def opCanaryRead : Nat := 6
def opHubInfo : Nat := 7
def opDriftTable : Nat := 8
def opSealWrite : Nat := 9
def opHold : Nat := 10
def opRelease : Nat := 11
def opTimeMark : Nat := 12
def opSealRead : Nat := 15

/-- Write a line of the media reserve on both channels of a pair, as far as they are not lost; the number of programs (R192). -/
def Mach.storeProg (m : Mach) (pair seg pos : Nat) (d : Line) (rq : Nat) (job : Job) : Nat × Mach :=
  let cs := [pair, pair + 16].filter fun c => !m.chanLost c
  (cs.length, cs.foldl (fun m c => m.mQueue c false rq
    { (default : Media) with op := opWriteLine, seg := seg, pos := pos, nlines := 1, data := d } job) m)

/-- Pair, reserve segment and line position of byte `x` of the store space (R193). -/
def storePlace (x : Nat) : Nat × Nat × Nat := (x / 2 ^ 20 % 16, 128 + x / 2 ^ 24, x % 2 ^ 20 / 256)

/-- Write the line at byte `x` of the store space. -/
def Mach.spaceProg (m : Mach) (x : Nat) (d : Line) (rq : Nat) (job : Job) : Nat × Mach :=
  let p := storePlace x
  m.storeProg p.1 p.2.1 p.2.2 d rq job

/-- Where the map pool begins in the store space (R193). -/
def Mach.poolBase (m : Mach) : Nat := (4160 * 2 ^ 20 + 256 * m.map.segS + 8191) / 8192 * 8192

/-! ### The delta log (R195) -/

/-- Word 0 of a delta record without its sequence. -/
def deltaHead (kind ns idx : Nat) : Nat := kind * 2 ^ 60 + ns % 256 * 2 ^ 52 + idx % 2 ^ 32 * 2 ^ 20

/-- The line that sixteen places make, FILL in the unused ones. -/
def deltaLine (rs : List (Nat × Nat)) : Line :=
  Line.ofWords ((List.range 16).flatMap fun i =>
    let r := rs.getD i (2 ^ 64 - 1, 2 ^ 64 - 1)
    [BitVec.ofNat 64 r.1, BitVec.ofNat 64 r.2])

/-- Bytes of the delta log (R195). -/
def Mach.deltaSize (m : Mach) : Nat := m.get MAP.DELTA_SIZE

/-- The delta log has no room for another record (R195). -/
def Mach.deltaFull (m : Mach) : Bool := m.deltaSize ≤ m.get MAP.DELTA_FILL

/-- DELTA_FILL changes, and DELTA_FULL follows it (R195). -/
def Mach.setFill (m : Mach) (v : Nat) : Mach :=
  let m1 := m.put MAP.DELTA_FILL 0 v
  m1.setFlag MAP.STAT_DELTA_FULL 0 m1.deltaFull

/-- Write the delta line in the making, when it holds a record: its unused places are FILL (R195). -/
def Mach.deltaLineOut (m : Mach) : Mach :=
  let d := m.map.delta
  if d.cur.isEmpty then m
  else
    let k := d.cur.length
    let r := m.spaceProg (64 * 2 ^ 20 + d.pos % max 1 m.deltaSize) (deltaLine d.cur) 13 (.delta d.lineNo)
    (r.2.modMap fun s => { s with delta := { d with
      cur := [], pos := d.pos + 256, lineNo := d.lineNo + 1,
      lines := d.lines ++ [(d.lineNo, d.appended - k, d.appended - 1, max 1 r.1)] } }).setFill (m.get MAP.DELTA_FILL + 16 * (16 - k))

/-- A map change waits for room in the delta log (R195). -/
def Mach.deltaStall (m : Mach) : Mach :=
  m.modMap fun s => { s with stallAt := if s.stallAt = 0 then m.now + 1 else s.stallAt }

/-- The delta records up to number `n` are durable (R195). -/
def Mach.deltaDurable (m : Mach) (n : Nat) : Bool :=
  n + m.map.delta.cur.length < m.map.delta.appended && m.map.delta.lines.all fun l => n < l.2.1

/-- DELTA_FILL has reached DELTA_HIGH (R195, R224). -/
def Mach.deltaHigh (m : Mach) : Bool := m.get MAP.DELTA_HIGH * m.deltaSize ≤ 256 * m.get MAP.DELTA_FILL

/-- Append a record to the line in the making, and write the line when it is its sixteenth. -/
def Mach.deltaPut (m : Mach) (kind ns idx w : Nat) : Mach :=
  let d := m.map.delta
  let r := (deltaHead kind ns idx + d.seq, w % 2 ^ 64)
  let m1 := (m.modMap fun s => { s with delta := { d with
      appended := d.appended + 1, seq := (d.seq + 1) % 2 ^ 20, cur := d.cur ++ [r],
      curAt := if d.cur.isEmpty then m.now else d.curAt } }).setFill (m.get MAP.DELTA_FILL + 16)
  if m1.map.delta.cur.length = 16 then m1.deltaLineOut else m1

/-! ### The wear ledger in the store (R193, R209, R210) -/

/-- Segments by channel and index. -/
def segKey (c s : Nat) : Nat := c * 2 ^ 27 + s

/-- The ceiling that a ledger word of a fresh store holds: one default lease. -/
def ceil0 : Nat := 16
/-- The ceiling C of a segment, and the one durable in the medium (R209). -/
def Mach.wearC (m : Mach) (c s : Nat) : Nat := Nat.xor (m.map.wearC.get (segKey c s)) ceil0
def Mach.wearD (m : Mach) (c s : Nat) : Nat := Nat.xor (m.map.wearD.get (segKey c s)) ceil0

/-- Ledger word `x` in the order of R209. -/
def Mach.ledgerAt (m : Mach) (x : Nat) : Nat := if m.map.segS = 0 then 0 else m.wearC (x / m.map.segS) (x % m.map.segS)

/-- Ledger line `i` (R209). -/
def Mach.ledgerLine (m : Mach) (i : Nat) : Line :=
  let word (k : Nat) : Nat := m.ledgerAt (64 * i + k)
  Line.ofWords ((List.range 32).map fun k => BitVec.ofNat 64 (word (2 * k) + 2 ^ 32 * word (2 * k + 1)))

/-- Write the ledger line of a word, at a position (R193, R210). -/
def Mach.ledgerWrite (m : Mach) (c s pos : Nat) : Mach :=
  let line := (c * m.map.segS + s) / 64
  (m.spaceProg (4160 * 2 ^ 20 + (if pos = 0 then 0 else 128 * m.map.segS) + 256 * line) (m.ledgerLine line) 13
    (.ledger (segKey c s) pos)).2

/-- The keys of the first words of the lines of ledger page `p`. -/
def Mach.ledgerLines (m : Mach) (p : Nat) : List Nat :=
  ((List.range 16).map fun j => 1024 * p + 64 * j).filter (· < 32 * m.map.segS) |>.map fun x => segKey (x / m.map.segS) (x % m.map.segS)

/-! ### Checkpoints (R196) -/

/-- CKPT_STAT codes. -/
def ckIdle : Nat := 0

/-- Queue the programs of one frozen page at its position other than ALT (R196). -/
def Mach.ckptPageWrite (m : Mach) (pg : Nat) : Nat × Mach :=
  let x :=
    if pg < 2 ^ 32 then
      let w := m.map.l1.get pg
      m.poolBase + 8192 * w.slot + (if w.alt then 0 else 4096)
    else if pg < 2 ^ 33 then
      let w := m.map.root.get (pg - 2 ^ 32)
      m.poolBase + 8192 * w.slot + (if w.alt then 0 else 4096)
    else (if m.map.rootAlt.get (pg - 2 ^ 33) then 0 else 32 * 2 ^ 20) + 4096 * (pg - 2 ^ 33)
  (List.range 16).foldl (fun (a : Nat × Mach) j =>
    let r := a.2.spaceProg (x + 256 * j) (m.pageLine pg j) 13 .ckptPage
    (a.1 + r.1, r.2)) (0, m)

/-- Start a checkpoint: the freeze, its CKPT_MARK record, and the programs of the frozen pages with those of the wear ledger pages that
have changed since the last; a start met during one sets PENDING (R196, R197, R210). None starts in FLUSH (R200). A crossing of DELTA_HIGH
by its own mark is a start met during it (R195). -/
def Mach.ckptStart (m : Mach) : Mach :=
  if m.mode = mFlush then m
  else if m.get MAP.CKPT_STATE ≠ ckIdle then m.setFlag MAP.CKPT_PENDING 0 true
  else
    let fill := m.get MAP.DELTA_FILL
    let m1 := (m.deltaPut 3 0 0 (m.get MAP.CKPT_GEN + 1)).deltaLineOut
    let pages := m.map.dirty.keys
    let ledger := m.map.ledgerDirty.flatMap m.ledgerLines
    let r := pages.foldl (fun (a : Nat × Mach) pg => let x := a.2.ckptPageWrite pg; (a.1 + x.1, x.2)) (0, m1)
    let m2 := ledger.foldl (fun (m : Mach) k => m.ledgerWrite (k / 2 ^ 27) (k % 2 ^ 27) 0) r.2
    let m3 := ((m2.modMap fun s => { s with
        dirty := [], ledgerDirty := [],
        ckptAt := m.now,
        ckpt := { df := fill, mark := m1.map.delta.appended - 1, pages := pages, flight := r.1, root := 0,
                  total := pages.length + m.map.ledgerDirty.length, startAt := m.now, cmd := none, stripes := m.map.stripes.keys,
                  ledgers := ledger } }).put
      MAP.CKPT_STATE 0 2)
    if m1.deltaHigh && !m.deltaHigh then (m3.event .map 0 MAP.EV_DELTA_HIGH).setFlag MAP.CKPT_PENDING 0 true else m3

/-- Reaching DELTA_HIGH sets its event and starts a checkpoint (R195); `m0` is the state before. -/
def Mach.deltaCrossed (m m0 : Mach) : Mach :=
  if m.deltaHigh && !m0.deltaHigh then (m.event .map 0 MAP.EV_DELTA_HIGH).ckptStart else m

/-- Write the delta line in the making at once (R195). -/
def Mach.deltaFlush (m : Mach) : Mach := m.deltaLineOut.deltaCrossed m

/-- The root record is programmed once every page is durable, the mark is durable and every older stripe update has closed
(R196 step 3). -/
def Mach.ckptAdvance (m : Mach) : Mach :=
  let c := m.map.ckpt
  if m.get MAP.CKPT_STATE = 2 && c.flight = 0 && c.ledgers.isEmpty && m.deltaDurable c.mark &&
      c.stripes.all fun k => (m.map.stripes.get k).stage = 0 then
    let g := m.get MAP.CKPT_GEN + 1
    let r := m.storeProg 0 (64 + g % 64) 0 (Config.ownRecord m.free) 13 .ckptRoot
    { (r.2.modMap fun s => { s with ckpt := { c with root := max 1 r.1 } }).put MAP.CKPT_STATE 0 3 with free := m.free + 1 }
  else m

/-- Append a delta record; its number. Reaching DELTA_HIGH starts a checkpoint (R195). -/
def Mach.delta (m : Mach) (kind ns idx w : Nat) : Nat × Mach :=
  (m.map.delta.appended, (m.deltaPut kind ns idx w).deltaCrossed m)

/-! ### Changing the map -/

/-- Mark a page dirty (R196). -/
def Mach.dirtyPage (m : Mach) (pg : Nat) : Mach := m.modMap fun s => { s with dirty := s.dirty.set pg true }

/-- The lowest pool slot not in use. -/
def Mach.poolFree (m : Mach) : Nat :=
  ((List.range (m.map.pool.length + 1)).find? fun i => !m.map.pool.get i).getD m.map.pool.length

/-- What a line of the Hearth map region carries as its identity (R273): the pool slot of its page and its line in the page; a root or ledger
line has 0xFFFFFF for the slot, and an index. DESIGN CHOICE, log entry 106: the index is that of its 4 KiB block, those of the ledger
following the 8192 of the root table. -/
def Mach.mapLtag (m : Mach) (pg j : Nat) : Nat :=
  if pg < 2 ^ 32 then (m.map.l1.get pg).slot % 2 ^ 24 + j * 2 ^ 24
  else if pg < 2 ^ 33 then (m.map.root.get (pg - 2 ^ 32)).slot % 2 ^ 24 + j * 2 ^ 24
  else if pg < 2 ^ 34 then 2 ^ 24 - 1 + j * 2 ^ 24 + (pg - 2 ^ 33) % 2 ^ 24 * 2 ^ 28
  else 2 ^ 24 - 1 + j * 2 ^ 24 + (8192 + (pg - 2 ^ 34)) % 2 ^ 24 * 2 ^ 28

/-- Where line `j` of a page lies in the Hearth map region, from its first line on (R275). DESIGN CHOICE, log entry 106: pages stand by pool
slot, and the blocks of the root table and the ledger from the region's end down. -/
def Mach.mapOffset (m : Mach) (pg j : Nat) : Nat :=
  let n := max 1 (4096 * m.layout.map)
  if pg < 2 ^ 32 then (16 * (m.map.l1.get pg).slot + j) % n
  else if pg < 2 ^ 33 then (16 * (m.map.root.get (pg - 2 ^ 32)).slot + j) % n
  else
    let i := if pg < 2 ^ 34 then pg - 2 ^ 33 else 8192 + (pg - 2 ^ 34)
    n - 1 - (16 * i + j) % n

/-- Write line `j` of a page into the Hearth map region, one copy on each stack in service, under MAP_IO (R191, R273, R274). -/
def Mach.mapCell (m : Mach) (pg j : Nat) : Mach :=
  ([0, 1].filter m.stackIn).foldl (fun (m : Mach) n =>
    let p := (n, m.mapBase + m.mapOffset pg j)
    let d := if pg < 2 ^ 34 then m.pageLine pg j else m.ledgerLine (16 * (pg - 2 ^ 34) + j)
    (m.hWrite p (2 ^ 60) ⟨d, m.mapLtag pg j, 0, 1, false, 0, 0⟩).hQueue 13 p true) m

/-- A pool page stands in the Hearth map region, which holds HMAP_SIZE bytes of pages (R191). DESIGN CHOICE, log entry 105: when it is full
the page that was added longest ago leaves it; the spec names none. -/
def Mach.hmapAdd (m : Mach) (pg : Nat) : Mach :=
  let m1 := (m.modMap fun s => { s with hmap := (pg :: s.hmap.erase pg).take (m.get MAP.HMAP_SIZE / 4096) }).showWarm
  (List.range 16).foldl (fun (m : Mach) j => m.mapCell pg j) m1

/-- Take a pool slot for a page (R189). -/
def Mach.poolTake (m : Mach) : Nat × Mach :=
  let i := m.poolFree
  (i, m.modMap fun s => { s with pool := s.pool.set i true })

/-- Lines that a bank of the map cache SRAM holds (R191). -/
def sramLines : Nat := 2048

/-- Put a line of entries at the front of its bank; the bank drops its least recently used unpinned line when it is over full. -/
def Mach.sramTouch (m : Mach) (key : Nat) : Mach :=
  let b := (Config.mapBank key).toNat
  let l := key :: (m.map.sram.get b).erase key
  let pinned (k : Nat) : Bool := m.map.pins.any fun p => p.1 / 32 = k
  let l' := if l.length ≤ sramLines then l else
    match l.reverse.find? fun k => !pinned k with
    | some v => l.erase v
    | none => l
  m.modMap fun s => { s with sram := s.sram.set b l' }

/-- A word of SRAM `ram` is written: an armed SRAM flip mask corrupts it (R256). Whether its CRC-8 then fails (the check is linear, so
neither the data nor the address of the word matters: R239), and the bits of the data that have changed. -/
def Mach.flipS (m : Mach) (ram : Nat) : (Bool × Nat) × Mach :=
  if m.flag ERR.FLIP_S_ARM && m.get ERR.FLIP_S_RAM = ram then
    let mask := m.get ERR.FLIP_MASK_S % 2 ^ 64
    let code := m.flag ERR.FLIP_S_TARGET
    ((if code then mask % 256 ≠ 0 else crcBytesM 8 0x2F 12 mask 0 ≠ 0, if code then 0 else mask),
      (m.setFlag ERR.FLIP_S_ARM 0 false).event .err 0 ERR.EV_FLIP_DONE_S)
  else ((false, 0), m)

/-- The map cache SRAM keys of a unit's line of entries, of the line of its L1 word and of that of its root word (R191). -/
def entKey (uk : Nat) : Nat := uk / 32
def l1LineKey (uk : Nat) : Nat := 2 ^ 40 + pgMap uk / 32
def rootLineKey (uk : Nat) : Nat := 2 ^ 41 + rootKey (unitNs uk) (unitU uk) / 32

/-- The page of an SRAM key, and the line in it (R189). -/
def keyPage (key : Nat) : Nat × Nat :=
  if key < 2 ^ 40 then (key / 16, key % 16)
  else if key < 2 ^ 41 then
    let l := 32 * (key - 2 ^ 40)
    (2 ^ 32 + l / 2 ^ 23 * 2 ^ 14 + l % 2 ^ 23 / 2 ^ 9, l % 512 / 32)
  else (2 ^ 33 + (key - 2 ^ 41) / 16, (key - 2 ^ 41) % 16)

/-- A changed word is written through the map cache SRAM, whose line holds it, to the Hearth map region (R191, R247). -/
def Mach.wordWrite (m : Mach) (key : Nat) : Mach :=
  let f := m.flipS 1
  let m1 := f.2.sramTouch key
  let m2 := if f.1.1 then m1.modMap fun s => { s with sramBad := key :: s.sramBad.erase key } else m1
  let p := keyPage key
  if m2.map.hmap.contains p.1 || 2 ^ 33 ≤ p.1 then m2.mapCell p.1 p.2 else m2

/-- The changed word of a unit is written through the map cache SRAM, which then also holds the line of its L1 word (R191). -/
def Mach.entCached (m : Mach) (uk : Nat) : Mach := (m.sramTouch (l1LineKey uk)).wordWrite (entKey uk)

/-- Segment states by channel and index (R194). -/
def Mach.seg (m : Mach) (c s : Nat) : SegSt := m.map.segs.get (segKey c s)
def Mach.setSeg (m : Mach) (c s : Nat) (x : SegSt) : Mach := m.modMap fun t => { t with segs := t.segs.set (segKey c s) x }

/-- A unit's segments pass to a state. -/
def Mach.setUnitSegs (m : Mach) (e : Nat) (x : SegSt) : Mach := (unitChans e).foldl (fun m c => m.setSeg c (eSeg e) x) m

/-- A unit's segments are reclaimed: FREE, or RETIRED with one SPARE freed for each (R194, R218). -/
def Mach.freeSegs (m : Mach) (e : Nat) : Mach :=
  (unitChans e).foldl (fun m c =>
    (if m.seg c (eSeg e) = .retired then m else m.setSeg c (eSeg e) .free).count MAP.CNT_RECLAIM) m

/-- The units with an entry below a root word. -/
def Mach.unitsBelow (m : Mach) (ns root lo hi : Nat) : List Nat :=
  m.map.ents.keys.filter fun k => k / 2 ^ 32 = ns && k % 2 ^ 32 / 2 ^ 18 = root && lo ≤ k % 2 ^ 32 && k % 2 ^ 32 ≤ hi

/-- The places of a unit with an entry in the table: its own, and the destination of its migration. -/
def Mach.places (m : Mach) (uk : Nat) : List Nat :=
  let e := m.map.ents.get uk
  match m.map.migs.find? fun p => p.1 = uk with
  | some (_, x) => [e, eMake (eKind e) (if eKind e = 1 then x.chanNew else eChan e) x.segNew false]
  | none => [e]

/-- A command of a unit at a place waits or is outstanding. -/
def Mach.placeBusy (m : Mach) (uk e : Nat) : Bool :=
  let is (q : LineReq) : Bool := q.md.uk == some uk && q.md.seg = eSeg e
  (m.zml.any fun z => z.2.outs.any (fun o => is o.req) || z.2.refused.any is) || (m.sc.queues.any fun p => p.2.any is) ||
    (m.rota.next.any fun p => match p.2 with | some q => is q | none => false) || (m.rota.restarts.any fun p => p.2.any is) ||
    m.map.leaseWait.any fun x => is x.2.2

/-- A unit's old places are still needed: it is pinned (R188), or a command of it has not ended. -/
def Mach.unitHeld (m : Mach) (uk : Nat) : Bool := m.map.pins.get uk ≠ 0 || (m.places uk).any (m.placeBusy uk)

/-- A unit leaves the map's tables, with all the wear engine's work on it. -/
def Mach.dropUnit (m : Mach) (uk : Nat) : Mach :=
  m.modMap fun s => { s with
    ents := s.ents.erase uk, rots := s.rots.erase uk, migs := s.migs.erase uk, rws := s.rws.erase uk,
    rotDue := s.rotDue.erase uk, migDue := s.migDue.erase uk, rwDue := s.rwDue.erase uk }

/-- A word of the tree becomes zero: its page is dirty and a record says so (R195, R196). -/
def Mach.clearWord (m : Mach) (pg ns idx : Nat) : Mach :=
  let key := if pg < 2 ^ 32 then entKey (unitKey ns idx) else if pg < 2 ^ 33 then 2 ^ 40 + (ns * 2 ^ 23 + idx) / 32
    else 2 ^ 41 + (ns * 2 ^ 14 + idx) / 32
  (((m.dirtyPage pg).wordWrite key).delta 0 ns idx 0).2

/-- Reclaim the units `lo` to `hi` below a root word: their segments pass to FREE, and pages left empty return to the pool, with a record
of each word that changes under a current root word, and of the root word (R195, R203). Units still held stay (R188). -/
def Mach.reclaimRoot (m : Mach) (ns root lo hi : Nat) : Mach :=
  let live := m.rootCurrent (unitKey ns (root * 2 ^ 18))
  let ks := (m.unitsBelow ns root lo hi).filter fun k => !m.unitHeld k
  let m1 := ks.foldl (fun (m : Mach) k =>
    let m1 := ((m.places k).foldl (fun (m : Mach) e => m.freeSegs e) m).dropUnit k
    if live then m1.clearWord (pgMap k) ns (unitU k) else m1) m
  let m1 := (m1.unitsEnded m 0).unitsEnded m 1
  let pages := (m1.map.l1.filter fun p => p.1 / 2 ^ 23 = ns && p.1 % 2 ^ 23 / 2 ^ 9 = root).filter fun p =>
    !(m1.map.ents.any fun e => pgMap e.1 = p.1)
  let m2 := pages.foldl (fun (m : Mach) p =>
    let m1 := m.modMap fun s => { s with
      l1 := s.l1.erase p.1, pool := s.pool.erase p.2.slot, hmap := s.hmap.erase p.1, dirty := s.dirty.erase p.1 }
    if live then m1.clearWord (2 ^ 32 + ns * 2 ^ 14 + root) ns (p.1 % 2 ^ 23) else m1) m1
  let w := m2.map.root.get (ns * 2 ^ 14 + root)
  if (m2.map.l1.any fun p => p.1 / 2 ^ 23 = ns && p.1 % 2 ^ 23 / 2 ^ 9 = root) || !w.valid then m2
  else
    (m2.modMap fun s => { s with
      root := s.root.erase (ns * 2 ^ 14 + root), pool := s.pool.erase w.slot,
      hmap := s.hmap.erase (2 ^ 32 + ns * 2 ^ 14 + root), dirty := s.dirty.erase (2 ^ 32 + ns * 2 ^ 14 + root) }).clearWord
      (2 ^ 33 + (ns * 2 ^ 14 + root) / 512) ns root

/-- The units still held below a stale root word, which is to be used again, leave their entries: their places pass to the reclaimer with
their last pin or command (R188). -/
def Mach.orphan (m : Mach) (ns root : Nat) : Mach :=
  let m1 := (m.unitsBelow ns root 0 (2 ^ 32)).foldl (fun (m : Mach) k =>
    (m.modMap fun s => { s with orphans := s.orphans ++ (m.places k).map fun e => (k, e) }).dropUnit k) m
  (m1.unitsEnded m 0).unitsEnded m 1

/-- Places of removed units that nothing needs any more pass to FREE (R188, R203). -/
def Mach.freeOrphans (m : Mach) : Mach :=
  let ready (x : Nat × Nat) : Bool := m.map.pins.get x.1 = 0 && !m.placeBusy x.1 x.2
  ((m.map.orphans.filter ready).foldl (fun (m : Mach) x => m.freeSegs x.2) m).modMap fun s => { s with
    orphans := s.orphans.filter fun x => !ready x }

/-- Root words to visit, shown in RECLAIM_LEFT (R203). -/
def Mach.setReclaim (m : Mach) (l : List (Nat × Nat × Nat × Nat)) : Mach :=
  (m.modMap fun s => { s with reclaim := l }).put MAP.RECLAIM_LEFT 0 (l.map fun x => (x.1, x.2.1)).eraseDups.length

/-- A range below a root word passes to the reclaimer: one entry for each root word, of the widest range. -/
def Mach.addReclaim (m : Mach) (x : Nat × Nat × Nat × Nat) : Mach :=
  let same (y : Nat × Nat × Nat × Nat) : Bool := y.1 = x.1 && y.2.1 = x.2.1
  match m.map.reclaim.find? same with
  | some y =>
    m.setReclaim ((m.map.reclaim.filter fun z => !same z) ++ [(x.1, x.2.1, min x.2.2.1 y.2.2.1, max x.2.2.2 y.2.2.2)])
  | none => m.setReclaim (m.map.reclaim ++ [x])

/-- A unit's entry is replaced; MAPPED counts the units with a current entry (R174). Its promotions run from when its AGE became 0 (R224). -/
def Mach.setEntRaw (m : Mach) (uk e : Nat) : Mach :=
  let old := m.ent uk
  let m1 := m.modMap fun s => { s with ents := s.ents.set uk e }
  let k (b : Bool) := if b then 1 else 0
  let m1 := if eKind e ≠ 0 && eAge e = 0 && (eAge old ≠ 0 || old / 2 ^ 28 ≠ e / 2 ^ 28) then
    m1.modMap fun s => { s with promoUk := s.promoUk.set uk (m.get MAP.AGE_NOW) } else m1
  m1.modNs (unitNs uk) fun d => { d with mapped := d.mapped + k (eKind e ≠ 0) - k (eKind old ≠ 0) }

/-- Make the levels above a unit current: a stale root word is reclaimed first, missing pages come from the pool (R189, R203). -/
def Mach.ensureTree (m : Mach) (uk : Nat) : Mach :=
  let ns := unitNs uk
  let u := unitU uk
  let rk := rootKey ns u
  let m1 := if m.rootCurrent uk then m
    else
      let m0 := (m.reclaimRoot ns (u / 2 ^ 18) 0 (2 ^ 32)).orphan ns (u / 2 ^ 18)
      let m0 := m0.setReclaim (m0.map.reclaim.filter fun x => !(x.1 = ns && x.2.1 = u / 2 ^ 18))
      let t := m0.poolTake
      let m0 := (((t.2.modMap fun s => { s with root := s.root.set rk ⟨t.1, m.epoch ns, false, true⟩ }).dirtyPage (pgRoot uk)).hmapAdd
        (pgL1 uk)).wordWrite (rootLineKey uk)
      (m0.delta 0 ns (u / 2 ^ 18) (m0.pageWord (pgRoot uk) (rk % 512))).2
  if (m1.map.l1.get (l1Key ns u)).valid then m1
  else
    let t := m1.poolTake
    let m2 := (((t.2.modMap fun s => { s with l1 := s.l1.set (l1Key ns u) ⟨t.1, 0, false, true⟩ }).dirtyPage (pgL1 uk)).hmapAdd
      (pgMap uk)).wordWrite (l1LineKey uk)
    (m2.delta 0 ns (u / 2 ^ 9) (m2.pageWord (pgL1 uk) (u / 2 ^ 9 % 512))).2

/-- A unit's entry becomes `e`, with a delta record; the record's number (R195). -/
def Mach.setEnt (m : Mach) (uk e : Nat) : Nat × Mach :=
  let m1 := if eKind e = 0 then m else m.ensureTree uk
  let m2 := ((m1.setEntRaw uk e).dirtyPage (pgMap uk)).entCached uk
  let r := m2.delta 0 (unitNs uk) (unitU uk) e
  if e / 2 ^ 16 = m.ent uk / 2 ^ 16 then r else (r.1, r.2.modMap fun s => { s with locRec := s.locRec.set uk (r.1 + 1) })

/-- The record that locates a unit is durable (R195). -/
def Mach.located (m : Mach) (uk : Nat) : Bool :=
  let n := m.map.locRec.get uk
  n = 0 || m.deltaDurable (n - 1)

/-- A flag of a unit's current entry becomes `b`, with a delta record when it changes; the record that locates the unit. With the log full
the change waits (R195). -/
def Mach.setEntFlag (m : Mach) (uk k : Nat) (b : Bool) : Nat × Mach :=
  let e := m.ent uk
  if e = 0 || eFlag e k = b then (m.map.delta.appended - 1, m)
  else if m.deltaFull then (m.map.delta.appended - 1, (m.modMap fun s => { s with flagDue := s.flagDue ++ [(uk, k, b)] }).deltaStall)
  else m.setEnt uk (eSetFlag e k b)

/-! ### Lookups (R190, R191) -/

/-- The ring entry and event of an SRAM word that failed its CRC-8 (R247, R254). `r` says which word and which access. -/
def Mach.sramFail (m : Mach) (r : RingInfo) : Mach :=
  (((m.count ERR.CNT_SRAM_FAIL).event .err 0 ERR.EV_SRAM_FAIL).judgeEst).ringAdd
    { r with tick := m.get ALM.TB_NOW, est := m.estimated }

/-- The same for the map cache and Collier RAMs: where a word of theirs lies is not stated, so its address is a free value. -/
def Mach.ramWordFail (m : Mach) (path outcome rq : Nat) : Mach :=
  { m.sramFail { (default : RingInfo) with path := path, outcome := outcome, rq := rq, seg := (Config.freeWord m.free).toNat }
    with free := m.free + 1 }

/-- The map cache SRAM holds a line. -/
def Mach.sramHas (m : Mach) (key : Nat) : Bool := (m.map.sram.get (Config.mapBank key).toNat).contains key

/-- Where the copy of a line of the Hearth map region that is read lies: on the lowest stack in service. -/
def Mach.mapPlace (m : Mach) (key : Nat) : Nat × Nat := (m.survivor, m.mapBase + m.mapOffset (keyPage key).1 (keyPage key).2)

/-- A line of the map has come from the Hearth map region or, `media`, from the medium: it fills the SRAM, and from the medium the page
also fills the Hearth map region (R190). -/
def Mach.mapGot (m : Mach) (key : Nat) (media : Bool) : Mach :=
  let f := m.flipS 1
  let m1 := (f.2.sramTouch key).modMap fun s => { s with
    reads := s.reads.set key 3, sramBad := if f.1.1 then key :: s.sramBad.erase key else s.sramBad.erase key }
  if media && key < 2 ^ 41 then m1.hmapAdd (keyPage key).1 else m1

/-- The place in the medium of a page's last checkpointed copy: pair, segment and position of its first line (R189, R193, R196). -/
def Mach.pagePlace (m : Mach) (pg : Nat) : Nat × Nat × Nat :=
  if pg < 2 ^ 33 then
    let w := if pg < 2 ^ 32 then m.map.l1.get pg else m.map.root.get (pg - 2 ^ 32)
    storePlace (m.poolBase + 8192 * w.slot + (if w.alt then 4096 else 0))
  else storePlace ((if m.map.rootAlt.get (pg - 2 ^ 33) then 32 * 2 ^ 20 else 0) + 4096 * (pg - 2 ^ 33))

/-- Fetch a line of the map from the page's last checkpointed copy in the medium, on the upper channel of the pair when the lower is lost
(R190, R192). -/
def Mach.mapFetchMedia (m : Mach) (key : Nat) : Mach :=
  let x := m.pagePlace (keyPage key).1
  (m.mQueue (if m.chanLost x.1 then x.1 + 16 else x.1) true 13
    { (default : Media) with op := opReadLine, seg := x.2.1, pos := x.2.2 + (keyPage key).2, nlines := 1 } (.mapPage key)).modMap fun s =>
      { s with reads := s.reads.set key 2 }

/-- Fetch a line of the map that the SRAM lacks: from the Hearth map region where that holds its page, else from the medium (R190). -/
def Mach.mapFetch (m : Mach) (key : Nat) : Mach :=
  if (m.map.hmap.contains (keyPage key).1 || 2 ^ 41 ≤ key) && m.stacksIn ≠ 0 then
    (m.hQueue 13 (m.mapPlace key) false (.mapLine key)).modMap fun s => { s with reads := s.reads.set key 1 }
  else m.mapFetchMedia key

/-- A fetch of a line of the map is under way. -/
def Mach.mapBusy (m : Mach) (key : Nat) : Bool := m.map.reads.get key = 1 || m.map.reads.get key = 2

/-- A word of a map cache line that a lookup reads fails its CRC-8: the line is fetched again, from the Hearth map region (R247). -/
def Mach.sramReload (m : Mach) (key : Nat) : Mach :=
  ((m.modMap fun s => { s with sramBad := s.sramBad.erase key }).ramWordFail 3 6 13).mapFetch key

/-- The counter of where the lookup that fetched a line ends (R190). -/
def Mach.lookedUp (m : Mach) (key : Nat) : Mach :=
  m.count (if m.map.reads.get key = 1 then MAP.CNT_LOOKUP_HEARTH else MAP.CNT_LOOKUP_MEDIA)

/-- A lookup of a unit's entry: whether the entry is at hand. It is at hand in the SRAM; else the line of its L1 word, then its own line,
is fetched into the SRAM, and the lookup is made again once it has come (R190). A root word is always there, and a unit under a missing
or stale level needs no fetch (R189). A line that fails its CRC-8 is fetched again (R247). The counter of where a lookup ended advances
with the fetch of its own line, or with the hit. -/
def Mach.lookup (m : Mach) (uk : Nat) : Bool × Mach :=
  let key := entKey uk
  let l1 := l1LineKey uk
  let root := rootLineKey uk
  let bad (k : Nat) : Bool := m.map.sramBad.contains k
  if m.mapBusy root then (false, m)
  else if bad root then (false, m.sramReload root)
  else if !m.rootCurrent uk || !(m.map.l1.get (pgMap uk)).valid then (true, m.count MAP.CNT_LOOKUP_SRAM)
  else if m.mapBusy key then (false, m)
  else if m.sramHas key then
    if bad key then (false, (m.sramReload key).lookedUp key)
    else
      let m1 := m.sramTouch key
      (true, if m.map.reads.get key = 3 then m1.modMap fun s => { s with reads := s.reads.set key 0 } else m1.count MAP.CNT_LOOKUP_SRAM)
  else if m.mapBusy l1 then (false, m)
  else if !m.sramHas l1 then (false, m.mapFetch l1)
  else if bad l1 then (false, m.sramReload l1)
  else (false, (m.mapFetch key).lookedUp key)

/-! ### Warming (R191, R428) -/

/-- The Hearth map region begins to warm: MAP_IO reads every pool page in use that the region does not hold, as far as it has room. -/
def Mach.warmUp (m : Mach) : Mach :=
  let pages := ((m.map.root.filter fun r => r.2.valid).map fun r => 2 ^ 32 + r.1) ++ (m.map.l1.filter fun r => r.2.valid).map (·.1)
  let todo := (pages.filter fun pg => !m.map.hmap.contains pg).take (m.get MAP.HMAP_SIZE / 4096 - m.map.hmap.length)
  todo.foldl (fun (m : Mach) pg =>
    let x := m.pagePlace pg
    m.mQueue (if m.chanLost x.1 then x.1 + 16 else x.1) true 13
      { (default : Media) with op := opReadLines, seg := x.2.1, pos := x.2.2, nlines := 16 } (.mapWarm pg)) m

end Sys2Proof.Machine
end

