-- ==== Sys2Proof/Machine/Segs.lean ====
section
/-! DEFINITION. Segments: the Woodshed and allocation (R187, R192, R194), reservation (R204), the wear ledger (R207 to R211,
R216, R218), the slot of a line under rotation (R214), and programs of logical lines (R127, R184, R219). -/
namespace Sys2Proof.Machine

/-! ### Counting segments -/

/-- Segments of a channel's hub that the Core uses (R192). -/
def Mach.chanSegs (m : Mach) (c : Nat) : Nat := min (m.get ZML.HUB_SEGMENTS c) m.map.segS
/-- Spares left on a channel: floor(3 %) of its segments, less those freed (R192, R194). They are its highest indices. -/
def Mach.spares (m : Mach) (c : Nat) : Nat := 3 * m.chanSegs c / 100 - m.map.sparesUsed.get c
/-- The listed segments of a channel in a state. -/
def Mach.segsIn (m : Mach) (c : Nat) (x : SegSt) : List Nat :=
  (m.map.segs.filter fun p => p.1 / 2 ^ 27 = c && p.2 == x).map fun p => p.1 % 2 ^ 27
/-- Formatted segments of a channel's Woodshed. -/
def Mach.woodshed (m : Mach) (c : Nat) : Nat := (m.segsIn c .woodshed).length
/-- Usable segments of a channel: all less the reserve, the spares and the RETIRED (R204). -/
def Mach.usable (m : Mach) (c : Nat) : Nat :=
  m.chanSegs c - m.map.reserve - m.spares c - (m.segsIn c .retired).length
/-- FREE segments of a channel (R194). -/
def Mach.freeCount (m : Mach) (c : Nat) : Nat :=
  m.usable c - m.woodshed c - (m.segsIn c .mapped).length - (m.segsIn c .formatting).length
/-- Segment `s` of a channel is FREE. -/
def Mach.segFree (m : Mach) (c s : Nat) : Bool :=
  m.map.reserve ≤ s && s < m.chanSegs c - m.spares c && (m.seg c s == .free || m.seg c s == .formatFailed)

/-- The lowest index from `s` up, within `fuel` steps, that satisfies `p`. -/
def upFrom (p : Nat → Bool) : Nat → Nat → Option Nat
  | 0, _ => none
  | f + 1, s => if p s then some s else upFrom p f (s + 1)
/-- The highest index from `s` down, within `fuel` steps, that satisfies `p`. -/
def downFrom (p : Nat → Bool) : Nat → Nat → Option Nat
  | 0, _ => none
  | f + 1, s => if p s then some s else if s = 0 then none else downFrom p f (s - 1)

/-- A FREE segment to format on a channel: the highest, one that failed before only when no other is FREE (R187, R194). -/
def Mach.pickFormat (m : Mach) (c : Nat) : Option Nat :=
  let n := m.map.segs.length + 1
  let top := m.chanSegs c - m.spares c - 1
  match downFrom (fun s => m.segFree c s && m.seg c s == .free) n top with
  | some s => some s
  | none => (m.segsIn c .formatFailed).head?

/-- A row to format in a group: the lowest index at which all 16 segments are FREE or WOODSHED, one of them FREE; one with a segment that
failed before only when there is no other (R194). -/
def Mach.pickRow (m : Mach) (g : Nat) : Option Nat :=
  let cs := (List.range 16).map (16 * g + ·)
  let is (s : Nat) : Bool := (cs.all fun c => m.segFree c s || m.seg c s == .woodshed) && cs.any fun c => m.segFree c s
  let n := m.map.segs.length + 1
  match upFrom (fun s => is s && cs.all fun c => m.seg c s != .formatFailed) n m.map.reserve with
  | some s => some s
  | none => upFrom is n m.map.reserve

/-- The formatted rows of a group. -/
def Mach.rows (m : Mach) (g : Nat) : List Nat :=
  (m.segsIn (16 * g) .woodshed).filter fun s => (List.range 16).all fun k => m.seg (16 * g + k) s == .woodshed

/-! ### Reservation (R204) -/

/-- Segments that a namespace of `n` units reserves on channel `c` (R204). -/
def reserveOn (prot n home c : Nat) : Nat :=
  if prot = 0 then n / 32 + (if (c + 32 - home % 32) % 32 < n % 32 then 1 else 0)
  else if prot = 1 then n / 16 + (if (c % 16 + 16 - home % 16) % 16 < n % 16 then 1 else 0)
  else n / 2 + (if c < 16 then n % 2 else 0)

/-- The size in bytes of a map unit. -/
def unitBytes (prot : Nat) : Nat := 256 * unitLines prot

/-- Segments reserved on a channel, without namespace `except`. -/
def Mach.reservedOn (m : Mach) (c : Nat) (except : Option Nat) : Nat :=
  m.map.resv.foldl (fun a p => if some p.1 = except then a else a + p.2.get c) 0

/-- A reservation check: on every channel the reservations do not exceed the usable segments (R204). -/
def Mach.reserveOk (m : Mach) (ns prot units home : Nat) : Bool :=
  (List.range 32).all fun c => m.reservedOn c (some ns) + reserveOn prot units home c ≤ m.usable c

/-- Record a namespace's reservation; CAP_RESERVED shows the total. -/
def Mach.setReserve (m : Mach) (ns prot units home : Nat) : Mach :=
  let t : Tab Nat := (List.range 32).foldl (fun t c => t.set c (reserveOn prot units home c)) []
  let m1 := m.modMap fun s => { s with resv := s.resv.set ns t }
  m1.put MAP.CAP_RESERVED 0 (((List.range 32).map fun c => m1.reservedOn c none).sum)

/-! ### Allocation (R187) -/

/-- A namespace's reservation on a channel has room for another segment of it (R187, R204). -/
def Mach.room (m : Mach) (ns c : Nat) : Bool :=
  (m.map.ents.filter fun p => unitNs p.1 = ns && (unitChans p.2).contains c && m.ent p.1 ≠ 0).length < (m.map.resv.get ns).get c

/-- The highest formatted segment of a channel, and the highest formatted index of a pair (R187). -/
def Mach.topSeg (m : Mach) (c : Nat) : Option Nat := (m.segsIn c .woodshed).getLast?
def Mach.topPair (m : Mach) (c : Nat) : Option Nat := ((m.segsIn c .woodshed).filter fun s => m.seg (c + 16) s == .woodshed).getLast?

/-- The place of a new unit: channel, pair or group, and segment (R187). NONE and MIRROR take the highest formatted index, PARITY
the lowest row. Only the next channels of NONE are asked for reservation room; a read-only channel is skipped (R219). -/
def Mach.place (m : Mach) (ns prot home u : Nat) : Option (Nat × Nat) :=
  if prot = 0 then
    (List.range 32).findSome? fun k =>
      let c := (home + u + k) % 32
      if !m.chanRO c && (k = 0 || m.room ns c) then (m.topSeg c).map fun s => (c, s) else none
  else if prot = 1 then
    (List.range 16).findSome? fun k =>
      let c := (home + u + k) % 16
      if !m.chanRO c && !m.chanRO (c + 16) then (m.topPair c).map fun s => (c, s) else none
  else
    (List.range 2).findSome? fun k =>
      let g := (home + u + k) % 2
      if (List.range 16).all fun k => !m.chanRO (16 * g + k) then ((m.rows g).head?).map fun s => (g, s) else none

/-- The place that R187 gives a unit of a namespace. -/
def Mach.placeFor (m : Mach) (uk : Nat) : Option (Nat × Nat) :=
  m.place (unitNs uk) (m.nsDesc (unitNs uk)).prot (m.nsHome (unitNs uk)) (unitU uk)

/-- A group's counts allow a PARITY unit, but no index has all its 16 segments FREE or WOODSHED (R194). -/
def Mach.rowShort (m : Mach) (g : Nat) : Bool :=
  (m.rows g).isEmpty && (m.pickRow g).isNone && (List.range 16).all fun k => 0 < m.freeCount (16 * g + k) + m.woodshed (16 * g + k)

/-- Segments leave the Woodshed and are MAPPED; a channel whose Woodshed falls below WOODSHED_LOW by it sets the event (R194). -/
def Mach.takeSegs (m : Mach) (e : Nat) : Mach :=
  let m1 := m.setUnitSegs e .mapped
  let lim := m.get MAP.WOODSHED_LOW
  if (unitChans e).any fun c => lim ≤ m.woodshed c && m1.woodshed c < lim then m1.event .map 0 MAP.EV_WOODSHED_LOW else m1

/-- Allocate a unit: its segments become MAPPED and its entry is written with FORMATTED; the delta record of the entry. Without a
formatted unit WOODSHED_LOW is set (R187, R194). -/
def Mach.allocate (m : Mach) (uk : Nat) (runahead : Bool) : Option Nat × Mach :=
  let d := m.nsDesc (unitNs uk)
  if m.deltaFull then (none, m.deltaStall)
  else
  match m.placeFor uk with
  | none =>
    let m1 := m.event .map 0 MAP.EV_WOODSHED_LOW
    (none, if d.prot = 2 && (m.rowShort 0 || m.rowShort 1) then m1.event .map 0 MAP.EV_ROW_SHORT else m1)
  | some (c, s) =>
    let e := eMake (protKind d.prot) c s runahead
    let r := ((m.takeSegs e).count MAP.CNT_ALLOC).setEnt uk e
    (some r.1, r.2)

/-! ### The wear ledger (R208 to R211, R216, R218) -/

/-- A WD_EVENT bit is set (R234). -/
def Mach.wdEvent (m : Mach) (b : Nat) : Mach := m.put MAP.WD_EVENT 0 (m.get MAP.WD_EVENT ||| 2 ^ b)

/-- Rated life L in ledger units (R211). -/
def Mach.life (m : Mach) (c : Nat) : Nat := 16 * m.map.endur.get c

/-- Mean of C over a channel's usable segments (R211). DESIGN CHOICE, log entry 105: it is rounded down. -/
def Mach.wearMean (m : Mach) (c : Nat) : Nat :=
  let n := m.usable c
  let l := m.map.wearC.filter fun p =>
    let s := p.1 % 2 ^ 27
    p.1 / 2 ^ 27 = c && m.map.reserve ≤ s && s < m.chanSegs c - m.spares c && m.seg c s != .retired
  let extra : Int := l.foldl (fun a p => a + ((Nat.xor p.2 ceil0 : Nat) : Int) - ceil0) 0
  if n = 0 then 0 else ((ceil0 * n : Int) + extra).toNat / n

/-- Highest C of a channel (R211); 0 before a map store is known. DESIGN CHOICE, log entry 105: over every segment of the channel, those
of the reserve, the RETIRED and the spares too. -/
def Mach.wearMax (m : Mach) (c : Nat) : Nat :=
  if m.map.segS = 0 then 0 else (m.map.wearC.filter fun p => p.1 / 2 ^ 27 = c).foldl (fun a p => max a (Nat.xor p.2 ceil0)) ceil0

/-- The unit that a segment belongs to. -/
def Mach.segUnit (m : Mach) (c s : Nat) : Option Nat :=
  (m.map.ents.find? fun p => eSeg p.2 = s && (unitChans p.2).contains c).map (·.1)

/-- Queue a unit for migration (R216). -/
def Mach.queueMig (m : Mach) (uk : Nat) : Mach :=
  if m.map.migDue.contains uk || (m.map.migs.any fun p => p.1 = uk) then m
  else m.modMap fun s => { s with migDue := s.migDue ++ [uk] }

/-- The unit is set RETIRED and queued for migration (R218, R329). -/
def Mach.retireUnit (m : Mach) (uk : Nat) : Mach := (m.setEntFlag uk fRetired true).2.queueMig uk

/-- A ceiling `n` on a channel reaches the retirement threshold (R218). -/
def Mach.worn (m : Mach) (c n : Nat) : Bool := 0 < m.life c && m.life c * m.get MAP.RETIRE_PCT / 100 ≤ n

/-- A worn segment retires its unit, or, with no spare left, its channel becomes read-only (R218). -/
def Mach.retire (m : Mach) (c uk : Nat) : Mach :=
  if m.spares c = 0 then
    if m.chanRO c then m else (m.modMap fun t => { t with readOnly := t.readOnly.set c true }).wdEvent 1
  else ((m.wdEvent 0).count MAP.CNT_RETIRE).retireUnit uk

/-- What a ceiling raised from `old` leads to: a worn reserve segment is reported; another that has now reached the threshold, or whose unit is
not RETIRED yet, retires its unit; one far above the mean is queued for migration (R208, R216, R218). -/
def Mach.wearCheck (m : Mach) (c s old : Nat) : Mach :=
  let worn := m.worn c (m.wearC c s)
  if s < m.map.reserve then (if worn then m.wdEvent 6 else m)
  else
    match m.segUnit c s with
    | none => m
    | some uk =>
      let m1 := if worn && (!m.worn c old || !eFlag (m.ent uk) fRetired) then m.retire c uk else m
      if m1.wearMean c + m1.life c * m1.get MAP.SPREAD / 1024 < m1.wearC c s then m1.queueMig uk else m1

/-- The exact count A of a segment (R209). -/
def Mach.wearA (m : Mach) (c s : Nat) : Nat := Nat.xor (m.map.wearA.get (segKey c s)) m.map.wearA0

/-- The ceiling of a segment whose exact count is, or will be, `a` is raised: its ledger line is written, in the Hearth map region too, and
what the new ceiling leads to is judged (R209, R273). It is never lowered. -/
def Mach.raiseCeil (m : Mach) (c s a : Nat) : Mach :=
  let old := m.wearC c s
  let n := max old (satU 32 (a / 256 + m.get MAP.LEASE))
  let line := (c * m.map.segS + s) / 64
  let m1 := (m.modMap fun t => { t with
    wearC := t.wearC.set (segKey c s) (Nat.xor n ceil0), ledgerDirty := line / 16 :: t.ledgerDirty.erase (line / 16) }).count MAP.CNT_LEASE
  ((m1.mapCell (2 ^ 34 + line / 16) (line % 16)).ledgerWrite c s 0).wearCheck c s old

/-- The Hearth map region is lost: its pages, the fetches from it, and the exact counts that stood beside its ledger lines. A ledger line
that enters it again takes A = 256 × C for each word, so that the next program of a segment raises its ceiling first (R191, R209). -/
def Mach.hmapLost (m : Mach) : Mach :=
  m.modMap fun s => { s with
    hmap := [], reads := s.reads.filter fun r => r.2 ≠ 1,
    wearA := s.wearC.mapv fun _ x => Nat.xor (256 * Nat.xor x ceil0) (256 * ceil0), wearA0 := 256 * ceil0 }

/-- The segment on the lowest-numbered channel of the unit that is in service (R213). -/
def Mach.firstSeg (m : Mach) (e : Nat) : Option Nat := (unitChans e).find? fun c => m.link c = 4

/-- Count `k` programs against a segment; raise its ceiling when half its lease is used; a unit's first segment that passes a
multiple of GAP_WRITES makes a shift due (R208, R209, R213). -/
def Mach.countPrograms (m : Mach) (c s k : Nat) : Mach :=
  let a := m.wearA c s
  let a' := a + k
  let m1 := (m.modMap fun t => { t with wearA := t.wearA.set (segKey c s) (Nat.xor a' t.wearA0) }).count MAP.CNT_PROGRAMS 0 k
  let cl := m.wearC c s
  let m2 :=
    if cl ≠ 0xFFFFFFFF && 256 * cl ≤ a' + 128 * m.get MAP.LEASE then m1.raiseCeil c s a' else m1
  match m2.segUnit c s with
  | none => m2
  | some uk =>
    let g := max 1 (m.get MAP.GAP_WRITES)
    if a / g < a' / g && m2.firstSeg (m2.ent uk) = some c && !m2.map.rotDue.contains uk then
      m2.modMap fun t => { t with rotDue := t.rotDue ++ [uk] }
    else m2

/-- `k` programs may leave: they keep the exact count below the ceiling that is durable (R209). -/
def Mach.leaseOk (m : Mach) (c s k : Nat) : Bool := m.wearA c s + k < 256 * m.wearD c s || m.wearD c s = 0xFFFFFFFF

/-- A command of `k` programs waits for its ceiling: one that the present lease cannot cover raises it first (R209). -/
def Mach.leaseWant (m : Mach) (c s k : Nat) : Mach :=
  let a := m.wearA c s + k
  if m.wearC c s ≠ 0xFFFFFFFF && 256 * m.wearC c s ≤ a then m.raiseCeil c s a else m

/-! ### Read level (R225, R226) -/

/-- The temperature band of a channel's hub (R225). -/
def Mach.band (m : Mach) (c : Nat) : Nat :=
  let t := sx 8 (m.get ZML.HUB_TEMP c)
  if t < 0 then 0 else min 7 ((t / 16).toNat + 1)

/-- The offset set of a bucket on a channel; 0 while no drift table is loaded (R226). -/
def Mach.offsetSet (m : Mach) (c b : Nat) : Nat :=
  if m.map.dloaded.get c then m.map.dtbl.get (1024 * c + 32 * m.band c + b) % 256 else 0

/-- The predicted bucket of a unit on a channel (R226). -/
def Mach.bucketOf (m : Mach) (c e : Nat) : Nat := min 31 (eAge e + m.map.bias.get c)

/-- A command as it is issued: the offset set of a read is found by the bucket and the band that hold now (R226), and word 0 of a canary is
the drift clock now (R229). -/
def Mach.atIssue (m : Mach) (c : Nat) (md : Media) : Media :=
  if md.bkt = 1 then
    let b := m.bucketOf c (match md.uk with | some uk => m.ent uk | none => 0)
    { md with oset := m.offsetSet c b, bkt := b + 2 }
  else if 2 ≤ md.bkt then { md with oset := m.offsetSet c (md.bkt - 2) }
  else if md.area = 1 && md.op = opWriteLine then
    { md with data := md.data &&& ~~~(BitVec.ofNat 2048 (2 ^ 64 - 1)) ||| BitVec.ofNat 2048 (m.get MAP.AGE_NOW) }
  else md

/-! ### Slots (R212, R214) -/

/-- The slot of line position `p` of a unit with rotation `r`, after `j` acknowledged moves of a shift (R212, R214). Slot 4096 is
the gap slot. -/
def slotOf (r j p : Nat) : Nat :=
  let q := (p + r) % 4096
  if q = 4095 then (if j = 0 then 4095 else if j ≤ 4096 then 4096 else 0)
  else if 4096 ≤ q + j then q + 1 else q

/-- The slot of line position `p` in a unit now; a reserve segment does not rotate. -/
def Mach.slot (m : Mach) (uk : Option Nat) (p : Nat) : Nat :=
  match uk with
  | none => p
  | some k => slotOf (eRot (m.map.ents.get k)) (m.map.rots.get k).acked p

/-- The slot that a command goes to when it is issued: a rotation move writes the slot that the move leads to (R212, R214), and the
destination of a migration has no rotation (R216). -/
def Mach.slotFor (m : Mach) (q : LineReq) : Nat :=
  match q.job with
  | .migWr _ _ => q.md.pos
  | .rotWr uk _ => slotOf (eRot (m.map.ents.get uk)) ((m.map.rots.get uk).acked + 1) q.md.pos
  | _ => m.slot q.md.uk q.md.pos

/-- The slot from which the move after `j` acknowledged moves copies (R212). -/
def moveSource (j : Nat) : Nat := if j = 4096 then 4096 else 4095 - j

/-- The move of a unit that is in flight carries line position `p`: a program of that line waits (R214). -/
def Mach.moving (m : Mach) (uk p : Nat) : Bool :=
  let r := m.map.rots.get uk
  r.stage = 2 && slotOf (eRot (m.map.ents.get uk)) r.acked p = moveSource r.acked

/-! ### Programs of logical lines (R127, R184, R186, R219) -/

/-- A program of a line copy on this channel is omitted: the channel is lost or read-only (R127, R219). -/
def Mach.omits (m : Mach) (c : Nat) : Bool := m.chanLost c || m.chanRO c

/-- REBUILD is set for an omitted copy on channel `c` (R182). -/
def Mach.setRebuild (m : Mach) (uk c : Nat) : Mach :=
  let e := m.ent uk
  if eKind e < 2 || staleChan e = some c then m else (m.setEnt uk (eRebuild e c)).2

/-- A program that would omit a line on another channel of a unit that carries REBUILD waits (R182); so does one that would set REBUILD
while the delta log is full (R195). -/
def Mach.rebuildWaits (m : Mach) (uk : Nat) (cs : List Nat) : Bool :=
  match staleChan (m.ent uk) with
  | none => (cs.filter m.omits).length > 1 || (m.deltaFull && cs.any m.omits)
  | some s => cs.any fun c => m.omits c && c ≠ s

/-- A program of a MIRROR or PARITY unit on a channel is omitted now; where the unit's REBUILD names another channel it is queued, and
waits there (R127, R182, R219). -/
def Mach.omitsFor (m : Mach) (uk c : Nat) : Bool :=
  m.omits c && 2 ≤ eKind (m.ent uk) && !m.rebuildWaits uk [c]

end Sys2Proof.Machine
end

