-- ==== Sys2Proof/Machine/Trim.lean ====
section
/-! DEFINITION. Trim sets: the record, interpolation, application, eye scans (chapter "Link trim sets and eye statistics", R349 to
R361). -/
namespace Sys2Proof.Machine

/-- The fields of a trim set: word, lowest bit, width (R349). CTLE, at [45:40] of word 0, is unsigned. -/
def trimFields : List (Nat × Nat × Nat) :=
  [(0, 0, 8), (0, 8, 8), (0, 16, 8), (0, 24, 8), (0, 32, 8), (0, 40, 6), (0, 48, 8), (1, 0, 8), (1, 8, 8), (1, 16, 8),
   (1, 24, 8), (1, 32, 8), (1, 40, 8), (1, 48, 8), (1, 56, 8), (2, 0, 8), (2, 8, 8), (2, 16, 8), (2, 24, 8), (2, 32, 8),
   (2, 40, 8), (2, 48, 8)]

/-- The bits of word `k` of a set that it lists; all others are zero (R349). -/
def trimMask (k : Nat) : Nat :=
  match k with
  | 0 => 2 ^ 46 - 1 + (2 ^ 56 - 2 ^ 48)
  | 1 => 2 ^ 64 - 1
  | 2 => 2 ^ 56 - 1
  | _ => 2 ^ 16 - 1

/-- A field of a set as a number. -/
def trimVal (f : Nat × Nat × Nat) (ws : List Nat) : Int :=
  let v := bits (ws.getD f.1 0) f.2.1 f.2.2
  if f.2.2 = 6 then v else sx f.2.2 v

/-- A set with field `f` replaced. -/
def trimSet (f : Nat × Nat × Nat) (ws : List Nat) (v : Int) : List Nat :=
  ws.modify f.1 fun w => setBits w f.2.1 f.2.2 (toField f.2.2 v)

/-- Quotient rounded to the nearest, halves away from zero (R354). -/
def roundDiv (n : Int) (d : Nat) : Int :=
  let q : Int := (2 * n.natAbs + d) / (2 * d)
  if n < 0 then -q else q

/-- The four words of set `i` of a record (R351). -/
def recSet (r : Tab Line) (i : Nat) : List Nat :=
  (List.range 4).map fun k => (Line.word (r.get (1 + i / 8)) (4 * (i % 8) + k)).toNat &&& trimMask k

/-- The set number of a rate, point, channel and lane (R351). -/
def setIndex (rate point chan lane : Nat) : Nat := ((rate * 3 + point) * 32 + chan) * 4 + lane

/-- Capture temperature of a point in a record's header (R351). -/
def recTemp (r : Tab Line) (p : Nat) : Int := sx 8 (bits (Line.word (r.get 0) 3).toNat (8 * p) 8)

/-- Bytes of lines `k` to `k + n - 1` of an image as one number. -/
def imageBytes (r : Tab Line) (k n : Nat) : Nat :=
  (List.range n).foldr (fun i a => (r.get (k + i)).toNat + 2 ^ 2048 * a) 0

/-- A trim record is valid (R351). -/
def recValid (r : Tab Line) : Bool :=
  let h := r.get 0
  bits (Line.word h 0).toNat 0 32 = 0x7A1B3E0D && bits (Line.word h 0).toNat 32 8 = 1 &&
    recTemp r 0 + 20 ≤ recTemp r 1 && recTemp r 1 + 20 ≤ recTemp r 2 &&
    bits (Line.word h 4).toNat 0 32 = crc32c (256 * 96) (imageBytes r 1 96)

/-- A channel has a valid set at a rate (R350, R351); TRICKLE's is built in. -/
def Mach.trimHas (m : Mach) (c rate : Nat) : Bool :=
  2 ≤ rate || (m.flag ZML.TRIM_REC_VALID && bitAt (Line.word (m.trim.rec_.get 0) 2).toNat c)

/-- The set of a lane at a rate and temperature (R354). -/
def Mach.trimFor (m : Mach) (c rate lane : Nat) (t : Int) : List Nat :=
  if 2 ≤ rate then (List.range 4).map fun w => (Config.builtinTrim (4 * lane + w)).toNat &&& trimMask w
  else
    let r := m.trim.rec_
    let s (p : Nat) : List Nat := recSet r (setIndex rate p c lane)
    let t0 := recTemp r 0
    let t1 := recTemp r 1
    let t2 := recTemp r 2
    if t ≤ t0 then s 0 else if t2 ≤ t then s 2
    else
      let lo := if t < t1 then 0 else 1
      let (tl, th) := if t < t1 then (t0, t1) else (t1, t2)
      trimFields.foldl (fun ws f =>
        let a := trimVal f (s lo)
        let b := trimVal f (s (lo + 1))
        trimSet f ws (a + roundDiv ((b - a) * (t - tl)) (th - tl).toNat)) (s lo)

/-- Change the trim engine's state. -/
def Mach.modTrim (m : Mach) (f : TrimSt → TrimSt) : Mach := { m with trim := f m.trim }

/-- The set in use on a lane. -/
def Mach.trimNow (m : Mach) (c lane : Nat) : List Nat := (List.range 4).map fun w => m.trim.now.get (16 * c + 4 * lane + w)
/-- Make a set the one in use on a lane. -/
def Mach.setTrimNow (m : Mach) (c lane : Nat) (ws : List Nat) : Mach :=
  m.modTrim fun t => { t with now := (List.range 4).foldl (fun n w => n.set (16 * c + 4 * lane + w) (ws.getD w 0)) t.now }

/-- The quad temperature of a channel, and the one its set was computed for (R354). -/
def Mach.quadTemp (m : Mach) (c : Nat) : Int := sx 8 (m.get ZML.TRIM_TEMP_T c)
def Mach.trimApplied (m : Mach) (c : Nat) : Int := sx 8 (m.get ZML.TRIM_TEMP_APPLIED c)

/-- DUE of an ACTIVE channel: asked for, moved by 4 °C, or on an intermediate set (R355, R356). -/
def Mach.judgeDue (m : Mach) (c : Nat) : Mach :=
  if m.link c = 4 then
    m.setFlag ZML.TRIM_DUE c (m.trim.asked.get c || m.trim.rest.get c || 4 ≤ (m.quadTemp c - m.trimApplied c).natAbs)
  else m

/-- A training loads the set for the rate and the temperature at that moment (R355). -/
def Mach.loadTrim (m : Mach) (c rate : Nat) : Mach :=
  let t := m.quadTemp c
  let m1 := (List.range 4).foldl (fun m l => m.setTrimNow c l (m.trimFor c rate l t)) m
  (((m1.put ZML.TRIM_TEMP_APPLIED c (toField 8 t)).put ZML.TRIM_SOURCE c (if 2 ≤ rate then 0 else 1)).setFlag ZML.TRIM_DUE c
    false).modTrim fun s => { s with asked := s.asked.erase c, rest := s.rest.erase c }

/-- TRIM_TEMP_SAMPLE (R354, R355): the temperature of a quad, for its four channels. -/
def trimTempSample (quad temp : Nat) (m : Mach) : Mach :=
  if !m.running then m
  else (List.range 4).foldl (fun m k => (m.put ZML.TRIM_TEMP_T (4 * quad + k) temp).judgeDue (4 * quad + k)) m

/-- TRIM_APPLY_CMD (R355). -/
def trimApplyCmd (c : Nat) (m : Mach) : Mach := (m.modTrim fun t => { t with asked := t.asked.set c true }).judgeDue c

/-- One field's step of at most 100 codes towards its new value (R356). -/
def trimStep (old new : Int) : Int := if new < old then max new (old - 100) else min new (old + 100)

/-- An application of the channel is under way: it is out of service (R127, R356). -/
def Mach.applying (m : Mach) (c : Nat) : Bool := m.trim.apps.get c ≠ 0

/-- The channel takes commands: it is ACTIVE, and no application holds it (R127, R356). -/
def Mach.linkServes (m : Mach) (c : Nat) : Bool := m.link c = 4 && !m.applying c

/-- No application of the channel's group, or of the channel paired with it, is under way (R357). -/
def Mach.applyFree (m : Mach) (c : Nat) : Bool := m.trim.apps.all fun p => p.1 / 16 ≠ c / 16 && p.1 % 16 ≠ c % 16

/-- Step 1 of an application (R356): the channel leaves service, and the set for the present temperature is computed. -/
def Mach.trimBegin (m : Mach) (c : Nat) : Mach :=
  let t := m.quadTemp c
  let sets (g : Tab (List Nat)) : Tab (List Nat) :=
    (List.range 4).foldl (fun g l => g.set (4 * c + l) (m.trimFor c (m.get ZML.LINK_RATE c) l t)) g
  (m.modTrim fun s => { s with
    apps := s.apps.set c (m.now + 1), appT := s.appT.set c t, goals := sets s.goals, owed := s.owed.erase c }).setFlag
    ZML.TRIM_APPLYING c true

/-- No application of the channel is under way any more. -/
def Mach.trimOver (m : Mach) (c : Nat) : Mach :=
  ((m.modTrim fun s => { s with
    apps := s.apps.erase c, appT := s.appT.erase c,
    goals := (List.range 4).foldl (fun g l => g.erase (4 * c + l)) s.goals }).setFlag ZML.TRIM_APPLYING c false).unitsEnded m 3

/-- Steps 2 and 3 of an application: every field has moved towards the set of step 1. T_applied is set once all of them have reached it;
else the channel stays DUE (R356). -/
def Mach.trimApply (m : Mach) (c : Nat) : Mach :=
  let t := m.trim.appT.get c
  let goal (l : Nat) : List Nat := m.trim.goals.get (4 * c + l)
  let next (l : Nat) : List Nat :=
    trimFields.foldl (fun ws f => trimSet f ws (trimStep (trimVal f (m.trimNow c l)) (trimVal f (goal l)))) (goal l)
  let whole := (List.range 4).all fun l => next l == goal l
  let m1 := (List.range 4).foldl (fun m' l => m'.setTrimNow c l (next l)) m
  let m2 := ((m1.event .zml c ZML.EV_TRIM_APPLIED).count ZML.CNT_TRIM_APPLY c).trimOver c
  (if whole then
    (m2.put ZML.TRIM_TEMP_APPLIED c (toField 8 t)).modTrim fun s => { s with asked := s.asked.erase c, rest := s.rest.erase c }
  else m2.modTrim fun s => { s with rest := s.rest.set c true }).judgeDue c

/-- A recomputation in flight needs the channel while a channel of its group is lost (R357). -/
def Mach.recomputing (m : Mach) (c : Nat) : Bool :=
  ((List.range 16).any fun k => m.chanLost (16 * (c / 16) + k)) &&
    m.err.ladders.any fun l => 0 < l.wait && l.chan / 16 = c / 16

/-- An application of the channel may begin: it is ACTIVE with a set for its rate, and neither another application nor a recomputation
stands in the way (R351, R357). -/
def Mach.applyCan (m : Mach) (c : Nat) : Bool :=
  m.linkServes c && m.maint && m.trimHas c (m.get ZML.LINK_RATE c) && m.applyFree c && !m.recomputing c

/-- A floor application is owed: inside a window it begins as any other; outside one, at most one in each 10 ms (R357). -/
def Mach.floorApply (m : Mach) (c : Nat) : Mach :=
  let at_ := m.trim.floorAt.get c
  if !m.applyCan c then m
  else if bitAt (m.get ALM.WIN_MASK) 3 then m.trimBegin c
  else if at_ = 0 || at_ + msec 10 ≤ m.now + 1 then
    ((m.trimBegin c).count ZML.CNT_TRIM_FLOOR c).modTrim fun t => { t with floorAt := t.floorAt.set c (m.now + 1) }
  else m

/-- The inside positions of an eye whose disagreements at successive positions are `l` (R359). -/
def eyeInside (mismatch : Nat) (l : List Nat) : Nat := min 255 (l.filter (· ≤ mismatch)).length

/-- The smallest of the eyes' figures, and the lowest eye that has it; 0 where no eye was scanned (R359). -/
def eyeWorst (l : List Nat) : Nat × Nat := match l with | [] => (0, 0) | x :: t => let v := t.foldl min x; (v, (x :: t).findIdx (· = v))

/-- The scan of a lane (R359), and the floor (R357): of each eye, three for PAM4 and one for NRZ, the symbols in which the monitor disagreed
at the successive positions of phase and threshold. A lane is scanned once in every EYE_CTL.PERIOD. A channel that falls below its floor
owes an application, which a later scan brings where this one cannot; one that stays below it behind that application waits for its next
due set. Without codeword lock there is no scan. -/
def eyeScan (c lane : Nat) (widths heights : List (List Nat)) (m : Mach) : Mach :=
  let key := 4 * c + lane
  let at_ := m.trim.scanAt.get key
  if !m.running || !bitAt (m.get ZML.LINK_RX_LANES c) lane || !(m.zml.get c).locked ||
      !(at_ = 0 || at_ + msec (m.get ZML.EYE_PERIOD) ≤ m.now + 1) then m
  else
    let eyes (l : List (List Nat)) : Nat × Nat :=
      eyeWorst ((l.take (if m.get ZML.LINK_RATE c = 2 then 1 else 3)).map (eyeInside (m.get ZML.EYE_MISMATCH)))
    let w := (eyes widths).1
    let h := eyes heights
    let low := w < m.get ZML.FLOOR_WIDTH c || h.1 < m.get ZML.FLOOR_HEIGHT c
    let old := m.trim.eyes.get key
    let n := if low then old.below + 1 else 0
    let m1 := m.modTrim fun t => { t with
      eyes := t.eyes.set key ⟨w, h.1, h.2, old.errs, n⟩, scanAt := t.scanAt.set key (m.now + 1) }
    let lanes := (List.range 4).filter fun l => bitAt (m.get ZML.LINK_RX_LANES c) l
    let min' (f : Eye → Nat) : Nat := lanes.foldl (fun a l => min a (f (m1.trim.eyes.get (4 * c + l)))) 255
    let m2 := (m1.put ZML.EYE_MIN_WIDTH c (min' (·.width))).put ZML.EYE_MIN_HEIGHT c (min' (·.height))
    let any := m.link c = 4 && lanes.any fun l => 2 ≤ (m2.trim.eyes.get (4 * c + l)).below
    let fell := any && !m.flag ZML.TRIM_BELOW c
    let m3 := (m2.setFlag ZML.TRIM_BELOW c any).modTrim fun t => { t with owed := t.owed.set c (any && (fell || t.owed.get c)) }
    let m4 := if fell then m3.event .zml c ZML.EV_BELOW_FLOOR else m3
    if any && (m3.trim.owed.get c || m.flag ZML.TRIM_DUE c) then m4.floorApply c else m4

def execTrimTempSample (quad : BitVec 3) (temp : BitVec 8) (s : State) := answer s (trimTempSample quad.toNat temp.toNat)
def execTrimApplyCmd (a : BitVec 3) (c : BitVec 5) (s : State) :=
  answer s fun m => m.viaCfg a.toNat .zml c.toNat 0x218 1 (trimApplyCmd c.toNat)
def execEyeScan (c : BitVec 5) (lane : BitVec 2) (widths heights : List (List (BitVec 17))) (s : State) :=
  answer s (eyeScan c.toNat lane.toNat (widths.map (·.map (·.toNat))) (heights.map (·.map (·.toNat))))

end Sys2Proof.Machine
end

