-- ==== Sys2Proof/Machine/Zml.lean ====
section
/-! DEFINITION. The media link: flits, sequence, replay, credits, commands in flight, sideband, link states and training (chapter
"Zilold Media Link and the hub contract", R317 to R348). What an answer means for the command that it answers stands in
Media.lean. -/
namespace Sys2Proof.Machine

/-- The state of link `c`. -/
def Mach.zs (m : Mach) (c : Nat) : ZmlSt := m.zml.get c
/-- Change the state of link `c`. -/
def Mach.modZml (m : Mach) (c : Nat) (f : ZmlSt → ZmlSt) : Mach := { m with zml := m.zml.upd c f }

/-- OUTSTANDING counts the commands without a response (R347). -/
def Mach.showOut (m : Mach) (c : Nat) : Mach :=
  let o := (m.zs c).outs
  (m.put ZML.OUTSTANDING_ALL c o.length).put ZML.OUTSTANDING_WR c (o.filter fun x => x.req.md.op = opWriteLine).length

/-! ### Tags and messages (R221, R236, R237, R327) -/

/-- The media address word (R237). -/
def mediaAddr (c : Nat) (md : Media) : Nat :=
  if md.area = 0 then c + md.seg * 2 ^ 5 + md.pos * 2 ^ 32 else c + md.pos * 2 ^ 32 + md.area * 2 ^ 60

/-- The tag field without its CRC (R221). -/
def tagBase (gen birth : Nat) : Nat := gen % 256 * 2 ^ 32 + birth % 2 ^ 24 * 2 ^ 40

/-- The CRC of a media line over its data, address word and tag field (R236). -/
def mediaCrc (d : Line) (addr tag : Nat) : Nat := crc32c 272 (d.toNat + addr * 2 ^ 2048 + tag * 2 ^ 2112)

/-- The tag field of a line to be programmed (R221, R236). -/
def mediaTag (c : Nat) (md : Media) (birth : Nat) : Nat :=
  let b := tagBase md.gen birth
  b + Nat.xor (mediaCrc md.data (mediaAddr c md) b) (markX md.mark)

/-- The class of a media line as read (R240). -/
def mediaClass (c : Nat) (md : Media) (d : Line) (tag : Nat) : Nat :=
  let k := mediaCrc d (mediaAddr c md) (tag / 2 ^ 32 * 2 ^ 32)
  let x := Nat.xor k (tag % 2 ^ 32)
  if x = 0 then 0 else if x = blankXor then 1 else if x = poisonXor then 2 else 3

/-- The virtual channel, bytes and value of a command's message (R326, R327); a data message carries `d` and `tag`. -/
def message (md : Media) (ctag : Nat) (d : Line) (tag w1 w2 : Nat) : Nat × Nat × Nat :=
  let h := md.op + ctag * 2 ^ 4
  let body := d.toNat * 2 ^ 64 + tag * 2 ^ 2112
  if md.op = opReadLine then (0, 8, h + md.oset * 2 ^ 16 + md.seg * 2 ^ 24 + md.slot * 2 ^ 51)
  else if md.op = opReadLines then (0, 16, h + md.oset * 2 ^ 16 + md.seg * 2 ^ 24 + md.slot * 2 ^ 51 + md.nlines * 2 ^ 64)
  else if md.op = opWriteLine then
    (1, 272, (if md.area = 0 then h + md.seg * 2 ^ 24 + md.slot * 2 ^ 51 else h + 2 ^ 16 + md.pos * 2 ^ 24) + body)
  else if md.op = opFormat then (0, 16, h + md.seg * 2 ^ 24 + w1 * 2 ^ 64)
  else if md.op = opCanaryRead then (0, 8, h + md.pos * 2 ^ 16 + md.gen * 2 ^ 19 + md.oset * 2 ^ 24)
  else if md.op = opHubInfo || md.op = opDriftTable then (0, 8, h + md.pos * 2 ^ 16)
  else if md.op = opSealWrite then (1, 272, h + md.pos * 2 ^ 16 + body)
  else if md.op = opSealRead then (0, 8, h + md.pos * 2 ^ 16 + md.oset * 2 ^ 24)
  else if md.op = opTimeMark then (0, 24, h + w1 * 2 ^ 64 + w2 * 2 ^ 128)
  else (0, 8, h)

/-! ### Sending (R321 to R325) -/

/-- The message of a codeword: its header, with SYNC, CW_COUNT `n` and the width code, then its five flits (R318). -/
def codeword (width n : Nat) (flits : List Nat) : Nat :=
  0x1B5 + n % 256 * 2 ^ 10 + width % 4 * 2 ^ 18 + 2 ^ 20 * flits.foldr (fun f a => f % 2 ^ 1024 + 2 ^ 1024 * a) 0

/-- A flit goes to the lanes; the fifth makes a codeword of those that wait (R318). -/
def Mach.putFlit (m : Mach) (c flit : Nat) : Mach :=
  m.modZml c fun z =>
    let q := z.txq ++ [flit]
    let z1 : ZmlSt := { z with sent := z.sent + 1, sinceNull := z.sinceNull + 1 }
    if q.length < 5 then { z1 with txq := q }
    else { z1 with txq := [], cwTx := (z.cwTx + 1) % 256, cwOut := codeword z.width z.cwTx q }

/-- The header of a new flit (R321): it reports the last accepted SEQ, a NAK that is due, and the flits freed of the virtual channel whose
turn it is (R323, R325). -/
def ZmlSt.head (z : ZmlSt) (vc seq first : Nat) : Nat :=
  let cr := 2 + z.sent % 3
  vc + seq * 2 ^ 4 + (z.rxSeq + 4095) % 4096 * 2 ^ 16 + 2 ^ 28 + b2n z.nakDue * 2 ^ 29 + cr * 2 ^ 31 + z.freed.get cr % 256 * 2 ^ 34 +
    first * 2 ^ 42

/-- A flit's bytes: header and payload, and the CRC over both (R321). -/
def flitOf (body : Nat) : Nat := body + crc64 120 body * 2 ^ 960

/-- A NULL flit leaves: no payload, not sequenced, with ACK, a due NAK and a credit report (R320, R321). -/
def Mach.sendNull (m : Mach) (c : Nat) : Mach :=
  (m.putFlit c (flitOf ((m.zs c).head 7 0 127))).modZml c fun z => { z with sinceNull := 0, nakDue := false }

/-- After 127 other flits a NULL flit leaves (R320). -/
def Mach.nullDue (m : Mach) (c : Nat) : Mach := if 127 ≤ (m.zs c).sinceNull then m.sendNull c else m

/-- The next flit of a virtual channel from its stream: `n` stream bytes are used and the rest is PAD (R321, R322). -/
def Mach.emitFlit (m : Mach) (c vc n : Nat) : Mach :=
  let z := m.zs c
  let s := z.tx.get vc
  let first := (s.starts.head?.filter (· < 112)).getD (if n < 112 then n else 127)
  let flit := flitOf (z.head vc z.txSeq first + s.val % 2 ^ (8 * n) * 2 ^ 64)
  let s' : VcTx := ⟨s.len - n, s.val / 2 ^ (8 * n), (s.starts.filter (n ≤ ·)).map (· - n)⟩
  (((m.putFlit c flit).modZml c fun z => { z with
    tx := z.tx.set vc s', held := z.held ++ [⟨z.txSeq, flit⟩], txSeq := (z.txSeq + 1) % 4096, nakDue := false,
    credit := z.credit.upd vc (· - 1), ackAt := if z.held.isEmpty then m.now else z.ackAt }).count ZML.CNT_FLITS_TX c).nullDue c

/-- A flit of a virtual channel may be sent: a credit is held and the replay buffer of 1024 flits has room (R324, R325). -/
def Mach.maySend (m : Mach) (c vc : Nat) : Bool :=
  let z := m.zs c
  0 < z.credit.get vc && z.held.length < 1024

/-- Send the whole flits that a virtual channel's stream holds, at most `fuel`. -/
def Mach.drainVc (m : Mach) (c vc : Nat) : Nat → Mach
  | 0 => m
  | f + 1 => if 112 ≤ ((m.zs c).tx.get vc).len && m.maySend c vc then (m.emitFlit c vc 112).drainVc c vc f else m

/-- Send what every virtual channel holds in whole flits. -/
def Mach.drain (m : Mach) (c : Nat) : Mach :=
  [0, 1, 4].foldl (fun (m : Mach) vc => m.drainVc c vc (((m.zs c).tx.get vc).len / 112)) m

/-- Append a message to the stream of a virtual channel (R322). -/
def Mach.send (m : Mach) (c vc n v : Nat) : Mach :=
  let m1 := m.modZml c fun z => { z with
    tx := z.tx.upd vc (fun s => ⟨s.len + n, s.val + v * 2 ^ (8 * s.len), s.starts ++ [s.len]⟩), queued := z.queued.upd vc (· + n) }
  m1.drainVc c vc (((m1.zs c).tx.get vc).len / 112)

/-- PAD_FLIT_TIMEOUT (R322): a partly filled flit is ended with PAD and sent. -/
def padFlit (c vc : Nat) (m : Mach) : Mach :=
  let s := (m.zs c).tx.get vc
  if 3 ≤ m.link c && m.link c ≤ 5 && 0 < s.len && s.len < 112 && m.maySend c vc then m.emitFlit c vc s.len else m

/-- Commands that need a grant leave sixteen CTAGs to those that need none, so that a free one is always found. DESIGN CHOICE, log entry 73:
the spec gives the CTAGs no shares (R327). -/
def ZmlSt.tagRoom (z : ZmlSt) : Bool := z.outs.length < 4080

/-- A CTAG that no outstanding command holds (R327). -/
def ZmlSt.freeTag (z : ZmlSt) : Nat :=
  ((List.range 4096).map fun k => (z.ctag + k) % 4096).find? (fun t => !(z.outs.any fun o => o.ctag = t)) |>.getD z.ctag

/-- Put a command's message on the link (R327), counting its programs (R208); an armed media flip mask corrupts a qualifying
write, once its tag has been computed (R256). -/
def Mach.transmit (m : Mach) (c : Nat) (md : Media) (ctag birth : Nat) : Mach :=
  let wr := md.op = opWriteLine || md.op = opSealWrite
  let tag := if wr then mediaTag c md birth else 0
  let flip := wr && m.flag ERR.FLIP_M_ARM && m.get ERR.FLIP_M_READS = 0 &&
    (!m.flag ERR.FLIP_M_MATCH || (md.line = some (m.get ERR.FLIP_MATCH) && !md.par))
  let mask := m.get ERR.FLIP_MASK_M
  let t := m.get ERR.FLIP_M_TARGET
  let d := if flip && t < 32 then md.data ^^^ (BitVec.ofNat 2048 mask <<< (64 * t)) else md.data
  let tag' := if flip && t = 32 then Nat.xor tag mask else tag
  let w1 := if md.op = opTimeMark then m.get ALM.TB_NOW else birth % 2 ^ 24
  let g := message md ctag d tag' w1 (m.get MAP.AGE_NOW)
  let m1 := (m.send c g.1 g.2.1 g.2.2).modZml c fun z => { z with
    outs := z.outs.map fun o => if o.ctag = ctag then { o with endAt := z.queued.get g.1 } else o }
  let m2 := if flip then (m1.setFlag ERR.FLIP_M_ARM 0 false).event .err 0 ERR.EV_FLIP_DONE_M else m1
  if md.op = opWriteLine && md.area = 0 then m2.countPrograms c md.seg 1
  else if md.op = opFormat then m2.countPrograms c md.seg 4097 else m2

/-- Send a command: it takes a CTAG, its slot by the rotation of R214 and its BIRTH, and is outstanding until its response. -/
def Mach.issue (m : Mach) (c : Nat) (q : LineReq) : Mach :=
  let z := m.zs c
  let birth := q.md.birth.getD (m.get MAP.AGE_NOW % 2 ^ 24)
  let md := m.atIssue c { q.md with slot := if q.md.area = 0 then m.slotFor q else 0, birth := some birth }
  let tag := z.freeTag
  let o : Outst := ⟨{ q with md := md, restart := false }, tag, m.now, z.order, none, 0, max 1 md.nlines, false, 0⟩
  ((m.modZml c fun z => { z with outs := z.outs ++ [o], ctag := (tag + 1) % 4096, order := z.order + 1 }).transmit c md tag
    birth).showOut c

/-- Programs that a command counts against its segment (R208). -/
def Media.programs (md : Media) : Nat := if md.op = opFormat then 4097 else if md.op = opWriteLine && md.area = 0 then 1 else 0

/-- A program is sent again: it stands at the head of its requester's queue, and goes out by a grant as any other (R329, R390). Its BIRTH is
that of its new issue, except a move's or copy's, which keeps its source's (R221). -/
def Mach.sendAgain (m : Mach) (c : Nat) (q : LineReq) : Mach :=
  let moves := match q.job with | .rotWr _ _ => true | .migWr _ _ => true | _ => false
  let k := 32 * dirKey (tgtMedia c) false + q.rq
  let q1 := { q with wait := 0, md := { q.md with birth := if moves then q.md.birth else none } }
  { m with sc := { m.sc with queues := m.sc.queues.upd k fun l => q1 :: l } }

/-- Send a command that carries no line and needs no grant (R390). -/
def Mach.sendCmd (m : Mach) (c op pos gen seg : Nat) (job : Job) (area : Nat := 0) : Mach :=
  m.issue c { (default : LineReq) with
    id := m.serial, md := { (default : Media) with op := op, pos := pos, gen := gen, seg := seg, area := area }, job := job }

/-- The commands outstanding at a hub, and those granted for its next slots. -/
def Mach.onHub (m : Mach) (c : Nat) : List LineReq :=
  (m.zs c).outs.map (·.req) ++ [false, true].filterMap fun rx => m.rota.next.get (dirKey (tgtMedia c) rx)

/-- A command on a segment is outstanding: no FORMAT_SEGMENT is sent for it (R330). -/
def Mach.segBusy (m : Mach) (c s : Nat) : Bool := (m.onHub c).any fun q => q.md.area = 0 && q.md.seg = s

/-- The canaries of a channel whose statistics are due are asked for, each once the channel takes commands and none is outstanding on it
(R230, R330). -/
def Mach.canaryGo (m : Mach) (c : Nat) : Mach :=
  let ready (x : Nat × Nat) : Bool := x.1 = c && !(m.onHub c).any fun q => q.md.area = 1 && q.md.pos = x.2
  if !m.linkServes c then m
  else (m.map.canDue.filter ready).foldl (fun (m : Mach) x => m.sendCmd c opCanaryRead x.2 1 0 (.canaryRd x.2) 1)
    (m.modMap fun s => { s with canDue := s.canDue.filter fun x => !ready x })

/-! ### Link states (R341) -/

/-- b_seq in MB/s (R320): 614,400 Mb/s of lanes × 640 / 5440 × 127 / 128 at FULL with four lanes, halved by each step of rate and
width; no more than the hub's programs in flight allow (R346). -/
def bSeq (rate width programs : Nat) : Nat :=
  let b := 614400 * 640 * 127 / (5440 * 128 * 2 ^ (rate + width))
  if programs < 3072 then min b (programs * 2176 / 84) else b

/-- What DEGRADED keeps of a channel (R441): LOST until it is ACTIVE again; fewer than four lanes, and a rate below FULL, as it was last
ACTIVE. -/
def Mach.linkFault (m : Mach) (c st : Nat) : Mach :=
  let p := m.power
  if st = 6 then { m with power := { p with lostCh := setBits p.lostCh c 1 1 } }
  else if st = 4 then { m with power := { p with
    lostCh := setBits p.lostCh c 1 0, lanesCh := setBits p.lanesCh c 1 (b2n (m.get ZML.LINK_WIDTH c != 0)),
    rateCh := setBits p.rateCh c 1 (b2n (m.get ZML.LINK_RATE c != 0)) } }
  else m

/-- An enabled channel is on its way to ACTIVE: in DETECT, RESET, TRAIN or QUIESCE, or about to train once its application is over. -/
def Mach.linksBusy (m : Mach) : Bool := (List.range 32).any fun c =>
  let st := m.get ZML.LINK_STATE c
  m.flag ZML.CTL_ENABLE c && (st = 1 || st = 2 || st = 3 || st = 5 || m.trim.after.get c = 5)

/-- ML_RESET.BUSY clears once every channel has left TRAIN (R438). -/
def Mach.mlSettle (m : Mach) : Mach :=
  if m.flag GLOBAL.ML_BUSY && !m.linksBusy then m.setFlag GLOBAL.ML_BUSY 0 false else m

/-- CMD_STAT takes a result: 0 DONE, 1 ALREADY_DONE, 2 REFUSED, 3 BUSY (R348). -/
def Mach.cmdStat (m : Mach) (c r : Nat) : Mach := m.put ZML.CMD_STAT c r

/-- A channel that leaves ACTIVE abandons its application; a command that waited for its end finds the channel outside ACTIVE (R348, R358). -/
def Mach.abandon (m : Mach) (c : Nat) : Mach :=
  let k := m.trim.after.get c
  let m1 := if m.applying c then m.trimOver c else m
  if k = 0 then m1
  else
    let m2 := m1.modTrim fun t => { t with after := t.after.erase c }
    if 4 ≤ k then m2 else m2.cmdStat c 2

/-- Enter a link state; CAPABILITY is 0 outside ACTIVE. -/
def Mach.setLink (m00 : Mach) (c st : Nat) : Mach :=
  let m0 := if st = 4 then m00 else m00.abandon c
  let m := m0.linkFault c st
  Mach.mlSettle <| ((m.put ZML.LINK_STATE c st).put ZML.CAPABILITY c
    (if st = 4 then bSeq (m.get ZML.LINK_RATE c) (m.get ZML.LINK_WIDTH c) (m.get ZML.HUB_PROGRAMS c) else 0)).modZml c fun z =>
      { z with stateAt := m.now }

/-- What a link loses with its lanes: streams, sequence, credits and unread flits; outstanding commands stay (R323, R343). -/
def ZmlSt.clearLink (z : ZmlSt) : ZmlSt :=
  { z with locked := false, cwNext := 0, cwRun := 0, badRun := 0, rxq := [], rxSeq := 0, nakAt := none, nakDue := false, rx := [],
           rxStarted := [], inbox := [], freed := [], txSeq := 0, tx := [], queued := [], txq := [], sinceNull := 0, sent := 0, cwTx := 0,
           held := [], replays := 0, credit := [], lastCr := [], holdSent := false, holdEvAt := none, laneRuns := [], preErr := [],
           outs := z.outs.map fun o => { o with endAt := 0 } }

/-- The segments of a lost channel that were being formatted are FREE, to be tried again after the others (R194). -/
def Mach.endFormats (m : Mach) (c : Nat) : Mach := (m.segsIn c .formatting).foldl (fun m s => m.setSeg c s .formatFailed) m

/-- The channel is LOST, with a reason (R341). -/
def Mach.lose (m : Mach) (c reason : Nat) : Mach :=
  ((((m.setLink c 6).put ZML.LINK_LOST_REASON c reason).event .zml c ZML.EV_LOST).modZml c ZmlSt.clearLink).endFormats c

/-- The rate at which a training aims: TRICKLE in bring-up until the trim record is usable, else CTL.RATE_CAP, and no rate for
which the channel has no set (R342, R350). -/
def Mach.aimRate (m : Mach) (c : Nat) : Nat :=
  let cap := m.get ZML.CTL_RATE_CAP c
  if m.trimHas c (max cap 0) then cap else 2

/-- The rate of the next training: no higher than the fallbacks have left it (R342). -/
def Mach.nextRate (m : Mach) (c : Nat) : Nat := max (m.aimRate c) (m.zs c).fall

/-- Enter TRAIN at a rate and width, the attempts of this training at none (R342). -/
def Mach.toTrain (m : Mach) (c rate width : Nat) (unplanned : Bool) : Mach :=
  let m1 := (((m.setLink c 3).put ZML.LINK_RATE c rate).put ZML.LINK_WIDTH c width).put ZML.LINK_ATTEMPTS c 0
  m1.modZml c fun z => { z.clearLink with
    rate := rate, width := width, fails := 0, unplanned := z.unplanned || unplanned, lanes := 0 }

/-- An unplanned training from ACTIVE; RATE_CAP takes effect at it (R341, R348). -/
def Mach.linkDown (m : Mach) (c : Nat) : Mach :=
  if m.link c = 4 then
    ((m.event .zml c ZML.EV_LINK_DOWN).count ZML.CNT_LINK_DOWN c).toTrain c (m.nextRate c) (m.get ZML.LINK_WIDTH c) true
  else m

/-- A protocol error (R344). -/
def Mach.protocol (m : Mach) (c : Nat) : Mach := (m.event .zml c ZML.EV_PROTOCOL).linkDown c

/-- Enter RESET: RST frames begin (R339, R341). -/
def Mach.toReset (m : Mach) (c : Nat) : Mach :=
  (m.setLink c 2).modZml c fun z => { z.clearLink with rst := 0, unplanned := true, resetGiven := false }

/-- Enter QUIESCE (R341). -/
def Mach.toQuiesce (m : Mach) (c : Nat) (reset off : Bool) : Mach :=
  (m.setLink c 5).modZml c fun z => { z with resetGiven := reset, quiesceOff := off, holdSent := false }

/-- Leave QUIESCE: OFF for a power mode, else RESET when a RESET_HUB was given, else TRAIN (R341). -/
def Mach.quiesced (m : Mach) (c : Nat) (timeout : Bool) : Mach :=
  let z := m.zs c
  if z.quiesceOff && !timeout then (m.setLink c 0).modZml c fun z => { z.clearLink with quiesceOff := false, unplanned := false }
  else if z.resetGiven then m.toReset c
  else m.toTrain c (m.nextRate c) z.width timeout

/-- The hub's HOLD flag as STATUS or the sideband reports it: reported while ACTIVE and not commanded it sets EVENT.HUB_HOLD, and
the Core sends RELEASE (R348). While a HOLD or a RELEASE has no answer the hub's HOLD is the commanded one. -/
def Mach.hubHold (m : Mach) (c : Nat) (h : Bool) : Mach :=
  let z := m.zs c
  let m1 := m.setFlag ZML.STAT_HUB_HOLD c h
  if !h then m1.modZml c fun z => { z with holdEvAt := none }
  else if m.link c = 4 && z.holdEvAt.isNone && !(z.outs.any fun o => o.req.job = .release || o.req.job = .hold) then
    ((m1.event .zml c ZML.EV_HUB_HOLD).sendCmd c opRelease 0 0 0 .release).modZml c fun z => { z with holdEvAt := some m.now }
  else m1

/-! ### Receiving (R319, R322 to R325) -/

/-- A flit with NAK leaves (R323). DESIGN CHOICE, log entry 73: it is a NULL flit, which leaves at once. -/
def Mach.nakSend (m : Mach) (c : Nat) : Mach :=
  ((m.modZml c fun z => { z with nakAt := some m.now, nakDue := true }).count ZML.CNT_NAK_TX c).sendNull c

/-- Ask for a replay (R323). -/
def Mach.nak (m : Mach) (c : Nat) : Mach := if (m.zs c).nakAt.isSome then m else m.nakSend c

/-- The size of a message that the hub sends on a virtual channel; none where the op code is reserved for it (R326). -/
def rxSize (vc op : Nat) : Option Nat :=
  if vc = 2 && (op = 1 || op = 2 || op = 6 || op = 7 || op = 8 || op = 15) then some 272
  else if vc = 3 && (op = 3 || op = 5 || op = 6 || op = 9 || op = 10 || op = 11 || op = 12) then some 8
  else if vc = 4 && op = 13 then some 32 else if vc = 4 && op = 14 then some 16 else none

/-- Take the complete messages from a stream, at most `fuel`: the messages, what is left, and false on a reserved op code. -/
def takeMsgs (vc : Nat) : Nat → Nat → Nat → List (Nat × Nat) → List (Nat × Nat) × Nat × Nat × Bool
  | 0, len, val, acc => (acc, len, val, true)
  | f + 1, len, val, acc =>
    if len = 0 then (acc, 0, 0, true)
    else if val % 16 = 0 then (acc, 0, 0, true)
    else
      match rxSize vc (val % 16) with
      | none => (acc, len, val, false)
      | some n => if len < n then (acc, len, val, true) else takeMsgs vc f (len - n) (val / 2 ^ (8 * n)) (acc ++ [(vc, val % 2 ^ (8 * n))])

/-- The payload of an accepted flit joins its stream; FIRST must name the first message that starts in it (R322). -/
def Mach.takePayload (m : Mach) (c vc payload first : Nat) : Mach :=
  let s := (m.zs c).rx.get vc
  let need := if s.len = 0 then 0 else ((rxSize vc (s.val % 16)).getD 0) - s.len
  let want := if need < 112 then need else 127
  if first ≠ want then m.protocol c
  else
    let r := takeMsgs vc 16 (s.len + 112) (s.val + payload * 2 ^ (8 * s.len)) []
    let m1 := m.modZml c fun z => { z with rx := z.rx.set vc ⟨r.2.1, r.2.2.1, []⟩, inbox := z.inbox ++ r.1 }
    if r.2.2.2 then m1 else m1.protocol c

/-- The sender's side of a received header: the ACK, a NAK and the credit report (R323 to R325). -/
def Mach.takeHeader (m : Mach) (c h : Nat) : Mach :=
  let z := m.zs c
  let ack := bits h 16 12
  let ackV := bitAt h 28
  let last := (z.txSeq + 4095) % 4096
  let known := match z.held with
    | [] => ack = last
    | f :: _ => ack = (f.seq + 4095) % 4096 || z.held.any fun x => x.seq = ack
  if ackV && !known then m.protocol c
  else
    let fresh := z.held.any fun x => x.seq = ack
    let cr := bits h 31 3
    let cnt := bits h 34 8
    let m1 := m.modZml c fun z => { z with
      held := if ackV && fresh then (z.held.dropWhile fun x => x.seq ≠ ack).drop 1 else z.held,
      ackAt := if ackV && fresh then m.now else z.ackAt, replays := if ackV && fresh then 0 else z.replays,
      credit := z.credit.upd cr (· + (cnt + 256 - z.lastCr.get cr) % 256), lastCr := z.lastCr.set cr cnt }
    m1.drain c

/-- Send every held flit again (R324); REPLAY_MAX replays in a row without an advance of ACK retrain the link. -/
def Mach.replay (m : Mach) (c : Nat) : Mach :=
  let z := m.zs c
  if z.held.isEmpty then m
  else
    let m0 := z.held.foldl (fun (m : Mach) f => (m.putFlit c f.val).nullDue c) m
    let m1 := ((m0.count ZML.CNT_REPLAY c).count ZML.CNT_REPLAY_FLITS c z.held.length).modZml c fun z =>
      { z with replays := z.replays + 1, ackAt := m.now }
    if m.get ZML.REPLAY_MAX c ≤ z.replays + 1 then m1.linkDown c else m1

/-- FLIT_RECEIVE (R321 to R325): the next received flit. DESIGN CHOICE, log entry 73: an accepted flit is answered at once by a NULL flit,
which brings its ACK and a credit report. -/
def flitReceive (c : Nat) (m : Mach) : Mach :=
  match (m.zs c).rxq with
  | [] => m
  | f :: rest =>
    let m0 := m.modZml c fun z => { z with rxq := rest }
    let h := f % 2 ^ 64
    if crc64 120 (f % 2 ^ 960) ≠ f / 2 ^ 960 then (m0.count ZML.CNT_CRC_ERR c).nak c
    else
      let vc := bits h 0 3
      let seq := bits h 4 12
      let m1 := m0.takeHeader c h
      let m2 := if bitAt h 29 then m1.replay c else m1
      if m2.link c ≠ m.link c then m2
      else if vc = 7 then m2
      else if seq ≠ (m2.zs c).rxSeq then m2.nak c
      else
        let m3 := (m2.modZml c fun z => { z with
          rxSeq := (z.rxSeq + 1) % 4096, nakAt := none, freed := z.freed.upd vc (· + 1) }).count ZML.CNT_FLITS_RX c
        let m4 := m3.takePayload c vc (f / 2 ^ 64 % 2 ^ 896) (bits h 42 7)
        if m4.link c = m.link c then m4.sendNull c else m4

/-- The receive lanes in use, lowest first. -/
def Mach.rxLanes (m : Mach) (c : Nat) : List Nat := (List.range 4).filter fun l => bitAt (m.get ZML.LINK_RX_LANES c) l

/-- The pre-FEC error counter of a receive lane (R360). -/
def cntPrefec (l : Nat) : Field :=
  [ZML.CNT_PREFEC_L0, ZML.CNT_PREFEC_L1, ZML.CNT_PREFEC_L2, ZML.CNT_PREFEC_L3].getD l ZML.CNT_PREFEC_L0

/-- A symbol that the decoder corrected counts on its lane: symbol s on active lane s mod W (R318, R359). -/
def Mach.symCorrected (m : Mach) (c s : Nat) : Mach :=
  let ls := m.rxLanes c
  match ls[s % max 1 ls.length]? with
  | none => m
  | some l => (m.count (cntPrefec l) c).modZml c fun z => { z with preErr := z.preErr.upd l (· + 1) }

/-- CODEWORD_RECEIVE (R318, R319): the decoder's result for the next codeword: its header and five flits with the symbols that it
corrected, or uncorrectable, which before lock breaks the run of codewords. -/
def codewordReceive (c : Nat) (ok : Bool) (hdr : Nat) (flits corr : List Nat) (m : Mach) : Mach :=
  let st := m.link c
  if !(st = 3 || st = 4 || st = 5) then m
  else
    let z := m.zs c
    if !ok then
      let m1 := (m.count ZML.CNT_FEC_UNCORR c).modZml c fun z => { z with
        badRun := z.badRun + 1, cwRun := if z.locked then z.cwRun else 0 }
      if z.locked && 8 ≤ z.badRun + 1 then (m1.modZml c fun z => { z with locked := false, cwRun := 0 }).linkDown c
      else if z.locked && st ≠ 3 then m1.nak c else m1
    else
      let good := bits hdr 0 10 = 0x1B5
      let run := if good && bits hdr 10 8 = z.cwNext then z.cwRun + 1 else if good then 1 else 0
      let m1 := corr.foldl (fun (m : Mach) s => m.symCorrected c s) (m.count ZML.CNT_FEC_SYM c corr.length)
      m1.modZml c fun z => { z with
        badRun := 0, cwNext := (bits hdr 10 8 + 1) % 256, cwRun := min 64 run, locked := z.locked || 64 ≤ run,
        rxq := if z.locked then z.rxq ++ flits else z.rxq }

/-- NAK_REPEAT (R323): a NAK unanswered for 2 µs is sent again. -/
def nakRepeat (c : Nat) (m : Mach) : Mach :=
  match (m.zs c).nakAt with
  | some t => if t + usec 2 ≤ m.now then m.nakSend c else m
  | none => m

/-- REPLAY_TIMEOUT (R324): with flits held, ACK has not advanced for 2 µs. -/
def replayTimeout (c : Nat) (m : Mach) : Mach :=
  let z := m.zs c
  if !z.held.isEmpty && z.ackAt + usec 2 ≤ m.now && (m.link c = 4 || m.link c = 5) then m.replay c else m

/-! ### Sideband (R338, R339) -/

/-- The number of ones among the low `n` bits. -/
def ones (v n : Nat) : Nat := popCount v n

/-- Identity that the sideband gives disagrees with HUB_INFO page 0 (R338). DESIGN CHOICE, log entry 73: a capacity that is no whole number
of TiB (R333: segments of 1 MiB) agrees with the TiB rounded down. -/
def Mach.idMismatch (m : Mach) (c idx d : Nat) : Bool :=
  m.get ZML.HUB_CONTRACT c ≠ 0 && (
    if idx = 0 then d ≠ m.get ZML.HUB_VENDOR c
    else if idx = 1 then d ≠ m.get ZML.HUB_MODEL c
    else if 2 ≤ idx && idx ≤ 5 then d ≠ bits (m.get ZML.HUB_SERIAL c) (16 * (idx - 2)) 16
    else if idx = 6 then d ≠ m.get ZML.HUB_SEGMENTS c / 2 ^ 20
    else if idx = 7 then d % 256 ≠ m.get ZML.HUB_CONTRACT c else false)

/-- The Core's half-frame (R338, R339): SYNC, the heartbeat's level, RST = 1 in the first four frames of RESET, the identity word wanted, even
parity. -/
def Mach.halfFrame (m : Mach) (c : Nat) : Nat :=
  let z := m.zs c
  let v := 9 + b2n z.hb * 2 ^ 4 + b2n (m.link c = 2 && z.rst < 4) * 2 ^ 5 + z.idIdx % 8 * 2 ^ 6
  v + ones v 29 % 2 * 2 ^ 29

/-- SIDEBAND_FRAME (R338, R339, R341): the Core's half-frame as driven, and the hub's as sampled. -/
def sidebandFrame (c half : Nat) (m : Mach) : Mach :=
  if m.link c = 0 then m
  else
    let parity := ones half 30 % 2 = 0
    let sync := parity && bits half 0 4 = 6
    let m0 := m.modZml c fun z => { z with
      sbTx := m.halfFrame c, sbGood := if sync then z.sbGood + 1 else 0, sbBad := if sync then 0 else z.sbBad + 1,
      rst := if m.link c = 2 then min 4 (z.rst + 1) else z.rst, idIdx := (z.idIdx + 1) % 8,
      stateAt := if m.link c = 2 && z.rst = 3 then m.now else z.stateAt }
    let m1 := if parity then m0.put ZML.SB_LAST c half else m0.count ZML.CNT_SB_ERR c
    let pres := m.flag ZML.STAT_PRESENT c
    if 16 ≤ (m1.zs c).sbBad then
      let m2 := if pres then (m1.setFlag ZML.STAT_PRESENT c false).event .zml c ZML.EV_PRESENCE else m1
      let m3 := m2.setFlag ZML.STAT_HUB_READY c false
      if m.link c = 1 || m.link c = 3 || m.link c = 4 || m.link c = 5 then
        (m3.lose c 1).modZml c fun z => { z with unplanned := true } else m3
    else if !sync then m1
    else
      let ready := bitAt half 4
      let newly := !pres && 4 ≤ (m1.zs c).sbGood
      let m2 := if newly then
        ((m1.setFlag ZML.STAT_PRESENT c true).event .zml c ZML.EV_PRESENCE).modZml c fun z => { z with stateAt := m.now } else m1
      let m3 := ((m2.setFlag ZML.STAT_HUB_READY c ready).hubHold c (bitAt half 5)).modZml c fun z =>
        { z with sbId := z.sbId.set (bits half 7 3) (bits half 10 16) }
      let m4 := if m.idMismatch c (bits half 7 3) (bits half 10 16) then m3.event .zml c ZML.EV_SB_ERROR else m3
      let here := pres || newly
      if m.link c = 1 && here && ready then m4.toTrain c (m4.nextRate c) (m4.zs c).width false
      else if m.link c = 2 && 4 ≤ (m.zs c).rst && ready then m4.toTrain c (m4.nextRate c) (m4.zs c).width true
      else m4

/-- HEARTBEAT_TOGGLE (R339). -/
def heartbeat (c : Nat) (m : Mach) : Mach :=
  if m.link c = 0 || m.link c = 6 then m else m.modZml c fun z => { z with hb := !z.hb }

/-- A TIME_MARK goes out (R334). -/
def Mach.sendMark (m : Mach) (c : Nat) : Mach :=
  (m.sendCmd c opTimeMark 0 0 0 .timeMark).modZml c fun z => { z with markAt := m.get MAP.AGE_NOW }

/-- TIME_MARK_SEND (R334): once a second of AGE_NOW while the link is ACTIVE. -/
def timeMark (c : Nat) (m : Mach) : Mach :=
  if m.linkServes c && (m.zs c).markAt ≠ m.get MAP.AGE_NOW then m.sendMark c else m

/-! ### Moves between link states -/

/-- The channel's MEDIA_CTL domain is powered (R444). -/
def Mach.mediaPowered (m : Mach) (c : Nat) : Bool := bitAt (m.get POWER.PD_ON) (5 + c / 4)

/-- LINK_DETECT (R341). -/
def linkDetect (c : Nat) (m : Mach) : Mach :=
  if m.link c = 0 && m.released && m.flag CLOCK.STAT_PLL_LOCK && m.mediaPowered c && m.flag ZML.CTL_ENABLE c &&
      m.mode ≠ mSafehold && (!m.asleep || m.get POWER.STAT_PHASE = 3) then
    (m.setLink c 1).modZml c fun z => { z with sbGood := 0, sbBad := 0 }
  else m

/-- The channel goes OFF; outstanding commands are kept, and its hub is no longer seen as present (R339, R341). -/
def Mach.linkOff (m : Mach) (c : Nat) : Mach :=
  if m.link c = 0 then m
  else
    let m1 := if m.flag ZML.STAT_PRESENT c then m.event .zml c ZML.EV_PRESENCE else m
    ((m1.setLink c 0).setFlag ZML.STAT_PRESENT c false).modZml c fun z => { z.clearLink with unplanned := true }

/-- LINK_OFF (R341): ENABLE is 0, the domain is off, or SAFEHOLD. -/
def linkOffCmd (c : Nat) (m : Mach) : Mach :=
  if !m.flag ZML.CTL_ENABLE c then (m.linkOff c).endFormats c
  else if !m.mediaPowered c || m.mode = mSafehold then m.linkOff c
  else m

/-- What a training that passed step 6 and 7 brought: LINK_PARAMS of the hub, its STATUS, HUB_INFO and the drift table (R342). -/
structure TrainData where
  params1 : Nat
  params2 : Nat
  status : Nat
  info0 : Line
  info1 : Line
  drift0 : Line
  drift1 : Line
  deriving DecidableEq, Repr, Inhabited

/-- The figures of HUB_INFO page 0 (R333). -/
def Mach.takeInfo (m : Mach) (c : Nat) (l : Line) : Mach :=
  let w (k : Nat) : Nat := (Line.word l k).toNat
  let m1 := (((((m.put ZML.HUB_VENDOR c (bits (w 0) 0 16)).put ZML.HUB_MODEL c (bits (w 0) 16 16)).put ZML.HUB_VERSION c
    (bits (w 0) 32 16)).put ZML.HUB_CONTRACT c (bits (w 0) 48 8)).put ZML.HUB_SERIAL c (w 1)).put ZML.HUB_SEGMENTS c
    (bits (w 2) 0 28)
  let m2 := (((((m1.put ZML.HUB_PROGRAMS c (bits (w 4) 0 16)).put ZML.HUB_READS c (bits (w 4) 16 16)).put ZML.HUB_REPLAY c
    (bits (w 4) 32 16)).put ZML.HUB_T_PROGRAM c (bits (w 5) 0 16)).put ZML.HUB_T_READ c (bits (w 5) 16 16)).put
    ZML.HUB_T_FORMAT c (bits (w 5) 32 16)
  m2.modMap fun s => { s with endur := s.endur.set c (bits (w 3) 0 29) }

/-- HUB_INFO page 0 breaks R346. -/
def infoBad (l : Line) : Bool :=
  let w (k : Nat) : Nat := (Line.word l k).toNat
  2 ^ 27 < bits (w 2) 0 28 || bits (w 3) 0 29 < 2 ^ 10 || 2 ^ 28 < bits (w 3) 0 29 || bits (w 0) 48 8 ≠ 1

/-- The hub's figures break another row of R345. -/
def infoShort (l : Line) (p1 p2 : Nat) : Bool :=
  let w (k : Nat) : Nat := (Line.word l k).toNat
  bits (w 4) 0 16 < 3072 || bits (w 4) 16 16 < 512 || bits (w 4) 32 16 < 512 || 120 < bits (w 5) 0 16 || 20 < bits (w 5) 16 16 ||
    50 < bits (w 5) 32 16 || bits p1 0 16 < 64 || bits p1 16 16 < 1024 || bits p1 32 16 < 4 || bits p2 0 16 < 512

/-- The drift table of two pages, by 1024 × channel + 32 × band + bucket (R333). -/
def Mach.takeDrift (m : Mach) (c : Nat) (d0 d1 : Line) : Mach :=
  let t := (List.range 256).foldl (fun (t : Tab Nat) i =>
    let band := i / 32
    let b := i % 32
    let l := if band < 4 then d0 else d1
    let off := 64 * (band % 4) + 2 * b
    t.set (1024 * c + i) ((Line.byte l off).toNat + 256 * (Line.byte l (off + 1)).toNat)) m.map.dtbl
  m.modMap fun s => { s with dtbl := t, dloaded := s.dloaded.set c true }

/-- STATUS is taken (R335): HUB_TEMP and the HOLD flag. -/
def Mach.takeStatus (m : Mach) (c w : Nat) : Mach :=
  ((m.put ZML.HUB_TEMP c (bits w 24 8)).setFlag ZML.HUB_TEMP_HOLD c (bitAt w 16)).hubHold c (bitAt w 16)

/-- Send a command that has no response again, with its CTAG (R343). Its programs wait for their lease (R209). -/
def Mach.resend (m : Mach) (c : Nat) (o : Outst) : Mach :=
  let k := o.req.md.programs
  if k ≠ 0 && !m.leaseOk c o.req.md.seg k then
    (m.leaseWant c o.req.md.seg k).modMap fun s => { s with leaseWait := s.leaseWait ++ [(c, some o.ctag, o.req)] }
  else
    ((m.transmit c o.req.md o.ctag (o.req.md.birth.getD 0)).count ZML.CNT_REISSUE c).modZml c fun z =>
      { z with outs := z.outs.map fun x => if x.ctag = o.ctag then
          { x with sentAt := m.now, abortBy := none, left := max 1 x.req.md.nlines } else x }

/-- A command of `leaseWait` may go: its channel takes commands, its lease covers its programs, and nothing is outstanding on a segment to
be formatted (R209, R330). -/
def Mach.leaseReady (m : Mach) (x : Nat × Option Nat × LineReq) : Bool :=
  m.linkServes x.1 && m.leaseOk x.1 x.2.2.md.seg x.2.2.md.programs && (x.2.1.isSome || !m.segBusy x.1 x.2.2.md.seg)

/-- Commands that waited for a lease go out (R209). -/
def Mach.leaseGo (m : Mach) : Mach :=
  (m.map.leaseWait.filter m.leaseReady).foldl (fun (m : Mach) x =>
    let m1 := m.modMap fun s => { s with leaseWait := s.leaseWait.erase x }
    match x.2.1 with
    | none => m1.issue x.1 x.2.2
    | some t => match (m1.zs x.1).outs.find? fun o => o.ctag = t && o.req.id = x.2.2.id with
      | some o => m1.resend x.1 o
      | none => m1) m

/-- A refused format is sent again once it may be (R209, R329, R330). -/
def Mach.formatAgain (m : Mach) (c : Nat) (q : LineReq) : Mach :=
  ((m.leaseWant c q.md.seg q.md.programs).modMap fun s => { s with leaseWait := s.leaseWait ++ [(c, none, q)] }).leaseGo

/-- The Core's LINK_PARAMS: its channel, its receive buffers and its replay buffer (R324, R325, R335). -/
def linkParams (c : Nat) : Nat := 13 + c % 32 * 2 ^ 20 + (1024 + 256 * 2 ^ 16 + 4 * 2 ^ 32) * 2 ^ 64 + 1024 * 2 ^ 128

/-- What the Core sends in steps 6 and 7 of a training (R342): LINK_PARAMS, HUB_INFO of both pages and, at the first FULL training, both
pages of the drift table, each in a flit of its own. Their answers are the training's data. -/
def Mach.trainSend (m : Mach) (c : Nat) (d : TrainData) : Mach :=
  let z := m.zs c
  let one (m : Mach) (vc n v : Nat) : Mach := padFlit c vc (m.send c vc n v)
  let cmd (m : Mach) (x : Nat × Nat) : Mach := one m 0 8 (x.1 + (m.zs c).freeTag * 2 ^ 4 + x.2 * 2 ^ 16)
  let m1 := m.modZml c fun z => { z.clearLink with
    credit := [(0, bits d.params1 0 16), (1, bits d.params1 16 16), (4, bits d.params1 32 16)].filter (·.2 ≠ 0) }
  ([(opHubInfo, 0), (opHubInfo, 1)] ++ if z.rate = 0 && !z.fullOnce then [(opDriftTable, 0), (opDriftTable, 1)] else []).foldl cmd
    (one m1 4 32 (linkParams c))

/-- The lanes of a width: the lowest-numbered without a fault (R342). -/
def pickLanes (faulty n : Nat) : Nat :=
  (((List.range 4).filter fun l => !bitAt faulty l).take n).foldl (fun a l => a + 2 ^ l) 0

/-- Lanes of a width code. -/
def lanesOf (width : Nat) : Nat := 4 / 2 ^ width

/-- The next attempt after a failed step: a lane fault lowers the width, two failed attempts lower the rate, and the channel is
LOST when no fallback remains: at TRICKLE with one lane (R341, R342). -/
def Mach.trainFail (m : Mach) (c : Nat) (laneFault : Bool) (faults : Nat) : Mach :=
  let z := m.zs c
  let m1 := m.modZml c fun z => { z with faulty := z.faulty ||| faults }
  let lower (x : Mach) : Mach := (x.count ZML.CNT_DEGRADE c).event .zml c ZML.EV_DEGRADE
  if laneFault && z.width < 2 then
    lower ((m1.put ZML.LINK_WIDTH c (z.width + 1)).modZml c fun z => { z with width := z.width + 1, fails := 0 })
  else if z.rate = 2 && z.width = 2 then m1.lose c 3
  else if z.fails + 1 < 2 then m1.modZml c fun z => { z with fails := z.fails + 1 }
  else if z.rate < 2 then
    lower ((m1.put ZML.LINK_RATE c (z.rate + 1)).modZml c fun z => { z with rate := z.rate + 1, fall := z.rate + 1, fails := 0 })
  else m1.modZml c fun z => { z with fails := 0 }

/-- The channel reaches ACTIVE (R341, R343, R334): credits start, RELEASE and TIME_MARK are sent, and after an unplanned training
every command without a response is sent again in its first order. DESIGN CHOICE, log entry 73: where a HOLD is among them, the RELEASE
follows it. -/
def Mach.linkUp (m : Mach) (c : Nat) (d : TrainData) (faults : Nat) : Mach :=
  let z := m.zs c
  let n := lanesOf z.width
  let tx := pickLanes ((z.faulty ||| faults) % 16) n
  let rx := pickLanes ((z.faulty ||| faults) / 16) n
  let m1 := ((((m.put ZML.LINK_TX_LANES c tx).put ZML.LINK_RX_LANES c rx).put ZML.HUB_CR_CMD c (bits d.params1 0 16)).put
    ZML.HUB_CR_WDATA c (bits d.params1 16 16)).put ZML.HUB_CR_MGMT c (bits d.params1 32 16)
  let first := z.rate = 0 && !z.fullOnce
  let m2 := (m1.takeInfo c d.info0).modMap fun s => { s with pattern := s.pattern.set c d.info1 }
  let m3 := (if first then m2.takeDrift c d.drift0 d.drift1 else m2).takeStatus c d.status
  let old := z.outs.filter fun o => o.req.job ≠ .timeMark
  let m4 := (m3.setLink c 4).modZml c fun z => { z.clearLink with
    locked := true, credit := [(0, bits d.params1 0 16), (1, bits d.params1 16 16), (4, bits d.params1 32 16)].filter (·.2 ≠ 0),
    fullOnce := z.fullOnce || z.rate = 0, faulty := z.faulty ||| faults, lanes := tx + 16 * rx, fails := 0, unplanned := false,
    outs := old }
  let m5 := if infoShort d.info0 d.params1 d.params2 then m4.event .zml c ZML.EV_NONCONFORM else m4
  let held := old.any fun o => o.req.job = .hold
  let release (m : Mach) (b : Bool) : Mach := if b then m.sendCmd c opRelease 0 0 0 .release else m
  let m6 := release (m5.event .zml c ZML.EV_LINK_UP) !held
  let m7 := release (if z.unplanned then old.foldl (fun m o => m.resend c o) m6 else m6) held
  ((m7.sendMark c).leaseGo).canaryGo c

/-! ### The trim record (R350 to R353, R361) -/

/-- Channels in training or in use that have no FULL set set TRIM_MISSING once the record has been looked for (R350). -/
def Mach.trimMissing (m : Mach) : Mach :=
  ((List.range 32).filter fun c => m.flag ZML.CTL_ENABLE c && 3 ≤ m.link c && !m.trimHas c 0).foldl
    (fun (m : Mach) c => m.event .zml c ZML.EV_TRIM_MISSING) m

/-- TRIM_REC shows the record in use; origin 1 MEDIA_CH_0, 2 MEDIA_CH_16, 3 TRIM_LOAD (R361). A record captured here shows the origin of
its first copy. A channel without a FULL set sets TRIM_MISSING (R350). In BRINGUP an ACTIVE channel that may now run faster trains again. -/
def Mach.useTrim (m : Mach) (r : Tab Line) (origin : Nat) : Mach :=
  let h (w lo n : Nat) : Nat := bits (Line.word (r.get 0) w).toNat lo n
  let m1 := ((m.modTrim fun t => { t with rec_ := r }).setFlag ZML.TRIM_REC_VALID 0 true).put ZML.TRIM_REC_ORIGIN 0 origin
  let m3 := (((m1.put ZML.TRIM_REC_VERSION 0 (h 0 32 8)).put ZML.TRIM_REC_T0 0 (h 3 0 8)).put ZML.TRIM_REC_T1 0 (h 3 8 8)).put
    ZML.TRIM_REC_T2 0 (h 3 16 8)
  let m2 := m3.trimMissing
  if m.mode ≠ mBringup then m2
  else
    ((List.range 32).filter fun c => m2.link c = 4 && m2.nextRate c < m2.get ZML.LINK_RATE c).foldl
      (fun (m : Mach) c => m.toQuiesce c false false)
      (if m2.get GLOBAL.STAT_BOOT_STEP ≤ 7 then m2.put GLOBAL.STAT_BOOT_STEP 0 8 else m2)

/-- Copy `k` of the trim record, on MEDIA_CH_0 or MEDIA_CH_16, is read or cannot be: its channel is not on its way to ACTIVE (R352). -/
def Mach.copyOut (m : Mach) (k : Nat) : Bool :=
  let c := 16 * k
  m.trim.search.get k = 2 || !((2 ≤ m.link c && m.link c ≤ 5) || (m.link c = 1 && m.flag ZML.STAT_PRESENT c))

/-- Collier's firmware runs. -/
def Mach.collierWorks (m : Mach) : Bool := m.get COLLIER.STAT_STATE = 2 || m.get COLLIER.STAT_STATE = 3

/-- No trim record will come by the Core's own search: one is in use, no copy is left to read, Collier is HALTED, or the record is host
software's to load (R350, R352). A channel without a set trains only at TRICKLE from here on. -/
def Mach.trimKnown (m : Mach) : Bool :=
  m.flag ZML.TRIM_REC_VALID || (m.collierWorks && m.copyOut 0 && m.copyOut 1) || m.get COLLIER.STAT_STATE = 5 || m.integ.trimSrc ≠ 1 ||
    m.get GLOBAL.STAT_BOOT_STEP = 0

/-- Collier reads the copies of the trim record in bring-up, each once its channel serves, as long as no record is in use (R352). -/
def Mach.trimSearch (m : Mach) : Mach :=
  if m.integ.trimSrc ≠ 1 || m.mode ≠ mBringup || !m.collierWorks || m.flag ZML.TRIM_REC_VALID then m
  else
    let rd (m : Mach) (c k pos n : Nat) : Mach := m.mQueue c true 18
      { (default : Media) with op := opReadLines, pos := pos, nlines := n } (.trimRd k)
    let m1 := ([0, 1].filter fun k => m.trim.search.get k = 0 && m.linkServes (16 * k)).foldl (fun (m : Mach) k =>
      rd (rd (m.modTrim fun t => { t with search := t.search.set k 1, copyLeft := t.copyLeft.set k 97 }) (16 * k) k 0 64) (16 * k) k 64 33) m
    if m1.copyOut 0 && m1.copyOut 1 then m1.trimMissing else m1

/-- The copy of the trim record that has been read. -/
def Mach.trimCopy (m : Mach) (k : Nat) : Tab Line :=
  (List.range 97).foldl (fun (t : Tab Line) j => t.set j (m.trim.copy.get (128 * k + j))) []

/-- The first valid copy is taken, MEDIA_CH_0's first; while that can still come the other waits (R352). -/
def Mach.trimDecide (m : Mach) : Mach :=
  let valid (k : Nat) : Bool := m.trim.search.get k = 2 && recValid (m.trimCopy k)
  if m.flag ZML.TRIM_REC_VALID then m
  else if valid 0 then m.useTrim (m.trimCopy 0) 1
  else if m.copyOut 0 && valid 1 then m.useTrim (m.trimCopy 1) 2
  else if m.copyOut 0 && m.copyOut 1 then m.trimMissing else m

/-- Line `pos` of copy `k` is here; one that failed its check is left zero, and the copy is then not valid but for a collision of its CRC
(R351, R352). -/
def Mach.trimGot (m : Mach) (k pos cls : Nat) (d : Line) : Mach :=
  let left := m.trim.copyLeft.get k - 1
  let m1 := m.modTrim fun t => { t with
    copy := if cls = 0 then t.copy.set (128 * k + pos) d else t.copy.erase (128 * k + pos), copyLeft := t.copyLeft.set k left,
    search := if left = 0 then t.search.set k 2 else t.search }
  if left = 0 then m1.trimDecide else m1

/-- LINK_TRAINING (R341, R342): one training attempt and its result. `step` 0 says that every step passed; else the step that
failed. A failed step 2 or 5 is a lane fault of the lanes in `faults`. -/
def linkTraining (c step faults : Nat) (d : TrainData) (m : Mach) : Mach :=
  if m.link c ≠ 3 then m
  else
    let z := m.zs c
    let rate := if m.trimHas c z.rate then z.rate else 2
    let ma := m.put ZML.LINK_ATTEMPTS c (satU 8 (m.get ZML.LINK_ATTEMPTS c + 1))
    let mt := if m.trimKnown && !m.trimHas c 0 then ma.event .zml c ZML.EV_TRIM_MISSING else ma
    let m0 := if rate = z.rate then mt else (mt.put ZML.LINK_RATE c rate).modZml c fun z => { z with rate := rate }
    let mb := if m0.get GLOBAL.STAT_BOOT_STEP = 6 then m0.put GLOBAL.STAT_BOOT_STEP 0 7 else m0
    let m1 := (mb.count ZML.CNT_TRAIN c).loadTrim c rate
    if step ≠ 0 then m1.trainFail c (step = 2 || step = 5) faults
    else
      let m2 := m1.trainSend c d
      if infoBad d.info0 then ((m2.takeInfo c d.info0).event .zml c ZML.EV_NONCONFORM).lose c 4
      else m2.linkUp c d faults

/-- A lane fault in ACTIVE retrains the channel at the next lower width (R341, R342). -/
def Mach.laneFault (m : Mach) (c faults : Nat) : Mach :=
  let z := m.zs c
  let m1 := (m.event .zml c ZML.EV_DEGRADE).count ZML.CNT_DEGRADE c
  let m2 := m1.modZml c fun z => { z with faulty := z.faulty ||| faults }
  if z.width < 2 then m2.toTrain c (m.nextRate c) (z.width + 1) true
  else
    let m3 := m2.modZml c fun z => { z with fall := min 2 (m.get ZML.LINK_RATE c + 1) }
    m3.toTrain c (m3.nextRate c) z.width true

/-- LANE_FAULT: `cdr` says that a CDR was lost on the lanes of `faults`, which also counts as an unplanned training (R341). -/
def laneFaultCmd (c faults : Nat) (cdr : Bool) (m : Mach) : Mach :=
  if m.link c ≠ 4 then m
  else
    let m1 := if cdr then (m.event .zml c ZML.EV_LINK_DOWN).count ZML.CNT_LINK_DOWN c else m
    m1.laneFault c faults

/-- LANE_ERR_INTERVAL (R342, R359): 1 ms is over; the symbols corrected in it are each receive lane's pre-FEC errors. In ACTIVE the third
interval in a row above LANE_ERR_MAX is a lane fault. Without codeword lock the figures stay as they are. -/
def laneErrInterval (c : Nat) (m : Mach) : Mach :=
  let z := m.zs c
  if !z.locked then m
  else
    let m0 := m.modZml c fun z => { z with preErr := [] }
    let m1 := (m.rxLanes c).foldl (fun (m : Mach) l =>
      m.modTrim fun t => { t with eyes := t.eyes.upd (4 * c + l) fun e => { e with errs := z.preErr.get l } }) m0
    if m.link c ≠ 4 then m1
    else
      let exceeds (l : Nat) : Bool := (m.rxLanes c).contains l && m.get ZML.LANE_ERR_MAX c < z.preErr.get l
      let m2 := m1.modZml c fun z => { z with
        laneRuns := (List.range 4).foldl (fun (t : Tab Nat) l => t.upd l fun n => if exceeds l then n + 1 else 0) z.laneRuns }
      let bad := (List.range 4).foldl (fun a l => if 3 ≤ (m2.zs c).laneRuns.get l then a + 2 ^ (4 + l) else a) 0
      if bad = 0 then m2 else m2.laneFault c bad

/-- COMMAND_TIMEOUT (R341): a command has had no response within TIMEOUT. -/
def commandTimeout (c : Nat) (m : Mach) : Mach :=
  if m.link c = 4 && (m.zs c).outs.any fun o => o.sentAt + usec (m.get ZML.TIMEOUT c) ≤ m.now then
    ((m.event .zml c ZML.EV_TIMEOUT).count ZML.CNT_TIMEOUT c).linkDown c
  else m

/-- QUIESCE_DONE (R341): with nothing outstanding HOLD is sent, and once it is answered the channel moves on. -/
def quiesceDone (c : Nat) (m : Mach) : Mach :=
  let z := m.zs c
  if m.link c ≠ 5 || !z.outs.isEmpty then m
  else if z.holdSent then m.quiesced c false
  else (m.sendCmd c opHold 0 0 0 .hold).modZml c fun z => { z with holdSent := true }

/-- QUIESCE_TIMEOUT (R341): 100 µs without quiescence. -/
def quiesceTimeout (c : Nat) (m : Mach) : Mach :=
  if m.link c = 5 && (m.zs c).stateAt + usec 100 ≤ m.now then m.quiesced c true else m

/-- HUB_READY_TIMEOUT (R341): a present hub without READY for 10 ms in DETECT, or a hub in RESET from the fourth RST frame. -/
def hubReadyTimeout (c : Nat) (m : Mach) : Mach :=
  let late := (m.zs c).stateAt + msec 10 ≤ m.now
  if m.link c = 1 && m.flag ZML.STAT_PRESENT c && !m.flag ZML.STAT_HUB_READY c && late then m.toReset c
  else if m.link c = 2 && late && 4 ≤ (m.zs c).rst then (m.lose c 2).trimDecide.trimSearch
  else m

/-- HUB_HOLD_TIMEOUT (R348): the hub is still in HOLD 1 ms after an uncommanded HOLD. -/
def hubHoldTimeout (c : Nat) (m : Mach) : Mach :=
  match (m.zs c).holdEvAt with
  | some t => if m.link c = 4 && m.flag ZML.STAT_HUB_HOLD c && t + msec 1 ≤ m.now then m.toReset c else m
  | none => m

/-- A command of CMD waits for the application under way (R358). -/
def Mach.afterApply (m : Mach) (c k : Nat) : Mach := (m.modTrim fun t => { t with after := t.after.set c k }).cmdStat c 3

/-- A command of CMD: ignored while one is BUSY (R348); in an application it waits for the end (R358). -/
def Mach.zmlCmd (m : Mach) (c k : Nat) (act : Mach → Mach) : Mach :=
  if m.get ZML.CMD_STAT c = 3 then m.reject .zml c
  else if m.link c = 4 && m.applying c then m.afterApply c k
  else act m

/-- RETRAIN where no application is under way (R341, R348). -/
def Mach.retrainNow (c : Nat) (m : Mach) : Mach := if m.link c = 4 then (m.toQuiesce c false false).cmdStat c 0 else m.cmdStat c 2

/-- WIDEN where no application is under way (R342, R348): four lanes and the highest rate that RATE_CAP allows. -/
def Mach.widenNow (c : Nat) (m : Mach) : Mach :=
  if m.link c ≠ 4 then m.cmdStat c 2
  else if (m.zs c).width = 0 && m.get ZML.LINK_RATE c = m.get ZML.CTL_RATE_CAP c then m.cmdStat c 1
  else ((m.toQuiesce c false false).modZml c fun z => { z with width := 0, faulty := 0, fall := 0 }).cmdStat c 0

/-- RESET_HUB where no application is under way (R341, R348). -/
def Mach.resetHubNow (c : Nat) (m : Mach) : Mach :=
  let st := m.link c
  if st = 0 then m.cmdStat c 2
  else if st = 2 then m.cmdStat c 1
  else if st = 4 then (m.toQuiesce c true false).cmdStat c 0
  else if st = 5 then (m.modZml c fun z => { z with resetGiven := true }).cmdStat c 0
  else (m.toReset c).cmdStat c 0

/-- ZML_RETRAIN (R341, R348, R358). -/
def zmlRetrain (c : Nat) (m : Mach) : Mach := m.zmlCmd c 1 (Mach.retrainNow c)
/-- ZML_WIDEN (R342, R348, R358). -/
def zmlWiden (c : Nat) (m : Mach) : Mach := m.zmlCmd c 2 (Mach.widenNow c)
/-- RESET_HUB (R341, R348). DESIGN CHOICE, log entry 73: it waits for an application as RETRAIN does (R358). -/
def resetHub (c : Nat) (m : Mach) : Mach := m.zmlCmd c 3 (Mach.resetHubNow c)

/-- A channel in service at the entry to a sleeping mode quiesces, after an application that holds it (R341, R358). A command that waits
there finds the channel outside ACTIVE. -/
def Mach.sleepQuiesce (m : Mach) (c : Nat) : Mach :=
  let k := m.trim.after.get c
  if m.applying c then (if 1 ≤ k && k ≤ 3 then m.cmdStat c 2 else m).modTrim fun t => { t with after := t.after.set c 4 }
  else m.toQuiesce c false true

/-- ML_RESET at an ACTIVE channel: as RETRAIN, after an application that holds it (R358, R438); what waits there already trains it too. -/
def Mach.mlRetrain (m : Mach) (c : Nat) : Mach :=
  if !m.applying c then m.toQuiesce c false false
  else if m.trim.after.get c = 0 then m.modTrim fun t => { t with after := t.after.set c 5 }
  else m

/-- An application has finished: what waited for it goes on (R358). -/
def Mach.applyDone (m : Mach) (c : Nat) : Mach :=
  let m1 := m.modTrim fun t => { t with after := t.after.erase c }
  match m.trim.after.get c with
  | 1 => m1.retrainNow c
  | 2 => m1.widenNow c
  | 3 => m1.resetHubNow c
  | 4 => m1.toQuiesce c false true
  | 5 => m1.toQuiesce c false false
  | _ => (m.leaseGo).canaryGo c

/-- TRIM_APPLICATION (R356, R357): an application that has had its 2.4 µs finishes; else the channel begins one, when it is the lowest due
channel that can while window bit 3 is open, or one that it owes to its floor. -/
def trimApplication (c : Nat) (m : Mach) : Mach :=
  let due (k : Nat) : Bool := m.flag ZML.TRIM_DUE k && m.applyCan k
  if !m.running then m
  else if m.applying c then
    if m.trim.apps.get c + usec 24 / 10 ≤ m.now + 1 then (m.trimApply c).applyDone c else m
  else if due c && bitAt (m.get ALM.WIN_MASK) 3 && (List.range c).all fun k => !due k then m.trimBegin c
  else if m.trim.owed.get c then m.floorApply c
  else m

def execCodewordReceive (c : BitVec 5) (ok : Bool) (hdr : BitVec 20) (f0 f1 f2 f3 f4 : BitVec 1024) (corr : List (BitVec 10))
    (s : State) :=
  answer s (codewordReceive c.toNat ok hdr.toNat ([f0, f1, f2, f3, f4].map (·.toNat)) (corr.map (·.toNat)))
def execFlitReceive (c : BitVec 5) (s : State) := answer s (flitReceive c.toNat)
def execNakRepeat (c : BitVec 5) (s : State) := answer s (nakRepeat c.toNat)
def execReplayTimeout (c : BitVec 5) (s : State) := answer s (replayTimeout c.toNat)
def execPadFlitTimeout (c : BitVec 5) (vc : BitVec 3) (s : State) := answer s (padFlit c.toNat vc.toNat)
def execHubHoldTimeout (c : BitVec 5) (s : State) := answer s (hubHoldTimeout c.toNat)
def execSidebandFrame (c : BitVec 5) (half : BitVec 30) (s : State) := answer s (sidebandFrame c.toNat half.toNat)
def execHeartbeatToggle (c : BitVec 5) (s : State) := answer s (heartbeat c.toNat)
def execTimeMarkSend (c : BitVec 5) (s : State) := answer s (timeMark c.toNat)
def execLinkDetect (c : BitVec 5) (s : State) := answer s (linkDetect c.toNat)
def execLinkOff (c : BitVec 5) (s : State) := answer s (linkOffCmd c.toNat)
def execLaneFault (c : BitVec 5) (faults : BitVec 8) (cdr : Bool) (s : State) := answer s (laneFaultCmd c.toNat faults.toNat cdr)
def execLaneErrInterval (c : BitVec 5) (s : State) := answer s (laneErrInterval c.toNat)
def execTrimApplication (c : BitVec 5) (s : State) := answer s (trimApplication c.toNat)
def execCommandTimeout (c : BitVec 5) (s : State) := answer s (commandTimeout c.toNat)
def execQuiesceDone (c : BitVec 5) (s : State) := answer s (quiesceDone c.toNat)
def execQuiesceTimeout (c : BitVec 5) (s : State) := answer s (quiesceTimeout c.toNat)
def execHubReadyTimeout (c : BitVec 5) (s : State) := answer s (hubReadyTimeout c.toNat)
def execZmlRetrain (a : BitVec 3) (c : BitVec 5) (s : State) :=
  answer s fun m => m.viaCfg a.toNat .zml c.toNat 0x150 1 (zmlRetrain c.toNat)
def execZmlWiden (a : BitVec 3) (c : BitVec 5) (s : State) :=
  answer s fun m => m.viaCfg a.toNat .zml c.toNat 0x150 2 (zmlWiden c.toNat)
def execResetHub (a : BitVec 3) (c : BitVec 5) (s : State) :=
  answer s fun m => m.viaCfg a.toNat .zml c.toNat 0x150 3 (resetHub c.toNat)

end Sys2Proof.Machine
end

