-- ==== Sys2Proof/Machine/ReeveAdmit.lean ====
section
/-! DEFINITION. Feedback, admission and shortfall (chapter "Reeve: metering, scheduling and regulation", R374 to R382), with the
slot tables of "Rota slot arbiters" that a COMMIT applies (R388, R389). -/
namespace Sys2Proof.Machine

/-! ### Feedback (R374) -/

/-- Level and place of the figure that decides: Hearth pseudo-channels first, then media channels. -/
def Mach.fbNow (m : Mach) : Nat × Nat × Nat :=
  let h := (List.range 64).map fun k =>
    (fbLevel (m.ht.pcs.get k).avg (m.get REEVE.FB_H_LOW) (m.get REEVE.FB_H_MID) (m.get REEVE.FB_H_HIGH), k / 32, k % 32)
  let c := (List.range 32).map fun k =>
    (fbLevel (m.reeve.mavg.get k) (16 * m.get REEVE.FB_M_LOW) (16 * m.get REEVE.FB_M_MID) (16 * m.get REEVE.FB_M_HIGH),
      tgtMedia k, 0)
  (h ++ c).foldl (fun b x => if b.1 < x.1 then x else b) (0, 0, 0)

/-- The fabric cycles since the last settling count at the present level: CNT_FB_CYCLES, and CNT_URG3_BYPASS for each port whose
CIR the bypass changes (R375). -/
def Mach.settleFb (m : Mach) : Mach :=
  let n := fabricCycles m.reeve.fbAt m.now
  let k := m.get REEVE.STAT_FB_LEVEL
  let m1 := m.modReeve fun r => { r with fbAt := m.now }
  if k = 0 then m1
  else
    let m2 := m1.count REEVE.CNT_FB_CYCLES 0 n
    (List.range 16).foldl (fun m p =>
      if m.rflag (REEVE.PM_BE p) && m.urgEff p = 3 && m.rget (REEVE.PM_CIR p) ≠ 0 then m.count REEVE.CNT_URG3_BYPASS 0 n else m) m2

/-- FEEDBACK_UPDATE (R374): the media averages move, and the level rises at once and falls after 16 comparisons in a row. -/
def feedbackUpdate (m : Mach) : Mach :=
  if !m.fabricUp then m
  else
    let av := (List.range 32).foldl (fun (t : Tab Nat) c =>
      let n := (m.scBytes (dirKey (tgtMedia c) false) + m.scBytes (dirKey (tgtMedia c) true)) / 64
      let a := t.get c
      t.set c (((a : Int) + ((n : Int) - a) / 16).toNat)) m.reeve.mavg
    let m1 := m.settleFb.settleBe.modReeve fun r => { r with mavg := av }
    let x := m1.fbNow
    let old := m.get REEVE.STAT_FB_LEVEL
    let show' (m : Mach) : Mach :=
      ((m.put REEVE.STAT_FB_LEVEL 0 x.1).put REEVE.FB_WHERE_TARGET 0 x.2.1).put REEVE.FB_WHERE_PC 0 x.2.2
    if old < x.1 then
      let m2 := show' (m1.modReeve fun r => { r with falls := 0 })
      if x.1 = 3 then m2.event .reeve 0 REEVE.EV_FB_HIGH else m2
    else if x.1 < old then
      if m1.reeve.falls + 1 < 16 then m1.modReeve fun r => { r with falls := r.falls + 1 }
      else show' (m1.modReeve fun r => { r with falls := 0 })
    else m1.modReeve fun r => { r with falls := 0 }

/-! ### Slot tables (R388, R389) -/

/-- Arbiter `a`: 0 and 1 Hearth, 2 + n media. Its page, instance and table length. -/
def arbPage (a : Nat) : Page := if a < 2 then .rotaH else .rotaM
def arbInst (a : Nat) : Nat := if a < 2 then a else a - 2
def arbSize (a : Nat) : Nat := if a < 2 then 256 else 128

/-- The shadow entry `k` of an arbiter: owner and URG as one byte. -/
def Mach.slotShadow (m : Mach) (a k : Nat) : Nat :=
  m.get (ROTA.OWNER (arbPage a) k) (arbInst a) + 32 * m.get (ROTA.URG (arbPage a) k) (arbInst a)
/-- The written entry: FREE until a COMMIT has written another (R388). -/
def Mach.slotWritten (m : Mach) (a k : Nat) : Nat := (m.rota.written.get (256 * a + k)).getD 31
/-- The effective entry (R389). -/
def Mach.slotEff (m : Mach) (a k : Nat) : Nat := (m.rota.moved.get (256 * a + k)).getD (m.slotWritten a k)

/-- The directions in which an owner's media slots count: TX, RX (R378). -/
def ownerTx (o : Nat) : Bool := o < 8 || o = 8 || o = 9 || o = 12 || o = 13 || o = 14 || o = 15 || o = 17 || o = 18 || o = 19
def ownerRx (o : Nat) : Bool := o < 8 || o = 10 || o = 11 || o = 13 || o = 16 || o = 17 || o = 18 || o = 19

/-- Reserved slots of an owner in a table given as a function. -/
def slotCount (tbl : Nat → Nat) (size o : Nat) : Nat := ((List.range size).filter fun k => tbl k % 64 = o).length

/-- Capability of a target in MB/s: of a stack, of a channel (R378). -/
def Mach.capability (m : Mach) (a : Nat) : Nat := if a < 2 then m.get HT.CAPABILITY a else m.get ZML.CAPABILITY (a - 2)

/-- The capability that the walk sees: 0 for a channel LOST or in TRAIN for more than 100 µs, the last figure through bounded
outages, and a read-only channel counts only in the receive direction (R380). -/
def Mach.walkCap (m : Mach) (a : Nat) (rx : Bool) : Nat :=
  if a < 2 then
    -- the pseudo-channel of a retraining unit counts through the unit
    m.capability a + (if m.flag HPHY.STAT_UNIT a && m.stackIn a then m.pcRate / (if m.flag HT.STAT_THROTTLED a then 2 else 1) else 0)
  else
    let c := a - 2
    let st := m.link c
    if m.chanLost c || (!rx && m.chanRO c) then 0
    else if st = 4 then m.capability a
    else if st = 5 then bSeq (m.get ZML.LINK_RATE c) (m.get ZML.LINK_WIDTH c) (m.get ZML.HUB_PROGRAMS c)
    else if st = 3 && m.now < (m.zs c).stateAt + usec 100 then
      bSeq (m.get ZML.LINK_RATE c) (m.get ZML.LINK_WIDTH c) (m.get ZML.HUB_PROGRAMS c)
    else 0

/-- The arbiters of a tier-direction: 0 H, 1 M_TX, 2 M_RX. -/
def tierArbs (x : Nat) : List Nat := if x = 0 then [0, 1] else (List.range 32).map (2 + ·)
/-- An owner's slots count in a tier-direction. -/
def ownerIn (x o : Nat) : Bool := if x = 0 then o < 20 else if x = 1 then ownerTx o else ownerRx o

/-- Shadow values of a class's ranked fields. -/
def Mach.kindShadow (m : Mach) (c : Nat) : Nat := m.get (REEVE.CL_KIND c)
/-- A class's tier covers a tier-direction, by its TIER_H and TIER_M. -/
def tierCovers (h md x : Nat) : Bool := if x = 0 then h = 1 else md = 1

/-- The ranked owners with their ranks, given which classes are GUARANTEED and which own slots (R377). -/
def rankedOwners (rk rl : Nat) (cls : Nat → Nat) (holds : Nat → Bool) : List (Nat × Nat) :=
  [(8, rk), (10, rl)] ++ ((List.range 8).filter holds).map fun c => (c, cls c)

/-- Two of the ranks are equal. -/
def rankClash (l : List (Nat × Nat)) : Bool := l.any fun a => l.any fun b => a.1 != b.1 && a.2 == b.2

/-- COMMIT_STAT takes a refusal (R378). -/
def Mach.commitRefuse (m : Mach) (reason tier : Nat) : Mach :=
  let m1 := (((m.put REEVE.COMMIT_RESULT 0 1).put REEVE.COMMIT_REASON 0 reason).put REEVE.COMMIT_TIER 0 tier).count
    REEVE.CNT_COMMIT_REFUSED
  if reason = 1 then m1.event .reeve 0 REEVE.EV_CFG_ERR_OVERSUB else m1

/-- cap_x of the check (R378). -/
def Mach.capX (m : Mach) (x : Nat) : Nat := ((tierArbs x).map m.capability).sum
/-- slot_x of the check, in 1/256 MB/s. -/
def Mach.slotX (m : Mach) (x : Nat) : Nat :=
  ((tierArbs x).map fun a =>
    m.capability a * (256 / arbSize a) * ((List.range (arbSize a)).filter fun k => ownerIn x (m.slotShadow a k)).length).sum
/-- cir_x of the check. -/
def Mach.cirX (m : Mach) (x : Nat) : Nat :=
  (((List.range 8).filter fun c => m.kindShadow c = 1 && tierCovers (m.get (REEVE.CL_TIER_H c)) (m.get (REEVE.CL_TIER_M c)) x).map
    fun c => m.get (REEVE.CL_CIR c)).sum

/-! ### The walk (R380 to R382) -/

/-- Values in force (R379). -/
def Mach.rankForce (m : Mach) (c : Nat) : Nat := (m.reeve.rank.get c).getD (2 + c)
def Mach.tierHForce (m : Mach) (c : Nat) : Nat := (m.reeve.tierH.get c).getD 1
def Mach.tierMForce (m : Mach) (c : Nat) : Nat := (m.reeve.tierM.get c).getD 1
def Mach.rankRqForce (m : Mach) : Nat := m.reeve.rankRq.getD 0x10

/-- An owner holds a written slot somewhere. -/
def Mach.ownsSlot (m : Mach) (o : Nat) : Bool := m.rota.written.any fun p => p.2 = some o

/-- The owners of guarantees in rank order; others that own slots follow in ID order (R377). -/
def Mach.guarantees (m : Mach) : List Nat :=
  let l := rankedOwners (m.rankRqForce % 16) (m.rankRqForce / 16) m.rankForce fun c => m.reeve.kind.get c = 1 || m.ownsSlot c
  let ranked := (List.range 16).flatMap fun r => (l.filter fun p => p.2 = r).map (·.1)
  ranked ++ ((List.range 20).filter fun o => m.ownsSlot o && !ranked.contains o)

/-- Rooms, budgets and grants of a walk in progress: room by arbiter and tier-direction, budget by tier-direction, the grant of an
owner at an arbiter in a tier-direction, the granted CIR of a class (the least over its tiers; none in no tier), and shortfalls. -/
structure WalkSt where
  room : Tab Nat
  budget : Tab Nat
  grant : Tab Nat
  cir : Tab (Option Nat)
  short : Tab Nat
  deriving Inhabited

/-- One owner's turn in the walk (R381). -/
def Mach.walkOne (m : Mach) (w : WalkSt) (o : Nat) : WalkSt :=
  let slots := [0, 1, 2].foldl (fun w x =>
    if !ownerIn x o then w
    else (tierArbs x).foldl (fun w a =>
      let n := slotCount (m.slotWritten a) (arbSize a) o
      if n = 0 then w
      else
        let nominal := n * m.reeve.capAt.get a / arbSize a
        let g := min nominal (min (w.room.get (3 * a + x)) (w.budget.get x))
        { w with
          room := w.room.upd (3 * a + x) (· - g), budget := w.budget.upd x (· - g),
          grant := w.grant.set ((3 * a + x) * 32 + o) g, short := w.short.upd o (· + (nominal - g)) }) w) w
  if o < 8 && m.reeve.kind.get o = 1 then
    [0, 1, 2].foldl (fun w x =>
      if !tierCovers (m.tierHForce o) (m.tierMForce o) x then w
      else
        let c := m.cirForce o
        let g := min c (w.budget.get x)
        { w with
          budget := w.budget.upd x (· - g), cir := w.cir.set o (some (min g ((w.cir.get o).getD g))),
          short := w.short.upd o (· + (c - g)) }) slots
  else slots

/-- The walk over every guarantee in rank order. -/
def Mach.walk (m : Mach) : WalkSt :=
  let rooms := [0, 1, 2].foldl (fun (t : Tab Nat) x => (tierArbs x).foldl (fun t a => t.set (3 * a + x) (m.walkCap a (x = 2) * 63 / 64)) t) []
  let budgets := [0, 1, 2].foldl (fun (t : Tab Nat) x => t.set x ((tierArbs x).map fun a => rooms.get (3 * a + x)).sum) []
  m.guarantees.foldl m.walkOne ⟨rooms, budgets, [], [], []⟩

/-- Slots that an owner's grant needs at an arbiter: ceil(grant × size / CAPABILITY) (R381). -/
def Mach.slotNeed (m : Mach) (w : WalkSt) (a o : Nat) : Nat :=
  ([0, 1, 2].filter fun x => (tierArbs x).contains a && ownerIn x o).foldl (fun n x =>
    let c := m.walkCap a (x = 2)
    let g := w.grant.get ((3 * a + x) * 32 + o)
    max n (if c = 0 then 0 else (g * arbSize a + c - 1) / c)) 0

/-- Give `d` slots of owner `v` to owner `o`, from the highest-numbered downward. -/
def giveSlots (size o v : Nat) : Nat → Tab Nat → Nat → Tab Nat × Nat
  | 0, t, d => (t, d)
  | k + 1, t, d => if d ≠ 0 && t.get k = v + 1 then giveSlots size o v k (t.set k (o + 1)) (d - 1) else giveSlots size o v k t d

/-- The effective table of an arbiter after the walk, as changes from the written table (R381). Entries are held as owner + 1. -/
def Mach.effective (m : Mach) (w : WalkSt) (a : Nat) : List (Nat × Nat) :=
  let size := arbSize a
  let owners := m.guarantees.filter fun o => 0 < slotCount (m.slotWritten a) size o
  let full := owners.all fun o => [0, 1, 2].all fun x => !((tierArbs x).contains a && ownerIn x o) ||
    slotCount (m.slotWritten a) size o * m.reeve.capAt.get a / size ≤ w.grant.get ((3 * a + x) * 32 + o)
  if full then []
  else
    let t0 : Tab Nat := (List.range size).foldl (fun t k => t.set k (m.slotWritten a k + 1)) []
    let t := owners.foldl (fun (t : Tab Nat) o =>
      let own := (List.range size).filter fun k => t.get k = o + 1
      let need := m.slotNeed w a o
      let t1 := (own.drop need).foldl (fun (t : Tab Nat) k => t.set k 32) t
      let lower := ((owners.dropWhile (· ≠ o)).drop 1).reverse
      (lower.foldl (fun (p : Tab Nat × Nat) v => giveSlots size o v size p.1 p.2) (t1, need - own.length)).1) t0
    (List.range size).filterMap fun k => if t.get k = m.slotWritten a k + 1 then none else some (k, t.get k - 1)

/-- Balances at an arbiter of the owners whose slot count changed restart at 0 (R393). -/
def Mach.resetBalances (m : Mach) (a : Nat) (before after : Nat → Nat) : Mach :=
  if a < 2 then m
  else
    let ch := (List.range 20).filter fun o => slotCount before (arbSize a) o ≠ slotCount after (arbSize a) o
    { m with rota := { m.rota with bal := ch.foldl (fun t o =>
        (t.erase (32 * dirKey a false + o)).erase (32 * dirKey a true + o)) m.rota.bal } }

/-- Put a walk's grants into effect (R381, R382). -/
def Mach.applyWalk (m : Mach) : Mach :=
  let w := m.walk
  let m1 := (List.range 34).foldl (fun (m : Mach) a =>
    let before := m.slotEff a
    let ch := m.effective w a
    let moved := (m.rota.moved.filter fun p => p.1 / 256 ≠ a)
    let moved' := ch.foldl (fun t p => Tab.set t (256 * a + p.1) (some p.2)) moved
    let m1 : Mach := { m with rota := { m.rota with moved := moved' } }
    (m1.resetBalances a before (m1.slotEff a)).setFlag (ROTA.STAT_SHORTENED (arbPage a)) (arbInst a) (!ch.isEmpty)) m
  let shorts := (List.range 20).filter fun o => 0 < w.short.get o
  let mask := shorts.foldl (fun v o => v + 2 ^ o) 0
  let fresh := shorts.filter fun o => m.reeve.short.get o = 0
  let m2 := m1.settleClasses.modReeve fun r => { r with
    short := w.short,
    granted := (List.range 8).foldl (fun (t : Tab (Option Nat)) c =>
      match w.cir.get c with
      | some g => if g < m.cirForce c then t.set c (some g) else t
      | none => t) [] }
  let m3 := (m2.put REEVE.SHORT_NOW 0 mask).setFlag REEVE.STAT_SHORT 0 (mask ≠ 0)
  let m4 := if fresh.isEmpty then m3 else (m3.count REEVE.CNT_SHORT_EVENTS 0 fresh.length).event .reeve 0 REEVE.EV_GUARANTEE_SHORT
  if mask = 0 && m.flag REEVE.STAT_SHORT then m4.event .reeve 0 REEVE.EV_GUARANTEE_RESTORED else m4

/-- The walk where it may run: not in BRINGUP, which has no shortfall yet (R431). -/
def Mach.walkNow (m : Mach) : Mach := if m.mode = mBringup then m else m.applyWalk

/-- COMMIT (R378, R379, R388): the check, and on success the shadow values, the slot tables and a fresh walk. -/
def commit (m : Mach) : Mach :=
  let ranks := rankedOwners (m.get REEVE.RANK_KILN_OUT) (m.get REEVE.RANK_LOOM_DUE) (fun c => m.get (REEVE.CL_RANK c)) fun c =>
    m.kindShadow c = 1 || (List.range 34).any fun a => 0 < slotCount (m.slotShadow a) (arbSize a) c
  let crowded := (List.range 34).any fun a =>
    (if a < 2 then 252 else 126) < ((List.range (arbSize a)).filter fun k => m.slotShadow a k % 32 ≠ 31).length
  if rankClash ranks then m.commitRefuse 3 0
  else if crowded then m.commitRefuse 2 0
  else
    match [0, 1, 2].find? fun x => 256 * (m.capX x * m.get REEVE.ADMIT_PCT / 100) < m.slotX x + 256 * m.cirX x with
    | some x => m.commitRefuse 1 x
    | none =>
      let written := (List.range 34).foldl (fun (t : Tab (Option Nat)) a => (List.range (arbSize a)).foldl (fun t k =>
        let b := m.slotShadow a k
        t.set (256 * a + k) (if b = 31 then none else some b)) t) []
      let tab (f : Nat → Nat) : Tab (Option Nat) := (List.range 8).foldl (fun t c => t.set c (some (f c))) []
      let rq := m.get REEVE.RANK_KILN_OUT + 16 * m.get REEVE.RANK_LOOM_DUE
      let m1 := m.settleClasses.modReeve fun r => { r with
        kind := (List.range 8).foldl (fun (t : Tab Nat) c => t.set c (m.kindShadow c)) [],
        rank := tab fun c => m.get (REEVE.CL_RANK c), tierH := tab fun c => m.get (REEVE.CL_TIER_H c),
        tierM := tab fun c => m.get (REEVE.CL_TIER_M c), cir := [], rankRq := some rq,
        capAt := (List.range 34).foldl (fun (t : Tab Nat) a => t.set a (m.capability a)) [] }
      let before := m.slotEff
      let m2 : Mach := { m1 with rota := { m1.rota with written := written, moved := [] } }
      let m3 := (List.range 34).foldl (fun (m : Mach) a =>
        (m.resetBalances a (before a) (m.slotEff a)).event (arbPage a) (arbInst a) 1) m2
      let m4 := ((((m3.put REEVE.COMMIT_RESULT 0 0).put REEVE.COMMIT_REASON 0 0).put REEVE.COMMIT_TIER 0 0).setFlag
        REEVE.STAT_COMMITTED 0 true).put REEVE.VIEW_RANK_RQ 0 rq
      let m5 := m4.put REEVE.VIEW_GUARANTEED 0 ((List.range 8).foldl (fun v c => v + 2 ^ c * m.kindShadow c) 0)
      let dem (x : Nat) : Nat := m.slotX x / 256 + m.cirX x
      ((((((m5.put REEVE.CAP_H 0 (m.capX 0)).put REEVE.DEM_H 0 (dem 0)).put REEVE.CAP_M_TX 0 (m.capX 1)).put REEVE.DEM_M_TX 0
        (dem 1)).put REEVE.CAP_M_RX 0 (m.capX 2)).put REEVE.DEM_M_RX 0 (dem 2)).walkNow

/-- A write of COMMIT starts the check, which decides on what stands now; a write while one is BUSY is ignored (R378, R379). DESIGN CHOICE, log
entry 101: COMMIT_STAT reads BUSY until the fabric cycle ends. -/
def commitGo (m : Mach) : Mach :=
  if m.get REEVE.COMMIT_RESULT = 2 then m
  else
    let m1 := commit m
    (m1.modReeve fun r => { r with outcome := m1.get REEVE.COMMIT_RESULT }).put REEVE.COMMIT_RESULT 0 2

/-- The check has ended (R378). -/
def Mach.commitEnd (m : Mach) : Mach := if m.get REEVE.COMMIT_RESULT = 2 then m.put REEVE.COMMIT_RESULT 0 m.reeve.outcome else m

/-- SHORTFALL_WALK (R380 to R382). -/
def shortfallWalk (m : Mach) : Mach := if m.fabricUp then m.walkNow else m

/-- TRAIN_OUTAGE_100US (R380): a channel has been in TRAIN for more than 100 µs. -/
def trainOutage (c : Nat) (m : Mach) : Mach :=
  if m.fabricUp && m.link c = 3 && (m.zs c).stateAt + usec 100 ≤ m.now then m.walkNow else m

/-- SHORT_BYTES_ACCRUE (R382): one microsecond of every owner's shortfall. -/
def shortBytes (m : Mach) : Mach :=
  if !m.fabricUp then m else
    (List.range 20).foldl (fun (m : Mach) o =>
      if m.reeve.short.get o = 0 then m else m.count (REEVE.SHORT_BYTES o) 0 (m.reeve.short.get o)) m

def execFeedbackUpdate (s : State) := answer s feedbackUpdate
def execCommit (a : BitVec 3) (s : State) := answer s fun m => m.viaCfg a.toNat .reeve 0 0x130 1 commitGo
def execShortfallWalk (s : State) := answer s shortfallWalk
def execTrainOutage100us (c : BitVec 5) (s : State) := answer s (trainOutage c.toNat)
def execShortBytesAccrue (s : State) := answer s shortBytes

end Sys2Proof.Machine
end

