-- ==== Sys2Proof/Machine/Rota.lean ====
section
/-! DEFINITION. The Rota arbiters' decisions: eligibility, the rows of R391, balances, the pipelined slot, withdrawal, program
abort and restart (chapter "Rota slot arbiters", R390 to R400). -/
namespace Sys2Proof.Machine

/-- Change the Rota state. -/
def Mach.modRota (m : Mach) (f : RotaSt → RotaSt) : Mach := { m with rota := f m.rota }

/-! ### Eligibility (R392) -/

/-- Programs in flight at a hub (R346). -/
def ZmlSt.programs (z : ZmlSt) : Nat := (z.outs.filter fun o => o.req.md.op = opWriteLine || o.req.md.op = opSealWrite).length
/-- A command is answered by an RDATA line (R390). -/
def readsData (op : Nat) : Bool := op = opReadLine || op = opReadLines || op = opCanaryRead || op = opSealRead || op = opHubInfo || op = opDriftTable
/-- Reads in flight at a hub, and RDATA bytes that they have booked (R325, R346). -/
def ZmlSt.reads (z : ZmlSt) : Nat := (z.outs.filter fun o => readsData o.req.md.op).length
def ZmlSt.bookedBytes (z : ZmlSt) : Nat := (z.outs.map fun o => if readsData o.req.md.op then 272 * o.left else 0).sum

/-- Two media commands act on one slot: the same area, segment and slot, or the same canary or seal slot (R330). -/
def Mach.sameSlot (m : Mach) (a b : LineReq) : Bool :=
  a.md.area = b.md.area &&
    (if a.md.area = 0 then
      let sa := m.slotFor a
      let sb := b.md.slot
      a.md.seg = b.md.seg && sa < sb + max 1 b.md.nlines && sb < sa + max 1 a.md.nlines
    else a.md.pos = b.md.pos)

/-- The slot is free of outstanding commands and of the grant in the pipeline; no FORMAT is outstanding on the segment (R330). -/
def Mach.slotClear (m : Mach) (c : Nat) (q : LineReq) : Bool :=
  let others := (m.zs c).outs.map (·.req) ++
    ([false, true].filterMap fun rx => (m.rota.next.get (dirKey (tgtMedia c) rx)).map fun x =>
      { x with md := { x.md with slot := m.slotFor x } })
  others.all fun o => o.id = q.id || !(m.sameSlot q o || (o.md.op = opFormat && q.md.area = 0 && o.md.seg = q.md.seg))

/-- A program that moves the seal: SEAL_WRITE. -/
def LineReq.seals (q : LineReq) : Bool := q.md.op = opSealWrite

/-- A seal record is being written or SEALED stands: a program of a data line, a map reserve line or a canary waits (R337, R458). -/
def Mach.sealHolds (m : Mach) : Bool := m.flag POWER.STAT_SEALED || m.power.sealPhase = 2

/-- Before the start's OPEN record is durable on every hub no data line, map change or commit record is written (R337). -/
def Mach.startHolds (m : Mach) (q : LineReq) : Bool :=
  let b := m.get GLOBAL.STAT_BOOT_STEP
  m.mode = mBringup && ((0 < b && b < 10) || m.power.sealPhase ≠ 0) && q.md.area = 0 && (match q.job with | .fwWr _ _ => false | _ => true)

/-- A program failed three times on this line position: until the map switch its line is handled as on a read-only channel (R329). -/
def Mach.badLine (m : Mach) (c seg pos : Nat) : Bool := (m.map.bad.get (segKey c seg)).contains pos

/-- The channel takes no program of this data line: it is read-only, or the line's program failed there (R219, R329). -/
def Mach.refusesLine (m : Mach) (c : Nat) (q : LineReq) : Bool :=
  q.md.area = 0 && q.md.uk.isSome && (m.chanRO c || m.badLine c q.md.seg q.md.pos)

/-- The upper copy of a line of a MIRROR unit waits for the lower one, which is written first (R256). -/
def Mach.upperWaits (m : Mach) (c : Nat) (q : LineReq) : Bool :=
  16 ≤ c && (match q.md.uk, q.md.line with
    | some uk, some l => eKind (m.ent uk) = 2 &&
      ((m.sc.queues.any fun p => p.1 / 32 = dirKey (tgtMedia (c - 16)) false && p.2.any fun x => x.md.line = some l && x.job = q.job) ||
        ((m.rota.next.get (dirKey (tgtMedia (c - 16)) false)).any fun x => x.md.line = some l && x.job = q.job))
    | _, _ => false)

/-- The head `q` of a media transmit queue is eligible (R392): link, credit, figures of the hub, slot, lease, supply and rotation. -/
def Mach.txEligible (m : Mach) (c : Nat) (q : LineReq) : Bool :=
  let z := m.zs c
  m.linkServes c && z.tagRoom && 272 + (z.tx.get 1).len ≤ 112 * z.credit.get 1 && z.programs < m.get ZML.HUB_PROGRAMS c &&
    m.slotClear c q && !m.flag POWER.STAT_STOPPED && (q.seals || !(m.sealHolds || m.startHolds q)) &&
    (q.seals || q.md.area ≠ 0 || m.leaseOk c q.md.seg 1) && !m.refusesLine c q && !m.upperWaits c q &&
    (match q.md.uk, q.job with
      | some _, .rotWr _ _ => true
      | some uk, _ => !m.moving uk q.md.pos
      | none, _ => true)

/-- The head `q` of a media receive queue is eligible (R392). -/
def Mach.rxEligible (m : Mach) (c : Nat) (q : LineReq) : Bool :=
  let z := m.zs c
  m.linkServes c && z.tagRoom && z.reads < m.get ZML.HUB_READS c &&
    z.bookedBytes + 272 * max 1 q.md.nlines ≤ 1024 * 112 && m.slotClear c q

/-- The head `q` of a stack's queue is eligible: the stack is in service and the pseudo-channel queue has room (R286, R392). -/
def Mach.hEligible (m : Mach) (n : Nat) (q : LineReq) : Bool :=
  m.stackIn n && (m.pcSt n q.pc).queue.length + (match m.rota.next.get (dirKey n false) with | some x => b2n (x.pc = q.pc) | none => 0) < 64

/-- The head lies behind the global fence's mark, which is collected from its queue once every request before it has gone (R102, R103). -/
def Mach.fenced (m : Mach) (q : LineReq) : Bool :=
  match q.job with | .client _ id _ => m.behindMark id | _ => false

/-- Eligibility at arbiter `a` in a direction. -/
def Mach.eligible (m : Mach) (a : Nat) (rx : Bool) (q : LineReq) : Bool :=
  !m.fenced q && (if a < 2 then m.hEligible a q else if rx then m.rxEligible (a - 2) q else m.txEligible (a - 2) q)

/-! ### Balances (R393) -/

/-- Balance of an owner at a direction key, in sevenths of a flit time. -/
def Mach.bal (m : Mach) (k o : Nat) : Int := m.rota.bal.get (32 * k + o)
/-- Change a balance. -/
def Mach.setBal (m : Mach) (k o : Nat) (v : Int) : Mach := m.modRota fun r => { r with bal := r.bal.set (32 * k + o) v }

/-- The pointer of a direction. -/
def Mach.pointer (m : Mach) (a : Nat) (rx : Bool) : Nat :=
  if rx then m.get ROTA.POINTER_RX (a - 2) else m.get (ROTA.POINTER (arbPage a)) (arbInst a)

/-- The owner of an entry in a direction; 31 where it counts as FREE (R389). -/
def Mach.slotOwner (m : Mach) (a : Nat) (rx : Bool) (k : Nat) : Nat :=
  let o := m.slotEff a k % 32
  if o ≠ 31 && 2 ≤ a && !(if rx then ownerRx o else ownerTx o) then 31 else o

/-- Step a pointer one entry; at a media arbiter the owner of the entry stepped to gains 7, up to 28 (R390, R393). -/
def Mach.stepPointer (m : Mach) (a : Nat) (rx : Bool) : Mach :=
  let p := (m.pointer a rx + 1) % arbSize a
  let m1 := if rx then m.put ROTA.POINTER_RX (a - 2) p else m.put (ROTA.POINTER (arbPage a)) (arbInst a) p
  let o := m.slotOwner a rx p
  if a < 2 || o = 31 then m1 else m1.setBal (dirKey a rx) o (min 28 (m.bal (dirKey a rx) o + 7))

/-- Step a pointer `n` entries. -/
def Mach.stepPointers (m : Mach) (a : Nat) (rx : Bool) : Nat → Mach
  | 0 => m
  | n + 1 => (m.stepPointer a rx).stepPointers a rx n

/-! ### The decision (R391) -/

/-- A request that an urgent slot serves (R391, R80, R169). -/
def Mach.urgent (m : Mach) (q : LineReq) : Bool :=
  (q.rq < 8 || q.rq = 10) && (match q.port with | some p => 2 ≤ m.urgEff p | none => false)

/-- The row and the request of a decision, among the eligible heads `es` (R391). -/
def Mach.decide (m : Mach) (a : Nat) (rx floor : Bool) (es : List LineReq) : Option (Nat × LineReq) :=
  let k := dirKey a rx
  let e := m.slotEff a (m.pointer a rx)
  let o := m.slotOwner a rx (m.pointer a rx)
  let bg := es.filter fun q => !m.foreground q
  if floor && !bg.isEmpty then (bestHead bg).map (1, ·)
  else
    match if 32 ≤ e then bestHead (es.filter m.urgent) else none with
    | some q => some (2, q)
    | none =>
      match if o ≠ 31 && (a < 2 || 0 ≤ m.bal k o) then es.find? fun q => q.rq = o else none with
      | some q => some (3, q)
      | none =>
        let owed := if a < 2 then none else
          m.guarantees.findSome? fun v => if 17 ≤ m.bal k v then es.find? fun q => q.rq = v else none
        match owed with
        | some q => some (4, q)
        | none => (m.winner a false es).map (5, ·)

/-- MAXWAIT captures the run of a request that is granted or withdrawn at arbiter `a` (R400). -/
def Mach.showMaxWait (m : Mach) (a : Nat) (q : LineReq) : Mach :=
  let f := ROTA.MAXWAIT (arbPage a) q.rq
  if m.get f (arbInst a) < q.wait then m.put f (arbInst a) (satU 32 q.wait) else m

/-- A grant: the head leaves its queue, balances and counters move, and the request takes the next slot (R391 to R394, R400). -/
def Mach.grant (m : Mach) (a : Nat) (rx : Bool) (row : Nat) (q : LineReq) (es : List LineReq) : Mach :=
  let k := dirKey a rx
  let pg := arbPage a
  let i := arbInst a
  let n := max 1 q.md.nlines
  let m1 := (es.filter fun x => x.id ≠ q.id).foldl (fun (m : Mach) x =>
    (m.count (ROTA.CNT_WAIT pg x.rq) i).modSc fun s =>
      { s with queues := s.queues.upd (32 * k + x.rq) fun l => l.map fun y => if y.id = x.id then { y with wait := y.wait + 1 } else y }) m
  let m2 := m1.takeHead k q
  let m3 := if (row = 3 || row = 4) && 2 ≤ a then m2.setBal k q.rq (m2.bal k q.rq - 17 * n) else m2
  let m4 := m3.count (ROTA.CNT_GRANT pg q.rq) i n
  let m5 := m4.showMaxWait a q
  let m6 := if row = 2 then m5.count (ROTA.CNT_URGENT pg) i else if row = 1 then m5.count REEVE.CNT_FLOOR_GRANTS else m5
  m6.modRota fun r => { r with
    next := r.next.set k (some { q with fprev := m.sc.fprev.get (32 * k + q.rq) }), rows := r.rows.set k row }

/-- Put a granted request back at the head of its queue: its slot is dead, and it keeps its place and its tag (R395). -/
def Mach.putBack (m : Mach) (k : Nat) (q : LineReq) : Mach :=
  (m.modSc fun s => { s with queues := s.queues.upd (32 * k + q.rq) (q :: ·) }).count (ROTA.CNT_DEAD (arbPage (k / 2))) (arbInst (k / 2))

/-- A withdrawal after the grant (R395): the slot is dead, the request leaves without a charge, the next head is stamped from the
tag before the grant, a debit is returned, and the counters advance. -/
def Mach.withdrawGrant (m : Mach) (k : Nat) : Mach :=
  match m.rota.next.get k with
  | none => m
  | some q =>
    if !m.rota.withdrawn.contains q.id then m
    else
      let a := k / 2
      let row := m.rota.rows.get k
      let m1 := m.modSc fun s => { s with
        queues := s.queues.upd (32 * k + q.rq) fun l =>
          (match l with | [] => [] | x :: t => { x with ftag := some (q.fprev + m.tagStep x) } :: t),
        fprev := s.fprev.set (32 * k + q.rq) q.fprev }
      let m2 := if m.foreground q then m1 else m1.modAlm fun s => { s with spent := s.spent.upd a (· - q.len) }
      let m3 := if (row = 3 || row = 4) && 2 ≤ a then m2.setBal k q.rq (m2.bal k q.rq + 17 * max 1 q.md.nlines) else m2
      ((m3.count (ROTA.CNT_WITHDRAW (arbPage a) q.rq) (arbInst a)).count (ROTA.CNT_DEAD (arbPage a)) (arbInst a)).modRota fun r =>
        { r with next := r.next.set k none, withdrawn := r.withdrawn.erase q.id, dead := r.dead.set k true }

/-- Withdraw every line request that `p` names: those still queued, or refused by the hub, leave at once, one granted for the next slot leaves by R395, and a
read in flight is marked as discarded (R373, R395). The restarts that wait for such a read may go (R398). -/
def Mach.withdraw (m : Mach) (p : LineReq → Bool) : Mach :=
  let ids := m.rota.next.filterMap fun e => match e.2 with | some q => if p q then some q.id else none | none => none
  let gone := m.sc.queues.flatMap fun e => (e.2.filter p).map fun q => (e.1 / 64, q)
  let rd (o : Outst) : Bool := readsData o.req.md.op && p o.req
  let flying := m.zml.flatMap fun z => (z.2.outs.filter rd).map (·.req.id)
  let m1 := gone.foldl (fun (m : Mach) (x : Nat × LineReq) => m.showMaxWait x.1 x.2) (m.withdrawWhere p)
  let mark (z : ZmlSt) : ZmlSt := { z with outs := z.outs.map fun o => if rd o then { o with drop := true } else o }
  let drop (z : ZmlSt) : ZmlSt := if z.refused.any p then { z with refused := z.refused.filter fun q => !p q } else z
  let m2 : Mach := { m1 with zml := m1.zml.mapv fun _ z => drop (if z.outs.any rd then mark z else z) }
  let ended := ids ++ flying ++ gone.map (·.2.id)
  m2.modRota fun r => { r with
    withdrawn := r.withdrawn ++ ids,
    restarts := r.restarts.mapv fun _ l => (l.filter fun q => !p q).map fun q =>
      if ended.contains q.abortBy then { q with holdEnd := some m.now } else q }

/-! ### Programs aborted and restarted (R397, R398) -/

/-- The last flit of a command's message has left (R330). -/
def ZmlSt.wholeSent (z : ZmlSt) (o : Outst) : Bool := 0 < o.endAt && o.endAt + (z.tx.get 1).len ≤ z.queued.get 1

/-- A program that has been sent conflicts with a read that may abort (R330, R397). -/
def Mach.conflicts (m : Mach) (c : Nat) (rd : LineReq) (o : Outst) : Bool :=
  let k := m.get ROTA.DIE_MASK c
  o.req.md.op = opWriteLine && o.req.md.area = 0 && (m.zs c).wholeSent o && (o.req.md.seg &&& k) = (rd.md.seg &&& k)

/-- The read may abort programs (R397). -/
def Mach.mayAbort (m : Mach) (q : LineReq) : Bool :=
  m.mode ≠ mFlush && !m.flag POWER.STAT_STOPPED &&
    (q.rq = 10 || (match q.job with | .client p id _ => m.urgEff p = 3 && (m.req? p id).any fun r => r.op == opRead | _ => false))

/-- PROGRAM_ABORT goes out for every conflicting program below ABORT_LIMIT; one at the limit is declined (R330, R397). -/
def Mach.abortFor (m : Mach) (c : Nat) (q : LineReq) : Mach :=
  if !m.mayAbort q then m
  else
    (m.zs c).outs.foldl (fun (m : Mach) o =>
      if !m.conflicts c q o then m
      else if m.get ROTA.ABORT_LIMIT c ≤ o.req.aborts then (m.count ROTA.CNT_ABORT_DECLINED c).event .rotaM c 2
      else if o.abortBy.isSome then m
      else
        let m1 := (m.send c 0 8 (4 + o.ctag * 2 ^ 16)).modZml c fun z =>
          { z with outs := z.outs.map fun x => if x.ctag = o.ctag then { x with abortBy := some q.id, abortAt := m.now } else x }
        let m2 := m1.count ZML.CNT_ABORT c
        if q.rq = 10 then m2.count LOOM.CNT_ABORT else m2) m

/-- The read `id` has ended or was discarded: the restarts that wait for it may go (R398). -/
def Mach.readEnded (m : Mach) (c id : Nat) : Mach :=
  m.modRota fun r => { r with
    restarts := r.restarts.upd c fun l => l.map fun q => if q.abortBy = id then { q with holdEnd := some m.now } else q }

/-- RESTART_HOLD_END (R398): a restart whose hold has ended stands at the head of its queue with its original tag. -/
def restartHoldEnd (c : Nat) (m : Mach) : Mach :=
  match (m.rota.restarts.get c).find? fun q => q.holdEnd.all (· ≤ m.now) with
  | none => m
  | some q =>
    let k := dirKey (tgtMedia c) false
    (m.modRota fun r => { r with restarts := r.restarts.upd c fun l => l.filter fun x => x.id ≠ q.id }).modSc fun s =>
      { s with queues := s.queues.upd (32 * k + q.rq) ({ q with holdEnd := none } :: ·) }

/-! ### The slot begins (R394, R395) -/

/-- The granted request of an arbiter's next slot is issued, or its slot is dead. -/
def Mach.slotBegin (m : Mach) (a : Nat) (rx : Bool) : Mach :=
  let k := dirKey a rx
  let m0 := (m.withdrawGrant k).modRota fun r => { r with dead := r.dead.set k false }
  match m0.rota.next.get k with
  | none => m0
  | some q =>
    let m1 := m0.modRota fun r => { r with next := r.next.set k none }
    if a < 2 then
      if m.stackIn a then
        ((m1.closeRows a q.pc).modPc a q.pc fun p => { p with queue := p.queue ++ [{ q with since := m.now, wait := 0 }], idleAt := m.ck }).showQ a
      else m1.putBack k q
    else if m.linkServes (a - 2) then
      (if q.restart then m1.count ROTA.CNT_RESTART (a - 2) else m1).issue (a - 2) q
    else m1.putBack k q

/-- The heads of a transmit direction whose program would reach the ceiling of its segment have it raised, and wait (R209). -/
def Mach.headsLease (m : Mach) (a : Nat) (rx : Bool) : Mach :=
  if rx || a < 2 then m
  else (m.heads (dirKey a rx)).foldl (fun (m : Mach) q => if q.md.area = 0 then m.leaseWant (a - 2) q.md.seg q.md.programs else m) m

/-- A decision of arbiter `a` in a direction: the slot granted before begins, then the next is decided on the state before it
(R391, R394). -/
def rotaDecision (a : Nat) (rx : Bool) (adv : Nat) (m : Mach) : Mach :=
  if !m.running then m
  else
    let k := dirKey a rx
    let n := m.sc.decisions.get k
    let m0 := ((m.slotBegin a rx).modSc fun s => { s with decisions := s.decisions.set k ((n + 1) % 64) }).headsLease a rx
    let es := (m0.heads k).filter (m.eligible a rx)
    let m1 := match m.decide a rx (n = 63) es with
      | none => m0
      | some (row, q) => if rx then (m0.grant a rx row q es).abortFor (a - 2) q else m0.grant a rx row q es
    m1.stepPointers a rx (if a < 2 then 1 else adv)

/-- The requests that wait to be issued: queued at stage C, granted for a next slot, held as a restart, or refused in HOLD. -/
def Mach.waitingReqs (m : Mach) : List LineReq :=
  m.sc.queues.flatMap (·.2) ++ m.rota.next.filterMap (·.2) ++ m.rota.restarts.flatMap (·.2) ++ m.zml.flatMap (·.2.refused)

/-- WITHDRAW (R395): the granted request of a direction leaves before its slot. -/
def withdrawCmd (k : Nat) (m : Mach) : Mach := m.withdrawGrant k

def execRotaHDecision (n : BitVec 1) (s : State) := answer s (rotaDecision n.toNat false 1)
def execRotaMRxDecision (c : BitVec 5) (adv : BitVec 7) (s : State) := answer s (rotaDecision (2 + c.toNat) true adv.toNat)
def execWithdraw (a : BitVec 6) (rx : Bool) (s : State) := answer s (withdrawCmd (dirKey (a.toNat % 34) rx))
def execRestartHoldEnd (c : BitVec 5) (s : State) := answer s (restartHoldEnd c.toNat)

end Sys2Proof.Machine
end

