-- ==== Sys2Proof/Machine/Ports.lean ====
section
/-! DEFINITION. The client ports: acceptance and its checks, write data, presentation, responses, credits, urgency, clocks and
PORT_READY (chapter "Iresk client ports", R62 to R90), with the presentation rules of "Ordering, visibility and durability". -/
namespace Sys2Proof.Machine

/-! ### Status codes (R74) -/

def stOk : Nat := 0
def stRetried : Nat := 1
def stRecomputed : Nat := 2
def stUnwritten : Nat := 3
def stPoison : Nat := 4
def stWritePoisoned : Nat := 5
def stDenied : Nat := 6
def stRange : Nat := 7
def stLate : Nat := 8
def stAborted : Nat := 9
def stHeld : Nat := 10

/-! ### Clocks and PORT_READY (R82 to R84) -/

/-- Root periods of one PCLK cycle of a port (R82). -/
def Mach.pclkDiv (m : Mach) (n : Nat) : Nat :=
  match m.get PORT.PCLK_SEL (n / 2 * 2) with
  | 0 => 12 | 1 => 16 | 2 => 24 | _ => 32

/-- Bring CNT_URG3_CYCLES up to now (R80), and with it what a change of URG_EFF alters: CNT_URG3_BYPASS and the port's meter, whose
CIR the bypass may change (R375). -/
def Mach.settleUrg (m0 : Mach) (n : Nat) : Mach :=
  let m := if m0.rflag (REEVE.PM_BE n) then m0.settleFb.setPortMeter n (m0.portMeter n) else m0
  let p := m.port n
  let d := m.pclkDiv n
  let k := m.now / d - p.urgAt / d
  let m1 := m.modPort n fun p => { p with urgAt := m.now }
  if m.urgEff n = 3 && m.flag PORT.STAT_PCLK_RUN n then m1.count PORT.CNT_URG3_CYCLES n k else m1

/-- Bring CNT_TAG_STALL up to now while a request is held on a reused tag (R76); no cycle passes while PCLK stands. -/
def Mach.settleTag (m : Mach) (n : Nat) : Mach :=
  match (m.port n).tagStall with
  | none => m
  | some t =>
    let d := m.pclkDiv n
    let m1 := if m.flag PORT.STAT_PCLK_RUN n then m.count PORT.CNT_TAG_STALL n (m.now / d - t / d) else m
    m1.modPort n fun p => { p with tagStall := some m.now }

/-- The request held on a reused tag is held no longer (R76). -/
def Mach.endTagStall (m : Mach) (n : Nat) : Mach := (m.settleTag n).modPort n fun p => { p with tagStall := none }

/-- The Core's mode offers service on the ports (R84). -/
def Mach.offersService (m : Mach) : Bool :=
  m.outOfReset && m.released &&
    (m.mode = mRun || m.mode = mDegraded || m.mode = mFlush || (m.mode = mBringup && m.flag GLOBAL.STAT_SERVICE))

/-- The power domain of a port. -/
def Mach.portPowered (m : Mach) (n : Nat) : Bool := bitAt (m.get POWER.PD_ON) (13 + n / 4)

/-- PORT_READY takes the level that R84 gives it. A rise takes PLY_CREDITS and, except across SAFEHOLD and FLUSH, starts the credit
count afresh (R78). With a fall a request held on a reused tag is held no longer, for no request stands at the port (R76, R85). DESIGN
CHOICE (log entry 83): STAT.TRICKLE reads 1 on a port that may serve, and a credit count carried across SAFEHOLD
stands even above a PLY_CREDITS lowered meanwhile. -/
def Mach.portLevel (m : Mach) (n : Nat) : Mach :=
  let want := m.flag PORT.CTL_ENABLE n && m.offersService && m.portPowered n
  let is := m.flag PORT.STAT_READY n
  let m0 := m.setFlag PORT.STAT_TRICKLE n (want && m.mode = mBringup)
  if want && !is then
    let p := m0.port n
    let c := m0.get PORT.PLY_CREDITS n
    let m1 := (m0.setFlag PORT.STAT_READY n true).modPort n fun p => { p with credits := c }
    if p.carryCredit then m1 else m1.put PORT.PLY_CRED_NOW n c
  else if is && !want then
    ((m0.endTagStall n).setFlag PORT.STAT_READY n false).modPort n fun p => { p with carryCredit := m.mode = mSafehold }
  else m0

/-- A port is quiet: no request outstanding and the intake empty (R90). -/
def Mach.quiet (m : Mach) (n : Nat) : Bool := (m.port n).reqs.isEmpty

/-- A stopped list is still pushing an entry to the port (R155). -/
def Mach.plyBusy (m : Mach) (n : Nat) : Bool := m.loom.seqs.any fun q =>
  m.get SEQ.STAT_STATE q.1 = 4 && m.get SEQ.PORT q.1 = n && q.2.queue.any fun e => !e.mark && (0 < e.pushed || 0 < e.beat)

/-- PCLK of a pair runs while either port is enabled or busy, with the PLL locked, outside SAFEHOLD and residence in a sleeping
mode; during the entry of a sleeping mode only while a port is busy (R83, R84). A URG that rose while PCLK stood takes effect with the
first cycle (R80). -/
def Mach.pairClock (m : Mach) (k : Nat) : Mach :=
  let busy (n : Nat) : Bool := (m.flag PORT.CTL_ENABLE n && !m.asleep) || !m.quiet n || m.plyBusy n
  let on := (busy (2 * k) || busy (2 * k + 1)) && m.outOfReset && m.running && m.flag CLOCK.STAT_PLL_LOCK
  [2 * k, 2 * k + 1].foldl (fun (m : Mach) n =>
    if m.flag PORT.STAT_PCLK_RUN n = on then m
    else
      let m1 := (((m.settleUrg n).settleTag n).setFlag PORT.STAT_PCLK_RUN n on).modPort n fun p => { p with pclkAt := m.now }
      if on && m.urgEff n < (m.port n).urg then m1.put PORT.STAT_URG_EFF n (m.port n).urg else m1) m

/-- Show INTAKE_LEVEL, OUTSTANDING and QUIET of a port, and stop its clock once it may stop. -/
def Mach.showPort (m : Mach) (n : Nat) : Mach :=
  let l := (m.port n).reqs
  (((m.put PORT.INTAKE_LEVEL n (l.filter fun r => r.phase == .intake).length).put PORT.OUTSTANDING n l.length).setFlag
    PORT.STAT_QUIET n l.isEmpty).pairClock (n / 2)

/-- Every port takes its level and its clock, as after a change of mode (R83, R84). -/
def Mach.portLevels (m : Mach) : Mach :=
  (List.range 16).foldl (fun (m : Mach) n => m.portLevel n) ((List.range 8).foldl (fun (m : Mach) k => m.pairClock k) m)

/-- PCLK_SEL_WRITE (R82): taken only on an even port while both ports of the pair are disabled and quiet. -/
def pclkSelWrite (n v : Nat) (m : Mach) : Mach :=
  if n % 2 = 1 then m
  else
    let still (k : Nat) : Bool := !m.flag PORT.CTL_ENABLE k && m.quiet k
    if still n && still (n + 1) then (m.put PORT.PCLK_SEL n (v % 4)).put PORT.PCLK_SEL (n + 1) (v % 4)
    else m.reject .port n

/-- PORT_ENABLE_WRITE (R84): PORT_READY follows CTL.ENABLE as the mode allows, and PCLK starts or stops. -/
def portEnableWrite (n v : Nat) (m : Mach) : Mach :=
  ((m.setFlag PORT.CTL_ENABLE n (v % 2 = 1)).pairClock (n / 2)).portLevel n

/-! ### Streams as the ports see them (R121, R122) -/

/-- State of a stream: 0 IDLE, 1 RUNNING, 2 STOPPING, 3 COMMITTED (R138). -/
def Mach.strState (m : Mach) (k : Nat) : Nat := m.get STREAM.STAT_STATE k
/-- A stream reserves its target (R122). -/
def Mach.strActive (m : Mach) (k : Nat) : Bool := m.strState k = 1 || m.strState k = 2
/-- First logical line and number of lines of a stream's target. -/
def Mach.strBase (m : Mach) (k : Nat) : Nat := m.get STREAM.TARGET_ADDR k / 256
def Mach.strLines (m : Mach) (k : Nat) : Nat := m.get STREAM.TARGET_LEN k / 256
/-- A port is a source of a stream. -/
def Mach.strSource (m : Mach) (k port : Nat) : Bool := bitAt (m.get STREAM.SRC_PORTS k) port
/-- The active stream whose target holds a logical line. -/
def Mach.strOfLine (m : Mach) (l : Nat) : Option Nat :=
  (List.range 32).find? fun k => m.strActive k && m.strBase k ≤ l && l < m.strBase k + m.strLines k

/-- The stream that a request feeds, if it feeds one (R121, R122). -/
def Mach.feeds (m : Mach) (port op addr : Nat) : Option Nat :=
  if op = opAppend then
    let k := addr % 32
    if m.strActive k && !m.flag STREAM.MODE_INTAKE k && m.strSource k port then some k else none
  else if op = opWrite || op = opWriteMasked then
    (m.strOfLine (addr / 256)).filter fun k => m.flag STREAM.MODE_INTAKE k && m.strSource k port
  else none

/-! ### Acceptance (R65 to R71, R76) -/

/-- The namespace that check 4 of R69 judges. -/
def Mach.reqNs (m : Mach) (op addr : Nat) : Nat :=
  if op = opAppend then m.get STREAM.TARGET_ADDR (addr % 32) / 2 ^ 52 else addr / 2 ^ 52

/-- The port holds the permission that the op needs (R67, R69 check 5, R122). -/
def Mach.permitted (m : Mach) (port op addr len : Nat) : Bool :=
  let d := m.nsDesc (m.reqNs op addr)
  let rd := bitAt d.readPorts port
  let wr := bitAt d.writePorts port
  if op = opAppend then wr && (m.feeds port op addr).isSome
  else if op = opPersistNs then rd || wr
  else if op = opRead || op = opPrefetch then rd
  else
    let lo := addr / 256
    let hi := (addr + 64 * len + 63) / 256
    let hit := (List.range (hi + 1 - lo)).any fun i => (m.strOfLine (lo + i)).isSome
    wr && (!hit || (m.feeds port op addr).isSome)

/-- The status of the first check of R69 that fails. -/
def Mach.intakeCheck (m : Mach) (port op addr len cls : Nat) : Option Nat :=
  let lines := op = opClearPoison || op = opZero
  if 9 < op then some stRange
  else if op = opFence || op = opPersist then none
  else if addressed op && (addr % 64 ≠ 0 || 4096 < addr % 4096 + 64 * (len + 1) ||
      (lines && (addr % 256 ≠ 0 || (len + 1) % 4 ≠ 0))) then some stRange
  else if op = opAppend && m.strState (addr % 32) = 0 then some stRange
  else if !bitAt (m.get PORT.CLASS_MASK port) cls then some stDenied
  else if !(m.nsDesc (m.reqNs op addr)).exists_ then some stRange
  else if !m.permitted port op addr len then some stDenied
  else if addressed op && (m.nsDesc (addr / 2 ^ 52)).size < addr % 2 ^ 52 + 64 * (len + 1) then some stRange
  else none

/-- An intake check failed: counters, events and the fault record (R69). -/
def Mach.intakeFail (m : Mach) (port : Nat) (r : Req) (st : Nat) : Mach :=
  let clear := m.get (evField .port) port &&& (2 ^ PORT.EV_DENIED + 2 ^ PORT.EV_RANGE) = 0
  let m1 := if st = stDenied then (m.count PORT.CNT_DENIED port).event .port port PORT.EV_DENIED
    else (m.count PORT.CNT_RANGE port).event .port port PORT.EV_RANGE
  if clear then
    ((((m1.put PORT.FAULT_ADDR port r.addr).put PORT.FAULT_OP port r.op).put PORT.FAULT_TAG port r.tag).put PORT.FAULT_OID port
      r.oid).put PORT.FAULT_STATUS port st
  else m1

/-- A WDAT beat joins the oldest write-bearing request that lacks beats (R70, R71); none when there is no such request. -/
def Mach.giveBeat (m : Mach) (port : Nat) (b : WBeat) (last : Bool) : Option Mach :=
  match (m.port port).reqs.find? fun r => writeBearing r.op && !r.closed with
  | none => none
  | some r =>
    let n := r.beats.length + 1
    let full := n = r.len + 1
    let bad := last ≠ full
    let m1 := m.modReq port r.id fun (r : Req) => { r with
      beats := r.beats ++ [b], closed := last || full,
      fail := if bad && r.fail.isNone then some stRange else r.fail,
      status := if bad && r.fail.isNone then stRange else r.status,
      phase := if bad then .ready else r.phase }
    let m2 := if bad then
        let m2 := (m1.event .port port PORT.EV_WDAT_FRAMING).modPort port fun p => { p with discard := full && !last }
        if r.fail.isNone then m2.count PORT.CNT_RANGE port else m2
      else m1
    some m2

/-- Beats buffered ahead of their request go to the requests that now want them. -/
def Mach.giveEarly (m : Mach) (port : Nat) : Nat → Mach
  | 0 => m
  | n + 1 =>
    match (m.port port).early with
    | [] => m
    | (b, last) :: rest =>
      let m0 := m.modPort port fun p => { p with early := rest }
      if (m.port port).discard then
        ((if last then m0.modPort port fun p => { p with discard := false } else m0)).giveEarly port n
      else
        match m0.giveBeat port b last with
        | some m1 => m1.giveEarly port n
        | none => m

/-- What other ports' completed writes to a namespace left that is not known durable (R105). -/
def Mach.otherLines (m : Mach) (port ns : Nat) : List (Nat × Nat) :=
  ((List.range 16).filter (· ≠ port)).flatMap fun n =>
    let p := m.port n
    (p.wrote.filter fun w => lineNs w.1 = ns && !(p.reqs.any fun r => r.id = w.2.1)).map fun w => (w.1, w.2.2)

/-- The same for what went into streams. -/
def Mach.otherStr (m : Mach) (port ns : Nat) : List (Nat × Nat) :=
  ((List.range 16).filter (· ≠ port)).flatMap fun n =>
    let p := m.port n
    (p.fed.filter fun w => m.get STREAM.TARGET_ADDR w.1 / 2 ^ 52 = ns && !(p.reqs.any fun r => r.id = w.2.1)).map fun w =>
      (w.1, w.2.2.2)

/-- REQ_ACCEPT (R62, R65, R69, R70, R76): a REQ transfer, its checks and its place in the intake queue. A reused tag is held. -/
def reqAccept (port op tag oid addr len cls attr : Nat) (m : Mach) : Mach :=
  let p := m.port port
  if !m.flag PORT.STAT_READY port || !m.flag PORT.STAT_PCLK_RUN port then m
  else if p.reqs.any fun r => r.tag = tag then
    (m.modPort port fun p => { p with tagStall := some (p.tagStall.getD m.now), tagHeld := tag }).event .port port PORT.EV_TAG_REUSE
  else if 512 ≤ m.get PORT.INTAKE_LEVEL port || 4096 ≤ p.reqs.length then m
  else
    let m0 := m.endTagStall port
    let bad := m0.intakeCheck port op addr len cls
    let r : Req := { (default : Req) with
      id := m0.serial, op := op, tag := tag, oid := oid, addr := addr, len := len, cls := cls, attr := attr, at_ := m0.now,
      closed := !writeBearing op, fail := bad, status := bad.getD 0, rcls := cls,
      coverLines := if op = opPersistNs && bad.isNone then m0.otherLines port (addr / 2 ^ 52) else [],
      coverStr := if op = opPersistNs && bad.isNone then m0.otherStr port (addr / 2 ^ 52) else [],
      phase := if bad.isSome then .ready else .intake, stream := if bad.isSome then none else m0.feeds port op addr }
    let m1 : Mach := { m0 with serial := m0.serial + 1 }
    let m2 := (m1.modPort port fun p => { p with reqs := p.reqs ++ [r] }).count PORT.CNT_REQ port
    let m3 := match bad with | some st => m2.intakeFail port r st | none => m2
    (m3.giveEarly port 65).showPort port

/-- WDAT_BEAT (R70, R71): a beat is taken by its request, buffered ahead of it, or discarded. -/
def wdatBeat (port : Nat) (data : Beat) (be : ByteEn) (last : Bool) (m : Mach) : Mach :=
  let p := m.port port
  if !m.flag PORT.STAT_READY port || !m.flag PORT.STAT_PCLK_RUN port then m
  else
    let m0 := m.count PORT.CNT_WR_BEATS port
    if p.discard then (if last then m0.modPort port fun p => { p with discard := false } else m0)
    else if p.early.isEmpty then
      match m0.giveBeat port ⟨data, be⟩ last with
      | some m1 => m1.showPort port
      | none => m0.modPort port fun p => { p with early := [(⟨data, be⟩, last)] }
    else if p.early.length < 64 then m0.modPort port fun p => { p with early := p.early ++ [(⟨data, be⟩, last)] }
    else m

/-! ### Presentation (R75, R84, R100, R102, R115, R130) -/

/-- A line range of a request meets a hold of another port (R115). DESIGN CHOICE (log entry 84): of two holds that it meets, the one placed
first bounds its stall. -/
def Mach.heldRange (m : Mach) (port : Nat) (r : Req) : Option Hold :=
  if !writesLines r.op || r.op = opAppend then none
  else m.order.holds.find? fun h =>
    h.port ≠ port && h.ns = r.ns && r.addr % 2 ^ 52 / 256 * 256 < h.off + h.len &&
      h.off < (r.addr % 2 ^ 52 / 256 + r.nlines) * 256

/-- Unpresented requests of a port, oldest first. -/
def PortSt.intake (p : PortSt) : List Req := p.reqs.filter fun r => r.phase == .intake

/-- Every request before the global fence's mark has gone on to stage C, to Kiln or further: requests after the mark may follow, and wait
there behind it (R102, R103). -/
def Mach.markPassed (m : Mach) : Bool := (List.range 16).all fun p => (m.port p).reqs.all fun r =>
  m.order.mark ≤ r.id || !(r.phase == .intake || r.phase == .portHeld || r.phase == .classWait || r.phase == .shaper)

/-- A request may still take effect on line `l`: at Kiln it has not been staged, elsewhere its line is not done. An APPEND's line is not
known before its turn, so it counts for every line of its stream's target. -/
def Mach.mayTouch (m : Mach) (x : Req) (l : Nat) : Bool :=
  x.fail.isNone && x.phase ≠ .ready &&
    match x.stream with
    | some k => if x.op = opAppend then m.strBase k ≤ l && l < m.strBase k + m.strLines k else x.touches l
    | none => addressed x.op && x.touches l && (x.lines.getD (l - x.addr / 256) default).phase ≠ .done

/-- An older request of the port that `r` must follow on line `l` has not taken effect there yet: one of its OID, or another write when
`r` writes (R93, R94). -/
def Mach.olderPending (m : Mach) (port : Nat) (r : Req) (l : Nat) : Bool :=
  (m.port port).reqs.any fun x =>
    x.id < r.id && (x.oid = r.oid || (writesLines x.op && writesLines r.op)) && m.mayTouch x l

/-- An intake request may be presented but for a range hold (R75, R84, R100, R102, R130, R365). -/
def Mach.presentable (m : Mach) (port : Nat) (q : List Req) (r : Req) : Bool :=
  let before := q.takeWhile fun x => x.id ≠ r.id
  r.closed && !(before.any fun x => x.oid = r.oid) &&
    !(writesLines r.op && before.any fun x => writesLines x.op && (x.op ≠ opAppend && r.op ≠ opAppend) && x.meets r) &&
    !((m.port port).reqs.any fun x => x.op = opFence && x.id < r.id && x.phase ≠ .ready) &&
    !(m.behindMark r.id && (ordering r.op || !m.markPassed)) &&
    !(m.mode = mFlush && writesLines r.op) &&
    !(match r.stream with | some k => m.flag STREAM.STAT_HELD k | none => false)

/-- The class by which the intake ranks a request. CLASS of FENCE and PERSIST is ignored (R67); DESIGN CHOICE (log entry 83): they rank
with CLASS_0. -/
def Req.rankCls (r : Req) : Nat := if r.op = opFence || r.op = opPersist then 0 else r.cls

/-- The request that a port presents next among eligible ones: highest class first and oldest within it; the oldest at every 64th
presentation and in Trickle service (R75, R84). -/
def Mach.presentChoice (m : Mach) (port : Nat) (es : List Req) : Option Req :=
  if (m.port port).presented = 63 || m.flag PORT.STAT_TRICKLE port then es.head?
  else es.foldl (fun b r => match b with | none => some r | some x => if x.rankCls < r.rankCls then some r else some x) none

/-- The writes of its port for whose effect a PERSIST waits: those to EPHEMERAL namespaces are excluded, but a PERSIST_NS waits for them
in its own (R104, R105). -/
def Mach.coverOf (m : Mach) (port : Nat) (r : Req) : List Nat :=
  ((m.port port).reqs.filter fun x => x.id < r.id && writesLines x.op && x.fail.isNone &&
    (if r.op = opPersist then !(m.nsDesc (m.reqNs x.op x.addr)).ephemeral else m.reqNs x.op x.addr = r.ns)).map (·.id)

/-- INTAKE_PRESENT (R75, R363 to R368): the intake queue of a port presents one eligible request. -/
def intakePresent (port : Nat) (m : Mach) : Mach :=
  if !m.fabricUp || (m.port port).reqs.any (fun r => r.phase == .portHeld) then m
  else
    let q := (m.port port).intake
    let free := q.filter (m.presentable port q)
    let stalled := free.filter fun r => (m.heldRange port r).isSome
    let m0 := stalled.foldl (fun (m : Mach) r => m.modReq port r.id fun (x : Req) => { x with stall := some (x.stall.getD m.now) }) m
    match m.presentChoice port (free.filter fun r => (m.heldRange port r).isNone) with
    | none => m0
    | some r =>
      let m1 := (m0.modPort port fun p => { p with presented := (p.presented + 1) % 64 }).modReq port r.id fun (x : Req) =>
        { x with stall := none, pseq := m0.serial }
      let m2 : Mach := { m1 with serial := m1.serial + 1 }
      let m3 := if ordering r.op then
          m2.modReq port r.id fun (x : Req) => { x with phase := .order, covers := if r.op = opFence then [] else m.coverOf port r }
        else m2.portStep port { r with pseq := m0.serial } false
      m3.showPort port

/-! ### Responses (R73, R74, R92) -/

/-- Response beats of a request: READ has LEN + 1, every other one (R67, R69). -/
def Req.rspBeats (r : Req) : Nat := if r.op = opRead && r.fail.isNone then r.len + 1 else 1

/-- The line of a READ that holds response beat `j`, and the beat's place in it. -/
def Req.beatPlace (r : Req) (j : Nat) : Nat × Nat := ((r.addr % 256 / 64 + j) / 4, (r.addr % 256 / 64 + j) % 4)

/-- Beat `j` of a response: data and status (R73, R74). -/
def Req.beat (r : Req) (j : Nat) : Beat × Nat :=
  if r.op = opRead && r.fail.isNone && r.status ≠ stAborted then
    let q := r.beatPlace j
    let l := r.lines.getD q.1 default
    (if l.status ≤ stRecomputed then Line.beat l.data q.2 else 0, l.status)
  else ((r.word0.setWidth 512 : Beat), r.status)

/-- Beat `j` of a response may be driven: the request has taken effect, for a READ on the line that holds the beat (R92). -/
def Req.beatReady (r : Req) (j : Nat) : Bool :=
  r.closed && (r.phase == .ready ||
    (r.op = opRead && r.fail.isNone && (r.lines.getD (r.beatPlace j).1 default).phase == .done &&
      (r.lines.take ((r.beatPlace j).1 + 1)).all fun l => l.phase == .done))

/-- A response may begin or go on: order within its OID, the FENCE order of R100, and chunks kept whole (R73). -/
def Mach.rspTurn (m : Mach) (port : Nat) (r : Req) : Bool :=
  let p := m.port port
  let before := p.reqs.filter fun x => x.id < r.id
  !(before.any fun x => x.oid = r.oid || x.op = opFence) && (r.op ≠ opFence || before.isEmpty) &&
    (match p.chunk with | some id => id = r.id | none => true)

/-- A response that counts as an error (R89). -/
def Req.errRsp (r : Req) : Bool :=
  r.status = stWritePoisoned || r.status = stAborted || r.status = stHeld ||
    (r.op = opRead && r.lines.any fun l => l.status = stPoison)

/-- RSP_BEAT (R63, R73, R76): the next beat of the response to a tag is transferred; the last one completes the request. -/
def rspBeat (port tag : Nat) (m : Mach) : Mach :=
  match (m.port port).reqs.find? fun r => r.tag = tag with
  | none => m
  | some r =>
    if !(m.flag PORT.STAT_PCLK_RUN port && r.beatReady r.sent && m.rspTurn port r) then m
    else
      let b := r.beat r.sent
      let last := r.sent + 1 = r.rspBeats
      let rd := r.op = opRead && r.fail.isNone
      let endChunk := last || !rd || (r.beatPlace r.sent).2 = 3
      let m1 := m.modPort port fun p => { p with
        rsp := some ⟨b.1, tag, b.2, last⟩, chunk := if endChunk then none else some r.id }
      let m2 := if rd then m1.count PORT.CNT_RD_BEATS port else m1
      if !last then m2.modReq port r.id fun (x : Req) => { x with sent := x.sent + 1 }
      else
        let m2 := if (m2.port port).tagStall.isSome && (m2.port port).tagHeld = tag then m2.endTagStall port else m2
        let m3 := (m2.recordLatency port r).modPort port fun p => { p with reqs := p.reqs.filter fun x => x.id ≠ r.id }
        let m4 := if r.errRsp then m3.count PORT.CNT_ERR_RSP port else m3
        let m5 := if r.status = stHeld then m4.event .port port PORT.EV_HELD_TIMEOUT else m4
        m5.showPort port

/-! ### PLY credit and urgency (R77, R80, R81) -/

/-- PLY_CREDIT (R77). -/
def plyCredit (port : Nat) (m : Mach) : Mach :=
  if !m.flag PORT.STAT_PCLK_RUN port then m
  else if m.get PORT.PLY_CRED_NOW port < (m.port port).credits then m.put PORT.PLY_CRED_NOW port (m.get PORT.PLY_CRED_NOW port + 1)
  else m.event .port port PORT.EV_CREDIT_OVF

/-- The AON watch of a port begins to time a URG of 3 (R81): with PORT_READY low in EMBER, SMOULDER or their entry. -/
def Mach.urgWatch (m : Mach) (port : Nat) : Mach :=
  let on := m.asleep && !m.flag PORT.STAT_READY port && (m.port port).urg = 3
  m.modPort port fun q => { q with urg3At := if !on then 0 else if q.urg3At = 0 then m.now + 1 else q.urg3At }

/-- A URG of 3 that an enabled port has held for two AON cycles, 384 root periods, is a wake source (R81, R449). -/
def Mach.urgWake (m : Mach) (port : Nat) : Mach :=
  let t := (m.port port).urg3At
  if m.flag PORT.CTL_ENABLE port && t ≠ 0 && t - 1 + 384 ≤ m.now then m.wake 4 port else m

/-- URG_CHANGE (R80, R81): URG is sampled at a new value. A rise takes effect; a fall starts the hold-off. In EMBER and SMOULDER
the AON watch of the port times the value 3. -/
def urgChange (port v : Nat) (m : Mach) : Mach :=
  let p := m.port port
  let m0 := m.settleUrg port
  let eff := m.urgEff port
  let m1 := m0.modPort port fun q => { q with
    urg := v, urgFall := if eff ≤ v then none else if p.urg = v && p.urgFall.isSome then p.urgFall else some m.now }
  let m2 := if eff < v && m.flag PORT.STAT_PCLK_RUN port then m1.put PORT.STAT_URG_EFF port v else m1
  m2.urgWatch port

/-- URG_FALL_EXPIRE (R80): the lower value has been held for 1 µs. -/
def urgFallExpire (port : Nat) (m : Mach) : Mach :=
  let p := m.port port
  match p.urgFall with
  | some t =>
    if t + usec 1 ≤ m.now then
      ((m.settleUrg port).put PORT.STAT_URG_EFF port p.urg).modPort port fun q => { q with urgFall := none }
    else m
  | none => m

def execReqAccept (port : BitVec 4) (op : BitVec 5) (tag : BitVec 12) (oid : BitVec 6) (addr : BitVec 60) (len : BitVec 6)
    (cls : BitVec 3) (attr : BitVec 8) (s : State) :=
  answer s (reqAccept port.toNat op.toNat tag.toNat oid.toNat addr.toNat len.toNat cls.toNat attr.toNat)
def execWdatBeat (port : BitVec 4) (data : Beat) (be : ByteEn) (last : Bool) (s : State) :=
  answer s (wdatBeat port.toNat data be last)
def execIntakePresent (port : BitVec 4) (s : State) := answer s (intakePresent port.toNat)
def execRspBeat (port : BitVec 4) (tag : BitVec 12) (s : State) := answer s (rspBeat port.toNat tag.toNat)
def execPlyCredit (port : BitVec 4) (s : State) := answer s (plyCredit port.toNat)
def execUrgChange (port : BitVec 4) (v : BitVec 2) (s : State) := answer s (urgChange port.toNat v.toNat)
def execUrgFallExpire (port : BitVec 4) (s : State) := answer s (urgFallExpire port.toNat)
def execPclkSelWrite (a : BitVec 3) (port : BitVec 4) (v : BitVec 2) (s : State) :=
  answer s fun m => m.viaCfg a.toNat .port port.toNat 0x100 v.toNat (pclkSelWrite port.toNat v.toNat)

end Sys2Proof.Machine
end

