-- ==== Sys2Proof/Machine/Overtake.lean ====
section
/-! DEFINITION. What a newer value of a line does to reads, repairs and rewrites of it that are under way (chapters "Wear and drift of the
medium", R228, and "Line integrity, recovery and scrubbing", R244, R260). -/
namespace Sys2Proof.Machine

/-- Change the line-recovery state. -/
def Mach.modErr (m : Mach) (f : ErrSt → ErrSt) : Mach := { m with err := f m.err }

/-- The key of a line in repairs, rewrites and Gleaner reads: a parity line goes by data line 0 of its stripe plus 2^56. -/
def parKey (line : Nat) (par : Bool) : Nat := if par then line + 2 ^ 56 else line

/-- A Gleaner pass waits for a program with this code. -/
def gleanWaits (g : Nat) : Bool := g ≠ 0 && g ≠ 4

/-- What a Gleaner count `g` is in the summary (R260). -/
def gleanField (g : Nat) : Field := if g = 1 then GLN.SUM_RETRIED else if g = 2 then GLN.SUM_RECOMPUTED else GLN.SUM_POISONED

/-- The line whose visit a read or program of the pass belongs to: a parity line goes with the first line of its stripe that lies in the
range (R259). -/
def Mach.gleanVisitOf (m : Mach) (key : Nat) : Nat :=
  if 2 ^ 56 ≤ key then max (key - 2 ^ 56) (m.get GLN.START / 256) else key

/-- The pass has `n` more reads or programs of a line outstanding. -/
def Mach.gleanAdd (m : Mach) (key n : Nat) : Mach :=
  m.modErr fun e => { e with gFly := e.gFly ++ List.replicate n (m.gleanVisitOf key) }

/-- `n` reads or programs of a line have been acknowledged, or dropped. -/
def Mach.gleanSub (m : Mach) (key n : Nat) : Mach :=
  m.modErr fun e => { e with gFly := (List.range n).foldl (fun (l : List Nat) _ => l.erase (m.gleanVisitOf key)) e.gFly }

/-- SUM_FIRST_BAD and SUM_LAST_BAD, the lowest and highest address of the lines `l`; a parity line goes by data line 0 (R262). -/
def Mach.setBad (m : Mach) (l : List Nat) : Mach :=
  ((m.modErr fun e => { e with gBad := l }).put GLN.SUM_FIRST_BAD 0 (256 * l.foldl min (l.headD 0))).put GLN.SUM_LAST_BAD 0
    (256 * l.foldl max 0)

/-- Programs `gs`, each a key and a count, that a Gleaner pass waits for are dropped: the count of each line moves to SKIPPED, once for
each line (R260). -/
def Mach.gleanDropped (m : Mach) (gs : List (Nat × Nat)) : Mach :=
  let ws := gs.filter fun g => gleanWaits g.2
  if ws.isEmpty then m
  else ((ws.map (·.1)).eraseDups.foldl (fun (m : Mach) key =>
    let of := ws.filter fun g => g.1 = key
    let f := gleanField ((of.head?.map (·.2)).getD 0)
    let m1 := ((m.put f 0 (m.get f - 1)).put GLN.SUM_SKIPPED 0 (m.get GLN.SUM_SKIPPED + 1)).gleanSub key of.length
    m1.setBad (m1.err.gBad.erase (key % 2 ^ 56))) m).unitsEnded m 2

/-- Withdraw the repair and poison programs of a line that wait (R244, R260). -/
def Mach.dropRepairs (m : Mach) (key : Nat) : Mach :=
  let mine (q : LineReq) : Option (Nat × Nat) := match q.job with | .repair l g => if l = key then some (l, g) else none | _ => none
  let gs := m.waitingReqs.filterMap mine
  if gs.isEmpty then m else (m.withdraw fun q => (mine q).isSome).gleanDropped gs

/-- A drift rewrite drops its program of a line: one that still waits is withdrawn, and one still to come is not made (R228). -/
def Mach.dropRewrite (m : Mach) (uk key : Nat) : Mach :=
  if (m.map.rws.any fun p => p.1 = uk) then
    let mine (q : LineReq) : Bool := (match q.job with | .rwWr _ _ => true | _ => false) &&
      (match q.md.line with | some l => parKey l q.md.par = key | none => false)
    let n := (m.waitingReqs.filter mine).length
    let m1 := if n = 0 then m else m.withdraw mine
    (m1.modMap fun s => { s with rws := s.rws.upd uk fun r => { r with
      dropped := if n = 0 then key :: r.dropped else r.dropped, flight := r.flight - n } }).unitsEnded m 0
  else m

/-- Reads of the lines that `hit` names that are queued, granted, in flight or in a ladder are marked: a newer value has taken effect on
them (R244). -/
def Mach.markReads (m0 : Mach) (hit : Nat → Bool → Bool) : Mach :=
  let m := m0.modErr fun e => { e with ladders := e.ladders.map fun l =>
    match l.line with
    | some x => if hit x l.par then { l with overtaken := true } else l
    | none => l }
  let f (q : LineReq) : LineReq :=
    match q.md.line with
    | some l => if !q.write && hit l q.md.par then { q with md := { q.md with newer := true } } else q
    | none => q
  { m with
    sc := { m.sc with queues := m.sc.queues.mapv fun _ l => l.map f },
    rota := { m.rota with next := m.rota.next.mapv fun _ q => q.map f },
    zml := m.zml.mapv fun _ z => { z with outs := z.outs.map fun o => { o with req := f o.req } } }

/-- A newer value takes effect on a line: pending repairs and poison programs of it are dropped, and so is a drift rewrite that has
read it (R228, R244). -/
def Mach.overtake (m : Mach) (line : Nat) (par : Bool := false) : Mach :=
  let m1 := m.markReads fun l p => l = line && p == par
  (m1.dropRepairs (parKey line par)).dropRewrite (m.unitOf line).1 (parKey line par)

/-! ### Poison that waits, and programs of logical lines -/

/-- The stored bytes of a line whose poison program waits at stage C: its channel takes no program, and the line is POISON already (R242,
R248, R249). -/
def Mach.poisonKept (m : Mach) (key : Nat) : Option Line :=
  m.waitingReqs.findSome? fun q =>
    if q.md.mark = 2 then (match q.job with | .repair l _ => if l = key then some q.md.data else none | _ => none) else none

/-- A read of a line whose poison program waits is answered POISON, without a ladder (R240, R249). -/
def Out.known (d : Line) : Out := ⟨stPoison, d, 2, 0, none, false, 0, false, usec 32 / 10⟩

/-- A poison program that its channel takes no longer is kept at stage C, and with it the line's poison (R249). -/
def Mach.keepPoison (m : Mach) (uk : Nat) (p : Nat × Nat × Nat) (line : Nat) (par : Bool) (d : Line) : Mach :=
  let key := parKey line par
  if (m.poisonKept key).isSome then m
  else (m.setEntFlag uk fPoison true).2.mQueue p.1 false 17
    { (default : Media) with
      op := opWriteLine, seg := p.2.1, pos := p.2.2, nlines := 1, data := d, mark := 2, line := some line, par := par, uk := some uk }
    (.repair key 0)

/-- Queue the programs of a logical line's copies: how many were queued. An omitted copy sets REBUILD; a poison line of a BUNDLE has no other
copy, and its program is kept (R184, R219, R249). -/
def Mach.progLine (m : Mach) (rq uk i : Nat) (d : Line) (gen mark : Nat) (birth : Option Nat) (job : Job) : Nat × Mach :=
  let cp := copiesOf (m.ent uk) i
  cp.foldl (fun (a : Nat × Mach) p =>
    if a.2.omitsFor uk p.1 then
      (a.1, if mark = 2 && eKind (m.ent uk) = 3 then a.2.keepPoison uk p (m.lineOf uk i) false d else a.2.setRebuild uk p.1)
    else
      (a.1 + 1, a.2.mQueue p.1 false rq
        { (default : Media) with
          op := opWriteLine, seg := p.2.1, pos := p.2.2, nlines := 1, data := d, gen := gen, birth := birth, mark := mark,
          line := some (m.lineOf uk i), uk := some uk } job)) (0, m)

end Sys2Proof.Machine
end

