-- ==== Sys2Proof/Machine/Kiln.lean ====
section
/-! DEFINITION. Capture streams: dirty writes, staging, parity, issue, spill, padding, triggers, the time index, the durable tail,
the stream commands and the commit record (chapter "Capture streams (Kiln)", R119 to R148). -/
namespace Sys2Proof.Machine

/-! ### The Loom area (R274, R275) -/

/-- Lines of the Loom area, and the place of line `x` of it (R274, R275). -/
def Mach.loomLines (m : Mach) : Nat := m.stacksIn * 4096 * m.layout.loom
def Mach.loomPlace (m : Mach) (x : Nat) : Nat × Nat :=
  if x < m.loomLines then m.spread m.loomBase x else m.spread (2 ^ 30) (x - m.loomLines)

/-! ### A full-line write as a dirty line (R279, R282) -/

/-- Every line of a slot has been acknowledged. -/
def Slot.done (s : Slot) : Bool := s.issued && s.left = 0
/-- The state of stream `k`. -/
def Mach.str (m : Mach) (k : Nat) : StrSt := m.kiln.streams.get k
/-- Bytes of a stream staged or spilled and not durable. -/
def Mach.strUndurable (m : Mach) (k : Nat) : Nat := (((m.str k).slots.filter fun s => !s.done).map (·.filled)).sum
/-- Bytes that Kiln holds and the medium does not yet (R148, R461). -/
def Mach.undurable (m : Mach) : Nat := ((List.range 32).map m.strUndurable).sum

/-- The hold-up rule lets one more dirty line in (R279, R461). -/
def Mach.dirtyRoom (m : Mach) : Bool := m.undurable + m.dirtyBytes + 256 ≤ m.get POWER.HOLDUP_BYTES

/-- Write a whole line as dirty for requester `rq`: into its current entry, into a stale entry of the line, or into a free way. False
when the write must wait, which raises DIR_WAIT (R279). A mirror copy is a request of its own to the other stack (R282). -/
def Mach.putDirty (m : Mach) (rq l : Nat) (d : Line) (cls : Nat) (mirror lastUse : Bool) : Bool × Mach :=
  let go (m : Mach) (e : Nat) (old : DirEnt) : Bool × Mach :=
    let en : DirEnt := { old with
      line := l, valid := true, mirrored := old.mirrored || mirror, lastUse := old.lastUse || lastUse, lost := false }
    let m1 := (m.setDir e en).dirtyWrite e d cls
    let m2 := if en.mirrored then m1.hQueue rq (m1.mirrorPlace e) true else m1
    (true, { m2 with serial := m2.serial + 1 })
  match m.dirFind l with
  | some e => go m e (m.dirEnt e)
  | none =>
    let fresh : DirEnt := { (default : DirEnt) with since := m.now, born := m.serial }
    match m.dirAny l with
    | some e => go (m.dirFreeEnt e) e fresh
    | none =>
      if m.dirtyRoom then
        match m.dirFree (lineBucket l) with
        | some e => go m e fresh
        | none => (false, m.event .ht 0 HT.EV_DIR_WAIT)
      else (false, m.event .ht 0 HT.EV_DIR_WAIT)

/-- Where an access to a logical line goes in Hearth: its dirty slot; the slot that a write would take; else its home slot. -/
def Mach.linePlace (m : Mach) (l : Nat) (write : Bool) : Nat × Nat :=
  match m.dirFind l with
  | some e => m.dirtyPlace e
  | none =>
    match if write then m.dirFree (lineBucket l) else none with
    | some e => m.dirtyPlace e
    | none => m.homePlace l

/-! ### Geometry of a stream (R119, R120, R124) -/

/-- Change the state of stream `k`. -/
def Mach.modStr (m : Mach) (k : Nat) (f : StrSt → StrSt) : Mach :=
  { m with kiln := { m.kiln with streams := m.kiln.streams.upd k f } }

/-- Namespace of the target, and its protection: 0 NONE, 1 MIRROR, 2 PARITY. -/
def Mach.strNs (m : Mach) (k : Nat) : Nat := m.get STREAM.TARGET_ADDR k / 2 ^ 52
def Mach.strProt (m : Mach) (k : Nat) : Nat := (m.nsDesc (m.strNs k)).prot
/-- Data lines and data bytes of a slot. -/
def Mach.slotData (m : Mach) (k : Nat) : Nat := if m.strProt k = 2 then 15 else 1
def Mach.span (m : Mach) (k : Nat) : Nat := 256 * m.slotData k
/-- Lines of a slot, the parity line included, and the bytes that it takes in spill. -/
def Mach.slotLines (m : Mach) (k : Nat) : Nat := if m.strProt k = 2 then 16 else 1
/-- Slots of the staging region (R124). -/
def Mach.stgCap (m : Mach) (k : Nat) : Nat := m.get STREAM.STG_SIZE k * (if m.strProt k = 2 then 16 else 256)
def Mach.pingpong (m : Mach) (k : Nat) : Bool := m.flag STREAM.MODE_STAGING k
def Mach.ring (m : Mach) (k : Nat) : Bool := m.flag STREAM.MODE_RING k
def Mach.strLen (m : Mach) (k : Nat) : Nat := m.get STREAM.TARGET_LEN k
def Mach.nextOff (m : Mach) (k : Nat) : Nat := m.get STREAM.NEXT_OFFSET k

/-- The byte offset in the target at which a stream offset lies (R120). -/
def Mach.place1 (m : Mach) (k o : Nat) : Nat := if m.ring k then o % max 1 (m.strLen k) else o
/-- The logical line of data line `d` of slot `no`. -/
def Mach.slotLine (m : Mach) (k no d : Nat) : Nat := m.strBase k + m.place1 k (no * m.span k + 256 * d) / 256
/-- Write generation of a slot (R222). -/
def Mach.slotGen (m : Mach) (k no : Nat) : Nat := if m.ring k then (1 + no * m.span k / max 1 (m.strLen k)) % 256 else 1

/-- The copies of line `d` of slot `no`, 15 being the parity line: channel, segment, position (R183 to R185). -/
def Mach.slotCopies (m : Mach) (k no d : Nat) : List (Nat × Nat × Nat) :=
  let u := m.unitOf (m.slotLine k no (if d = 15 then 0 else d))
  let e := m.ent u.1
  if d = 15 then (if eKind e = 3 then [(bundleChan (eChan e % 2) (u.2 / 15) 15, eSeg e, u.2 / 15)] else [])
  else copiesOf e u.2

/-- A slot holds all its bytes. -/
def Mach.slotFull (m : Mach) (k : Nat) (s : Slot) : Bool := s.filled = m.span k
/-- A slot occupies staging (R124). -/
def Slot.staged (s : Slot) : Bool := s.spill.isNone && !s.done
/-- The occupied staging slots and the slots in spill. -/
def Mach.stgFill (m : Mach) (k : Nat) : Nat := ((m.str k).slots.filter Slot.staged).length
def Mach.spilled (m : Mach) (k : Nat) : List Slot := (m.str k).slots.filter fun s => s.spill.isSome && !s.done
/-- Bytes of a stream in the spill region. -/
def Mach.spillBytes (m : Mach) (k : Nat) : Nat := 256 * m.slotLines k * (m.spilled k).length
/-- The slot that staging issues next (R127). -/
def Mach.stgHead (m : Mach) (k : Nat) : Option Slot := (m.str k).slots.find? fun s => s.spill.isNone && !s.issued
/-- The slot that the spill queue drains next (R129). -/
def Mach.spillHead (m : Mach) (k : Nat) : Option Slot := (m.spilled k).find? fun s => !s.issued && s.reading = 0

/-- Lines of the spill region, and the place of line `x` of it (R275). -/
def Mach.spillLines (m : Mach) : Nat := m.stacksIn * 4096 * m.layout.spill
def Mach.spillPlace (m : Mach) (x : Nat) : Nat × Nat := m.spread m.spillBase x
/-- The place of line `i` of a spilled slot; a slot spilled before a stack failed keeps its lines on the survivor (R298). -/
def Mach.slotPlace (m : Mach) (s : Slot) (i : Nat) : Nat × Nat :=
  let x := s.spill.getD 0 + i
  if s.laid2 then (m.survivor, m.spillBase + x / 2) else m.spillPlace x

/-! ### When a slot can be issued (R127, R130) -/

/-- The channels that hold lines of a slot. -/
def Mach.slotChans (m : Mach) (k no : Nat) : List Nat :=
  (List.range (m.slotLines k)).flatMap fun d => (m.slotCopies k no d).map (·.1)

/-- A channel that a slot needs is out of service, not omitted as lost (R127). -/
def Mach.slotWaits (m : Mach) (k : Nat) (s : Slot) : Bool :=
  m.slotFull k s && s.closed && (m.slotChans k s.no).any fun c => m.link c ≠ 4 && !m.omits c

/-- A channel takes one more line of Kiln: none waits for its grant there. DESIGN CHOICE (log entry 83): the rules do not say how many of
Kiln's lines stage C holds, and a medium that falls behind must show at the staging head (R19). -/
def Mach.kilnRoom (m : Mach) (c : Nat) : Bool := (m.scQueue (dirKey (tgtMedia c) false) 8).isEmpty

/-- In a ring the oldest staged slot not issued has reached the place of the spill head (R130). -/
def Mach.ringBlocked (m : Mach) (k : Nat) : Bool :=
  match (m.spilled k).head?, m.stgHead k with
  | some h, some s => m.ring k && h.no * m.span k + m.strLen k ≤ s.no * m.span k
  | _, _ => false

/-- A slot can be issued now: every channel of its lines is in service with room, or omitted as lost; no older Hearth entry of its lines
remains; no program waits for a rebuild; and no older lap's data wait in spill for its place (R127, R130, R182, R284). -/
def Mach.issuable (m : Mach) (k : Nat) (s : Slot) : Bool :=
  let cs := m.slotChans k s.no
  let uk := (m.unitOf (m.slotLine k s.no 0)).1
  m.slotFull k s && s.closed && !s.issued && s.reading = 0 && !cs.isEmpty &&
    cs.all (fun c => (m.linkServes c && m.kilnRoom c && !(m.chanRO c && eKind (m.ent uk) = 1)) || (m.omits c && 2 ≤ eKind (m.ent uk))) && !m.rebuildWaits uk cs &&
    !(s.spill.isNone && m.ringBlocked k) &&
    (List.range (m.slotData k)).all fun d => (m.dirFind (m.slotLine k s.no d)).isNone

/-! ### The units that run-ahead maps (R131) -/

/-- The key of map unit `j` of a stream. -/
def Mach.strUnit (m : Mach) (k j : Nat) : Nat :=
  unitKey (m.strNs k) (m.get STREAM.TARGET_ADDR k % 2 ^ 52 / unitBytes (m.strProt k) + j)
/-- Map units of a stream's target. -/
def Mach.strUnits (m : Mach) (k : Nat) : Nat := m.strLen k / unitBytes (m.strProt k)

/-- Channel, pair or group of unit `j` and a formatted segment there (R131). A place with a read-only channel is skipped for the next
(R219). -/
def Mach.strPlace (m : Mach) (k j : Nat) : Option (Nat × Nat) :=
  let first (n : Nat) (ok : Nat → Bool) : Option Nat := ((List.range n).map fun i => (k + j + i) % n).find? ok
  if m.strProt k = 2 then
    (first 2 fun g => (List.range 16).all fun i => !m.chanRO (16 * g + i)).bind fun g => ((m.rows g).head?).map fun s => (g, s)
  else if m.strProt k = 1 then
    (first 16 fun c => !m.chanRO c && !m.chanRO (c + 16)).bind fun c => (m.topPair c).map fun s => (c, s)
  else (first 32 fun c => !m.chanRO c).bind fun c => (m.topSeg c).map fun s => (c, s)

/-- Units that run-ahead keeps mapped, counted from the first of the target. -/
def Mach.runWant (m : Mach) (k : Nat) : Nat :=
  let ub := unitBytes (m.strProt k)
  min (m.strUnits k) ((m.nextOff k + ub - 1) / ub + m.get STREAM.RUNAHEAD k)

/-- The walker needs a unit of a RUNNING stream and the Woodshed holds none (R131). -/
def Mach.runShort (m : Mach) (k : Nat) : Bool :=
  let j := (m.str k).mapped
  m.strState k = 1 && j < m.runWant k && m.ent (m.strUnit k j) = 0 && (m.strPlace k j).isNone

/-! ### What holds a stream (R130, R131) -/

/-- Staging can take `n` more slots (R124): in CIRCULAR mode the ring's pointers stay within its size of each other. A half fills once it
is empty. -/
def Mach.stgRoom (m : Mach) (k n : Nat) : Bool :=
  if m.pingpong k then
    let s := m.str k
    let held (h : Nat) : Bool := s.slots.any fun x => x.staged && x.half = h
    n = 0 || (if s.used = 0 then !held s.half else 2 * (s.used + n) ≤ m.stgCap k || !held (1 - s.half))
  else
    let next := (m.nextOff k + m.span k - 1) / m.span k
    match (m.str k).slots.find? Slot.staged with
    | some x => next + n ≤ x.no + m.stgCap k
    | none => n ≤ m.stgCap k

/-- Spilling one more slot is not allowed: it would pass the quota or the region (R130). -/
def Mach.spillBlocked (m : Mach) (k : Nat) : Bool :=
  let b := 256 * m.slotLines k
  m.get STREAM.QUOTA k * 2 ^ 20 < m.spillBytes k + b ||
    256 * m.spillLines < ((List.range 32).map m.spillBytes).sum + b
/-- The head of a spilling stream is full and cannot be issued: it moves to spill (R128). -/
def Mach.spillWanted (m : Mach) (k : Nat) : Bool :=
  m.flag STREAM.STAT_SPILLING k && (match m.stgHead k with | some s => m.slotFull k s && !m.issuable k s | none => false)
/-- `n` more slots would pass the hold-up bound (R130). -/
def Mach.holdupBlocked (m : Mach) (k n : Nat) : Bool :=
  m.get POWER.HOLDUP_BYTES < m.undurable + m.dirtyBytes + m.span k * n
/-- Slots that `n` more bytes open. -/
def Mach.newSlots (m : Mach) (k n : Nat) : Nat :=
  let o := m.nextOff k
  (o + n + m.span k - 1) / m.span k - (o + m.span k - 1) / m.span k
/-- Bytes of the request at the front of a stream; those of one beat when none waits. -/
def Mach.frontBytes (m : Mach) (k : Nat) : Nat :=
  let ws := (List.range 16).flatMap fun p => (m.port p).reqs.filter fun r => r.stream = some k && r.phase == .kiln
  match ws with
  | [] => 64
  | r :: t => (t.foldl (fun (a : Req) x => if x.pseq < a.pseq then x else a) r).bytes
/-- The bytes from NEXT_OFFSET up to `n` more lie in mapped units (R131). -/
def Mach.strMapped (m : Mach) (k n : Nat) : Bool :=
  (!m.ring k && m.strLen k < m.nextOff k + n) || m.place1 k (m.nextOff k + n - 1) / unitBytes (m.strProt k) < (m.str k).mapped

/-- Why presentation of a stream's requests is held: SPILL_LIMIT, HOLDUP_LIMIT, and any case (R130, R131). -/
def Mach.strHolds (m : Mach) (k : Nat) : Bool × Bool × Bool :=
  let n := m.frontBytes k
  let new := max 1 (m.newSlots k n)
  let lim := m.spillWanted k && m.spillBlocked k
  let hu := m.holdupBlocked k new
  (lim || hu, hu, lim || hu || !m.stgRoom k new || m.ringBlocked k || !m.strMapped k n || m.runShort k)

/-- The registers of the KILN page follow the streams (R148). -/
def Mach.showKiln (m : Mach) : Mach :=
  ((m.put KILN.UNDURABLE 0 m.undurable).put KILN.SPILL_LEVEL 0
    (((List.range 32).map m.spillBytes).sum)).put KILN.ACTIVE 0
      (((List.range 32).filter m.strActive).foldl (fun a j => a + 2 ^ j) 0)

/-- The registers that show a stream's and Kiln's levels; STAT.HELD with its cycles and events (R130, R146, R148). -/
def Mach.showStr (m : Mach) (k : Nat) : Mach :=
  let m1 := (m.showKiln.put STREAM.STG_FILL k (m.stgFill k)).put STREAM.SPILL_BYTES k (m.spillBytes k)
  let h := if m.strState k = 1 then m1.strHolds k else (false, false, false)
  let was := m.str k
  let m2 := if m.flag STREAM.STAT_HELD k then m1.count STREAM.CNT_BP_CYCLES k (fabricCycles was.heldAt m.now) else m1
  let m3 := (m2.setFlag STREAM.STAT_HELD k h.2.2).modStr k fun s => { s with heldAt := m.now, limited := h.1, heldUp := h.2.1 }
  let m4 := if h.1 && !was.limited then m3.event .stream k STREAM.EV_SPILL_LIMIT else m3
  if h.2.1 && !was.heldUp then m4.event .kiln 0 0 else m4

/-- A stream enters spill when its staging fill reaches SPILL_ON (R128). -/
def Mach.spillEnter (m : Mach) (k : Nat) : Mach :=
  if !m.flag STREAM.STAT_SPILLING k && 0 < m.stgCap k && m.get STREAM.SPILL_ON k * m.stgCap k ≤ 256 * m.stgFill k then
    ((m.setFlag STREAM.STAT_SPILLING k true).event .stream k STREAM.EV_SPILL_ENTRY).count STREAM.CNT_SPILL_ENTRY k
  else m

/-! ### The time index (R141, R142) -/

/-- Entries that the index range holds. -/
def Mach.idxCap (m : Mach) (k : Nat) : Nat := m.get STREAM.IDX_LEN k / 16

/-- A new value takes effect on a line: reads, repairs and rewrites of it under way are overtaken, and Loom's copies discarded (R160, R244). -/
def Mach.newValue (m : Mach) (l : Nat) : Mach := (m.overtake l).loomDiscard l

/-- Write the index lines that are full, or with `final` also the last part-filled one, as dirty lines (R142). The buffer begins with the
first entry of a line, and a part-filled line stays in it. -/
def Mach.idxFlush (m : Mach) (k : Nat) (final : Bool) : Nat → Mach
  | 0 => m
  | f + 1 =>
    let s := m.str k
    let n := min 16 s.idxBuf.length
    let first := s.idxTotal - s.idxBuf.length
    if (n < 16 && !final) || first + n ≤ m.get STREAM.IDX_COUNT k then m
    else
      let l := m.get STREAM.IDX_ADDR k / 256 + first % max 16 (m.idxCap k) / 16
      let d := Line.ofWords ((s.idxBuf.take 16).flatMap fun e => [BitVec.ofNat 64 e.1, BitVec.ofNat 64 e.2])
      let c := m.get STREAM.MODE_IDX_CLASS k
      let r := m.putDirty c l d 0 (m.mirrors c) false
      if r.1 then
        (((r.2.hQueue c (r.2.linePlace l false) true).put STREAM.IDX_COUNT k (first + n)).modStr k fun s => { s with
          idxBuf := if n = 16 then s.idxBuf.drop 16 else s.idxBuf, idxLines := l :: s.idxLines.erase l }).newValue l |>.idxFlush k final f
      else r.2

/-- As NEXT_OFFSET moves on in a ring, the entries that fall a lap behind leave the index (R142). -/
def Mach.idxAge (m : Mach) (k : Nat) : Mach :=
  let n := if m.ring k then ((m.str k).idxOffs.takeWhile (· < m.nextOff k - m.strLen k)).length else 0
  if n = 0 then m
  else (m.modStr k fun s => { s with idxOffs := s.idxOffs.drop n }).put STREAM.IDX_HEAD k (m.get STREAM.IDX_HEAD k + n)

/-- Append an index entry with flag bits `fl` at a stream offset (R141, R142). -/
def Mach.idxAppend (m : Mach) (k fl off : Nat) : Mach :=
  if !m.flag STREAM.MODE_IDX_ENABLE k then m
  else
    let s := m.str k
    let cap := m.idxCap k
    if !m.ring k && cap ≤ s.idxTotal then
      (m.count STREAM.CNT_IDX_DROPPED k).event .stream k STREAM.EV_IDX_FULL
    else
      let skew := m.alm.disc ≠ s.disc
      let w1 := off / 64 + b2n m.estimated * 2 ^ 58 + b2n skew * 2 ^ 59 + fl
      let offs := s.idxOffs ++ [off]
      let excess := offs.length - cap
      let m1 := m.modStr k fun s => { s with
        idxBuf := s.idxBuf ++ [(m.get ALM.TB_NOW, w1)], idxTotal := s.idxTotal + 1, idxOffs := offs.drop excess,
        disc := m.alm.disc }
      let m2 := m1.put STREAM.IDX_HEAD k (m.get STREAM.IDX_HEAD k + excess)
      (if 0 < excess then m2.event .stream k STREAM.EV_IDX_WRAP else m2).idxFlush k false 2

def idxTrigger : Nat := 2 ^ 60
def idxPad : Nat := 2 ^ 61
def idxStop : Nat := 2 ^ 62
def idxStart : Nat := 2 ^ 63

/-! ### Staging (R124, R126, R136) -/

/-- Change slot `no` of a stream. -/
def Mach.modSlot (m : Mach) (k no : Nat) (f : Slot → Slot) : Mach :=
  m.modStr k fun s => { s with slots := s.slots.map fun x => if x.no = no then f x else x }

/-- Close the half that fills: its slots may be issued, and filling moves to the other half (R124). -/
def Mach.closeHalf (m : Mach) (k : Nat) : Mach :=
  m.modStr k fun s => if s.used = 0 then s else { s with
    slots := s.slots.map (fun x => if x.half = s.half then { x with closed := true } else x), half := 1 - s.half, used := 0 }

/-- The open slot has all its bytes, and the slot or its half closes when it is due (R124, R126). -/
def Mach.slotComplete (m : Mach) (k no : Nat) : Mach :=
  let m1 := m.modSlot k no fun x => { x with closed := x.closed || !m.pingpong k }
  let m2 := if m.strProt k = 2 then m1.count KILN.CNT_PARITY_STRIPES else m1
  if m.pingpong k && m.stgCap k ≤ 2 * (m.str k).used then m2.closeHalf k else m2

/-- NEXT_OFFSET and with it LAP (R120). -/
def Mach.setNext (m : Mach) (k o : Nat) : Mach :=
  let m1 := m.put STREAM.NEXT_OFFSET k o
  if m.strLen k = 0 then m1 else m1.put STREAM.LAP k (o / m.strLen k)

/-- One beat is staged at NEXT_OFFSET and joins the parity accumulator. An armed SRAM flip mask strikes the first word of the beat as it is
stored (R126, R239, R256). -/
def Mach.stageBeat (m : Mach) (k : Nat) (b : Beat) : Mach :=
  let o := m.nextOff k
  let no := o / m.span k
  let d := o % m.span k / 256
  let q := o % 256 / 64
  let f := m.flipS 0
  let m0 := f.2
  let pp := m.pingpong k
  let m1 := if (m0.str k).slots.any (fun s => s.no = no) then m0
    else m0.modStr k fun s => { s with
      slots := s.slots ++ [{ (default : Slot) with
        no := no, since := m.now, half := s.half, pos := if pp then s.half * (m.stgCap k / 2) + s.used else no % max 1 (m.stgCap k) }],
      used := s.used + 1 }
  let word := 32 * d + 8 * q
  let m2 := m1.modSlot k no fun x =>
    let ls := x.lines.set d (Line.setBeat (x.lines.get d) q (b ^^^ BitVec.ofNat 512 f.1.2))
    { x with
      lines := if m.strProt k = 2 then ls.set 15 (Line.setBeat (ls.get 15) q (Line.beat (ls.get 15) q ^^^ b)) else ls
      filled := x.filled + 64, bad := if f.1.1 then word :: x.bad else x.bad }
  let m3 := m2.setNext k (o + 64)
  if (o + 64) % m.span k = 0 then m3.slotComplete k no else m3

/-- The multiples of 2^IDX_SHIFT, but 0, from offset `o` up to below `o` + `n` (R141). -/
def Mach.idxMarks (m : Mach) (k o n : Nat) : List Nat :=
  let s := 2 ^ m.get STREAM.MODE_IDX_SHIFT k
  ((List.range (n / s + 2)).map fun i => (o / s + i) * s).filter fun x => 0 < x && o ≤ x && x < o + n

/-- The logical lines that stream bytes `o` up to below `o` + `n` lie in. -/
def Mach.takeLines (m : Mach) (k o n : Nat) : List Nat :=
  (List.range ((o + n + 255) / 256 - o / 256)).map fun i => m.strBase k + m.place1 k (256 * (o / 256 + i)) / 256

/-- Pad the open stripe or line with zeros, and close the half that fills when it holds a byte (R136). With `mark` the multiples of
2^IDX_SHIFT that the pad passes have their entries; the pad at a stop lies past END_OFFSET and has none (R141). -/
def Mach.kilnPad (m : Mach) (k : Nat) (mark : Bool) : Mach :=
  let o := m.nextOff k
  let r := o % m.span k
  let m1 := if r = 0 then m
    else
      let n := m.span k - r
      let no := o / m.span k
      let m1 := (m.idxAppend k idxPad o).count STREAM.CNT_PAD_BYTES k n
      let m2 := (if mark then m.idxMarks k o n else []).foldl (fun (m : Mach) x => m.idxAppend k 0 x) m1
      let m2 := (m.takeLines k o n).foldl Mach.newValue m2
      (((m2.modSlot k no fun x => { x with filled := x.filled + n }).setNext k (o + n)).slotComplete k no).idxAge k
  (if m.pingpong k then m1.closeHalf k else m1).showStr k

/-- The first offset of what a pad closes: the open stripe or line, or in PINGPONG the half that fills (R136). -/
def Mach.openFrom (m : Mach) (k : Nat) : Nat :=
  match if m.pingpong k then (m.str k).slots.find? fun x => x.staged && !x.closed else none with
  | some x => x.no * m.span k
  | none => m.nextOff k / m.span k * m.span k

/-! ### Stops (R123, R134, R138) -/

/-- The retained window of a stream that ends at `e` (R134). -/
def Mach.strWindow (m : Mach) (k e : Nat) : Mach :=
  let trig := m.flag STREAM.STAT_TRIGGERED k
  let t := m.get STREAM.TRIG_OFFSET k
  let pre := m.get STREAM.PRE_BYTES k
  (m.put STREAM.WIN_START k (if trig then t - pre else if m.ring k then e - m.strLen k else 0)).setFlag STREAM.STOP_PRE_SHORT k
    (trig && t < pre)

/-- A stream ends at `e` for a reason: END_OFFSET, the window, STATE STOPPING, and no arm any more (R134, R138). An edge in the cycle of the
stop is not taken (R135). -/
def Mach.strEnd (m : Mach) (k reason e : Nat) : Mach :=
  let m1 := ((((m.put STREAM.END_OFFSET k e).strWindow k e).put STREAM.STOP_REASON k reason).put STREAM.STAT_STATE k 2).setFlag
    STREAM.STAT_ARMED k false
  if m.flag STREAM.STAT_ARMED k then m1.modStr k fun s => { s with armedEnd := some m.now } else m1

/-- A stop with its reason: END_OFFSET, the retained window, the pad and the STOP entry (R134, R136, R138). -/
def Mach.strStop (m : Mach) (k reason : Nat) : Mach :=
  let e := m.nextOff k
  let m2 := ((m.strEnd k reason e).kilnPad k false).idxAppend k idxStop e
  ((m2.idxFlush k true 3).event .stream k STREAM.EV_STOPPED).showStr k

/-- Staged and spilled data are discarded and the stream ends at its tail, for a removed target (R138). DESIGN CHOICE, log entry 103: R141's
STOP entry is appended here too; its OFFSET, END_OFFSET = TAIL, may lie below that of earlier entries. -/
def Mach.strDiscard (m : Mach) (k reason : Nat) : Mach :=
  let tail := m.get STREAM.TAIL k
  let m1 := (m.withdraw fun q => match q.job with | .kiln j _ => j = k | _ => false).modStr k fun s =>
    { s with slots := [], used := 0 }
  let m2 := m1.strEnd k reason tail
  (if m.strState k = 1 then (m2.idxAppend k idxStop tail).idxFlush k true 3 else m2).showStr k

/-- The stream reaches TRIG_OFFSET + POST_BYTES (R134). -/
def Mach.postDone (m : Mach) (k : Nat) : Mach :=
  if m.strState k = 1 && m.flag STREAM.STAT_TRIGGERED k &&
      m.get STREAM.TRIG_OFFSET k + m.get STREAM.POST_BYTES k ≤ m.nextOff k then m.strStop k 2 else m

/-! ### A request reaches Kiln (R121, R123, R138) -/

/-- The bytes that a beat stores: masked bytes are zero in a WRITE_MASKED, and enables are ignored otherwise (R121). -/
def streamBeat (op : Nat) (b : WBeat) : Beat := if op = opWriteMasked then b.data &&& beMask b.be 64 else b.data

/-- A request ends at Kiln with a status and no further effect. -/
def Mach.kilnEnd (m : Mach) (port id st word : Nat) : Mach :=
  m.modReq port id fun (r : Req) => { r with phase := .ready, status := st, word0 := BitVec.ofNat 64 word }

/-- The request at the front of its stream takes its turn: it is staged, refused, or waits: for room (R121, R123, R130), for the index
buffer (R142), for the global fence (R102), or for an older request of its port that it must follow on a line (R93, R94). Loom's copies of
the lines are discarded before it completes (R21, R160). What Kiln takes in FLUSH is padded like what it had (R143). -/
def Mach.kilnTake (m : Mach) (port id : Nat) : Mach :=
  match m.req? port id with
  | none => m
  | some r =>
    match r.stream with
    | none => m
    | some k =>
      let n := r.bytes
      let o := m.nextOff k
      let turn := r.phase == .kiln && (List.range 16).all fun p => (m.port p).reqs.all fun x =>
        x.stream ≠ some k || x.phase == .ready || x.phase == .intake || r.pseq ≤ x.pseq
      if !turn then m
      else if m.strState k ≠ 1 then m.kilnEnd port id stAborted 0
      else if r.op ≠ opAppend && r.addr ≠ m.get STREAM.TARGET_ADDR k + m.place1 k o then
        if !m.ring k && r.addr = m.get STREAM.TARGET_ADDR k + o && m.strLen k < o + n then
          (((m.event .stream k STREAM.EV_FULL).strStop k 3).kilnEnd port id stRange 0).count PORT.CNT_RANGE port
        else
          (((m.count STREAM.CNT_ADDR_MISMATCH k).event .stream k STREAM.EV_ADDR_MISMATCH).kilnEnd port id stRange 0).count
            PORT.CNT_RANGE port
      else if !m.ring k && m.strLen k < o + n then
        (((m.event .stream k STREAM.EV_FULL).strStop k 3).kilnEnd port id stRange 0).count PORT.CNT_RANGE port
      else if !m.strMapped k n || m.holdupBlocked k (max 1 (m.newSlots k n)) || !m.stgRoom k (m.newSlots k n) then m.showStr k
      else if 28 ≤ (m.str k).idxBuf.length then (m.idxFlush k false 2).showStr k
      else if m.behindMark r.id || (m.takeLines k o n).any fun l => (m.port port).reqs.any fun x =>
          x.id < r.id && x.stream ≠ some k && (x.oid = r.oid || writesLines x.op) && m.mayTouch x l then m
      else
        let uks := ((List.range r.beats.length).map fun i => (m.unitOf (m.strBase k + m.place1 k (o + 64 * i) / 256)).1).eraseDups
        let m0 := uks.foldl (fun (m : Mach) uk => (m.setEntFlag uk fRunahead false).2) m
        let m1 := r.beats.foldl (fun (m : Mach) b => m.stageBeat k (streamBeat r.op b)) m0
        let m2 := (m.takeLines k o n).foldl Mach.newValue (m1.count STREAM.CNT_BYTES k n)
        let m3 := ((m.idxMarks k o n).foldl (fun (m : Mach) x => m.idxAppend k 0 x) m2).idxAge k
        let m4 := (m3.kilnEnd port id stOk (if r.op = opAppend then o else 0)).modPort port fun p =>
          { p with fed := p.fed ++ [(k, id, o, o + n)] }
        let m5 := ((m4.modReq port id fun (r : Req) => { r with began := true }).spillEnter k).postDone k
        if m.mode = mFlush && m5.strState k = 1 then m5.kilnPad k true else m5.showStr k

/-- Every request that waits at Kiln for stream `k` takes its turn, in order of presentation. -/
def Mach.kilnServe (m : Mach) (k : Nat) : Mach :=
  let ws := (List.range 16).flatMap fun p =>
    ((m.port p).reqs.filter fun r => r.stream = some k && r.phase == .kiln).map fun r => (r.pseq, p, r.id)
  (ws.mergeSort fun a b => a.1 ≤ b.1).foldl (fun (m : Mach) w => m.kilnTake w.2.1 w.2.2) m

/-! ### Issue to the medium (R127, R129, R247) -/

/-- Where a word of a slot lies in the Kiln SRAM (R124, R254). -/
def Mach.stgWord (m : Mach) (k : Nat) (s : Slot) (w : Nat) : Nat :=
  m.get STREAM.STG_BASE k * 8192 + s.pos * (32 * m.slotLines k) + w

/-- A staged line as it is read: each word that fails its CRC-8 is handled (R247). With no other failing line in its stripe the line is
recomputed, from the parity line or from the accumulator; else it becomes poison, with the data as read. The parity line itself is then the
XOR of the data lines. `ri` says who reads. -/
def Mach.stagedRead (m : Mach) (k : Nat) (s : Slot) (d : Nat) (ri : RingInfo) (at_ : Nat) : Line × Nat × Nat × Mach :=
  let mine := s.bad.filter fun w => w / 32 = d
  let others := s.bad.filter fun w => w / 32 ≠ d
  if mine.isEmpty then (s.lines.get d, 0, stOk, m)
  else
    let fix := d = 15 || (m.strProt k = 2 && others.isEmpty && s.poison.isEmpty)
    let dur := m.now - at_
    let info : RingInfo := { ri with
      path := 2, step := if fix then 4 else 5, outcome := if fix then 1 else 4, dur := dur / 192,
      status := if ri.demand then (if fix then stRecomputed else stPoison) else 0, overBound := ri.demand && fix && usec 1 < dur }
    let m1 := mine.foldl (fun (m : Mach) w => m.sramFail { info with seg := m.stgWord k s w }) m
    if fix then
      let v := ((List.range 16).filter (· ≠ d)).foldl (fun (a : Line) i => a ^^^ s.lines.get i) 0
      (v, 0, stRecomputed, m1.modSlot k s.no fun x => { x with bad := others, lines := x.lines.set d v })
    else (s.lines.get d, 2, stPoison, (m1.modSlot k s.no fun x => { x with bad := others, poison := d :: x.poison }).poisonLine ri.line)

/-- A spilled line as it is read: a line that fails its Hearth check is recomputed from the other lines of its stripe or has no value; when
it drains the copy is rewritten, as the recomputed line or as poison (R246). -/
def Mach.spilledRead (m : Mach) (k : Nat) (s : Slot) (d : Nat) (drain : Bool) (ri : RingInfo) (at_ : Nat) : Line × Nat × Nat × Mach :=
  let p := m.slotPlace s d
  let c := m.cell p
  if c.cls = 0 then (c.data, 0, stOk, m)
  else if c.cls = 2 then (c.data, 2, stPoison, m)
  else
    let others := (List.range (m.slotLines k)).filter (· ≠ d)
    let fix := m.strProt k = 2 && (d = 15 || others.all fun i => (m.cell (m.slotPlace s i)).cls = 0)
    let dur := m.now - at_
    let info : RingInfo := { ri with
      path := 1, stack := p.1, tick := m.get ALM.TB_NOW, est := m.estimated, step := if fix then 4 else 5, outcome := if fix then 1 else 4,
      dur := dur / 192, status := if ri.demand then (if fix then stRecomputed else stPoison) else 0,
      overBound := ri.demand && (if fix then usec 1 else usec 16 / 100) < dur }
    let m1 := ((m.count ERR.CNT_HEARTH_FAIL).judgeEst).ringAdd info
    if fix then
      let v := others.foldl (fun (a : Line) i => a ^^^ (m.cell (m.slotPlace s i)).data) 0
      (v, 0, stRecomputed, if drain then m1.hWrite p ri.line { c with data := v, tagX := 0, mcrcX := 0 } else m1)
    else (c.data, 2, stPoison, if drain then (m1.hWrite p ri.line { c with tagX := poisonXor, mcrcX := 0 }).poisonLine ri.line else m1)

/-- A line of a slot as it is read from staging or spill for requester `rq`: data, class 0 GOOD or 2 POISON, and the status that a demand
gets (R20, R246, R247). -/
def Mach.slotRead (m : Mach) (k : Nat) (s : Slot) (d : Nat) (drain : Bool) (rq port : Nat) (demand : Bool) (at_ : Nat) :
    Line × Nat × Nat × Mach :=
  let ri : RingInfo := { (default : RingInfo) with
    line := m.slotLine k s.no (if d = 15 then 0 else d), rq := rq, port := port, demand := demand }
  if s.poison.contains d then (s.lines.get d, 2, stPoison, m)
  else if s.spill.isNone then m.stagedRead k s d ri at_ else m.spilledRead k s d drain ri at_

/-- Line `d` of slot `no` goes out as poison: the ports whose bytes it holds learn it from PERSIST (R106, R247). -/
def Mach.strLost (m : Mach) (k no d : Nat) : Mach :=
  let o := no * m.span k + 256 * d
  (List.range 16).foldl (fun (m : Mach) p =>
    let w := (m.port p).fed.filter fun w => w.1 = k && w.2.2.1 < o + 256 && o < w.2.2.2
    if w.isEmpty then m else m.modPort p fun s => { s with lostTo := s.lostTo ++ w.map fun x => (m.slotLine k no d, x.2.1) }) m

/-- A value of the line that is no poison is durable: what was lost on the line before is past (R106). -/
def Mach.lostPast (m : Mach) (l : Nat) : Mach :=
  (List.range 16).foldl (fun (m : Mach) n =>
    if (m.port n).lostTo.any fun x => x.1 = l then m.modPort n fun p => { p with lostTo := p.lostTo.filter fun x => x.1 ≠ l } else m) m

/-- A slot as it stands now. -/
def Mach.slotNow (m : Mach) (k : Nat) (s : Slot) : Slot := ((m.str k).slots.find? fun x => x.no = s.no).getD s

/-- Issue a slot: each line not omitted is queued under KILN_OUT (R18, R127). A poison data line of a stripe goes out with the
poison tag, and the parity line as the XOR of the data lines as they go out. -/
def Mach.slotIssue (m : Mach) (k : Nat) (s : Slot) : Mach :=
  let uk := (m.unitOf (m.slotLine k s.no 0)).1
  let rd := (List.range (m.slotLines k)).foldl (fun (a : List (Line × Nat) × Mach) d =>
    let r := a.2.slotRead k (a.2.slotNow k s) d true (if s.spill.isSome then 9 else 8) 0 false m.now
    (a.1 ++ [(r.1, r.2.1)], r.2.2.2)) ([], m)
  let data := rd.1.take (m.slotData k)
  let par : Line × Nat :=
    if data.any (fun x => x.2 = 2) then (data.foldl (fun (a : Line) x => a ^^^ x.1) 0, 0) else (rd.1.getD 15 (0, 0))
  let all := if m.slotLines k = 16 then data ++ [par] else data
  let r := (List.range all.length).foldl (fun (a : Nat × Mach) d =>
    let x := all.getD d (0, 0)
    (m.slotCopies k s.no d).foldl (fun (a : Nat × Mach) c =>
      if a.2.omitsFor uk c.1 then
        (a.1, if x.2 = 2 && m.slotLines k = 16 then a.2.keepPoison uk c (m.slotLine k s.no d) false x.1 else a.2.setRebuild uk c.1)
      else
        let m1 := if x.2 = 2 then (a.2.setEntFlag uk fPoison true).2 else a.2
        (a.1 + 1, m1.mQueue c.1 false 8
          { (default : Media) with
            op := opWriteLine, seg := c.2.1, pos := c.2.2, nlines := 1, data := x.1, gen := m.slotGen k s.no, mark := x.2,
            line := if d = 15 then none else some (m.slotLine k s.no d), uk := some uk } (.kiln k (16 * s.no + d)))) a) (0, rd.2)
  let lost := (List.range (m.slotData k)).filter fun d => (rd.1.getD d (0, 0)).2 = 2
  let m1 := if m.slotLines k = 16 then r.2.overtake (m.slotLine k s.no 0) true else r.2
  let m2 := lost.foldl (fun (m : Mach) d => m.strLost k s.no d) m1
  (m2.modSlot k s.no fun x => { x with issued := true, left := r.1 }).count STREAM.CNT_STRIPES k

/-- Issue the staged slots of a stream in offset order while they can be issued (R127). -/
def Mach.issueStream (m : Mach) (k : Nat) : Nat → Mach
  | 0 => m
  | f + 1 =>
    match m.stgHead k with
    | some s => if m.issuable k s then (m.slotIssue k s).issueStream k f else m
    | none => m

/-- A stream's next staged or spilled slot is complete and waits for a channel out of service (R127). -/
def Mach.groupWait (m : Mach) (k : Nat) : Bool :=
  (match m.stgHead k with | some s => m.slotWaits k s | none => false) ||
    (match m.spillHead k with | some s => m.slotWaits k s | none => false)

/-- CNT_GROUP_WAIT up to now (R148). -/
def Mach.settleGw (m : Mach) : Mach :=
  let any := (List.range 32).any fun k => m.flag STREAM.STAT_GROUP_WAIT k
  let m0 := if any then m.count KILN.CNT_GROUP_WAIT 0 (fabricCycles m.kiln.gwAt m.now) else m
  { m0 with kiln := { m0.kiln with gwAt := m.now } }

/-- Kiln offers its lines: every stream issues what it can, and GROUP_WAIT with its cycle count follows (R127, R148). -/
def Mach.kilnOffer (m : Mach) : Mach :=
  ((List.range 32).filter m.strActive).foldl (fun (m : Mach) k =>
    let m1 := m.issueStream k (m.str k).slots.length
    m1.setFlag STREAM.STAT_GROUP_WAIT k (m1.groupWait k)) m.settleGw

/-! ### Spill (R128, R129) -/

/-- Lines of the spill region in use: first line and number. -/
def Mach.spillUse (m : Mach) : List (Nat × Nat) :=
  (List.range 32).flatMap fun k => (m.spilled k).filterMap fun s => s.spill.map fun x =>
    if s.laid2 then (x / 2, m.slotLines k / 2 + 1) else (x, m.slotLines k)

/-- A place for `n` lines in the spill region: the lowest that meets no other slot. -/
def Mach.spillFree (m : Mach) (n : Nat) : Option Nat :=
  let u := m.spillUse
  (0 :: u.map fun x => x.1 + x.2).foldl (fun b x =>
    if x + n ≤ m.spillLines && u.all (fun y => x + n ≤ y.1 || y.1 + y.2 ≤ x) && (match b with | some v => x < v | none => true)
    then some x else b) none

/-- SPILL_SLOT_MOVE (R128): a full head slot that cannot be issued moves whole to the tail of the spill queue. -/
def spillMove (k : Nat) (m : Mach) : Mach :=
  if !m.fabricUp || !m.flag STREAM.STAT_SPILLING k then m
  else
    match m.stgHead k with
    | none => m
    | some s =>
      if m.issuable k s then m.kilnOffer
      else if !m.slotFull k s then m
      else if m.spillBlocked k || m.ringBlocked k || m.get POWER.HOLDUP_BYTES < m.undurable + m.dirtyBytes then m.showStr k
      else
        match m.spillFree (m.slotLines k) with
        | none => m.showStr k
        | some x =>
          let m1 := (List.range (m.slotLines k)).foldl (fun (m : Mach) d =>
            let r := m.slotRead k (m.slotNow k s) d true 9 0 false m.now
            let p := m.spillPlace (x + d)
            (r.2.2.2.hWrite p (m.slotLine k s.no (if d = 15 then 0 else d))
              ⟨r.1, m.slotLine k s.no (if d = 15 then 0 else d), 0, 2, false, markX r.2.1, 0⟩).hQueue 9 p true) m
          ((m1.modSlot k s.no fun y => { y with spill := some x, closed := true, lines := [], bad := [], poison := [] }).count
            STREAM.CNT_SPILL_BYTES k (256 * m.slotLines k)).showStr k

/-- Queue the Hearth reads of the lines of a spilled slot under KILN_SPILL (R17, R129). -/
def Mach.drainSlot (m : Mach) (k : Nat) (s : Slot) : Mach :=
  ((List.range (m.slotLines k)).foldl (fun (m : Mach) d => m.hQueue 9 (m.slotPlace s d) false (.spill k s.no)) m).modSlot k s.no fun x =>
    { x with reading := m.slotLines k }

/-- A line of a draining slot has been read: with the last the slot is issued (R129). -/
def Mach.spillArrive (m : Mach) (k no : Nat) : Mach :=
  match (m.str k).slots.find? fun x => x.no = no && x.reading ≠ 0 with
  | none => m
  | some x =>
    let m1 := m.modSlot k no fun y => { y with reading := y.reading - 1 }
    if x.reading = 1 then (m1.slotIssue k { x with reading := 0 }).showStr k else m1

/-- SPILL_DRAIN (R129): the spill head is read from Hearth, checked, and sent to the medium, when no staged slot can go first. -/
def spillDrain (k : Nat) (m : Mach) : Mach :=
  if !m.fabricUp then m
  else
    match m.stgHead k, m.spillHead k with
    | some st, some sp =>
      if m.issuable k st || !m.issuable k sp then m else (m.drainSlot k sp).showStr k
    | none, some sp => if m.issuable k sp then (m.drainSlot k sp).showStr k else m
    | _, none => m
/-- SPILL_EXIT (R129). -/
def spillExit (k : Nat) (m : Mach) : Mach :=
  if m.flag STREAM.STAT_SPILLING k && (m.spilled k).isEmpty && 256 * m.stgFill k < m.get STREAM.SPILL_ON k * m.stgCap k then
    ((m.setFlag STREAM.STAT_SPILLING k false).event .stream k STREAM.EV_SPILL_EXIT).showStr k
  else m

/-- PAD_TIMEOUT (R136): the first byte of the open stripe, or of the half that fills, has waited long enough. -/
def padTimeout (k : Nat) (m : Mach) : Mach :=
  let t := m.get STREAM.PAD_TIMEOUT k
  let s := m.str k
  let open_ := if m.pingpong k then s.slots.find? fun x => x.staged && !x.closed
    else s.slots.find? fun x => x.staged && !m.slotFull k x
  match open_ with
  | some x => if m.fabricUp && m.strState k = 1 && t ≠ 0 && x.since + usec t ≤ m.now then (m.kilnPad k true).kilnOffer else m
  | none => m

/-! ### Run-ahead (R131, R132) -/

/-- Map one more unit of a stream when run-ahead asks for it (R131). DESIGN CHOICE (log entry 83): a unit that has an entry already is kept
as it is, wherever it lies, and is not one that the walker took. -/
def Mach.runahead (m : Mach) (k : Nat) : Mach :=
  let s := m.str k
  if m.strState k ≠ 1 || m.runWant k ≤ s.mapped then m
  else
    let uk := m.strUnit k s.mapped
    if m.ent uk ≠ 0 then m.modStr k fun s => { s with mapped := s.mapped + 1 }
    else if m.deltaFull then m.deltaStall
    else
      match m.strPlace k s.mapped with
      | none => m.event .stream k STREAM.EV_WOODSHED_LOW
      | some (c, sg) =>
        let e := eMake (protKind (m.strProt k)) c sg true
        let r := ((m.takeSegs e).count MAP.CNT_ALLOC).setEnt uk e
        r.2.modStr k fun s => { s with mapped := s.mapped + 1, took := s.took ++ [s.mapped] }

/-- RUNAHEAD_MAP (R131). -/
def runaheadMap (k : Nat) (m : Mach) : Mach := if m.fabricUp then (m.runahead k).showStr k else m

/-! ### The durable tail (R137) -/

/-- TAIL_ADVANCE (R137): the unit at TAIL has been acknowledged and the record that locates it is durable, being written at once when it
still waits (R195); at stop the tail goes no further than END_OFFSET. A lap that ends a map unit sets its AGE to 0 (R224). -/
def tailAdvance (k : Nat) (m : Mach) : Mach :=
  let m0 := m.kilnOffer
  match (m0.str k).slots with
  | s :: rest =>
    let t := m0.get STREAM.TAIL k
    let uk := (m0.unitOf (m0.slotLine k s.no 0)).1
    if m0.strActive k && s.done && s.no * m0.span k ≤ t then
      if !m0.located uk then m0.deltaFlush
      else
        let e := (s.no + 1) * m0.span k
        let m1 := if m0.place1 k e % unitBytes (m0.strProt k) = 0 && eAge (m0.ent uk) ≠ 0 then
          (m0.setEnt uk (setBits (m0.ent uk) 8 8 0)).2 else m0
        ((m1.modStr k fun x => { x with slots := rest }).put STREAM.TAIL k
          (if m0.strState k = 2 then min e (m0.get STREAM.END_OFFSET k) else e)).showStr k
    else m0.showStr k
  | [] => m0.showStr k

/-! ### Stream commands (R133, R138, R139) -/

/-- CMD_STAT takes a result and reason. -/
def Mach.strStat (m : Mach) (k res reason : Nat) : Mach := (m.put STREAM.CMD_RESULT k res).put STREAM.CMD_REASON k reason

/-- Two ranges of a namespace meet. -/
def meets (a la b lb : Nat) : Bool := a < b + lb && b < a + la

/-- The reason for which START is refused; none when every check passes (R139). -/
def Mach.startCheck (m : Mach) (k : Nat) : Option Nat :=
  let ta := m.get STREAM.TARGET_ADDR k
  let tl := m.strLen k
  let ia := m.get STREAM.IDX_ADDR k
  let il := m.get STREAM.IDX_LEN k
  let ix := m.flag STREAM.MODE_IDX_ENABLE k
  let ns := m.nsDesc (ta / 2 ^ 52)
  let ins := m.nsDesc (ia / 2 ^ 52)
  let ub := unitBytes ns.prot
  let b := m.get STREAM.STG_BASE k
  let sz := m.get STREAM.STG_SIZE k
  let pre := m.get STREAM.PRE_BYTES k
  let post := m.get STREAM.POST_BYTES k
  let src := m.get STREAM.SRC_PORTS k
  let others := (List.range 32).filter fun j => j ≠ k && m.strState j ≠ 0
  let live := (List.range 32).filter fun j => j ≠ k && m.strActive j
  let overlaps (a l : Nat) : Bool := others.any fun j =>
    meets a l (m.get STREAM.TARGET_ADDR j) (m.strLen j) ||
      (m.flag STREAM.MODE_IDX_ENABLE j && meets a l (m.get STREAM.IDX_ADDR j) (m.get STREAM.IDX_LEN j))
  let held (a l : Nat) : Bool := m.order.holds.any fun h => meets a l (h.ns * 2 ^ 52 + h.off) h.len
  let pow := (List.range 11).any fun i => sz = 2 ^ i
  if m.strActive k then some 8
  else if !ns.exists_ || (ix && !ins.exists_) then some 1
  else if tl = 0 || ta % 2 ^ 52 % ub ≠ 0 || tl % ub ≠ 0 || ns.size < ta % 2 ^ 52 + tl ||
      (ix && (il = 0 || ia % 256 ≠ 0 || il % 256 ≠ 0 || ins.size < ia % 2 ^ 52 + il)) then some 2
  else if overlaps ta tl || held ta tl || (ix && (overlaps ia il || held ia il || meets ta tl ia il)) then some 3
  else if 1024 < b + sz || sz = 0 || (if m.pingpong k then sz % 2 ≠ 0 else !pow) ||
      live.any (fun j => meets b sz (m.get STREAM.STG_BASE j) (m.get STREAM.STG_SIZE j)) then some 4
  else if ns.prot = 2 && !m.pingpong k then some 5
  else if pre % 64 ≠ 0 || post % 64 ≠ 0 || (0 < pre && (!m.ring k || tl - ub < pre + post)) then some 6
  else if src = 0 || src &&& ns.writePorts ≠ src then some 7
  else none

/-- The stream's commit record position is overwritten in the medium, when RELEASE or START clears it (R138, R193). -/
def Mach.commitClear (m : Mach) (k : Nat) : Mach :=
  let a := m.storeProg 0 3 (2 * k) 0 13 .none
  (a.2.storeProg 0 3 (2 * k + 1) 0 13 .none).2

/-- A line of another port's stream bytes that a PERSIST_NS covers became durable as poison (R106). -/
def Mach.strPoison (m : Mach) (w : Nat × Nat) : Bool :=
  (List.range 16).any fun n => (m.port n).lostTo.any fun x =>
    !(m.nsDesc (lineNs x.1)).ephemeral && m.strBase w.1 ≤ x.1 && x.1 < m.strBase w.1 + m.strLen w.1 / 256 &&
      (m.ring w.1 || 256 * (x.1 - m.strBase w.1) < w.2)

/-- A stream starts anew: what PERSIST still knows of its earlier run, all durable or discarded, is past (R104, R105, R138). -/
def Mach.strForget (m : Mach) (k : Nat) : Mach :=
  (List.range 16).foldl (fun (m' : Mach) n => m'.modPort n fun p => { p with
    fed := p.fed.filter fun w => w.1 ≠ k,
    reqs := p.reqs.map fun r =>
      if r.coverStr.any fun w => w.1 = k then
        { r with
          coverStr := r.coverStr.filter (fun w => w.1 ≠ k),
          lostSeen := r.lostSeen || r.coverStr.any fun w => w.1 = k && m.strPoison w }
      else r }) m

/-- STREAM_START (R138): the descriptor is checked; the stream runs with its registers cleared, its target reserved, run-ahead begun
and a START entry. DESIGN CHOICE, log entry 103: a START refused for its state, in RUNNING or STOPPING, sets EVENT.REFUSED too. -/
def Mach.strStart (m : Mach) (k : Nat) : Mach :=
  match m.startCheck k with
  | some r => (m.strStat k 2 r).event .stream k STREAM.EV_REFUSED
  | none =>
    let zero := [STREAM.NEXT_OFFSET, STREAM.TAIL, STREAM.LAP, STREAM.IDX_COUNT, STREAM.IDX_HEAD, STREAM.END_OFFSET, STREAM.WIN_START,
      STREAM.TRIG_TICK, STREAM.TRIG_OFFSET, STREAM.STOP_REASON, STREAM.STOP_PRE_SHORT, STREAM.STOP_IDX_PARTIAL, STREAM.STAT_ARMED,
      STREAM.STAT_TRIGGERED, STREAM.STAT_SPILLING, STREAM.STAT_HELD, STREAM.STAT_GROUP_WAIT]
    let m0 := (if m.strState k = 3 then m.commitClear k else m).strForget k
    let m1 := zero.foldl (fun (m : Mach) f => m.put f k 0) m0
    let m2 := (m1.put STREAM.STAT_STATE k 1).modStr k fun s => { (default : StrSt) with
      commitPos := s.commitPos, disc := m.alm.disc, heldAt := m.now }
    let m3 := m2.modHt fun h => { h with
      targets := h.targets.set k (m.strBase k, m.strLines k), scans := h.scans ++ [(m.strBase k, m.strLines k, k)] }
    (((m3.runahead k).idxAppend k idxStart 0).strStat k 0 0).showStr k

/-- A command written while CMD_STAT reads BUSY is ignored (R139). -/
def Mach.strCmd (m : Mach) (k : Nat) (act : Mach → Mach) : Mach := if m.get STREAM.CMD_RESULT k = 3 then m.reject .stream k else act m

/-- STREAM_START (R139). -/
def streamStart (k : Nat) (m : Mach) : Mach := m.strCmd k fun m => m.strStart k

/-- STREAM_STOP (R138, R139). -/
def streamStop (k : Nat) (m : Mach) : Mach :=
  m.strCmd k fun m =>
  match m.strState k with
  | 1 => ((m.strStop k 1).strStat k 0 0).kilnOffer
  | 0 => m.strStat k 2 8
  | _ => m.strStat k 1 0

/-- Arm a RUNNING stream that has not triggered; whether it did (R133). -/
def Mach.arm (m : Mach) (k : Nat) : Bool × Mach :=
  if m.strState k = 1 && !m.flag STREAM.STAT_TRIGGERED k then (true, m.setFlag STREAM.STAT_ARMED k true) else (false, m)

/-- STREAM_ARM (R133). -/
def streamArm (k : Nat) (m : Mach) : Mach :=
  m.strCmd k fun m =>
  if m.strState k ≠ 1 then m.strStat k 2 8
  else if m.flag STREAM.STAT_TRIGGERED k then m.strStat k 1 0
  else (m.arm k).2.strStat k 0 0

/-- STREAM_DISARM (R133, R139). -/
def streamDisarm (k : Nat) (m : Mach) : Mach :=
  m.strCmd k fun m =>
  if m.flag STREAM.STAT_ARMED k then (m.setFlag STREAM.STAT_ARMED k false).strStat k 0 0 else m.strStat k 1 0

/-- STREAM_RELEASE (R138). DESIGN CHOICE (log entry 86): what START cleared is cleared, and the descriptor registers, which host software
wrote, and NEXT_OFFSET keep their values. -/
def streamRelease (k : Nat) (m : Mach) : Mach :=
  m.strCmd k fun m =>
  match m.strState k with
  | 3 =>
    let zero := [STREAM.TAIL, STREAM.LAP, STREAM.IDX_COUNT, STREAM.IDX_HEAD, STREAM.END_OFFSET, STREAM.WIN_START, STREAM.TRIG_TICK,
      STREAM.TRIG_OFFSET, STREAM.STOP_REASON, STREAM.STOP_PRE_SHORT, STREAM.STOP_IDX_PARTIAL, STREAM.STAT_TRIGGERED]
    (((zero.foldl (fun (m : Mach) f => m.put f k 0) m).put STREAM.STAT_STATE k 0).commitClear k).strStat k 0 0
  | 0 => m.strStat k 1 0
  | _ => m.strStat k 2 8

/-- One sampled edge of a stream's trigger source: the trigger of an armed stream; ignored and counted after the trigger, in every state up
to the next START, and in the cycle of a stop that ended the arm (R133, R135). -/
def Mach.trigEdge (m : Mach) (k : Nat) : Mach :=
  if m.flag STREAM.STAT_TRIGGERED k || (m.str k).armedEnd = some m.now then m.count STREAM.CNT_TRIG_IGNORED k
  else if !m.flag STREAM.STAT_ARMED k then m
  else
    let o := m.nextOff k
    let m1 := ((m.put STREAM.TRIG_TICK k (m.get ALM.TB_NOW)).put STREAM.TRIG_OFFSET k o).setFlag STREAM.STAT_ARMED k false
    (((m1.setFlag STREAM.STAT_TRIGGERED k true).event .stream k STREAM.EV_TRIGGER).idxAppend k idxTrigger o).postDone k

/-- TRIG_EDGE (R33, R133): the trigger inputs are sampled at new levels. -/
def trigSample (levels : Nat) (m : Mach) : Mach :=
  if !m.almRuns then m
  else
    let old := m.kiln.trig
    let m0 : Mach := { m with kiln := { m.kiln with trig := levels } }
    if !m.fabricUp then m0
    else ((List.range 32).filter fun k => m.strState k ≠ 0 && m.flag STREAM.TRIG_ENABLE k).foldl (fun (m : Mach) k =>
      let b := m.get STREAM.TRIG_SRC k
      let rise := !bitAt old b && bitAt levels b
      let fall := bitAt old b && !bitAt levels b
      if (if m.flag STREAM.TRIG_FALLING k then fall else rise) then m.trigEdge k else m) m0

/-! ### Commit (R132, R138, R140) -/

/-- Every index line of a stream is durable: each entry is written, and no line is dirty in Hearth. -/
def Mach.idxDurable (m : Mach) (k : Nat) : Bool :=
  (m.str k).idxTotal ≤ m.get STREAM.IDX_COUNT k && (m.str k).idxLines.all fun l => (m.dirFind l).isNone

/-- Write a commit record of stream `k` at its next position, on channels 0 and 16; its layout is the Core's own (R140, R193). -/
def Mach.commitProg (m : Mach) (k : Nat) : Mach :=
  let r := m.storeProg 0 3 (2 * k + (m.str k).commitPos) (Config.ownRecord m.free) 13 (.commit k)
  { (r.2.modStr k fun s => { s with commit := r.1 + 1, commitPos := 1 - s.commitPos }) with free := m.free + 1 }

/-- COMMIT_RECORD_WRITE (R140): a STOPPING stream with its tail at END_OFFSET, nothing in spill and its index durable writes its
commit record. -/
def commitRecordWrite (k : Nat) (m0 : Mach) : Mach :=
  let m := m0.idxFlush k true 3
  let s := m.str k
  if m.fabricUp && m.strState k = 2 && m.get STREAM.TAIL k = m.get STREAM.END_OFFSET k && (m.spilled k).isEmpty && m.idxDurable k &&
      s.commit = 0 then
    m.commitProg k
  else m

/-- The run-ahead units of a stream that hold no stream byte (R132). -/
def Mach.aheadUnits (m : Mach) (k : Nat) : List Nat :=
  let ub := unitBytes (m.strProt k)
  let e := m.get STREAM.END_OFFSET k
  let used := if m.ring k && m.strLen k ≤ e then m.strUnits k else (e + ub - 1) / ub
  (((m.str k).took.filter fun j => used ≤ j).map (m.strUnit k)).filter fun uk => m.ent uk ≠ 0 && eFlag (m.ent uk) fRunahead

/-- Units have to go back: map changes that may have to wait (R195). -/
def Mach.returns (m : Mach) (k : Nat) : Bool := !(m.aheadUnits k).isEmpty

/-- They go back to the Woodshed, formatted and unmapped (R132). -/
def Mach.returnUnits (m : Mach) (k : Nat) : Mach :=
  (m.aheadUnits k).foldl (fun (m : Mach) uk => ((m.setUnitSegs (m.ent uk) .woodshed).setEnt uk 0).2) m

/-- The reservation of a stream's target ends: no line of it is watched, and its namespace's CGEN moves on (R122, R283). -/
def Mach.endReservation (m : Mach) (k : Nat) : Mach :=
  (m.modHt fun h => { h with targets := h.targets.erase k, scans := h.scans.filter fun x => x.2.2 ≠ k }).bumpCgen (m.strNs k)

/-- STREAM_COMMITTED (R138): the commit record is durable. After commit an index entry below WIN_START leaves the index (R142). -/
def streamCommitted (k : Nat) (m : Mach) : Mach :=
  let s := m.str k
  if m.strState k = 2 && s.commit = 1 && m.deltaFull && m.returns k then m.deltaStall
  else if m.strState k = 2 && s.commit = 1 then
    let gone := if m.ring k then (s.idxOffs.takeWhile (· < m.get STREAM.WIN_START k)).length else 0
    let m1 := (((m.returnUnits k).endReservation k).put STREAM.STAT_STATE k 3).event .stream k STREAM.EV_COMMITTED
    ((m1.put STREAM.IDX_HEAD k (m.get STREAM.IDX_HEAD k + gone)).modStr k fun s =>
      { (default : StrSt) with commitPos := s.commitPos }).showStr k
  else m

/-! ### Reads of lines that Kiln holds (R20) -/

/-- The stream, slot and data line that hold a logical line not yet durable. -/
def Mach.kilnFind (m : Mach) (l : Nat) : Option (Nat × Slot × Nat) :=
  match m.strOfLine l with
  | none => none
  | some k =>
    let p := 256 * (l - m.strBase k)
    ((m.str k).slots.reverse.findSome? fun s => (List.range (m.slotData k)).findSome? fun d =>
      if m.place1 k (s.no * m.span k + 256 * d) = p && 256 * d < s.filled then some (k, s, d) else none)

/-- A read of a line that Kiln holds: status and data (R20, R246, R247). -/
def Mach.kilnRead (m : Mach) (l rq port : Nat) (demand : Bool) (at_ : Nat) : Option (Nat × Line × Mach) :=
  match m.kilnFind l with
  | none => none
  | some (k, s, d) =>
    let r := m.slotRead k s d false rq port demand at_
    some (r.2.2.1, r.1, r.2.2.2)

def execSpillSlotMove (k : BitVec 5) (s : State) := answer s (spillMove k.toNat)
def execSpillDrain (k : BitVec 5) (s : State) := answer s (spillDrain k.toNat)
def execSpillExit (k : BitVec 5) (s : State) := answer s (spillExit k.toNat)
def execPadTimeout (k : BitVec 5) (s : State) := answer s (padTimeout k.toNat)
def execRunaheadMap (k : BitVec 5) (s : State) := answer s (runaheadMap k.toNat)
def execTailAdvance (k : BitVec 5) (s : State) := answer s (tailAdvance k.toNat)
def execTrigEdge (levels : BitVec 8) (s : State) := answer s (trigSample levels.toNat)
def execCommitRecordWrite (k : BitVec 5) (s : State) := answer s (commitRecordWrite k.toNat)
def execStreamCommitted (k : BitVec 5) (s : State) := answer s (streamCommitted k.toNat)
def execStreamStart (a : BitVec 3) (k : BitVec 5) (s : State) :=
  answer s fun m => m.viaCfg a.toNat .stream k.toNat 0x168 1 (streamStart k.toNat)
def execStreamStop (a : BitVec 3) (k : BitVec 5) (s : State) :=
  answer s fun m => m.viaCfg a.toNat .stream k.toNat 0x168 2 (streamStop k.toNat)
def execStreamArm (a : BitVec 3) (k : BitVec 5) (s : State) :=
  answer s fun m => m.viaCfg a.toNat .stream k.toNat 0x168 3 (streamArm k.toNat)
def execStreamDisarm (a : BitVec 3) (k : BitVec 5) (s : State) :=
  answer s fun m => m.viaCfg a.toNat .stream k.toNat 0x168 4 (streamDisarm k.toNat)
def execStreamRelease (a : BitVec 3) (k : BitVec 5) (s : State) :=
  answer s fun m => m.viaCfg a.toNat .stream k.toNat 0x168 5 (streamRelease k.toNat)
def execRotaMTxDecision (c : BitVec 5) (adv : BitVec 7) (s : State) :=
  answer s fun m => rotaDecision (2 + c.toNat) false adv.toNat m.kilnOffer

end Sys2Proof.Machine
end

