-- ==== Sys2Proof/Machine/Ladder.lean ====
section
/-! DEFINITION. Media reads of logical lines: the choice of copy and read level (R184, R225, R226), and the recovery ladder (chapter
"Line integrity, recovery and scrubbing", R240 to R245, R252, R253). -/
namespace Sys2Proof.Machine

/-! ### Drift retry (R226) -/

/-- The first three buckets to retry, after a read of bucket `b` whose tag field carried `birth` (R226). -/
def Mach.retryBuckets (m : Mach) (c e b birth : Nat) : List Nat :=
  let age := (m.get MAP.AGE_NOW + 2 ^ 24 - birth) % 2 ^ 24
  let own := min 31 (Nat.log2 (max 1 age) + m.map.bias.get c)
  let mid := if 23 ≤ eAge e then b else own
  let order : List Int := (own : Int) :: (List.range 32).flatMap fun i => [(mid : Int) + (i + 1 : Nat), (mid : Int) - (i + 1 : Nat)]
  let ok := (order.filter fun x => 0 ≤ x && x ≤ 31 && x ≠ (b : Int)).map Int.toNat
  (ok.eraseDups).take 3

/-! ### Which copy (R184, R243) -/

/-- Bytes queued at stage C for a channel, both directions (R184). -/
def Mach.chanBytes (m : Mach) (c : Nat) : Nat := m.scBytes (dirKey (tgtMedia c) false) + m.scBytes (dirKey (tgtMedia c) true)

/-- The copy that a read of line `i` of a unit goes to; none when step 4 or step 5 is entered at once (R184, R243). -/
def Mach.readCopy (m : Mach) (e i : Nat) : Option (Nat × Nat × Nat) :=
  let cs := (copiesOf e i).filter fun p => !m.chanLost p.1 && staleChan e ≠ some p.1
  match cs.filter fun p => m.linkServes p.1 with
  | [] => cs.head?
  | x :: t => some (t.foldl (fun a b => if m.chanBytes b.1 < m.chanBytes a.1 then b else a) x)

/-- Queue READ_LINE of a line copy: `bkt` 1 reads at the unit's bucket, b + 2 at bucket b, as they are when it is issued (R226). -/
def Mach.readLine (m : Mach) (rq uk : Nat) (p : Nat × Nat × Nat) (line bkt : Nat) (job : Job) (port : Option Nat) (green : Bool)
    (par : Bool := false) : Mach :=
  m.mQueue p.1 true rq
    { (default : Media) with
      op := opReadLine, seg := p.2.1, pos := p.2.2, nlines := 1, bkt := bkt, line := some line, par := par, uk := some uk } job port green

/-! ### Ladders -/

/-- An update of a stripe is open (R186). -/
def Mach.stripeOpenOn (m : Mach) (uk s : Nat) : Bool := m.map.stripes.any fun x => x.2.uk = uk && x.2.s = s

/-- The ladder with number `id`, and the one on a logical line. -/
def Mach.ladder? (m : Mach) (id : Nat) : Option Ladder := m.err.ladders.find? fun l => l.id = id
def Mach.ladderOn? (m : Mach) (line : Nat) (par : Bool := false) : Option Ladder :=
  m.err.ladders.find? fun l => l.line = some line && l.par == par
/-- Change one ladder. -/
def Mach.modLadder (m : Mach) (id : Nat) (f : Ladder → Ladder) : Mach :=
  m.modErr fun e => { e with ladders := e.ladders.map fun l => if l.id = id then f l else l }

/-- The line, by its key, that number `d` of the stripe of line `i` of a BUNDLE unit is: 15 is the parity line (R185). -/
def Mach.stripeKey (m : Mach) (uk i d : Nat) : Nat := parKey (m.lineOf uk (15 * (i / 15) + (if d = 15 then 0 else d))) (d = 15)

/-- The lines that step 4 reads in place of line `i`, by helper number; none when one of them cannot serve: its channel is out of service,
it is stale, or it is POISON already (R243). -/
def Mach.helpers (m : Mach) (uk i chan : Nat) : Option (List (Nat × (Nat × Nat × Nat))) :=
  let e := m.ent uk
  let usable (p : Nat × Nat × Nat) : Bool := m.linkServes p.1 && staleChan e ≠ some p.1
  if eKind e = 2 then
    let o := (copiesOf e i).filter fun p => p.1 ≠ chan
    if o.length = 1 && o.all usable then some (o.map fun p => (0, p)) else none
  else if eKind e = 3 then
    let s := i / 15
    let o := ((List.range 16).filter fun d => bundleChan (eChan e % 2) s d ≠ chan).map fun d =>
      (d, (bundleChan (eChan e % 2) s d, eSeg e, s))
    if o.all fun x => usable x.2 && (m.poisonKept (m.stripeKey uk i x.1)).isNone then some o else none
  else none

/-- The bound of a demand from its issue, after the steps that it took (R242). -/
def ladderBound (step : Nat) (first retried : Bool) : Nat :=
  if step = 0 then usec 32 / 10 else if step < 4 then usec (32 + 18 * step) / 10
  else if !first then usec 10 else if retried then usec 186 / 10 else usec 132 / 10

/-- A Gleaner read takes part in the ladder. -/
def Ladder.gleaned (l : Ladder) : Bool := l.jobs.any fun j => match j with | .glean _ => true | _ => false

/-- The pass waits for `n` more programs when the line is one that it counted (R261). -/
def Mach.gleanProgs (m : Mach) (key gl n : Nat) : Mach := if gleanWaits gl then m.gleanAdd key n else m

/-- End a ladder: its ring entry, counters, the repair or poison program, and the outcome for every read that took part (R242 to R244,
R248, R252 to R254). `outcome` is the ring code; `restored` says that step 4 gave the line. A poison program that its channel takes no
longer waits at stage C, and keeps the line POISON (R249). A ladder that waited in BRINGUP is over its bound (R431). -/
def Mach.ladderEnd (m : Mach) (l : Ladder) (o : Out) (outcome : Nat) (restored : Bool) : List (Job × Out) × Mach :=
  let m0 := m.modErr fun e => { e with ladders := e.ladders.filter fun x => x.id ≠ l.id }
  let elapsed := m.now - l.at_
  let bound := ladderBound l.step l.own l.drift
  let late := l.demand && (l.held || bound < elapsed)
  let m1 := (if l.est then m0.count ALM.CNT_EST else m0).ringAdd
    { (default : RingInfo) with
      line := l.line.getD 0, path := 0, tick := l.tick, chan := l.chan, seg := l.seg, pos := l.pos, rq := l.rq, port := l.port.getD 0,
      demand := l.demand, est := l.est, step := if o.lost then 5 else l.step, outcome := outcome, overBound := late,
      status := if l.demand then (if outcome = 5 then stWritePoisoned else o.status) else 0, gen := if l.own then l.gen else 0,
      dur := elapsed / 192 }
  let steps := if l.step < 4 then l.step else if l.drift then 3 else 0
  let done := l.jobs.map fun j => (j, { o with steps := steps, newer := l.overtaken, bound := bound })
  match l.uk, l.line with
  | some uk, some line =>
    let i := (m.unitOf line).2
    if o.lost then
      let m2 := if l.demand then m1 else ((m1.event .err 0 ERR.EV_UNREQ_POISON).count ERR.CNT_UNREQ_POISON)
      if l.overtaken || l.merge then (done, m2)
      else
        let m3 := ((m2.poisonLine line).setEntFlag uk fPoison true).2
        let gl := if l.gleaned && !m.omits l.chan then 3 else 0
        let key := parKey line l.par
        let job := Job.repair key gl
        if m.omits l.chan && eKind (m.ent uk) ≠ 2 then
          (done, m3.keepPoison uk (l.chan, l.seg, l.pos) line l.par l.first)
        else if l.par then
          (done, (m3.mQueue l.chan false 17
            { (default : Media) with
              op := opWriteLine, seg := l.seg, pos := l.pos, nlines := 1, data := l.first, mark := 2, line := some line, par := l.par,
              uk := some uk } job).gleanProgs key gl 1)
        else
          let r := m3.progLine 17 uk i l.first 0 2 none job
          (done, r.2.gleanProgs key gl r.1)
    else if restored && !l.noRepair && !l.overtaken && !m.omits l.chan && !(l.par && m.stripeOpenOn uk (i / 15)) then
      let gl := if l.gleaned then 2 else 4
      (done, (m1.mQueue l.chan false 17
        { (default : Media) with
          op := opWriteLine, seg := l.seg, pos := l.pos, nlines := 1, data := o.data, gen := l.gen, mark := if o.cls = 1 then 1 else 0,
          line := some line, par := l.par, uk := some uk } (.repair (parKey line l.par) gl)).gleanProgs (parKey line l.par) gl 1)
    else (done, m1)
  | _, _ => (done, m1)

/-- Step 5: the line cannot be recovered (R242). -/
def Mach.ladderLost (m : Mach) (l : Ladder) : List (Job × Out) × Mach :=
  m.ladderEnd l ⟨stPoison, l.first, 2, l.gen, some l.birth, true, 0, false, 0⟩ (if l.merge then 5 else 4) false

/-- In BRINGUP step 4 of a line waits while its group, or its mirror pair, has a channel that is not ACTIVE (R27, R431). -/
def Mach.step4Waits (m : Mach) (e : Nat) : Bool := m.mode = mBringup && 2 ≤ eKind e && (unitChans e).any fun c => m.link c ≠ 4

/-- Step 4: the mirror copy or the other lines of the stripe are read, or the ladder fails (R243); in BRINGUP it may wait (R431). -/
def Mach.ladderStep4 (m : Mach) (l : Ladder) : List (Job × Out) × Mach :=
  match l.uk, l.line with
  | some uk, some line =>
    let e := m.ent uk
    let i := (m.unitOf line).2
    if m.step4Waits e then ([], m.modLadder l.id fun _ => { l with step := 4, held := true })
    else match m.helpers uk i l.chan with
    | none => m.ladderLost (if 2 ≤ eKind e then { l with step := 4 } else l)
    | some hs =>
      let m1 := m.modErr fun x => { x with ladders := x.ladders.map fun y =>
        if y.id = l.id then { l with step := 4, wait := hs.length, acc := 0, bad := false, solid := true, tries := [] } else y }
      ([], hs.foldl (fun (m : Mach) h =>
        m.readLine 17 uk h.2 line 1 (.helper l.id h.1) none false) m1)
  | _, _ => m.ladderLost l

/-- The next drift-retry step of a ladder, or step 4 once none remains (R226, R242). -/
def Mach.ladderNext (m : Mach) (l : Ladder) : List (Job × Out) × Mach :=
  match l.todo, l.uk, l.line with
  | b :: rest, some uk, some line =>
    if l.step < 3 then
      let m1 := m.modLadder l.id fun x => { x with step := l.step + 1, todo := rest }
      ([], m1.readLine 17 uk (l.chan, l.seg, l.pos) line (b + 2) (.ladder l.id) none false l.par)
    else (m.count MAP.CNT_RETRY_FAIL).ladderStep4 l
  | _, _, _ => (if l.step = 0 then m else m.count MAP.CNT_RETRY_FAIL).ladderStep4 l

/-- A read met FAIL, or step 4 is entered at once: a new ladder (R242). -/
def Mach.newLadder (m : Mach) (job : Job) (line uk : Nat) (p : Nat × Nat × Nat) (rq : Nat) (port : Option Nat)
    (demand merge noRepair own : Bool) (at_ : Nat) (first : Line) (gen birth : Nat) (todo : List Nat) (par : Bool := false)
    (newer : Bool := false) : Ladder × Mach :=
  let l : Ladder := { (default : Ladder) with
    id := m.serial, jobs := [job], line := some line, chan := p.1, seg := p.2.1, pos := p.2.2, uk := some uk, rq := rq, port := port,
    demand := demand, noRepair := noRepair, todo := todo, first := first, gen := gen, birth := birth, tick := m.get ALM.TB_NOW,
    est := m.estimated, at_ := at_, merge := merge, own := own, drift := !todo.isEmpty, par := par,
    overtaken := newer }
  (l, { m.modErr fun e => { e with ladders := e.ladders ++ [l] } with serial := m.serial + 1 })

/-- A read joins the ladder on its line; a demand makes it a demand ladder, whose bound counts from that demand's issue (R244, R245). -/
def Mach.joinLadder (m : Mach) (l : Ladder) (job : Job) (port : Option Nat) (demand merge : Bool) (at_ : Nat) : Mach :=
  m.modLadder l.id fun x => { x with
    jobs := x.jobs ++ [job], demand := x.demand || demand, noRepair := x.noRepair && !demand, merge := x.merge || merge,
    port := if demand && !x.demand then port else x.port, at_ := if demand && !x.demand then at_ else x.at_ }

/-- Begin a media read of a logical line for `job`. It joins a ladder in progress, goes to a copy, or enters step 4 at once. An
outcome is given only where nothing has to be read (R184, R242 to R245). -/
def Mach.startRead (m : Mach) (rq line : Nat) (job : Job) (port : Option Nat) (green demand merge noRepair : Bool) (at_ : Nat) :
    Option Out × Mach :=
  let u := m.unitOf line
  let e := m.ent u.1
  match m.ladderOn? line with
  | some l => (none, m.joinLadder l job port demand merge at_)
  | none =>
    match m.poisonKept line, m.readCopy e u.2 with
    | some d, _ => (some (Out.known d), m)
    | none, some p => (none, m.readLine rq u.1 p line 1 job port green)
    | none, none =>
      let p := (copiesOf e u.2).headD (0, 0, 0)
      let n := m.newLadder job line u.1 p rq port demand merge noRepair false at_ 0 0 0 []
      let r := n.2.ladderStep4 n.1
      (r.1.head?.map (·.2), r.2)

/-- Line copy `idx` of a unit, in position order: its place, the line's index in the unit, and whether it is a parity line, which goes
by data line 0 of its stripe (R183 to R185). -/
def unitCopy (e idx : Nat) : (Nat × Nat × Nat) × Nat × Bool :=
  let cs := unitChans e
  let n := max 1 cs.length
  let p := idx / n
  let c := cs.getD (idx % n) 0
  if eKind e = 3 then
    let d := ((List.range 16).find? fun d => bundleChan (eChan e % 2) p d = c).getD 15
    ((c, eSeg e, p), 15 * p + (if d = 15 then 0 else d), d = 15)
  else ((c, eSeg e, p), p, false)

/-- Line copies of a unit. -/
def unitCopies (e : Nat) : Nat := 4096 * (unitChans e).length

/-- Read one line copy of a unit through its ladder, as a non-demand (R212, R217, R228, R259). A copy that lies on a lost or stale
channel enters step 4 at once (R243). -/
def Mach.copyRead (m : Mach) (rq uk idx : Nat) (job : Job) (noRepair : Bool) : Option Out × Mach :=
  let e := m.ent uk
  let t := unitCopy e idx
  let line := m.lineOf uk t.2.1
  let p := t.1
  match m.ladderOn? line t.2.2 with
  | some l => (none, m.joinLadder l job none false false m.now)
  | none =>
    match m.poisonKept (parKey line t.2.2) with
    | some d => (some (Out.known d), m)
    | none =>
      if m.chanLost p.1 || staleChan e = some p.1 then
        let n := m.newLadder job line uk p rq none false false noRepair false m.now 0 0 0 [] t.2.2
        let r := n.2.ladderStep4 n.1
        (r.1.head?.map (·.2), r.2)
      else (none, m.readLine rq uk p line 1 job none false t.2.2)

/-- The class and tag fields of a media line as read: the outcome when it needs no ladder (R240). -/
def readOut (cls : Nat) (d : Line) (tag : Nat) : Option Out :=
  let gen := bits tag 32 8
  let birth := bits tag 40 24
  match cls with
  | 0 => some ⟨stOk, d, 0, gen, some birth, false, 0, false, usec 32 / 10⟩
  | 1 => some ⟨stUnwritten, 0, 1, gen, some birth, false, 0, false, usec 32 / 10⟩
  | 2 => some ⟨stPoison, d, 2, gen, some birth, false, 0, false, usec 32 / 10⟩
  | _ => none

/-- A read of the line's own copy by a ladder is back (R242). DESIGN CHOICE, log entry 107: a step that reads the poison marker ends the
ladder with POISON, advances no CNT_RETRY, and its ring entry has OUTCOME 4. -/
def Mach.ladderBack (m : Mach) (id cls : Nat) (d : Line) (tag : Nat) : List (Job × Out) × Mach :=
  match m.ladder? id with
  | none => ([], m)
  | some l =>
    match readOut cls d tag with
    | some o =>
      if cls = 2 then m.ladderEnd l o 4 false
      else
        let m1 := if l.step = 1 then m.count MAP.CNT_RETRY_1 else if l.step = 2 then m.count MAP.CNT_RETRY_2 else m.count MAP.CNT_RETRY_3
        m1.ladderEnd l (if cls = 0 then { o with status := stRetried } else o) 0 false
    | none => (m.count ERR.CNT_MEDIA_FAIL).ladderNext l

/-- A helper or the mirror copy is back (R243). The restored line has the GEN and BIRTH of its own copy, whose tag field reads back at every
offset set (R207); where that was not read, those of the mirror copy, or the GEN of a line of its stripe. -/
def Mach.helperBack (m : Mach) (id idx chan seg pos cls : Nat) (d : Line) (tag : Nat) : List (Job × Out) × Mach :=
  match m.ladder? id with
  | none => ([], m)
  | some l =>
    match l.uk, l.line with
    | some uk, some line =>
      let e := m.ent uk
      if cls = 3 then
        let m1 := m.count ERR.CNT_MEDIA_FAIL
        let tried := l.tries.get idx
        let todo := if tried.isEmpty then 0 :: m.retryBuckets chan e (m.bucketOf chan e) (bits tag 40 24) else tried
        match todo.drop 1 with
        | b :: rest =>
          if m.map.dloaded.get chan then
            ([], (m1.modLadder id fun x => { x with tries := x.tries.set idx (0 :: rest) }).readLine 17 uk (chan, seg, pos) line
              (b + 2) (.helper id idx) none false)
          else m1.ladderLost l
        | [] => m1.ladderLost l
      else if cls = 2 then m.ladderLost l
      else
        let l' : Ladder := { l with
          wait := l.wait - 1, acc := if cls = 0 then l.acc ^^^ d else l.acc, solid := l.solid && cls = 1,
          gen := if l.own then l.gen else bits tag 32 8, birth := if l.own then l.birth else bits tag 40 24 }
        let m1 := m.modLadder id fun _ => l'
        if 0 < l'.wait then ([], m1)
        else
          let mirror := eKind e = 2
          let birth := if l.own || mirror then some l'.birth else none
          if l'.solid then m1.ladderEnd l' ⟨stUnwritten, 0, 1, l'.gen, birth, false, 0, false, 0⟩ (if mirror then 2 else 1) true
          else
            m1.ladderEnd l' ⟨if mirror then stRetried else stRecomputed, l'.acc, 0, l'.gen, birth, false, 0, false, 0⟩ (if mirror then 2 else 1) true
    | _, _ => ([], m)

/-- A first read of a line is back for `job`: its outcome, or a ladder (R240, R242). -/
def Mach.firstBack (m : Mach) (q : LineReq) (job : Job) (chan : Nat) (demand merge noRepair : Bool) (at_ cls : Nat) (d : Line) (tag : Nat) :
    List (Job × Out) × Mach :=
  match readOut cls d tag with
  | some o => ([(job, { o with newer := q.md.newer })], m)
  | none =>
    let m1 := m.count ERR.CNT_MEDIA_FAIL
    match q.md.line, q.md.uk with
    | some line, some uk =>
      match m1.ladderOn? line q.md.par with
      | some l => ([], m1.joinLadder l job q.port demand merge at_)
      | none =>
        let e := m.ent uk
        let todo := if m.map.dloaded.get chan then m.retryBuckets chan e (q.md.bkt - 2) (bits tag 40 24) else []
        let n := m1.newLadder job line uk (chan, q.md.seg, q.md.pos) q.rq q.port demand merge noRepair true at_ d (bits tag 32 8)
          (bits tag 40 24) todo q.md.par q.md.newer
        n.2.ladderNext n.1
    | _, _ => ([(job, ⟨stPoison, d, 2, bits tag 32 8, some (bits tag 40 24), true, 0, false, usec 32 / 10⟩)], m1)

/-! ### Reads that are tried again at other buckets: canaries and seal lines (R232, R254, R337) -/

/-- A canary or seal line has failed its check. -/
def Mach.probeFail (m : Mach) (key tag : Nat) : Mach :=
  let m1 := m.count ERR.CNT_MEDIA_FAIL
  if m.err.probes.any fun p => p.1 = key then m1
  else m1.modErr fun e => { e with probes := e.probes.set key (⟨0, 0, m.get ALM.TB_NOW, m.estimated, m.now⟩, bits tag 32 8) }

/-- The tries end: what had failed makes one ring entry (R254). DESIGN CHOICE, log entry 107: it names the channel and the canary or slot, and
has OUTCOME 0 where a later try verified, else 4. -/
def Mach.probeEnd (m : Mach) (key chan pos rq step : Nat) (ok : Bool) : Mach :=
  match m.err.probes.find? fun p => p.1 = key with
  | none => m
  | some (_, f, gen) =>
    ((if f.est then m.count ALM.CNT_EST else m).ringAdd
      { (default : RingInfo) with
        tick := f.tick, est := f.est, chan := chan, pos := pos, rq := rq, step := min 3 step, outcome := if ok then 0 else 4, gen := gen,
        dur := (m.now - f.at_) / 192 }).modErr fun e => { e with probes := e.probes.erase key }

end Sys2Proof.Machine
end

