-- ==== Sys2Proof/Machine/Client.lean ====
section
/-! DEFINITION. How a released client request takes effect: the random-access path, the ordering operations, the global fence and the
range holds' time-out (chapters "Architecture and data paths", R20 to R23, "Iresk client ports", R66 to R72, "Ordering, visibility and
durability", R91 to R118, and "Hearth: the HBM tier controller", R277 to R284). -/
namespace Sys2Proof.Machine

/-! ### The point of coherence (R20, R91, R279) -/

/-- What the point of coherence holds without a media read: status, data, class (0 GOOD, 1 BLANK, 2 POISON). `none` where the medium
has to be read; a home copy that fails its check is dropped, and the flag says so (R246). CNT_HIT counts a line found in Hearth (R280). -/
def Mach.coherent (m : Mach) (rq port l : Nat) (demand merge : Bool) (at_ : Nat) : Option (Nat × Line × Nat) × Bool × Mach :=
  match m.kilnRead l rq port demand at_ with
  | some (st, d, m1) => (some (st, d, if st = stPoison then 2 else 0), false, m1)
  | none =>
    match m.dirFind l with
    | some e =>
      let r := m.dirtyRead e rq port demand merge at_
      let c := r.2.1.cls
      (some (if c = 2 then stPoison else if c = 1 then stUnwritten else r.1, r.2.1.data, c), false, r.2.2.count HT.CNT_HIT)
    | none =>
      if m.homeHit l then
        let c := m.cell (m.homePlace l)
        if c.cls = 3 then (none, true, ((m.count ERR.CNT_HEARTH_FAIL).judgeEst).homeEmpty (m.homePlace l))
        else (some (if c.cls = 2 then stPoison else if c.cls = 1 then stUnwritten else stOk, c.data, c.cls), false, m.count HT.CNT_HIT)
      else (none, false, m)

/-- A Hearth line at stack `n` that holds line `l` fails its check now. -/
def Mach.hfailAt (m : Mach) (n l : Nat) : HFail := ⟨n, l, m.get ALM.TB_NOW, m.estimated, m.now⟩

/-- The ring entry of a clean copy that failed its check, once the read of the medium in its place has ended with status `st`; its bound is
160 ns plus that of the read (R246, R253, R254). `lost` says that the line is poison, and `merge` that a partial write then leaves it so. -/
def Mach.refetched (m : Mach) (rq port : Nat) (demand merge : Bool) (at_ : Nat) (hf : HFail) (st bound : Nat) (lost : Bool) : Mach :=
  m.ringAdd { (default : RingInfo) with
    line := hf.line, path := 1, tick := hf.tick, stack := hf.stack, rq := rq, port := port, demand := demand, est := hf.est,
    step := if lost then 5 else 0, outcome := if lost then (if merge then 5 else 4) else 3,
    status := if demand then (if lost then (if merge then stWritePoisoned else stPoison) else st) else 0,
    dur := (m.now - at_) / 192, overBound := demand && usec 16 / 100 + bound < m.now - at_ }

/-- The outcome of a read that replaced a failed clean copy: a line found GOOD is OK_RETRIED (R246). -/
def retriedStatus (st : Nat) : Nat := if st = stOk then stRetried else st

/-! ### Lines of a request -/

/-- Change line `k` of a request. -/
def Mach.modLine (m : Mach) (port id k : Nat) (f : LineSt → LineSt) : Mach :=
  m.modReq port id fun (r : Req) => { r with lines := r.lines.modify k f }

/-- The beats of a request that fall in line `k`: place in the line and write beat. -/
def Req.lineBeats (r : Req) (k : Nat) : List (Nat × WBeat) :=
  (List.range 4).filterMap fun q =>
    let i := 4 * k + q
    let o := r.addr % 256 / 64
    if o ≤ i then (r.beats[i - o]?).map fun b => (q, b) else none

/-- The line that a request leaves from `old` on its line `k` (R67, R95). -/
def Req.newLine (r : Req) (k : Nat) (old : Line) : Line :=
  if r.op = opZero || r.op = opClearPoison then 0
  else (r.lineBeats k).foldl (fun (l : Line) b =>
    Line.setBeat l b.1 (if r.op = opWrite then b.2.data else mergeBeat (Line.beat l b.1) b.2.data b.2.be)) old

/-- The request covers the whole of line `k` (R72, R251). -/
def Req.wholeLine (r : Req) (k : Nat) : Bool :=
  r.op = opZero || (let b := r.lineBeats k; b.length = 4 && (r.op = opWrite || b.all fun x => x.2.be = BitVec.allOnes 64))

/-- Every write beat of line `k` has all its enables at 0: the line is read and nothing is written (R67, R72). -/
def Req.emptyLine (r : Req) (k : Nat) : Bool := r.op = opWriteMasked && (r.lineBeats k).all fun x => x.2.be = 0

/-- An access to line `k` may begin: no other access of the line is under way, and every earlier request of the port that it must
follow has taken effect on it (R93, R94, R279). -/
def Mach.lineFree (m : Mach) (port : Nat) (r : Req) (k : Nat) : Bool :=
  let l := r.line k
  let busy (x : LineSt) : Bool := x.phase == .media || x.phase == .filled || x.phase == .dirWait
  let other := (List.range 16).any fun p => (m.port p).reqs.any fun x =>
    x.id ≠ r.id && addressed x.op && x.touches l && busy (x.lines.getD (l - x.addr / 256) default)
  !other && !m.olderPending port r l

/-- The first of WRITE_POISONED, OK_RECOMPUTED, OK_RETRIED and OK that applies to a line of a write (R74). -/
def worstStatus (ls : List LineSt) : Nat :=
  if ls.any fun l => l.status = stWritePoisoned then stWritePoisoned
  else if ls.any fun l => l.status = stRecomputed then stRecomputed
  else if ls.any fun l => l.status = stRetried then stRetried else stOk

/-- STREAM_HINT: up to 16 lines after the request are filled, within its segment and namespace (R66). -/
def Mach.streamHint (m : Mach) (r : Req) : Mach :=
  let last := r.line (r.nlines - 1)
  let ls := (List.range 16).map fun i => last + 1 + i
  (ls.filter fun l => l / 4096 = last / 4096 && lineOff l + 256 ≤ (m.nsDesc r.ns).size).foldl (fun (m : Mach) l =>
    if (m.dirFind l).isSome || m.homeHit l || m.reserved l || m.ent (m.unitOf l).1 = 0 then m
    else (m.startRead r.rcls l (.hint l) none false false false false m.now).2) m

/-- The request has taken effect on line `k`. Once it has on every line, its response may begin (R92). -/
def Mach.lineDone (m : Mach) (port id k st : Nat) (d : Line) (cls : Nat) : Mach :=
  let m1 := m.modReq port id fun (r : Req) => { r with
    began := true, lines := r.lines.modify k fun l => { l with phase := .done, status := st, data := d, cls := cls, waitAt := none } }
  match m1.req? port id with
  | none => m1
  | some r =>
    if !(r.lines.all fun l => l.phase == .done) then m1
    else
      let m2 := m1.modReq port id fun (x : Req) => { x with
        phase := .ready, status := if writesLines r.op then worstStatus r.lines else stOk }
      if r.op = opRead && bitAt r.attr 1 then m2.streamHint r else m2

/-! ### Reads -/

/-- A READ or PREFETCH takes its value (R66, R68, R74, R112, R249, R280). -/
def Mach.readEffect (m : Mach) (port : Nat) (r : Req) (k st : Nat) (d : Line) (cls : Nat) : Mach :=
  if r.op = opPrefetch then m.lineDone port r.id k stOk d cls
  else
    let blank := cls = 1 || st = stUnwritten
    let m1 := if blank && (bitAt r.attr 2 || (m.nsDesc r.ns).faultPolicy) then m.event .port port PORT.EV_UNWRITTEN_FAULT else m
    let m2 := if cls = 2 then m1.count ERR.CNT_POISON_READ else m1
    m2.lineDone port r.id k (if cls = 2 then stPoison else if blank then stUnwritten else st) (if cls = 0 then d else 0) cls

/-- LAST_USE marks the copy that a READ reads (R280). -/
def Mach.markLastUse (m : Mach) (l : Nat) : Mach :=
  match m.dirFind l with
  | some e => m.setDir e { m.dirEnt e with lastUse := true }
  | none =>
    if m.homeHit l then
      m.modHt fun h => { h with cells := h.cells.upd (cellKey (m.homePlace l)) fun c => { c with lastUse := true } }
    else m

/-! ### Writes -/

/-- What a port's writes left and is now durable is forgotten (R104). -/
def Mach.lineDurable (m : Mach) (l serial : Nat) : Bool :=
  match m.dirFind l with
  | none => true
  | some e => serial < (m.dirEnt e).born

/-- A write is recorded for PERSIST, beside the older ones of the line that are not durable yet; records of durable lines go (R104 to
R106). -/
def Mach.recordWrite (m : Mach) (port id l serial : Nat) : Mach :=
  m.modPort port fun p => { p with wrote := (p.wrote.filter fun w => !m.lineDurable w.1 w.2.2) ++ [(l, id, serial)] }

/-- A write takes effect on line `k` with the whole line `d` of class `cls`, or waits for a way or for hold-up room (R279). -/
def Mach.writeEffect (m : Mach) (port : Nat) (r : Req) (k st : Nat) (d : Line) (cls : Nat) : Mach :=
  let l := r.line k
  let noalloc := bitAt r.attr 0 && r.op ≠ opClearPoison
  let serial := m.serial
  let w := m.putDirty r.rcls l d cls (m.mirrors r.cls) noalloc
  if !w.1 then
    w.2.modLine port r.id k fun x => { x with phase := .dirWait, waitAt := some (x.waitAt.getD m.now) }
  else
    let waited := match (r.lines.getD k default).waitAt with | some t => fabricCycles t m.now | none => 0
    let m1 := if 0 < waited then w.2.count HT.CNT_DIR_WAIT 0 waited else w.2
    let m2 := ((m1.overtake l).loomDiscard l).recordWrite port r.id l serial
    (if st = stWritePoisoned then m2.count ERR.CNT_WRITE_POISONED else m2).lineDone port r.id k st 0 0

/-- Bring CNT_DIR_WAIT up to now for the writes that wait (R279). -/
def Mach.settleDirWait (m : Mach) : Mach :=
  (List.range 16).foldl (fun (m : Mach) p =>
    let ws := (m.port p).reqs.flatMap fun r => r.lines.filterMap fun l => if l.phase == .dirWait then l.waitAt else none
    if ws.isEmpty then m
    else (m.count HT.CNT_DIR_WAIT 0 ((ws.map fun t => fabricCycles t m.now).sum)).modPort p fun s => { s with
      reqs := s.reqs.map fun r => { r with lines := r.lines.map fun l =>
        if l.phase == .dirWait && l.waitAt.isSome then { l with waitAt := some m.now } else l } }) m

/-- The request has taken effect on line `k`. -/
def Mach.lineIsDone (m : Mach) (port id k : Nat) : Bool :=
  match m.req? port id with
  | some x => x.phase == .ready || (x.lines.getD k default).phase == .done
  | none => false

/-- Keep what was found on line `k` for as long as the request waits. -/
def Mach.keepFound (m : Mach) (port id k st : Nat) (d : Line) (cls : Nat) : Mach :=
  m.modLine port id k fun x => { x with status := st, data := d, cls := cls }

/-- A partial write merges into the line found, and the merged line takes its own way to Hearth (R17, R250). A status of WRITE_POISONED says that the line was found uncorrectable now and
is new poison (R248). -/
def Mach.mergeEffect (m : Mach) (port : Nat) (r : Req) (k st : Nat) (old : Line) (cls : Nat) : Mach :=
  let base : Line := if cls = 1 then 0 else old
  let st' := if cls = 2 then stWritePoisoned else if cls = 1 then stOk else st
  if r.emptyLine k && cls ≠ 2 then (m.count PORT.CNT_RMW port).lineDone port r.id k st' 0 0
  else
    let m1 := (m.keepFound port r.id k st old cls).writeEffect port r k st' (r.newLine k base) (if cls = 2 then 2 else 0)
    if !m1.lineIsDone port r.id k then m1
    else
      let m2 := (m1.count PORT.CNT_RMW port).hQueue r.rcls (m1.linePlace (r.line k) false) true
      if st = stWritePoisoned then m2.poisoned else m2

/-- CLEAR_POISON on a line found with a class (R251). -/
def Mach.clearEffect (m : Mach) (port : Nat) (r : Req) (k found : Nat) : Mach :=
  if found = 0 then m.lineDone port r.id k stOk 0 0
  else
    let m1 := (m.keepFound port r.id k stOk 0 found).writeEffect port r k stOk 0 0
    if m1.lineIsDone port r.id k && found = 2 then m1.count ERR.CNT_CLEARED else m1

/-- The value of line `k` is at hand: the request takes effect with it. -/
def Mach.valueEffect (m : Mach) (port : Nat) (r : Req) (k st : Nat) (d : Line) (cls : Nat) : Mach :=
  if r.op = opRead || r.op = opPrefetch then m.readEffect port r k st d cls
  else if r.op = opClearPoison then m.clearEffect port r k cls
  else m.mergeEffect port r k st d cls

/-- A line is not in Kiln or Hearth: it is unmapped, or the medium is read for it (R23, R111). While the map entry is being fetched the
line waits (R190). -/
def Mach.missEffect (m : Mach) (port : Nat) (r : Req) (k : Nat) : Mach :=
  let l := r.line k
  let uk := (m.unitOf l).1
  let u := m.lookup uk
  let m1 := u.2.count HT.CNT_MISS
  if !u.1 then u.2
  else if m1.ent uk = 0 then m1.valueEffect port r k stUnwritten 0 1
  else
    let demand := r.op ≠ opPrefetch
    let merge := writesLines r.op && r.op ≠ opClearPoison
    let s := m1.startRead r.rcls l (.client port r.id k) (some port) (r.color == .green) demand merge false r.at_
    match s.1 with
    | none => s.2.modLine port r.id k fun x => { x with phase := .media }
    | some o => s.2.modLine port r.id k fun x => { x with
        phase := .filled, status := if o.lost then stWritePoisoned else o.status, data := o.data, cls := o.cls, bound := o.bound }

/-- The medium's answer for line `k` of a request is here (R23, R242). -/
def Mach.clientFill (m : Mach) (port id k : Nat) (o : Out) : Mach :=
  m.modLine port id k fun x => if x.phase == .media then
    { x with phase := .filled, status := if o.lost then stWritePoisoned else o.status, data := o.data, cls := o.cls, bound := o.bound }
    else x

/-- The filled line, that of a partial write too (R23, R279), is kept as R280 says, or rewrites the copy that failed its check (R246), and the request takes effect with it. -/
def Mach.filledEffect (m : Mach) (port : Nat) (r : Req) (k : Nat) (x : LineSt) : Mach :=
  let l := r.line k
  let demand := r.op ≠ opPrefetch
  let st := if x.hfail.isSome then retriedStatus x.status else x.status
  let m1 := match x.hfail with
    | some hf => (m.refetched r.rcls port demand (writesLines r.op && r.op ≠ opClearPoison) r.at_ hf st x.bound (x.cls = 2)).modLine port r.id k fun y => { y with hfail := none }
    | none => m
  let m2 := if !r.past then
      m1.keepHome l x.data x.cls (x.hfail.isNone && bitAt r.attr 0 && r.op ≠ opPrefetch) (bitAt r.attr 3 && r.op = opRead)
        (x.hfail.isNone && r.op = opPrefetch)
    else m1
  let m3 := if !r.past && m2.homeHit l then m2.hQueue r.rcls (m2.homePlace l) true else m2
  m3.valueEffect port r k st x.data x.cls

/-- The request takes effect on line `k` as far as it can now (R23, R279). -/
def Mach.lineStep (m : Mach) (port : Nat) (r : Req) (k : Nat) : Mach :=
  let x := r.lines.getD k default
  let l := r.line k
  match x.phase with
  | .filled => m.filledEffect port r k x
  | .dirWait =>
    if r.op = opClearPoison then m.clearEffect port r k x.cls
    else if r.wholeLine k then m.writeEffect port r k stOk (r.newLine k 0) 0
    else m.mergeEffect port r k x.status x.data x.cls
  | .served =>
    if m.behindMark r.id || !m.lineFree port r k then m
    else if writesLines r.op && r.wholeLine k then m.writeEffect port r k stOk (r.newLine k 0) 0
    else if r.op = opPrefetch && (m.dirFind l).isSome then m.lineDone port r.id k stOk 0 0
    else
      let c := m.coherent r.rcls port l (r.op ≠ opPrefetch) (writesLines r.op && r.op ≠ opClearPoison) r.at_
      match c.1 with
      | some (st, d, cls) =>
        let m1 := if r.op = opRead && bitAt r.attr 3 then c.2.2.markLastUse l else c.2.2
        m1.valueEffect port r k st d cls
      | none =>
        let m1 := if c.2.1 then
            c.2.2.modLine port r.id k fun y => { y with hfail := some (m.hfailAt (m.homePlace l).1 l) }
          else c.2.2
        m1.missEffect port r k
  | _ => m

/-- READ, WRITE, WRITE_MASKED, CLEAR_POISON, PREFETCH and ZERO: the request with a tag takes effect on its line `k`; one that feeds a stream
takes its turn there as a whole (R121). -/
def clientLine (op port tag k : Nat) (m : Mach) : Mach :=
  if !m.fabricUp then m
  else
    match (m.port port).reqs.find? fun r => r.tag = tag && r.op = op with
    | some r => if r.phase == .kiln then m.kilnTake port r.id
      else if r.phase == .lines && k < r.lines.length then m.lineStep port r k else m
    | none => m

/-- APPEND (R97, R121): the request takes its turn in its stream. -/
def clientAppend (port tag : Nat) (m : Mach) : Mach :=
  if !m.fabricUp then m
  else
    match (m.port port).reqs.find? fun r => r.tag = tag && r.op = opAppend with
    | some r => m.kilnTake port r.id
    | none => m

/-! ### Release from a shaper (R368, R370) -/

/-- Split a released request into its lines and queue their Hearth accesses under its class (R370). A line in Kiln staging needs none, and
one in spill is read there (R17, R20). -/
def Mach.splitRequest (m : Mach) (port : Nat) (r : Req) : Mach :=
  let n := r.nlines
  let m1 := m.modReq port r.id fun (x : Req) => { x with
    phase := .lines, lines := List.replicate n { (default : LineSt) with phase := .hearth } }
  (List.range n).foldl (fun (m : Mach) k =>
    let l := r.line k
    match m.kilnFind l with
    | some (_, s, d) =>
      if s.spill.isNone then m.modLine port r.id k fun x => { x with phase := .served }
      else m.hQueue r.rcls (m.slotPlace s d) false (.client port r.id k) (some port) (r.color == .green)
    | none => m.hQueue r.rcls (m.linePlace l (writesLines r.op)) (writesLines r.op && r.wholeLine k) (.client port r.id k) (some port)
      (r.color == .green)) m1

/-- SHAPER_RELEASE (R368, R369): the head request of a class shaper is released when its credit is not negative. -/
def shaperRelease (c : Nat) (m : Mach) : Mach :=
  let s := m.shaper c
  match s.fifo with
  | [] => m
  | (port, id) :: rest =>
    match m.req? port id with
    | none => m.setShaper c { s with fifo := rest }
    | some r =>
      let en := m.rflag (REEVE.CL_SHAPE_EN c)
      if !m.fabricUp || (en && (s.credit < 0 || m.rget (REEVE.CL_RATE c) = 0)) then m
      else
        let m1 := m.setShaper c { s with fifo := rest, credit := if en then s.credit - m.reqLen r * 65536 else 0 }
        match r.stream with
        | some k => (m1.modReq port id fun (x : Req) => { x with phase := .kiln }).kilnServe k
        | none => m1.splitRequest port r

/-! ### A Hearth read returns (R246) -/

/-- A line of the Hearth map region fails its check: the copy on the other stack gives it and the failed copy is rewritten from it; with no
other copy that passes, the page is rebuilt from its checkpointed copy, which is read from the medium while lookups wait, and the delta log
(R246). -/
def Mach.mapLineFail (m : Mach) (p : Nat × Nat) (key : Nat) : Mach :=
  let info : RingInfo := { (default : RingInfo) with
    path := 1, tick := m.get ALM.TB_NOW, stack := p.1, rq := 13, est := m.estimated, outcome := 2, step := 4 }
  let two := m.stacksIn = 2
  let q := (1 - p.1, p.2)
  let m1 := (m.count ERR.CNT_HEARTH_FAIL 0 (if two && (m.cell q).cls = 3 then 2 else 1)).judgeEst
  let m2 := if two then m1.hQueue 13 q false else m1
  if two && (m.cell q).cls ≠ 3 then (((m2.hWrite p (2 ^ 60) (m.cell q)).hQueue 13 p true).ringAdd info).mapGot key false
  else
    let pg := (keyPage key).1
    let m3 := (m2.event .err 0 ERR.EV_MAP_REBUILD).ringAdd { info with outcome := 6 }
    (m3.modMap fun s => { s with hmap := s.hmap.erase pg }).showWarm.mapFetchMedia key

/-! ### FENCE, PERSIST and the global fence (R100 to R107) -/

/-- A request has taken effect (R91). -/
def Req.took (r : Req) : Bool := r.phase == .ready || ((r.op = opPersist || r.op = opPersistNs) && r.phase == .order)

/-- FENCE (R100): it takes effect once every earlier request of its port has. -/
def clientFence (port tag : Nat) (m : Mach) : Mach :=
  match (m.port port).reqs.find? fun r => r.tag = tag && r.op = opFence && r.phase == .order with
  | some r =>
    if m.fabricUp && (m.port port).reqs.all fun x => r.id ≤ x.id || x.took then
      m.modReq port r.id fun (x : Req) => { x with phase := .ready, status := stOk }
    else m
  | none => m

/-- The records of writes that a PERSIST covers: its port's earlier ones, in its namespace for PERSIST_NS, and those of other ports
that it noted; writes to EPHEMERAL namespaces are excluded (R104, R105). -/
def Mach.coveredWrites (m : Mach) (port : Nat) (r : Req) : List (Nat × Nat) :=
  let own := ((m.port port).wrote.filter fun w => w.2.1 < r.id && (r.op = opPersist || lineNs w.1 = r.ns)).map fun w => (w.1, w.2.2)
  (own ++ r.coverLines).filter fun w => !(m.nsDesc (lineNs w.1)).ephemeral

/-- The stream bytes that a PERSIST covers: stream and end offset. -/
def Mach.coveredStr (m : Mach) (port : Nat) (r : Req) : List (Nat × Nat) :=
  let own := ((m.port port).fed.filter fun w => w.2.1 < r.id && (r.op = opPersist || m.strNs w.1 = r.ns)).map fun w => (w.1, w.2.2.2)
  (own ++ r.coverStr).filter fun w => !(m.nsDesc (m.strNs w.1)).ephemeral

/-- A logical line that some PERSIST under way covers and that is not durable: its writeback is due at once (R107, R281). -/
def Mach.persistWants (m : Mach) (l : Nat) : Bool :=
  (List.range 16).any fun p => (m.port p).reqs.any fun r =>
    (r.op = opPersist || r.op = opPersistNs) && r.phase == .order &&
      (m.coveredWrites p r).any fun w => w.1 = l && !m.lineDurable w.1 w.2

/-- PERSIST and PERSIST_NS (R104, R107, R136): open stripes that hold covered bytes are padded; covered dirty lines are now due for
writeback. -/
def clientPersist (op port tag : Nat) (m : Mach) : Mach :=
  if !m.fabricUp then m
  else
    match (m.port port).reqs.find? fun r => r.tag = tag && r.op = op && r.phase == .order with
    | some r =>
      (((m.coveredStr port r).map (·.1)).eraseDups).foldl (fun (m : Mach) k =>
        if m.strState k = 1 && ((m.coveredStr port r).filter fun w => w.1 = k).any (fun w => m.openFrom k < w.2)
        then (m.kilnPad k true).kilnOffer else m) m
    | none => m

/-- A covered line became durable only as poison: a line of the port's own writes, a line of another port that the request noted, or a
line of a covered stream below the end of what is covered (R106). Lines of EPHEMERAL namespaces are not covered (R104, R105). -/
def Mach.coversPoison (m : Mach) (port : Nat) (r : Req) : Bool :=
  let counts (l : Nat) : Bool := !(m.nsDesc (lineNs l)).ephemeral
  let lost (p : Nat → Bool) : Bool := (List.range 16).any fun n => (m.port n).lostTo.any fun x => counts x.1 && p x.1
  r.lostSeen || ((m.port port).lostTo.any fun x => counts x.1 && x.2 < r.id && (r.op = opPersist || lineNs x.1 = r.ns)) ||
    (r.coverLines.any fun w => lost (· = w.1)) || r.coverStr.any m.strPoison

/-- PERSIST_COMPLETE (R104 to R107): every covered line is durable. -/
def persistComplete (port tag : Nat) (m : Mach) : Mach :=
  match (m.port port).reqs.find? fun r => r.tag = tag && (r.op = opPersist || r.op = opPersistNs) && r.phase == .order with
  | none => m
  | some r =>
    let took := (m.port port).reqs.all fun x => !r.covers.contains x.id || x.took
    let lines := (m.coveredWrites port r).all fun w => m.lineDurable w.1 w.2
    let str := (m.coveredStr port r).all fun w => !m.strActive w.1 || w.2 ≤ m.get STREAM.TAIL w.1
    if m.fabricUp && took && lines && str then
      (m.modReq port r.id fun (x : Req) =>
        { x with phase := .ready, status := if m.coversPoison port r then stWritePoisoned else stOk }).modPort port
        fun p => { p with
          wrote := p.wrote.filter (fun w => !m.lineDurable w.1 w.2.2),
          fed := p.fed.filter (fun w => m.strActive w.1 && m.get STREAM.TAIL w.1 < w.2.2.2) }
    else m

/-- GFENCE_GO (R102): marks are placed, unless a fence is in progress. -/
def gfenceGo (m : Mach) : Mach :=
  if m.flag GLOBAL.GFENCE_BUSY then m.setFlag GLOBAL.GFENCE_MISSED 0 true
  else
    let m1 : Mach := { m with order := { m.order with mark := m.serial }, serial := m.serial + 1 }
    (m1.setFlag GLOBAL.GFENCE_BUSY 0 true).setFlag GLOBAL.GFENCE_DONE 0 false

/-- GFENCE_DONE (R102, R103): every request before its mark has taken effect. -/
def gfenceDone (m : Mach) : Mach :=
  if m.flag GLOBAL.GFENCE_BUSY &&
      (List.range 16).all fun p => (m.port p).reqs.all fun r => m.order.mark ≤ r.id || r.took then
    ((m.setFlag GLOBAL.GFENCE_BUSY 0 false).setFlag GLOBAL.GFENCE_DONE 0 true).event .global 0 GLOBAL.EV_GFENCE_DONE
  else m

/-- A RANGE_RELEASE of a hold has been accepted: it wins over the time-out of a request that the hold stalls (R116). -/
def Mach.releasing (m : Mach) (h : Hold) : Bool := m.post.cmds.any fun c => c.op = 8 && !c.cancelled && bits c.p0.toNat 0 3 = h.id

/-- HELD_TIMEOUT (R115): a request has been stalled by a range hold for the hold's time. -/
def heldTimeout (port tag : Nat) (m : Mach) : Mach :=
  match (m.port port).reqs.find? fun r => r.tag = tag && r.phase == .intake with
  | none => m
  | some r =>
    match r.stall, m.heldRange port r with
    | some t, some h =>
      if t + usec h.time ≤ m.now && !m.releasing h then
        (m.modReq port r.id fun (x : Req) => { x with phase := .ready, status := stHeld, fail := some stHeld }).showPort port
      else m
    | _, _ => m

def execRead (port : BitVec 4) (tag : BitVec 12) (k : BitVec 4) (s : State) := answer s (clientLine opRead port.toNat tag.toNat k.toNat)
def execWrite (port : BitVec 4) (tag : BitVec 12) (k : BitVec 4) (s : State) := answer s (clientLine opWrite port.toNat tag.toNat k.toNat)
def execWriteMasked (port : BitVec 4) (tag : BitVec 12) (k : BitVec 4) (s : State) :=
  answer s (clientLine opWriteMasked port.toNat tag.toNat k.toNat)
def execClearPoison (port : BitVec 4) (tag : BitVec 12) (k : BitVec 4) (s : State) :=
  answer s (clientLine opClearPoison port.toNat tag.toNat k.toNat)
def execPrefetch (port : BitVec 4) (tag : BitVec 12) (k : BitVec 4) (s : State) :=
  answer s (clientLine opPrefetch port.toNat tag.toNat k.toNat)
def execZero (port : BitVec 4) (tag : BitVec 12) (k : BitVec 4) (s : State) := answer s (clientLine opZero port.toNat tag.toNat k.toNat)
def execAppend (port : BitVec 4) (tag : BitVec 12) (s : State) := answer s (clientAppend port.toNat tag.toNat)
def execFence (port : BitVec 4) (tag : BitVec 12) (s : State) := answer s (clientFence port.toNat tag.toNat)
def execPersist (port : BitVec 4) (tag : BitVec 12) (s : State) := answer s (clientPersist opPersist port.toNat tag.toNat)
def execPersistNs (port : BitVec 4) (tag : BitVec 12) (s : State) := answer s (clientPersist opPersistNs port.toNat tag.toNat)
def execPersistComplete (port : BitVec 4) (tag : BitVec 12) (s : State) := answer s (persistComplete port.toNat tag.toNat)
def execShaperRelease (c : BitVec 3) (s : State) := answer s (shaperRelease c.toNat)
def execGfenceGo (a : BitVec 3) (s : State) := answer s fun m => m.viaCfg a.toNat .global 0 0x108 1 gfenceGo
def execGfenceDone (s : State) := answer s gfenceDone
def execHeldTimeout (port : BitVec 4) (tag : BitVec 12) (s : State) := answer s (heldTimeout port.toNat tag.toNat)

end Sys2Proof.Machine
end

