-- ==== Sys2Proof/Machine/Loom.lean ====
section
/-! DEFINITION. Playback sequences: the list image, the walk, branches and speculation, fetch and delivery, the list commands (chapter
"Playback sequences (Loom)", R149 to R173). -/
namespace Sys2Proof.Machine

/-! ### Lists and entries (R149, R150) -/

/-- A list's own state, and a change of it. -/
def Mach.seq (m : Mach) (k : Nat) : SeqSt := m.loom.seqs.get k
def Mach.modSeq (m : Mach) (k : Nat) (f : SeqSt → SeqSt) : Mach := m.modLoom fun s => { s with seqs := s.seqs.upd k f }
/-- State of a list: 0 EMPTY, 1 LOADING, 2 LOADED, 3 RUNNING, 4 STOPPING, 5 DONE (R153). -/
def Mach.seqState (m : Mach) (k : Nat) : Nat := m.get SEQ.STAT_STATE k
/-- The port that receives a list. -/
def Mach.seqPort (m : Mach) (k : Nat) : Nat := m.get SEQ.PORT k
/-- A walked entry of a list changes. -/
def Mach.modEnt (m : Mach) (k id : Nat) (f : LEnt → LEnt) : Mach :=
  m.modSeq k fun s => { s with queue := s.queue.map fun e => if e.id = id then f e else e }

/-- Kind and fields of an entry (R150). -/
def iKind (w0 : Nat) : Nat := bits w0 0 4
def iTarget (w0 : Nat) : Nat := bits w0 4 12
def iLine (w0 : Nat) : Nat := bits w0 8 52
def iLines (w1 : Nat) : Nat := bits w1 0 24
def iAdv (w1 : Nat) : Nat := bits w1 24 32
def iKeep (w1 : Nat) : Bool := bitAt w1 56
def iCount (w0 : Nat) : Nat := bits w0 32 32

/-- An entry at index `i` of a list of `len` fails the checks of reason BAD_ENTRY (R150, R153). -/
def entryBad (len i w0 w1 : Nat) : Bool :=
  match iKind w0 with
  | 0 => w0 ≠ 0 || w1 ≠ 0
  | 1 => bits w0 4 4 ≠ 0 || bits w0 60 4 ≠ 0 || bits w1 57 7 ≠ 0 || iLines w1 = 0
  | 2 => bits w0 16 16 ≠ 0 || w1 ≠ 0 || i ≤ iTarget w0
  | 3 => bits w0 24 40 ≠ 0 || bits w1 32 32 ≠ 0 || len ≤ iTarget w0
  | 4 => bits w0 5 59 ≠ 0 || (!bitAt w0 4 && 2 ^ 63 ≤ w1)
  | 5 => bits w0 6 58 ≠ 0
  | _ => true

/-! ### Copies in the Loom area (R159, R164) -/

/-- A free line for a copy: in the Loom area; where none is free a squashed copy is evicted (R166); where none can be, a line beside
the area (DESIGN CHOICE, log entry 39: the default area of a 4 GiB stack is empty, and no rule lets a held line or a list wait for it). -/
def Mach.loomSlot (m : Mach) : Option (Nat × Mach) :=
  let used := m.loom.copies.map (·.slot)
  match (List.range (used.length + 1)).find? fun x => !used.contains x && x < m.loomLines with
  | some x => some (x, m)
  | none =>
    match m.loom.copies.find? fun c => c.kind = 3 with
    | some c => some (c.slot, m.modLoom fun s => { s with copies := s.copies.erase c })
    | none => ((List.range (used.length + 1)).find? fun x => !used.contains (m.loomLines + x)).map fun x => (m.loomLines + x, m)

/-- Put a copy of a line into the Loom area (R273); whether there was room. -/
def Mach.loomPut (m : Mach) (c : LCopy) (d : Line) (cls rq : Nat) : Bool × Mach :=
  match m.loomSlot with
  | none => (false, m)
  | some (x, m1) =>
    let p := m1.loomPlace x
    let m2 := m1.hWrite p c.line ⟨d, c.line, m1.cgen (lineNs c.line), 1, false, markX cls, 0⟩
    (true, (m2.hQueue rq p true).modLoom fun s => { s with copies := s.copies ++ [{ c with slot := x }] })

/-- Copies of a list that `p` names are released. -/
def Mach.loomDrop (m : Mach) (p : LCopy → Bool) : Mach := m.modLoom fun s => { s with copies := s.copies.filter fun c => !p c }

/-- The copy that serves line `n` of a walked entry. -/
def Mach.copyFor (m : Mach) (k : Nat) (e : LEnt) (n : Nat) : Option LCopy :=
  m.loom.copies.find? fun c => c.seq = k && c.line = e.line + n &&
    (if e.ph.get n = 4 || e.ph.get n = 9 then c.kind = 2 else (c.kind = 0 || c.kind = 1) && c.n = n && c.ent = e.id)

/-- Words of entry `i` from the list copy; a copy line that fails its Hearth check is lost (R170). -/
def Mach.seqEntry (m : Mach) (k i : Nat) : Option (Nat × Nat) :=
  match m.loom.copies.find? fun c => c.seq = k && c.kind = 4 && c.n = i / 16 with
  | none => none
  | some c =>
    let l := m.cell (m.loomPlace c.slot)
    if l.cls = 3 then none
    else some ((Line.word l.data (2 * (i % 16))).toNat, (Line.word l.data (2 * (i % 16) + 1)).toNat)

/-- Words of entry `i`, where the walk has read its line of the list copy (R17). -/
def SeqSt.entry (s : SeqSt) (i : Nat) : Option (Nat × Nat) :=
  match s.buf with
  | some (j, d) => if j = i / 16 then some ((Line.word d (2 * (i % 16))).toNat, (Line.word d (2 * (i % 16) + 1)).toNat) else none
  | none => none

/-! ### What the registers show -/

/-- Map pins that a list holds (R157). -/
def SeqSt.pins (s : SeqSt) : Nat := (s.queue.map fun e => e.pins.length).sum
/-- Unresolved branches of a list (R162). -/
def SeqSt.unresolved (s : SeqSt) : Nat := (s.brs.filter fun b => b.out.isNone).length
/-- Index and T of the committed walk: it stands at the first uncommitted branch. -/
def SeqSt.committed (s : SeqSt) : Nat × Tick := match s.brs with | b :: _ => (b.idx, b.t) | [] => (s.idx, s.t)

/-- The registers of the LOOM page follow Loom's copies, pins and lists (R171). -/
def Mach.showLoom (m : Mach) : Mach :=
  let kinds (n : Nat) : Nat := (m.loom.copies.filter fun c => c.kind = n).length
  ((((m.put LOOM.HELD_NOW 0 (kinds 0)).put LOOM.SPEC_NOW 0 (kinds 1)).put LOOM.KEEP_NOW 0 (kinds 2)).put LOOM.PINNED 0
    (((List.range 16).map fun j => (m.seq j).pins).sum)).put LOOM.ACTIVE 0
      (((List.range 16).filter fun j => m.seqState j = 3 || m.seqState j = 4).foldl (fun a j => a + 2 ^ j) 0)

/-- The registers of LOOM and of a list follow its state (R171, R172). -/
def Mach.showSeq (m : Mach) (k : Nat) : Mach :=
  let s := m.seq k
  let head := s.queue.find? fun e => e.spec.isNone && !e.mark
  let m1 := (((((m.put SEQ.CURSOR k s.committed.2.toNat).put SEQ.WALK_NEXT k s.committed.1).put SEQ.WALK_SPEC k s.idx).put
    SEQ.WALK_BRANCHES k s.unresolved).put SEQ.WALK_PINS k s.pins)
  (match head with
    | some e => (m1.put SEQ.DELIVER_ENTRY k e.idx).put SEQ.DELIVER_LINES k e.pushed
    | none => m1).showLoom

/-! ### Pins and PLAY_DUE entries (R157, R158) -/

/-- Resolve map units through the map; whether every entry is at hand, as it must be before they are pinned (R157, R190). -/
def Mach.resolveUnits (m : Mach) (us : List Nat) : Bool × Mach :=
  us.foldl (fun (a : Bool × Mach) u => if a.1 then a.2.lookup u else a) (true, m)
/-- Pin or release map units. -/
def Mach.pinUnits (m : Mach) (us : List Nat) : Mach := us.foldl (fun (m : Mach) u => m.modMap fun s => { s with pins := s.pins.upd u (· + 1) }) m
def Mach.unpin (m : Mach) (us : List Nat) : Mach := us.foldl (fun (m : Mach) u => m.modMap fun s => { s with pins := s.pins.upd u (· - 1) }) m

/-- The map units that a range of lines touches. -/
def Mach.rangeUnits (m : Mach) (l n : Nat) : List Nat :=
  let a := (m.unitOf l).1
  let b := (m.unitOf (l + n - 1)).1
  (List.range (b + 1 - a)).map (a + ·)

/-- A FREE index of the Almanac's Loom reserve (R48). -/
def Mach.freeDue (m : Mach) : Option Nat :=
  ((List.range (m.get ALM.LOOM_RESERVE)).map fun k => 1024 - m.get ALM.LOOM_RESERVE + k).find? fun i => (m.entry i).kind == .free

/-- Place the PLAY_DUE entry of a committed entry, if it needs one and an index is FREE (R158). -/
def Mach.placeDue (m : Mach) (k : Nat) (e : LEnt) : Mach :=
  if e.spec.isSome || e.due.isSome || e.fired || (e.mark && !e.evt) then m
  else
    match m.freeDue with
    | none => m.showLoomFull true
    | some i =>
      let past := m.flag ALM.STAT_TB_VALID && reached m.tb e.t
      let arg := k + e.idx * 16 + b2n e.mark * 2 ^ 16
      ((m.setEntry i ⟨.playDue, e.t, BitVec.ofNat 64 arg, past, false⟩).modEnt k e.id fun x => { x with due := some i }).showNext

/-- Every committed entry that waits for its PLAY_DUE entry tries again. -/
def Mach.placeDues (m : Mach) (k : Nat) : Mach := (m.seq k).queue.foldl (fun (m : Mach) e => m.placeDue k e) m

/-- Walked entries leave a list: their pins, PLAY_DUE entries and queued reads are released (R153, R157, R166). -/
def Mach.dropEnts (m : Mach) (k : Nat) (gone : LEnt → Bool) : Mach :=
  let es := (m.seq k).queue.filter gone
  let ids := es.map (·.id)
  let mine (q : LineReq) : Bool := match q.job with
    | .loom l n _ => l = k && ids.contains n | .loomH l n _ => l = k && ids.contains n | _ => false
  let cancelled := ((m.sc.queues.map fun p => (p.2.filter fun q => mine q && q.rq = 11).length).sum) +
    (m.rota.next.filter fun p => match p.2 with | some q => mine q && q.rq = 11 | none => false).length
  let m1 := (m.withdraw mine).count SEQ.SPEC_CANCEL k cancelled
  let m2 := es.foldl (fun (m : Mach) e =>
    let m1 := m.unpin e.pins
    match e.due with | some i => m1.setEntry i default | none => m1) m1
  ((m2.loomDrop fun c => c.seq = k && c.kind = 0 && ids.contains c.ent).modSeq k fun s =>
    { s with queue := s.queue.filter fun e => !gone e }).showNext.showLoomFull false

/-! ### Reading committed lines (R22, R159, R165) -/

/-- Beats that stand before the end of line `n` of a committed entry in list order (R161). -/
def SeqSt.beatsTo (s : SeqSt) (e : LEnt) (n : Nat) : Nat :=
  let before := (s.queue.takeWhile fun x => x.id ≠ e.id).map fun x =>
    if x.mark then b2n (x.ply && !x.done) else 4 * (x.lines - x.pushed) - x.beat
  before.sum + (4 * (n + 1 - e.pushed) - e.beat)

/-- A committed line arrives. With PLY credit for it and for all that goes before it, it goes straight to PLY; otherwise, or when a LOOP
body is to be held, it is held in Hearth until it is pushed (R22, R159, R246). -/
def Mach.dueLand (m : Mach) (k : Nat) (e : LEnt) (n st : Nat) (d : Line) (cls : Nat) (bound : Nat := 0) (at_ : Nat := 0) : Mach :=
  let hf := e.hf.get n
  let st := if hf.isSome then retriedStatus st else st
  let m0 := match hf with
    | some x => m.refetched 10 (m.seqPort k) true false at_ x st bound (cls = 2)
    | none => m
  if !e.keep && (m0.seq k).beatsTo e n ≤ m0.get PORT.PLY_CRED_NOW (m0.seqPort k) then
    m0.modEnt k e.id fun x => { x with ph := x.ph.set n 7, here := x.here.set n (some (st, cls, d)), hf := x.hf.erase n }
  else
    let r := m0.loomPut ⟨k, e.line + n, 0, 0, e.id, n, st, false⟩ d cls 10
    r.2.modEnt k e.id fun x => { x with ph := x.ph.set n (if r.1 then 2 else 0), hf := x.hf.erase n }

/-- The medium's answer for a committed line: it is kept in its home slot by R280, which also rewrites a copy that failed its check there
(R246, R279), and lands. -/
def Mach.dueFill (m : Mach) (k : Nat) (e : LEnt) (n : Nat) (o : Out) (at_ : Nat) : Mach :=
  let l := e.line + n
  let m1 := if o.newer || (m.dirFind l).isSome then m else m.keepHome l o.data o.cls false false false
  let m2 := if !o.newer && m1.homeHit l then m1.hQueue 10 (m1.homePlace l) true else m1
  m2.dueLand k e n o.status o.data o.cls o.bound at_

/-- The status of a line found with a class, which was kept with status `st`. -/
def foundStatus (cls st : Nat) : Nat := if cls = 2 then stPoison else if cls = 1 then stUnwritten else st

/-- Another entry's copy of line `l` that the list holds (R159). -/
def Mach.sharedCopy (m : Mach) (k l : Nat) : Option LCopy := m.loom.copies.find? fun c => c.seq = k && c.kind = 0 && c.line = l

/-- Where line `l` is read in Hearth for list `k`: at another entry's copy of it that the list holds; at the slot in spill or in the
random-access path that R279 names; nowhere for a line in Kiln staging (R20, R159). -/
def Mach.duePlace (m : Mach) (k l : Nat) : Option (Nat × Nat) :=
  match m.sharedCopy k l with
  | some c => some (m.loomPlace c.slot)
  | none => match m.kilnFind l with
    | some (_, s, i) => if s.spill.isNone then none else some (m.slotPlace s i)
    | none => if m.stacksIn = 0 then none else some (m.linePlace l false)

/-- Line `n` of a committed PLAY takes its value at its point of coherence, or from a copy that the list holds; on a miss the medium is
read (R159, R246, R279). -/
def Mach.dueTake (m : Mach) (k : Nat) (e : LEnt) (n : Nat) : Mach :=
  let l := e.line + n
  let port := m.seqPort k
  let set (m : Mach) (p : Nat) : Mach := m.modEnt k e.id fun x => { x with ph := x.ph.set n p }
  match (m.sharedCopy k l).filter fun c => (m.cell (m.loomPlace c.slot)).cls ≠ 3 with
  | some c =>
    let x := m.cell (m.loomPlace c.slot)
    m.dueLand k e n (foundStatus x.cls c.status) x.data x.cls 0 m.now
  | none =>
    let r := m.coherent 10 port l true false m.now
    let m1 := if r.2.1 then r.2.2.modEnt k e.id fun x => { x with hf := x.hf.set n (some (m.hfailAt (m.homePlace l).1 l)) } else r.2.2
    match r.1 with
    | some (st, d, cls) => m1.dueLand k e n st d cls 0 m.now
    | none =>
      let m2 := m1.count HT.CNT_MISS
      if m2.ent (m2.unitOf l).1 = 0 then set m2 3
      else
        let e1 := ((m2.seq k).queue.find? fun x => x.id = e.id).getD e
        let s := m2.startRead 10 l (.loom k e.id n) (some port) false true false false m.now
        match s.1 with
        | some o => s.2.dueFill k e1 n o m.now
        | none => set s.2 1

/-- Begin to read line `n` of a committed PLAY, or take a copy that Loom holds for it (R17, R159, R165, R167). -/
def Mach.dueRead (m : Mach) (k : Nat) (e : LEnt) (n : Nat) : Mach :=
  let l := e.line + n
  let set (m : Mach) (p : Nat) : Mach := m.modEnt k e.id fun x => { x with ph := x.ph.set n p }
  if m.loom.copies.any fun c => c.seq = k && c.kind = 2 && c.line = l then (set m 4).count SEQ.CNT_KEEP_HIT k
  else
    match m.loom.copies.find? fun c => c.seq = k && c.kind = 3 && c.line = l with
    | some c =>
      (set (m.modLoom fun s => { s with
        copies := s.copies.map fun x => if x = c then { c with kind := 0, ent := e.id, n := n } else x }) 2).count SEQ.SPEC_PROMOTE k
    | none =>
      match m.duePlace k l with
      | some p => set (m.hQueue 10 p false (.loomH k e.id n) (some (m.seqPort k))) 1
      | none => m.dueTake k e n

/-! ### Squash and commit (R163 to R167) -/

/-- The speculative copies of entries that leave: unpinned squashed copies, or forgotten when failed (R166). -/
def Mach.squashCopies (m : Mach) (k : Nat) (ids : List Nat) : Mach :=
  let mine (c : LCopy) : Bool := c.seq = k && c.kind = 1 && ids.contains c.ent
  let bad := (m.loom.copies.filter fun c => mine c && c.failed).length
  let good := (m.loom.copies.filter fun c => mine c && !c.failed).length
  (((m.loomDrop fun c => mine c && c.failed).modLoom fun s => { s with
    copies := s.copies.map fun c => if mine c then { c with kind := 3 } else c }).count SEQ.SPEC_SQUASH k good).count SEQ.SPEC_ERR_DROP k
      bad

/-- Squash the predicted path of branch `b` and everything below it (R166). How long it took is not stated. -/
def Mach.squash (m : Mach) (k : Nat) (b : LBranch) : Mach :=
  let below := ((m.seq k).brs.dropWhile fun x => x.id ≠ b.id).map (·.id)
  let gone (e : LEnt) : Bool := match e.spec with | some i => below.contains i | none => false
  let ids := ((m.seq k).queue.filter gone).map (·.id)
  let m1 := ((m.squashCopies k ids).dropEnts k gone).count LOOM.CNT_SQUASH
  let t := (Config.freeWord m.free).toNat % 65
  { (m1.put LOOM.SQUASH_MAX 0 (max (m.get LOOM.SQUASH_MAX) t)) with free := m.free + 1 }

/-- A committed PLAY takes the speculative copies of its lines, and counts the keep copies found for it (R159); a failed copy becomes a
demand at this moment (R165). -/
def Mach.promote (m : Mach) (k : Nat) (e : LEnt) : Mach :=
  let cs := m.loom.copies.filter fun c => c.seq = k && c.kind = 1 && c.ent = e.id
  let m1 := m.modLoom fun s => { s with
    copies := (s.copies.filter fun c => !(c.seq = k && c.kind = 1 && c.ent = e.id && c.failed)).map fun c =>
      if c.seq = k && c.kind = 1 && c.ent = e.id then { c with kind := 0 } else c }
  let m2 := (m1.count SEQ.SPEC_PROMOTE k (cs.filter fun c => !c.failed).length).count SEQ.CNT_KEEP_HIT k
    (e.ph.filter fun p => p.2 = 4).length
  (cs.filter (·.failed)).foldl (fun (m : Mach) c =>
    (m.modEnt k e.id fun x => { x with ph := x.ph.set c.n 0 }).dueRead k { e with spec := none } c.n) m2

/-- Commit the resolved branches at the front: their outcomes are recorded and their entries take effect (R162, R163, R165). DESIGN CHOICE,
log entry 104: a LOOM_SPEC read still queued or in flight stays under requester 11, and lands as a committed line. -/
def Mach.commitBranches (m : Mach) (k : Nat) : Nat → Mach
  | 0 => m
  | f + 1 =>
    match (m.seq k).brs with
    | [] => m
    | b :: rest =>
      match b.out with
      | none => m
      | some o =>
        let h := 1 + 2 * b2n o + 4 * b2n b.est + 8 * b2n b.skew
        let m1 := (m.modSeq k fun s => { s with brs := rest, hist := s.hist.set b.idx h }).count SEQ.CNT_BR_RESOLVED k
        let m2 := if o = b.pred then m1 else m1.count SEQ.CNT_BR_MISS k
        let m3 := if b.late then (m2.count SEQ.CNT_BR_LATE_SAMPLE k).event .seq k SEQ.EV_BR_LATE_SAMPLE else m2
        let m4 := m3.count SEQ.CNT_WAIT_PAST k b.waits
        let es := (m4.seq k).queue.filter fun e => e.spec = some b.id
        let m5 := es.foldl (fun (m : Mach) e => (m.modEnt k e.id fun x => { x with spec := none }).promote k e) m4
        (m5.placeDues k).commitBranches k f

/-! ### Stopping (R153 to R155) -/

/-- The first beat of a PLAY has been pushed. -/
def LEnt.begun (e : LEnt) : Bool := !e.mark && (0 < e.pushed || 0 < e.beat)

/-- The PLAY_DUE entries of a list that have not fired, a delivered PLAY's too, are cleared (R153). -/
def Mach.clearDues (m : Mach) (k : Nat) : Mach :=
  let mine := (List.range (m.get ALM.LOOM_RESERVE)).filter fun i =>
    (m.entry (1023 - i)).kind == .playDue && (m.entry (1023 - i)).arg.toNat % 16 = k
  (mine.foldl (fun (m : Mach) i => m.setEntry (1023 - i) default) m).modSeq k fun s => { s with
    queue := s.queue.map fun e => { e with due := none } }

/-- A RUNNING list moves to STOPPING with a reason (R153, R154): speculation is squashed, PLAY_DUE entries are cleared, and only an
entry whose first beat has been pushed is pushed on; pins and copies stay up to DONE. `cut` says that the unread lines of that entry are
pushed as UNWRITTEN (R155). -/
def Mach.seqStop (m : Mach) (k reason idx : Nat) (cut : Bool) : Mach :=
  let m1 := match (m.seq k).brs with
    | b :: _ => (m.squash k b).modSeq k fun s => { s with idx := b.idx, t := b.t, loops := b.loops, loopT := b.loopT }
    | [] => m
  let m2 := (m1.clearDues k).modSeq k fun s => { s with
    brs := [], end_ := true, queue := s.queue.map fun e => { e with cut := e.cut || (cut && e.begun) } }
  (((m2.put SEQ.STAT_STATE k 4).put SEQ.STOP_REASON k reason).put SEQ.STOP_INDEX k idx).showNext.showLoomFull false |>.showSeq k

/-- A list leaves RUNNING or STOPPING for DONE: pins, counters and copies are released (R152, R153). -/
def Mach.seqEnd (m : Mach) (k ev : Nat) : Mach :=
  let m1 := (m.dropEnts k fun _ => true).loomDrop fun c => c.seq = k && c.kind ≠ 4
  let m2 := m1.modSeq k fun s => { s with brs := [], loops := [], loopT := [] }
  (((m2.put SEQ.STAT_STATE k 5).put SEQ.STAT_HOLD k 0).event .seq k ev).showSeq k

/-- The port of a list is disabled or reset (R154). -/
def Mach.seqPortStop (m : Mach) (port : Nat) : Mach :=
  ((List.range 16).filter fun k => m.seqState k = 3 && m.seqPort k = port).foldl (fun (m : Mach) k =>
    m.seqStop k 4 (m.seq k).committed.1 false) m

/-- A namespace change touches a walked PLAY that is not delivered, speculative or not: `hit` names the lists' ports and lines (R154). -/
def Mach.seqNsStop (m : Mach) (hit : Nat → Nat → Nat → Bool) : Mach :=
  ((List.range 16).filter fun k => m.seqState k = 3 || m.seqState k = 4).foldl (fun (m : Mach) k =>
    let hits := (m.seq k).queue.filter fun e => !e.mark && hit (m.seqPort k) e.line e.lines
    let m1 := (hits.filter LEnt.begun).foldl (fun (m : Mach) e => m.modEnt k e.id fun x => { x with cut := true }) m
    match hits with
    | e :: _ => if m.seqState k = 3 then m1.seqStop k 3 e.idx true else m1
    | [] => m) m

/-! ### The walk (R151, R152, R156 to R158) -/

/-- What a LOOP does at the walk (R151, R152): the reason for which it stops the list, or the new counters, T marks and index. -/
def SeqSt.loopStep (s : SeqSt) (i w0 : Nat) : Nat ⊕ (Tab Nat × Tab (Option Tick) × Nat) :=
  let c := s.loops.get i + 1
  let cnt := iCount w0
  if cnt ≠ 0 && cnt ≤ c then .inr (s.loops.erase i, s.loopT.erase i, i + 1)
  else if s.loops.get i = 0 && 8 ≤ s.loops.length then .inl 7
  else if cnt = 0 && s.loopT.get i = some s.t then .inl 6
  else .inr (s.loops.set i c, s.loopT.set i (some s.t), iTarget w0)

/-- The sample tick of a BRANCH (R151). -/
def sampleTick64 (t : Tick) (w1 : Nat) : Tick := t + (BitVec.ofNat 32 w1).signExtend 64

/-- The first unmet condition of R156 for walking the next entry; 0 when every one holds. -/
def Mach.walkHold (m : Mach) (k : Nat) (s : SeqSt) (w0 : Nat) : Nat :=
  let due := s.brs.isEmpty && (iKind w0 = 1 || (iKind w0 = 5 && bitAt w0 5))
  if !(reached m.tb s.t || (s.t - m.tb).toNat < m.get LOOM.HORIZON) then 1
  else if m.get SEQ.SEG_AHEAD k ≤ s.pins then 2
  else if iKind w0 = 3 && !bitAt w0 23 && 8 ≤ s.unresolved then 3
  else if due && m.freeDue.isNone then 4
  else if s.end_ then 5
  else 0

/-- Walk one entry (R151): its effect on the cursor and what it leaves in the list. -/
def Mach.walkEntry (m : Mach) (k i w0 w1 : Nat) : Mach :=
  let s := m.seq k
  let spec := s.brs.getLast?.map (·.id)
  let new : LEnt := { (default : LEnt) with id := m.serial, idx := i, t := s.t, spec := spec }
  let next (m : Mach) : Mach := m.modSeq k fun s => { s with idx := i + 1 }
  match iKind w0 with
  | 1 =>
    let us := m.rangeUnits (iLine w0) (iLines w1)
    let e : LEnt := { new with line := iLine w0, lines := iLines w1, keep := iKeep w1, pins := us }
    let r := m.resolveUnits us
    let m1 : Mach := { r.2.pinUnits us with serial := m.serial + 1 }
    if !r.1 then r.2
    else (m1.modSeq k fun s => { s with queue := s.queue ++ [e], t := s.t + BitVec.ofNat 64 (iAdv w1), idx := i + 1 }).placeDue k e
  | 2 =>
    match s.loopStep i w0 with
    | .inr r => m.modSeq k fun s => { s with loops := r.1, loopT := r.2.1, idx := r.2.2 }
    | .inl why => if s.brs.isEmpty then m.seqStop k why i false else m
  | 3 =>
    if bitAt w0 23 then m.modSeq k fun s => { s with idx := iTarget w0 }
    else
      let h := s.hist.get i
      let pred := if bitAt w0 22 && h % 2 = 1 then bitAt h 1 else bitAt w0 21
      let smp := sampleTick64 s.t w1
      let late := reached m.tb smp
      let say := late && s.brs.isEmpty
      let b : LBranch := ⟨m.serial, i, if pred then i + 1 else iTarget w0, s.t, s.loops, s.loopT, bits w0 16 4, bitAt w0 20, smp, pred,
        none, late && !say, false, false, 0⟩
      let m1 := if say then (m.count SEQ.CNT_BR_LATE_SAMPLE k).event .seq k SEQ.EV_BR_LATE_SAMPLE else m
      { m1.modSeq k (fun s => { s with brs := s.brs ++ [b], idx := if pred then iTarget w0 else i + 1 }) with serial := m.serial + 1 }
  | 4 =>
    if bitAt w0 4 then
      let t := BitVec.ofNat 64 w1
      if tickBefore t s.t then
        let m1 := match s.brs.getLast? with
          | none => m.count SEQ.CNT_WAIT_PAST k
          | some b => m.modSeq k fun s => { s with brs := s.brs.map fun x => if x.id = b.id then { x with waits := x.waits + 1 } else x }
        next m1
      else m.modSeq k fun s => { s with t := t, idx := i + 1 }
    else m.modSeq k fun s => { s with t := s.t + BitVec.ofNat 64 w1, idx := i + 1 }
  | 5 =>
    let e : LEnt := { new with mark := true, ply := bitAt w0 4, evt := bitAt w0 5, arg := BitVec.ofNat 64 w1 }
    if !e.ply && !e.evt then next m
    else
      let m1 := (next m).modSeq k fun s => { s with queue := s.queue ++ [e] }
      ({ m1 with serial := m.serial + 1 } : Mach).placeDue k e
  | _ => m.modSeq k fun s => { s with end_ := true }

/-! ### Speculative reads (R164) -/

/-- Speculative lines of a list: reads under way and copies of entries that are not committed. -/
def SeqSt.specLines (s : SeqSt) : Nat :=
  ((s.queue.filter fun e => e.spec.isSome).map fun e => (e.ph.filter fun p => p.2 = 1 || p.2 = 2 || p.2 = 5).length).sum

/-- A speculative copy lands, or is marked failed (R164). -/
def Mach.specLand (m : Mach) (k : Nat) (e : LEnt) (n st : Nat) (d : Line) (cls : Nat) (failed : Bool) : Mach :=
  let c : LCopy := ⟨k, e.line + n, 0, 1, e.id, n, st, failed⟩
  let r := m.loomPut c d cls 11
  let m1 := r.2.modEnt k e.id fun x => { x with ph := x.ph.set n (if r.1 then 2 else 0) }
  if failed then m1.count SEQ.SPEC_ERR_DEFER k else m1

/-- Line `n` of an uncommitted PLAY takes its value as it stands; the medium is read where Kiln and Hearth do not hold it. Nothing is
recovered, reported or written (R164). -/
def Mach.specTake (m : Mach) (k : Nat) (e : LEnt) (n : Nat) : Mach :=
  let l := e.line + n
  let set (m : Mach) (p : Nat) : Mach := m.modEnt k e.id fun x => { x with ph := x.ph.set n p }
  match m.kilnFind l with
  | some (j, s, d) =>
    let bad := (s.spill.isNone && s.bad.any fun w => w / 32 = d) || (match s.spill with
      | some _ => (m.cell (m.slotPlace s d)).cls = 3 | none => false)
    if bad then m.specLand k e n stOk 0 0 true
    else
      let r := m.slotRead j s d false 11 0 false m.now
      r.2.2.2.specLand k e n r.2.2.1 r.1 r.2.1 false
  | none =>
    match match m.dirFind l with
      | some x => some (m.dirtyPlace x)
      | none => if m.homeHit l then some (m.homePlace l) else none with
    | some p =>
      let c := m.cell p
      m.specLand k e n (foundStatus c.cls stOk) c.data c.cls (c.cls = 3)
    | none =>
      let u := m.unitOf l
      if m.ent u.1 = 0 then set m 3
      else
        match m.poisonKept l, m.readCopy (m.ent u.1) u.2 with
        | some d, _ => m.specLand k e n stPoison d 2 false
        | none, none => m.specLand k e n stOk 0 0 true
        | none, some p => set (m.readLine 11 u.1 p l 1 (.loom k e.id n) none false) 1

/-- Issue the speculative read of line `n` of an uncommitted PLAY, or take a copy that Loom holds for it (R17, R164, R167). -/
def Mach.specRead (m : Mach) (k : Nat) (e : LEnt) (n : Nat) : Mach :=
  let l := e.line + n
  let set (m : Mach) (p : Nat) : Mach := m.modEnt k e.id fun x => { x with ph := x.ph.set n p }
  if m.loom.copies.any fun c => c.seq = k && c.kind = 2 && c.line = l then set m 4
  else
    match m.loom.copies.find? fun c => c.seq = k && c.kind = 3 && c.line = l with
    | some c => set (m.modLoom fun s => { s with copies := s.copies.map fun x => if x = c then { c with kind := 1, ent := e.id, n := n } else x }) 2
    | none =>
      let m0 := m.count SEQ.SPEC_FETCH k
      match m0.duePlace k l with
      | some p => set (m0.hQueue 11 p false (.loomH k e.id n)) 1
      | none => m0.specTake k e n

/-- The next line of a list that speculation may fetch. -/
def SeqSt.specNext (s : SeqSt) : Option (LEnt × Nat) :=
  (s.queue.filter fun e => e.spec.isSome && !e.mark).findSome? fun e =>
    ((List.range (min e.lines (e.ph.length + 1))).find? fun n => e.ph.get n = 0).map fun n => (e, n)

/-- Issue speculative reads in walk order while the caps allow (R164). -/
def Mach.specIssue (m : Mach) (k : Nat) : Nat → Mach
  | 0 => m
  | f + 1 =>
    let s := m.seq k
    if m.get SEQ.SPEC_LINES k ≤ s.specLines || m.get LOOM.SPEC_TOTAL ≤ ((List.range 16).map fun j => (m.seq j).specLines).sum then m
    else
      match s.specNext with
      | some (e, n) => (m.specRead k e n).specIssue k f
      | none => m

/-- The list's copy is found lost: its Hearth lines are released and a restore is due (R170). -/
def Mach.seqLost (m : Mach) (k : Nat) : Mach :=
  (m.loomDrop fun c => c.seq = k && c.kind = 4).modSeq k fun s => { s with lost := true, buf := none }

/-- A line of the list copy fails its Hearth check: it is counted, its ring entry comes with the restore, and the copy is lost (R170, R254,
R266). -/
def Mach.listFail (m : Mach) (k : Nat) (c : LCopy) : Mach :=
  (((m.count ERR.CNT_HEARTH_FAIL).judgeEst).modSeq k fun s => { s with
    fails := s.fails ++ [m.hfailAt (m.loomPlace c.slot).1 c.line] }).seqLost k

/-- The copy of line `j` of the list. -/
def Mach.listCopy (m : Mach) (k j : Nat) : Option LCopy := m.loom.copies.find? fun c => c.seq = k && c.kind = 4 && c.n = j

/-- The walk reads line `j` of the list copy. DESIGN CHOICE, log entry 104: under LOOM_DUE; R387 names no requester for it. -/
def Mach.listFetch (m : Mach) (k j : Nat) : Mach :=
  match m.listCopy k j with
  | none => m.seqLost k
  | some c =>
    if (m.seq k).bufWait then m
    else (m.hQueue 10 (m.loomPlace c.slot) false (.listH k j)).modSeq k fun s => { s with bufWait := true }

/-- A line of the list copy has been read; one that fails its Hearth check is lost (R170). -/
def Mach.listArrive (m : Mach) (k j : Nat) : Mach :=
  let m0 := m.modSeq k fun s => { s with bufWait := false }
  match m.listCopy k j with
  | none => m0
  | some c =>
    let l := m.cell (m.loomPlace c.slot)
    if l.cls = 3 then m0.listFail k c else m0.modSeq k fun s => { s with buf := some (j, l.data) }

/-- A committed or speculative LOOP that violates R152 stops a list once nothing is uncommitted before it. -/
def Mach.loopCheck (m : Mach) (k : Nat) : Mach :=
  let s := m.seq k
  if !s.brs.isEmpty || s.end_ || m.seqState k ≠ 3 then m
  else
    match s.entry s.idx with
    | some (w0, _) =>
      if iKind w0 = 2 && s.idx < m.get SEQ.LIST_LEN k then
        match s.loopStep s.idx w0 with | .inl why => m.seqStop k why s.idx false | .inr _ => m
      else m
    | none => m

/-- LOOM_WALK (R156, R164): a RUNNING list walks its next entry, or shows what holds it; speculation then fetches what it may. An entry
whose line of the list copy has not been read waits for it (R17). -/
def loomWalk (k : Nat) (m : Mach) : Mach :=
  let s := m.seq k
  if !m.fabricUp || m.asleep || m.seqState k ≠ 3 || s.lost then m
  else
    let m0 := m.placeDues k
    let fin := s.end_ || m.get SEQ.LIST_LEN k ≤ s.idx
    match if fin then some (0, 0) else s.entry s.idx with
    | none => m.listFetch k (s.idx / 16)
    | some (w0, w1) =>
      let h := m0.walkHold k s w0
      let m1 := m0.put SEQ.STAT_HOLD k h
      let m2 := if h = 0 then m1.walkEntry k s.idx w0 w1 else if h = 4 then m1.showLoomFull true else m1
      (m2.specIssue k (m.get SEQ.SPEC_LINES k)).showSeq k

/-- BRANCH_RESOLVE (R162 to R166): the first unresolved branch whose sample tick is reached takes its outcome from COND as sampled. -/
def branchResolve (k cond : Nat) (m : Mach) : Mach :=
  if !m.fabricUp || m.seqState k ≠ 3 then m
  else
    match (m.seq k).brs.find? fun b => b.out.isNone && reached m.tb b.sample with
    | none => m
    | some b =>
      let o := bitAt cond b.cond = b.sense
      let b' := { b with out := some o, est := m.estimated }
      let m1 := if o = b.pred then
          m.modSeq k fun s => { s with brs := s.brs.map fun x => if x.id = b.id then b' else x }
        else
          (m.squash k b).modSeq k fun s => { s with
            brs := (s.brs.takeWhile fun x => x.id ≠ b.id) ++ [b'], idx := b.other, t := b.t, loops := b.loops, loopT := b.loopT,
            end_ := false }
      ((m1.commitBranches k (m1.seq k).brs.length).loopCheck k).showSeq k

/-! ### Issue of committed reads (R159, R160) -/

/-- Lines of a list issued for committed entries and not yet pushed. -/
def SeqSt.dueLines (s : SeqSt) : Nat := ((s.queue.filter fun e => e.spec.isNone).map fun e => e.ph.length).sum

/-- The next committed line whose issue point is reached. -/
def Mach.dueNext (m : Mach) (k : Nat) : Option (LEnt × Nat) :=
  ((m.seq k).queue.filter fun e => e.spec.isNone && !e.mark && !e.cut && (m.seqState k = 3 || e.begun) &&
      reached m.tb (e.t - BitVec.ofNat 64 (m.get LOOM.LEAD_TICKS))).findSome? fun e =>
    (((List.range (min (e.lines - e.pushed) (e.ph.length + 1))).map (e.pushed + ·)).find? fun n => e.ph.get n = 0).map fun n => (e, n)

/-- Issue committed reads in address order while FETCH_DEPTH allows (R159). -/
def Mach.dueIssue (m : Mach) (k : Nat) : Nat → Mach
  | 0 => m
  | f + 1 =>
    if m.get SEQ.FETCH_DEPTH k ≤ (m.seq k).dueLines then m
    else
      match m.dueNext k with
      | some (e, n) => (m.dueRead k e n).dueIssue k f
      | none => m

/-- LOOM_DUE_ISSUE (R159): reads of the committed PLAYs whose issue point trace time has reached. -/
def loomDueIssue (k : Nat) (m : Mach) : Mach :=
  if !m.fabricUp || !(m.seqState k = 3 || m.seqState k = 4) then m else (m.dueIssue k (m.get SEQ.FETCH_DEPTH k)).showSeq k

/-- A media read for a list, issued at `at_`, is back (R159, R160, R164, R166). `rq` is 11 for a speculative read. -/
def Mach.loomArrive (m : Mach) (k id n rq : Nat) (o : Out) (at_ : Nat) : Mach :=
  match (m.seq k).queue.find? fun e => e.id = id with
  | none => if rq = 11 then m.count SEQ.SPEC_DISCARD k else m
  | some e =>
    if e.cut || n < e.pushed then m
    else if e.ph.get n = 5 then (m.modEnt k id fun x => { x with ph := x.ph.set n 0 }).showSeq k
    else if e.spec.isSome then (m.specLand k e n o.status o.data o.cls o.lost).showSeq k
    else if rq = 11 then (m.dueLand k e n o.status o.data o.cls o.bound at_).showSeq k
    else (m.dueFill k e n o at_).showSeq k

/-- The copy that serves line `n` of an entry has been read for the push; one that fails its check is dropped, and the line read again
(R246). -/
def Mach.copyBack (m : Mach) (k : Nat) (e : LEnt) (n : Nat) : Mach :=
  match m.copyFor k e n with
  | none => m.modEnt k e.id fun x => { x with ph := x.ph.set n 0 }
  | some c =>
    let p := m.loomPlace c.slot
    let l := m.cell p
    if l.cls = 3 then
      (((m.count ERR.CNT_HEARTH_FAIL).judgeEst).loomDrop (· = c)).modEnt k e.id fun x => { x with
        ph := x.ph.set n 0, hf := x.hf.set n (some (m.hfailAt p.1 c.line)) }
    else m.modEnt k e.id fun x => { x with here := x.here.set n (some (foundStatus l.cls c.status, l.cls, l.data)) }

/-- A Hearth read for a list, under requester `rq`, has returned (R17, R159, R164, R166). -/
def Mach.loomHearth (m : Mach) (k id n rq : Nat) : Mach :=
  match (m.seq k).queue.find? fun e => e.id = id with
  | none => if rq = 11 then m.count SEQ.SPEC_DISCARD k else m
  | some e =>
    match if n < e.pushed then 0 else e.ph.get n with
    | 1 => if e.cut then m else (if e.spec.isSome then m.specTake k e n else m.dueTake k e n).showSeq k
    | 5 => (m.modEnt k id fun x => { x with ph := x.ph.set n 0 }).showSeq k
    | 8 => (m.copyBack k e n).showSeq k
    | 9 => (m.copyBack k e n).showSeq k
    | _ => m

/-! ### Delivery (R155, R159, R161) -/

/-- The entry whose beat a list pushes next. -/
def SeqSt.pushNext (s : SeqSt) : Option LEnt := (s.queue.filter fun e => e.spec.isNone).find? fun e => !e.mark || (e.ply && !e.done)

/-- Drive a PLY beat: a credit is taken (R77). -/
def Mach.pushBeat (m : Mach) (port : Nat) (b : PlyBeat) : Mach :=
  ((m.modPort port fun p => { p with ply := some b }).put PORT.PLY_CRED_NOW port (m.get PORT.PLY_CRED_NOW port - 1)).count
    PORT.CNT_PLY_BEATS port

/-- The first beat of an entry is judged (R79, R161): status, ticks late, and the machine with the judgement recorded. It is on time before
its due tick is reached and in the cycle in which its PLAY_DUE entry fires; while that entry stands and can fire, its cycle has not come. -/
def Mach.judgeFirst (m : Mach) (k port : Nat) (e : LEnt) (st : Nat) : Nat × Nat × Mach :=
  let m0 := m.judgeEst
  let onTime := if e.fired then e.firedAt = m.now else !reached m.tb e.t || (e.due.isSome && m.flag ALM.STAT_TB_VALID)
  if onTime then (st, 0, m0)
  else
    let late := (m.tb - e.t).toNat
    let info := satU 24 late
    let m1 := ((m0.recordLate late).count SEQ.CNT_LATE k).count SEQ.CNT_LATE_TICKS k late
    let m2 := ((m1.put SEQ.LAST_LATE_TICKS k info).put SEQ.LAST_LATE_ENTRY k e.idx).count PORT.CNT_PLY_LATE port
    (if st = stPoison || st = stUnwritten then st else stLate, info, m2)

/-- A line has been pushed to its last beat: its copy is kept, or released (R159). -/
def Mach.lineOut (m : Mach) (k : Nat) (e : LEnt) (n : Nat) (c : Option LCopy) : Mach :=
  match c with
  | none => m
  | some c =>
    if c.kind = 2 then m
    else if !e.keep || m.loom.copies.any (fun x => x.seq = k && x.kind = 2 && x.line = c.line) then m.loomDrop (· = c)
    else if ((m.loom.copies.filter fun x => x.seq = k && x.kind = 2).length) < m.get SEQ.KEEP_LINES k then
      m.modLoom fun s => { s with copies := s.copies.map fun x => if x = c then { c with kind := 2, ent := e.idx, n := n } else x }
    else (m.loomDrop (· = c)).event .seq k SEQ.EV_KEEP_OVER

/-- A line's data and status as it is pushed, with the copy that it came from; none while it is not here. A copy is first read from
Hearth (R17). -/
def Mach.pushValue (m : Mach) (k : Nat) (e : LEnt) (n : Nat) : Option (Nat × Line × Option LCopy) × Mach :=
  let ph := e.ph.get n
  let set (m : Mach) (p : Nat) : Mach := m.modEnt k e.id fun x => { x with ph := x.ph.set n p }
  if ph = 3 then (some (stUnwritten, 0, none), m)
  else if ph = 7 || ph = 8 || ph = 9 then
    match e.here.get n with
    | some (st, cls, d) => (some (st, if cls = 0 then d else 0, if ph = 7 then none else m.copyFor k e n), m)
    | none => (none, if ph = 7 then set m 0 else m)
  else if ph = 2 || ph = 4 then
    match m.copyFor k e n with
    | none => (none, set m 0)
    | some c => (none, set (m.hQueue 10 (m.loomPlace c.slot) false (.loomH k e.id n) (some (m.seqPort k))) (if ph = 2 then 8 else 9))
  else if e.cut then (some (stUnwritten, 0, none), m)
  else (none, m)

/-- PLY_PUSH (R77, R79, R155, R157, R159, R161): Loom pushes the next beat to a port when it holds a credit. In STOPPING only the entry in
progress goes on, to its last beat, even when the port has been disabled. -/
def plyPush (port : Nat) (m : Mach) : Mach :=
  let able (k : Nat) : Bool := m.fabricUp && !m.asleep && (m.flag PORT.STAT_READY port || m.seqState k = 4) &&
    m.flag PORT.STAT_PCLK_RUN port && 0 < m.get PORT.PLY_CRED_NOW port
  match (List.range 16).find? fun k => (m.seqState k = 3 || m.seqState k = 4) && m.seqPort k = port with
  | none => m
  | some k =>
    match if able k then ((m.seq k).pushNext.filter fun e => m.seqState k = 3 || e.begun) else none with
    | none => m
    | some e =>
      if e.mark then
        let m1 := m.pushBeat port ⟨e.arg.setWidth 512, 1, 0, true, true, false, 0⟩
        (m1.modSeq k fun s => { s with
          queue := (s.queue.map fun x => if x.id = e.id then { x with done := true } else x).filter fun x =>
            !(x.id = e.id && (!x.evt || x.fired)) }).showSeq k
      else
        let n := e.pushed
        match m.pushValue k e n with
        | (none, m1) => m1.showSeq k
        | (some (st, d, c), m1) =>
          let first := n = 0 && e.beat = 0
          let lastLine := n + 1 = e.lines
          let j := if first then m1.judgeFirst k port e st else (st, 0, m1)
          let m2 := j.2.2.pushBeat port
            ⟨Line.beat d e.beat, 0, j.1, first, lastLine && e.beat = 3, first && m.estimated, j.2.1⟩
          if e.beat < 3 then (m2.modEnt k e.id fun x => { x with beat := x.beat + 1 }).showSeq k
          else
            let m3 := (m2.lineOut k e n c).count SEQ.CNT_LINES k
            let m4 := if st = stPoison then m3.count ERR.CNT_POISON_READ else m3
            if !lastLine then (m4.modEnt k e.id fun x => { x with
              beat := 0, pushed := n + 1, ph := x.ph.erase n, here := x.here.erase n }).showSeq k
            else
              (((((m4.unpin e.pins).modSeq k fun s => { s with queue := s.queue.filter fun x => x.id ≠ e.id }).count SEQ.CNT_ENTRIES
                k).put SEQ.DELIVER_LINES k (n + 1)).showSeq k).pairClock (port / 2)

/-- A PLAY_DUE entry of the Almanac at index `i` fires (R158). A PLAY is judged once the cycle is over, in which its first beat may still be
pushed. -/
def Mach.loomFire (m : Mach) (i : Nat) : Mach :=
  match (List.range 16).findSome? fun k => ((m.seq k).queue.find? fun e => e.due = some i).map fun e => (k, e) with
  | none => m
  | some (k, e) =>
    let m1 := m.modEnt k e.id fun x => { x with due := none, fired := true, firedAt := m.now }
    if e.mark then
      let m2 := (((m1.put SEQ.MARK_ARG k e.arg.toNat).put SEQ.MARK_TICK k e.t.toNat).count SEQ.CNT_MARKS k).event .seq k SEQ.EV_MARK
      if !e.ply || e.done then m2.modSeq k fun s => { s with queue := s.queue.filter fun x => x.id ≠ e.id } else m2
    else m1

/-- A PLAY whose PLAY_DUE entry has fired in this cycle and whose first beat has not been pushed is late (R158). -/
def Mach.playLate (m : Mach) (k : Nat) (e : LEnt) : Mach :=
  if e.mark || !e.fired || e.firedAt ≠ m.now || 0 < e.pushed || 0 < e.beat then m
  else
    let m2 := m.event .seq k SEQ.EV_LATE
    if !([2, 3, 4, 7, 8, 9].contains (e.ph.get 0)) then m2.count SEQ.CNT_LATE_DATA k
    else if m.get PORT.PLY_CRED_NOW (m.seqPort k) = 0 then m2.count SEQ.CNT_LATE_CREDIT k else m2

/-- A fabric cycle ends: the PLAY entries whose due came in it are judged (R158). -/
def Mach.loomEnd (m : Mach) : Mach :=
  (List.range 16).foldl (fun (m : Mach) k => (m.seq k).queue.foldl (fun (m : Mach) e => m.playLate k e) m) m

/-! ### Loading, starting and ending (R153, R170) -/

/-- Lines of a list's image, and its first line. -/
def Mach.imgLines (m : Mach) (k : Nat) : Nat := (16 * m.get SEQ.LIST_LEN k + 255) / 256
def Mach.imgBase (m : Mach) (k : Nat) : Nat := m.get SEQ.LIST_ADDR k / 256

/-- Line `j` of an image being read, for a read issued at `at_`, has arrived; one whose Hearth copy failed its check is OK_RETRIED (R246). -/
def Mach.imageLand (m : Mach) (k j st : Nat) (d : Line) (cls bound at_ : Nat) : Mach :=
  let s := m.seq k
  if s.reading = 0 then m
  else
    let r := match s.imgHf.get j with
      | some x => (m.refetched (m.get SEQ.LIST_CLASS k) 0 true false at_ x (retriedStatus st) bound (cls = 2), retriedStatus st)
      | none => (m, st)
    r.1.modSeq k fun s => { s with img := s.img.set j d, imgSt := s.imgSt.set j (r.2 + 1), imgHf := s.imgHf.erase j }

/-- The medium's answer for an image line; the line is kept in Hearth as a read of a client (R153, R280). -/
def Mach.imageArrive (m : Mach) (k j : Nat) (o : Out) (at_ : Nat) : Mach :=
  let l := m.imgBase k + j
  let m1 := if o.newer || (m.dirFind l).isSome then m else m.keepHome l o.data o.cls false false false
  let m2 := if !o.newer && m1.homeHit l then m1.hQueue (m1.get SEQ.LIST_CLASS k) (m1.homePlace l) true else m1
  m2.imageLand k j o.status o.data o.cls o.bound at_

/-- A line of an image takes its value at its point of coherence; on a miss the medium is read, once its map entry is at hand (R153, R190,
R279). -/
def Mach.imageTake (m : Mach) (k j : Nat) : Mach :=
  let c := m.get SEQ.LIST_CLASS k
  let l := m.imgBase k + j
  if (m.seq k).reading = 0 then m else
  let r := m.coherent c 0 l true false m.now
  match r.1 with
  | some (st, d, cls) => r.2.2.imageLand k j st d cls 0 m.now
  | none =>
    let m0 := if r.2.1 then r.2.2.modSeq k fun s => { s with imgHf := s.imgHf.set j (some (m.hfailAt (m.homePlace l).1 l)) } else r.2.2
    let u := m0.lookup (m.unitOf l).1
    let set (m : Mach) (v : Nat) : Mach := m.modSeq k fun s => { s with imgSt := s.imgSt.set j v }
    if !u.1 then set u.2 98
    else if u.2.ent (m.unitOf l).1 = 0 then (u.2.count HT.CNT_MISS).imageLand k j stUnwritten 0 1 0 m.now
    else
      let s := (u.2.count HT.CNT_MISS).startRead c l (.image k j) none false true false false m.now
      match s.1 with
      | some o => s.2.imageArrive k j o m.now
      | none => set s.2 99

/-- Begin to read line `j` of a list's image through the random-access path (R17, R153). -/
def Mach.imageLine (m : Mach) (k j : Nat) : Mach :=
  let c := m.get SEQ.LIST_CLASS k
  let l := m.imgBase k + j
  let p := match m.kilnFind l with
    | some (_, s, i) => if s.spill.isNone then none else some (m.slotPlace s i)
    | none => if m.stacksIn = 0 then none else some (m.linePlace l false)
  match p with
  | some p => (m.hQueue c p false (.imageH k j)).modSeq k fun s => { s with imgSt := s.imgSt.set j 99 }
  | none => m.imageTake k j

/-- Read the image lines not yet asked for; one whose map entry is being fetched waits (R153, R190). -/
def Mach.imageStep (m : Mach) (k : Nat) : Mach :=
  if (m.seq k).reading = 0 then m
  else (List.range (m.imgLines k)).foldl (fun (m : Mach) j =>
    match (m.seq k).imgSt.get j with
    | 0 => m.imageLine k j
    | 98 => m.imageTake k j
    | _ => m) m

/-- Begin to read a list's image (R153). -/
def Mach.imageRead (m : Mach) (k what : Nat) : Mach :=
  (m.modSeq k fun s => { s with img := [], imgSt := [], imgHf := [], reading := what }).imageStep k

/-- Every line of the image is here. -/
def Mach.imageHere (m : Mach) (k : Nat) : Bool :=
  (m.seq k).reading ≠ 0 && (List.range (m.imgLines k)).all fun j => (m.seq k).imgSt.get j ≠ 0 && (m.seq k).imgSt.get j < 98
/-- Lowest line of the image that did not read OK, OK_RETRIED or OK_RECOMPUTED. -/
def Mach.imageBad (m : Mach) (k : Nat) : Option Nat :=
  (List.range (m.imgLines k)).find? fun j => stRecomputed + 1 < (m.seq k).imgSt.get j
/-- CRC-32C of the image (R153). -/
def Mach.imageCrc (m : Mach) (k : Nat) : Nat :=
  let v := (List.range (m.imgLines k)).foldr (fun j a => ((m.seq k).img.get j).toNat + a * 2 ^ 2048) 0
  crc32c (16 * m.get SEQ.LIST_LEN k) (v % 2 ^ (128 * m.get SEQ.LIST_LEN k))
/-- Words of entry `i` of the image as read. -/
def Mach.imageEntry (m : Mach) (k i : Nat) : Nat × Nat :=
  let l := (m.seq k).img.get (i / 16)
  ((Line.word l (2 * (i % 16))).toNat, (Line.word l (2 * (i % 16) + 1)).toNat)

/-- Store the image read as the list copy in Hearth (R153). -/
def Mach.imageStore (m : Mach) (k : Nat) : Mach :=
  let m0 := m.loomDrop fun c => c.seq = k && c.kind = 4
  let m1 := (List.range (m.imgLines k)).foldl (fun (m : Mach) j =>
    (m.loomPut ⟨k, m.imgBase k + j, 0, 4, 0, j, 0, false⟩ ((m.seq k).img.get j) 0 10).2) m0
  ((m.seq k).fails.foldl (fun (m : Mach) x => m.refetched 10 0 false false x.at_ x 0 0 false) m1).modSeq k fun s => { s with
    img := [], imgSt := [], reading := 0, lost := false, buf := none, fails := [] }

/-- CMD_STAT takes a result, reason and index (R153). -/
def Mach.seqStat (m : Mach) (k res reason idx : Nat) : Mach :=
  ((m.put SEQ.CMD_RESULT k res).put SEQ.CMD_REASON k reason).put SEQ.CMD_INDEX k idx

/-- A command written while CMD_STAT reads BUSY is ignored (R153). -/
def Mach.seqCmd (m : Mach) (k : Nat) (act : Mach → Mach) : Mach :=
  if m.get SEQ.CMD_RESULT k = 3 then m.reject .seq k else (act m).showSeq k

/-- A list returns to EMPTY: its copy is released (R153). -/
def Mach.seqEmpty (m : Mach) (k : Nat) : Mach :=
  ((m.loomDrop fun c => c.seq = k).modSeq k fun s => { (default : SeqSt) with hist := s.hist }).put SEQ.STAT_STATE k 0

/-- SEQ_LOAD (R153). -/
def seqLoad (k : Nat) (m : Mach) : Mach :=
  m.seqCmd k fun m =>
    let st := m.seqState k
    let a := m.get SEQ.LIST_ADDR k
    let n := m.get SEQ.LIST_LEN k
    let d := m.nsDesc (a / 2 ^ 52)
    if !(st = 0 || st = 2 || st = 5) then m.seqStat k 2 6 0
    else if a % 256 ≠ 0 || n = 0 || 4096 < n || !d.exists_ || d.size < a % 2 ^ 52 + 16 * n then
      ((m.seqEmpty k).seqStat k 2 1 0).event .seq k SEQ.EV_REFUSED
    else (((m.seqEmpty k).put SEQ.STAT_STATE k 1).seqStat k 3 0 0).imageRead k 1

/-- LIST_LOAD_DONE (R153): the image is read and checked. -/
def listLoadDone (k : Nat) (m0 : Mach) : Mach :=
  let m := if m0.seqState k = 1 then m0.imageStep k else m0
  if m.seqState k ≠ 1 || !m.imageHere k then m
  else
    let n := m.get SEQ.LIST_LEN k
    let refuse (r i : Nat) : Mach := (((m.seqEmpty k).seqStat k 2 r i).event .seq k SEQ.EV_REFUSED).showSeq k
    match m.imageBad k with
    | some j => refuse 1 (16 * j)
    | none =>
      match (List.range n).find? fun i => entryBad n i (m.imageEntry k i).1 (m.imageEntry k i).2 with
      | some i => refuse 2 i
      | none =>
        let m1 := (m.put SEQ.LIST_CRC k (m.imageCrc k)).imageStore k
        ((((m1.modSeq k fun s => { s with hist := [] }).put SEQ.STAT_STATE k 2).seqStat k 0 0 0).event .seq k SEQ.EV_LOADED).showSeq k

/-- The reason and entry index for which START is refused (R153). DESIGN CHOICE, log entry 104: where several checks fail, the reason is the
first of PLAY_RANGE, PERMISSION and PORT. -/
def Mach.seqCheck (m : Mach) (k : Nat) : Option (Nat × Nat) :=
  let port := m.seqPort k
  let es := (List.range (m.get SEQ.LIST_LEN k)).filterMap fun i => (m.seqEntry k i).map fun w => (i, w.1, w.2)
  let plays := es.filter fun e => iKind e.2.1 = 1
  let bad := plays.find? fun e =>
    let d := m.nsDesc (lineNs (iLine e.2.1))
    !d.exists_ || d.size < lineOff (iLine e.2.1) + 256 * iLines e.2.2
  let deny := plays.find? fun e => !bitAt (m.nsDesc (lineNs (iLine e.2.1))).readPorts port
  match bad, deny with
  | some e, _ => some (3, e.1)
  | none, some e => some (4, e.1)
  | none, none =>
    if !m.flag PORT.CTL_ENABLE port || (List.range 16).any fun j => j ≠ k && (m.seqState j = 3 || m.seqState j = 4) && m.seqPort j = port
    then some (5, 0) else none

/-- The checks of START are made and the list runs, or is refused. With a lost or failing list copy they wait for its restore, CMD_STAT
reading BUSY (R153, R170; DESIGN CHOICE, log entry 85). -/
def Mach.seqBegin (m : Mach) (k : Nat) : Mach :=
  let lost := (m.seq k).lost || (List.range (m.get SEQ.LIST_LEN k)).any fun i => (m.seqEntry k i).isNone
  let bad := m.loom.copies.filter fun c => c.seq = k && c.kind = 4 && (m.cell (m.loomPlace c.slot)).cls = 3
  if lost then (((bad.foldl (fun (m : Mach) c => m.listFail k c) m).seqLost k).modSeq k fun s => { s with startWaits := true }).seqStat k 3 0 0
  else
    match m.seqCheck k with
    | some (r, i) => (m.seqStat k 2 r i).event .seq k SEQ.EV_REFUSED
    | none =>
      ((m.modSeq k fun s => { (default : SeqSt) with hist := s.hist, t := BitVec.ofNat 64 (m.get SEQ.START_TICK k) }).put
        SEQ.STAT_STATE k 3).seqStat k 0 0 0

/-- SEQ_START (R153). -/
def seqStart (k : Nat) (m : Mach) : Mach :=
  m.seqCmd k fun m => if m.seqState k = 2 || m.seqState k = 5 then m.seqBegin k else m.seqStat k 2 6 0

/-- SEQ_STOP (R153 to R155). -/
def seqStopCmd (k : Nat) (m : Mach) : Mach :=
  m.seqCmd k fun m =>
    match m.seqState k with
    | 3 => (m.seqStop k 2 (m.seq k).committed.1 false).seqStat k 0 0 0
    | 4 => m.seqStat k 1 0 0
    | 5 => m.seqStat k 1 0 0
    | _ => m.seqStat k 2 6 0

/-- SEQ_UNLOAD (R153). -/
def seqUnload (k : Nat) (m : Mach) : Mach :=
  m.seqCmd k fun m =>
    match m.seqState k with
    | 2 => (m.seqEmpty k).seqStat k 0 0 0
    | 5 => (m.seqEmpty k).seqStat k 0 0 0
    | 0 => m.seqStat k 1 0 0
    | _ => m.seqStat k 2 6 0

/-- PRED_CLEAR (R153, R163). -/
def predClear (k : Nat) (m : Mach) : Mach :=
  m.seqCmd k fun m =>
    if m.seqState k = 2 || m.seqState k = 5 then (m.modSeq k fun s => { s with hist := [] }).seqStat k 0 0 0 else m.seqStat k 2 6 0

/-- A read for a list is queued or under way. -/
def Mach.seqReads (m : Mach) (k : Nat) : Bool :=
  let mine (j : Job) : Bool := match j with | .loom l _ _ => l = k | .loomH l _ _ => l = k | .listH l _ => l = k | _ => false
  (m.sc.queues.any fun p => p.2.any fun q => mine q.job) || (m.rota.next.any fun p => match p.2 with | some q => mine q.job | none => false) ||
    (m.ht.pcs.any fun p => p.2.queue.any fun q => mine q.job) || (m.ht.flights.any fun f => mine f.req.job) ||
    (m.zml.any fun p => p.2.outs.any fun o => mine o.req.job) || m.err.ladders.any fun l => l.jobs.any mine

/-- LIST_DONE (R153): every entry before the END has been delivered, or a STOPPING list has finished. -/
def listDone (k : Nat) (m : Mach) : Mach :=
  let s := m.seq k
  if m.seqState k = 3 && s.end_ && s.brs.isEmpty && s.queue.isEmpty then
    ((m.put SEQ.STOP_REASON k 1).put SEQ.STOP_INDEX k s.idx).seqEnd k SEQ.EV_DONE
  else if m.seqState k = 4 && !(s.queue.any LEnt.begun) && !m.seqReads k then m.seqEnd k SEQ.EV_STOPPED
  else m

/-- A START that waited for the restore of its list copy is taken up; a list that has become EMPTY refuses it (R153). -/
def Mach.seqResume (m : Mach) (k : Nat) (waits : Bool) : Mach :=
  if !waits then m
  else if m.seqState k = 0 then m.seqStat k 2 6 0
  else (m.modSeq k fun s => { s with startWaits := false }).seqBegin k

/-- LIST_RESTORE (R170): a lost list copy is read again, and compared once it is here. -/
def listRestore (k : Nat) (m : Mach) : Mach :=
  let st := m.seqState k
  let s0 := m.seq k
  let waits := s0.startWaits
  if !m.fabricUp || !(m.seq k).lost || st < 2 then m
  else
    let m1 := if (m.seq k).reading = 0 then m.imageRead k 2 else m.imageStep k
    if !m1.imageHere k then m1
    else if (m1.imageBad k).isNone && m1.imageCrc k = m.get SEQ.LIST_CRC k then ((m1.imageStore k).seqResume k waits).showSeq k
    else
      let m2 := ((s0.fails.foldl (fun (m : Mach) x => m.refetched 10 0 false false x.at_ x 0 0 false) m1).modSeq k fun s => { s with
        img := [], imgSt := [], reading := 0, fails := [] }).event .seq k SEQ.EV_LIST_ERROR
      if st = 3 then (m2.seqStop k 5 (m.seq k).committed.1 false).modSeq k fun s => { s with lost := false }
      else if st = 4 then m2.modSeq k fun s => { s with lost := false }
      else ((m2.seqEmpty k).seqResume k waits).showSeq k

/-- A line of a walked entry whose copy is lost is fetched again; what has been read stays (R170). -/
def LEnt.forget (e : LEnt) : LEnt :=
  { e with ph := e.ph.mapv fun n p =>
      if p = 2 || p = 4 then 0 else if p = 8 || p = 9 then (if (e.here.get n).isSome then 7 else 0) else p }

/-- Hearth has lost the copies of Loom that lie where `gone` says: those list copies are to be restored, and lines not yet pushed are
fetched again (R170). -/
def Mach.loomForget (m : Mach) (gone : Nat × Nat → Bool := fun _ => true) : Mach :=
  let lost (c : LCopy) : Bool := gone (m.loomPlace c.slot)
  let hit (k : Nat) (e : LEnt) (n : Nat) : Bool := match m.copyFor k e n with | some c => lost c | none => true
  let again (k : Nat) (e : LEnt) : LEnt := { e with ph := (e.forget).ph.mapv fun n p => if hit k e n then p else e.ph.get n }
  let ls := (List.range 16).filter fun k => 2 ≤ m.seqState k && m.loom.copies.any fun c => c.seq = k && c.kind = 4 && lost c
  let m1 := m.modLoom fun s => { s with
    copies := s.copies.filter (fun c => !lost c), seqs := s.seqs.mapv (fun k q => { q with queue := q.queue.map (again k) }) }
  ls.foldl (fun (m : Mach) k => (m.seqLost k).showSeq k) m1

/-- PORT_ENABLE_WRITE (R84, R154, R155): a port that is disabled stops its RUNNING list, whose entry in progress is still pushed. -/
def portEnableCmd (n v : Nat) (m : Mach) : Mach :=
  portEnableWrite n v (if v % 2 = 0 && m.flag PORT.CTL_ENABLE n then m.seqPortStop n else m)

def execPortEnableWrite (a : BitVec 3) (port : BitVec 4) (en : BitVec 1) (s : State) :=
  answer s fun m => m.viaCfg a.toNat .port port.toNat 0x10 en.toNat (portEnableCmd port.toNat en.toNat)
def execLoomWalk (k : BitVec 4) (s : State) := answer s (loomWalk k.toNat)
def execLoomDueIssue (k : BitVec 4) (s : State) := answer s (loomDueIssue k.toNat)
def execBranchResolve (k : BitVec 4) (cond : BitVec 16) (s : State) := answer s (branchResolve k.toNat cond.toNat)
def execPlyPush (port : BitVec 4) (s : State) := answer s (plyPush port.toNat)
def execListLoadDone (k : BitVec 4) (s : State) := answer s (listLoadDone k.toNat)
def execListDone (k : BitVec 4) (s : State) := answer s (listDone k.toNat)
def execListRestore (k : BitVec 4) (s : State) := answer s (listRestore k.toNat)
def execSeqLoad (a : BitVec 3) (k : BitVec 4) (s : State) :=
  answer s fun m => m.viaCfg a.toNat .seq k.toNat 0x148 1 (seqLoad k.toNat)
def execSeqStart (a : BitVec 3) (k : BitVec 4) (s : State) :=
  answer s fun m => m.viaCfg a.toNat .seq k.toNat 0x148 2 (seqStart k.toNat)
def execSeqStop (a : BitVec 3) (k : BitVec 4) (s : State) :=
  answer s fun m => m.viaCfg a.toNat .seq k.toNat 0x148 3 (seqStopCmd k.toNat)
def execSeqUnload (a : BitVec 3) (k : BitVec 4) (s : State) :=
  answer s fun m => m.viaCfg a.toNat .seq k.toNat 0x148 4 (seqUnload k.toNat)
def execPredClear (a : BitVec 3) (k : BitVec 4) (s : State) :=
  answer s fun m => m.viaCfg a.toNat .seq k.toNat 0x148 5 (predClear k.toNat)

end Sys2Proof.Machine
end

