-- ==== Sys2Proof/Machine/Writeback.lean ====
section
/-! DEFINITION. The writeback engine and stripe updates (chapters "Hearth: the HBM tier controller", R281, and "Namespaces, the map and
placement", R186). -/
namespace Sys2Proof.Machine

/-! ### Which entry is due (R281) -/

/-- The order of age: the entry made longest ago first. -/
def oldestFirst (l : List (Nat × DirEnt)) : List (Nat × DirEnt) := l.mergeSort fun a b => a.2.since ≤ b.2.since

/-- A write waits for a way of a bucket (R279). -/
def Mach.bucketWanted (m : Mach) (b : Nat) : Bool :=
  (List.range 16).any fun p => (m.port p).reqs.any fun r =>
    r.phase == .lines && (List.range r.lines.length).any fun k =>
      (r.lines.getD k default).phase == .dirWait && lineBucket (r.line k) = b

/-- The mode empties Hearth of every dirty line: FLUSH, or the entry to EMBER (R281 case 2). -/
def Mach.flushesAll (m : Mach) : Bool := m.mode = mFlush || (m.asleep && m.get POWER.STAT_PHASE = 1)

/-- The entries whose writeback is due, in the order of the cases of R281. -/
def Mach.wbDue (m : Mach) : List Nat :=
  let es := oldestFirst (m.ht.dir.filter fun e => e.2.valid && !e.2.wb)
  let c1 := es.filter fun e => m.persistWants e.2.line || m.ht.scans.any fun s => s.1 ≤ e.2.line && e.2.line < s.1 + s.2.1
  let c2 := if m.flushesAll then es else []
  let c3 := es.filter fun e => m.bucketWanted (e.1 / 16) &&
    ((oldestFirst (m.ht.dir.filter fun x => x.2.valid && x.1 / 16 = e.1 / 16)).head?.map (·.1)) == some e.1
  let c4 := if m.get POWER.HOLDUP_BYTES ≤ m.undurable + m.dirtyBytes + 2 ^ 20 then es else []
  let c5 := if m.get HT.WB_START * 262144 ≤ 256 * m.get HT.DIR_COUNT then
      es.filter (·.2.lastUse) ++ es.filter fun e => !e.2.lastUse else []
  let c6 := es.filter fun e => e.2.since + usec (m.get HT.WB_AGE) ≤ m.now
  let c0 := es.filter (·.2.lost)
  (c0 ++ c1 ++ c2 ++ c3 ++ c4 ++ c5 ++ c6).map (·.1)

/-- The entry leaves without a program: it is stale, or beyond its namespace's SIZE (R281). -/
def Mach.wbDrops (m : Mach) (e : Nat) : Bool :=
  let l := (m.dirEnt e).line
  !m.dirCurrent e || (m.nsDesc (lineNs l)).size ≤ lineOff l

/-- The writeback of an entry can begin: its unit has a place, and no copy waits for a migration or a rebuild (R182, R187, R219, R329). -/
def Mach.wbCan (m : Mach) (e : Nat) : Bool :=
  let u := m.unitOf (m.dirEnt e).line
  let en := m.ent u.1
  m.wbDrops e ||
    (if en = 0 then !m.deltaFull && (m.placeFor u.1).isSome
     else if eKind en = 1 then !m.chanRO (eChan en) && !m.badLine (eChan en) (eSeg en) u.2
     else !m.rebuildWaits u.1 ((copiesOf en u.2).map (·.1)))

/-- A line of a NONE unit on a read-only channel: its unit goes to the front of the migration queue (R219). -/
def Mach.roQueue (m : Mach) (uk : Nat) : Mach :=
  let en := m.ent uk
  if eKind en = 1 && m.chanRO (eChan en) && !(m.map.migs.any fun p => p.1 = uk) then
    m.modMap fun s => { s with migDue := uk :: s.migDue.erase uk }
  else m

/-- A writeback that has begun ends without a program: its entry stays dirty. -/
def Mach.wbBack (m : Mach) (e : Nat) : Mach :=
  (m.setDir e { m.dirEnt e with wb := false, rewritten := false }).modHt fun h => { h with wbs := h.wbs.erase e }

/-- The line of a writeback has been read: it is programmed, or waits for a stripe update. Its read is a demand (R241). An entry that has
gone stale meanwhile is freed, and one without a place for its line stays dirty (R281). -/
def Mach.wbProgram (m : Mach) (e : Nat) : Mach :=
  if m.wbDrops e then m.dirFreeEnt e
  else
    let u := m.unitOf (m.dirEnt e).line
    let lost := (m.dirEnt e).lost
    let a := if m.ent u.1 = 0 then m.allocate u.1 false else (none, m)
    let m1 := a.2
    if m1.ent u.1 = 0 then (m1.wbBack e).roQueue u.1
    else
      let r := m1.dirtyRead e 12 0 true false m.now
      let poison := r.2.1.cls = 2
      let m3 := if poison then (r.2.2.setEntFlag u.1 fPoison true).2 else r.2.2
      let n := m3.map.locRec.get u.1
      let rec_ := if n = 0 then none else some (n - 1)
      let m4 : Mach := { m3 with serial := m3.serial + 1 }
      if eKind (m4.ent u.1) = 3 && !poison then
        m4.modHt fun h => { h with wbs := h.wbs.set e ⟨0, none, none, true, false, m4.serial, false⟩ }
      else
        let p := m4.progLine (if lost then 17 else 12) u.1 u.2 r.2.1.data 0 (if poison then 2 else 0) none (.wb e)
        p.2.modHt fun h => { h with wbs := h.wbs.set e ⟨p.1, rec_, none, false, poison, m4.serial, false⟩ }

/-- The writeback of entry `e` begins: the entry is freed, its dirty slot is read, or, when LOST, its poison program is made. While its map
entry is being fetched it has not begun (R17, R190, R281). -/
def Mach.wbBegin (m : Mach) (e : Nat) : Mach :=
  if m.wbDrops e then m.dirFreeEnt e
  else
    let w := m.lookup (m.unitOf (m.dirEnt e).line).1
    if !w.1 then w.2
    else
      let m1 := w.2.setDir e { w.2.dirEnt e with wb := true, rewritten := false }
      if (m.dirEnt e).lost then m1.wbProgram e
      else (m1.hQueue 12 (m.dirtyPlace e) false (.wbH e)).modHt fun h => { h with
        wbs := h.wbs.set e { (default : WbSt) with reading := true } }

/-- The dirty slot of a writeback has been read (R281). -/
def Mach.wbArrive (m : Mach) (e : Nat) : Mach := if (m.ht.wbs.get e).reading then m.wbProgram e else m

/-- WRITEBACK_START (R281): the writeback engine starts the first due entry that can begin. -/
def writebackStart (m : Mach) : Mach :=
  if !m.fabricUp || m.stacksIn = 0 then m
  else
    let l := m.wbDue
    match l.find? m.wbCan with
    | some e => m.wbBegin e
    | none =>
      match l with
      | [] => m
      | e :: _ =>
        let uk := (m.unitOf (m.dirEnt e).line).1
        if m.ent uk = 0 then (m.allocate uk false).2 else m.roQueue uk

/-! ### Stripe updates (R186) -/

/-- The stripe of a directory entry's line: unit, stripe number, data line. -/
def Mach.stripeOf (m : Mach) (e : Nat) : Nat × Nat × Nat :=
  let u := m.unitOf (m.dirEnt e).line
  (u.1, u.2 / 15, u.2 % 15)

/-- Change a stripe update. -/
def Mach.modStripe (m : Mach) (k : Nat) (f : Stripe → Stripe) : Mach :=
  m.modMap fun s => { s with stripes := s.stripes.upd k f }
/-- A stripe update. -/
def Mach.stripe (m : Mach) (k : Nat) : Stripe := m.map.stripes.get k

/-- The place of data line `d` of a stripe, 15 being its parity line. -/
def Mach.stripePlace (m : Mach) (x : Stripe) (d : Nat) : Nat × Nat × Nat :=
  let e := m.ent x.uk
  (bundleChan (eChan e % 2) x.s d, eSeg e, x.s)

/-- The logical line of data line `d` of a stripe. -/
def Mach.stripeLine (m : Mach) (x : Stripe) (d : Nat) : Nat := m.lineOf x.uk (15 * x.s + d)

/-- A line of a stripe can be read where it lies, and is not POISON already. -/
def Mach.stripeReads (m : Mach) (x : Stripe) (d : Nat) : Bool :=
  let c := (m.stripePlace x d).1
  !m.chanLost c && staleChan (m.ent x.uk) ≠ some c && (m.poisonKept (m.stripeKey x.uk (15 * x.s) d)).isNone

/-- Read data line `d` of a stripe update by a bucket as in readLine, without a ladder. -/
def Mach.stripeRead (m : Mach) (k d bkt : Nat) : Mach :=
  let x := m.stripe k
  let p := m.stripePlace x d
  if d = 15 then
    m.mQueue p.1 true x.rq
      { (default : Media) with
        op := opReadLine, seg := p.2.1, pos := p.2.2, nlines := 1, bkt := bkt, line := some (m.stripeLine x 0), par := true,
        uk := some x.uk } (.stripeRd k 15)
  else m.readLine x.rq x.uk p (m.stripeLine x d) bkt (.stripeRd k d) none false

/-- Every other due dirty line of the stripe joins: its writeback begins as well (R186). -/
def Mach.stripeGather (m : Mach) (e : Nat) : Mach :=
  let t := m.stripeOf e
  (m.wbDue.eraseDups.filter fun x => (m.stripeOf x).1 = t.1 && (m.stripeOf x).2.1 = t.2.1 && m.wbCan x).foldl (fun (m : Mach) x =>
    if (m.dirEnt x).valid && !(m.dirEnt x).wb then m.wbBegin x else m) m

/-- Open an update for the waiting entry `e` with every other due entry of its stripe, and read what step 1 reads. -/
def Mach.stripeBegin (m0 : Mach) (e : Nat) : Mach :=
  let m := m0.stripeGather e
  let t := m.stripeOf e
  let es := (m.ht.wbs.filter fun w => w.2.waiting && (m.stripeOf w.1).1 = t.1 && (m.stripeOf w.1).2.1 = t.2.1).map (·.1)
  let k := m.map.stripeNo + 1
  let ds := es.map fun e => ((m.stripeOf e).2.2, e)
  let x : Stripe := { (default : Stripe) with
    uk := t.1, s := t.2.1, rq := 12, stage := 1,
    covered := ds.foldl (fun (a : Tab Nat) d => a.set d.1 1) [],
    entries := ds.foldl (fun (a : Tab Nat) d => a.set d.1 (d.2 + 1)) [],
    newData := ds.foldl (fun (a : Tab Line) d => a.set d.1 (m.cell (m.dirtyPlace d.2)).data) [] }
  let m1 := es.foldl (fun (m : Mach) e => m.modHt fun h => { h with
    wbs := h.wbs.upd e fun w => { w with waiting := false, stripe := some k } }) m
  let m2 := (m1.modMap fun s => { s with stripeNo := k, stripes := s.stripes.set k x }).overtake (m.stripeLine x 0) true
  if ds.length = 15 then m2
  else
    (ds.map (fun (p : Nat × Nat) => p.1) ++ [15]).foldl (fun (m : Mach) d =>
      if m.stripeReads x d then
        (m.stripeRead k d 1).modStripe k fun y => { y with wait := y.wait + 1 }
      else m.modStripe k fun y => { y with cls := y.cls.set d 3 }) m2

/-- The ring entry of a line of a stripe update that failed its check, once the drift-retry steps are over, `step` of them made (R186, R254).
DESIGN CHOICE, log entry 107: one that fails them all has OUTCOME 1, as the parity is then made from the other lines. -/
def Mach.stripeRing (m : Mach) (k d step cls : Nat) : Mach :=
  let x := m.stripe k
  match x.fails.get d with
  | none => m
  | some f =>
    let p := m.stripePlace x d
    m.ringAdd { (default : RingInfo) with
      line := f.1.line, path := 0, tick := f.1.tick, est := f.1.est, chan := p.1, seg := p.2.1, pos := p.2.2, rq := x.rq, step := step,
      outcome := if cls = 3 then 1 else if cls = 2 then 4 else 0, gen := f.2, dur := (m.now - f.1.at_) / 192 }

/-- A read of a stripe update is back (R186 steps 1 and 2): a line that fails is read again by up to three drift-retry steps (R226). -/
def Mach.stripeBack (m : Mach) (k d cls : Nat) (data : Line) (tag : Nat) : Mach :=
  let x := m.stripe k
  if x.stage = 0 then m
  else
    let c := (m.stripePlace x d).1
    let e := m.ent x.uk
    let tried := x.tries.get d
    let step := if tried.isEmpty then 0 else 4 - tried.length
    let todo := if tried.isEmpty then 0 :: m.retryBuckets c e (m.bucketOf c e) (bits tag 40 24) else tried
    let m0 := if cls = 3 then
        (m.count ERR.CNT_MEDIA_FAIL).modStripe k fun y => { y with
          fails := if (y.fails.get d).isSome then y.fails else y.fails.set d (some (m.hfailAt 0 (m.stripeLine x (if d = 15 then 0 else d)),
            bits tag 32 8)) }
      else m
    match if cls = 3 && m.map.dloaded.get c then todo.drop 1 else [] with
    | b :: rest => (m0.modStripe k fun y => { y with tries := y.tries.set d (0 :: rest) }).stripeRead k d (b + 2)
    | [] =>
      let m1 := if step = 0 then m0
        else if cls = 3 then m0.count MAP.CNT_RETRY_FAIL
        else if cls = 2 then m0
        else m0.count (if step = 1 then MAP.CNT_RETRY_1 else if step = 2 then MAP.CNT_RETRY_2 else MAP.CNT_RETRY_3)
      (m1.stripeRing k d step cls).modStripe k fun y => { y with
        wait := y.wait - 1, cls := y.cls.set d cls, read := y.read.set d (if cls = 1 then 0 else data) }

/-- An uncovered line of the fallback is here, after its ladder: it counts with its data bytes as stored (R186 step 2). -/
def Mach.stripeFallback (m : Mach) (k d : Nat) (o : Out) : Mach :=
  m.modStripe k fun y => { y with wait := y.wait - 1, read := y.read.set d o.data }

/-- XOR of lines. -/
def xorLines (l : List Line) : Line := l.foldl (fun a b => a ^^^ b) 0

/-- The new parity: by difference, or from all lines when the fallback was taken (R186 step 2). -/
def Stripe.newParity (x : Stripe) (fallback : Bool) : Line :=
  let new := xorLines (x.newData.map (·.2))
  if fallback then
    xorLines (new :: ((List.range 15).filter (fun d => x.covered.get d = 0)).map (fun d => x.read.get d))
  else xorLines (new :: x.read.get 15 :: (x.covered.keys.map fun d => x.read.get d))

/-- Old parity or an old covered line is FAIL or POISON: the uncovered lines are read instead (R186 step 2). -/
def Stripe.fallback (x : Stripe) : Bool := (15 :: x.covered.keys).any fun d => 2 ≤ x.cls.get d

/-- Append the STRIPE_OPEN record of an update: the stripe, the covered lines and those that were BLANK before (R186 step 3). -/
def Mach.stripeOpen (m : Mach) (k : Nat) : Mach :=
  let x := m.stripe k
  let mask (p : Nat → Bool) : Nat := (x.covered.keys.filter p).foldl (fun a d => a + 2 ^ d) 0
  let r := m.delta 4 (unitNs x.uk) (unitU x.uk) (x.s + mask (fun _ => true) * 2 ^ 12 + mask (fun d => x.cls.get d = 1) * 2 ^ 27)
  r.2.modStripe k fun y => { y with delta := r.1 }

/-- The update closes: a STRIPE_CLOSE record, and its entries' writebacks have their programs (R186 step 6). -/
def Mach.stripeClose (m : Mach) (k : Nat) : Mach :=
  let x := m.stripe k
  let m1 := (m.delta 5 (unitNs x.uk) (unitU x.uk) x.s).2
  let m2 := x.entries.foldl (fun (m : Mach) e => m.modHt fun h => { h with
    wbs := h.wbs.upd (e.2 - 1) fun w => { w with stripe := none, left := 0 } }) m1
  m2.modMap fun s => { s with stripes := s.stripes.erase k }

/-- An open update moves on to its next stage when it may (R186). -/
def Mach.stripeStage (m : Mach) (k : Nat) : Mach :=
  let x := m.stripe k
  if 0 < x.wait || 0 < x.left then m
  else if x.stage = 1 then
    if x.covered.length < 15 && x.fallback then
      let ds := (List.range 15).filter fun d => x.covered.get d = 0
      ds.foldl (fun (m : Mach) d =>
        let r := m.startRead x.rq (m.stripeLine x d) (.stripeRd k d) none false false false false m.now
        match r.1 with
        | none => r.2.modStripe k fun y => { y with wait := y.wait + 1 }
        | some o => r.2.modStripe k fun y => { y with read := y.read.set d o.data })
        ((m.stripeOpen k).modStripe k fun y => { y with stage := 2 })
    else
      let p := if x.covered.length = 15 then xorLines (x.newData.map (·.2)) else x.newParity false
      (m.stripeOpen k).modStripe k fun y => { y with stage := 3, parity := p }
  else if x.stage = 2 then m.modStripe k fun y => { y with stage := 3, parity := x.newParity true }
  else if x.stage = 3 then
    if !m.deltaDurable x.delta || m.rebuildWaits x.uk (x.covered.keys.map fun d => (m.stripePlace x d).1) then m
    else
      let r := x.covered.keys.foldl (fun (a : Nat × Mach) d =>
        let p := a.2.progLine x.rq x.uk (15 * x.s + d) (x.newData.get d) 0 0 none (.stripeWr k d)
        (a.1 + p.1, p.2)) (0, m)
      r.2.modStripe k fun y => { y with stage := 4, left := r.1 }
  else if x.stage = 4 then
    let p := m.stripePlace x 15
    if m.rebuildWaits x.uk [p.1] then m
    else if m.omits p.1 then (m.setRebuild x.uk p.1).modStripe k fun y => { y with stage := 5 }
    else
      (m.mQueue p.1 false x.rq
        { (default : Media) with
          op := opWriteLine, seg := p.2.1, pos := p.2.2, nlines := 1, data := x.parity, uk := some x.uk } (.stripeWr k 15)).modStripe
        k fun y => { y with stage := 5, left := 1 }
  else if x.stage = 5 then m.stripeClose k
  else m

/-- A program of a stripe update is acknowledged. -/
def Mach.stripeAck (m : Mach) (k : Nat) : Mach := m.modStripe k fun y => { y with left := y.left - 1 }

/-- A waiting entry whose stripe has no open update, and room in the delta log for its records (R186, R195). -/
def Mach.stripeReady (m : Mach) (e : Nat) : Bool :=
  let t := m.stripeOf e
  !(m.map.stripes.any fun x => x.2.uk = t.1 && x.2.s = t.2.1) && !m.deltaFull

/-- STRIPE_UPDATE (R186): the due lines of a stripe are gathered into an update, and every open update moves on. -/
def stripeUpdate (m : Mach) : Mach :=
  if !m.fabricUp then m
  else
    let m1 := m.map.stripes.keys.foldl (fun (m : Mach) k => m.stripeStage k) m
    match (m1.ht.wbs.filter (·.2.waiting)).find? fun w => m1.stripeReady w.1 with
    | some w => m1.stripeBegin w.1
    | none => m1

/-! ### The end of a writeback (R281) -/

/-- The entry's writes up to the writeback are durable only as poison: the ports that made them learn it from PERSIST (R106). -/
def Mach.lostWrites (m : Mach) (l serial : Nat) : Mach :=
  (List.range 16).foldl (fun (m : Mach) p =>
    let w := (m.port p).wrote.filter fun w => w.1 = l && w.2.2 < serial
    if w.isEmpty then m else m.modPort p fun s => { s with lostTo := s.lostTo ++ w.map (fun x => (x.1, x.2.1)) }) m

/-- The freed entry's line becomes a home copy, or leaves none (R281). A stale entry leaves none (R111, R283). -/
def Mach.wbHome (m : Mach) (e : Nat) : Mach :=
  let en := m.dirEnt e
  let c := m.cell (m.dirtyPlace e)
  let p := m.homePlace en.line
  let h := m.cell p
  let holds := h.st = 1 && h.ltag = en.line
  let hits := h.st = 1 && h.gen = m.cgen (lineNs h.ltag) && !m.reserved h.ltag
  if en.lost || c.cls = 3 || en.lastUse || !m.dirCurrent e then (if holds then m.homeEmpty p else m)
  else if m.reserved en.line || (hits && !holds) then m
  else (m.homeWrite en.line c.data c.cls false).hQueue 12 p true

/-- WRITEBACK_DONE (R281): the program is acknowledged and its record durable; the entry is freed, or stays dirty when REWRITTEN. A
record that a PERSIST waits for is written at once (R195). One that was lost meanwhile stays, and its poison program is due (R297). -/
def writebackDone (e : Nat) (m : Mach) : Mach :=
  let en := m.dirEnt e
  let w := m.ht.wbs.get e
  let rec_ := match w.delta with | some n => m.deltaDurable n | none => true
  if !(en.valid && en.wb && !w.reading && !w.waiting && w.stripe.isNone && w.left = 0) then m
  else if !rec_ then (if m.persistWants en.line then m.deltaFlush else m)
  else
    let m0 := if w.poison then m.lostWrites en.line w.serial else m.lostPast en.line
    if en.rewritten then
      (m0.setDir e { en with rewritten := false, wb := false, born := w.serial }).modHt fun h => { h with wbs := h.wbs.erase e }
    else if en.lost && !w.poison then m0.wbBack e
    else ((m0.wbHome e).dirFreeEnt e).count HT.CNT_WB_LINES

def execWritebackStart (s : State) := answer s writebackStart
def execWritebackDone (e : BitVec 18) (s : State) := answer s (writebackDone e.toNat)
def execStripeUpdate (s : State) := answer s stripeUpdate

end Sys2Proof.Machine
end

