-- ==== Sys2Proof/Machine/Wear.lean ====
section
/-! DEFINITION. What the map and the wear engine do by themselves: delta lines, checkpoints, formatting, reclaiming, rotation,
migration, drift rewrite, the drift clock and the canaries (chapters "Namespaces, the map and placement", R194 to R203, and "Wear and
drift of the medium", R212 to R232). -/
namespace Sys2Proof.Machine

/-- The Core offers its map: replay is over and service has begun (R431). -/
def Mach.mapUp (m : Mach) : Bool :=
  m.fabricUp && !m.flag MAP.STAT_REPLAYING && m.map.segS ≠ 0 &&
    (m.mode = mRun || m.mode = mDegraded || m.mode = mFlush || (m.mode = mBringup && m.flag GLOBAL.STAT_SERVICE))

/-- Background programs may start: not in FLUSH or after a stop (R457, R459). Behind a seal they queue, and wait for the OPEN record
that the first of them calls for (R458). -/
def Mach.mayWork (m : Mach) : Bool := m.mapUp && m.mode ≠ mFlush && !m.flag POWER.STAT_STOPPED

/-- A maintenance window of a work bit is open, and maintenance is not withheld (R24, R45, R431). -/
def Mach.window (m : Mach) (b : Nat) : Bool := m.maint && bitAt (m.get ALM.WIN_MASK) b

/-- The guaranteed portion of a period runs (R25). -/
def Mach.inGuar (m : Mach) : Bool := m.flag ALM.STAT_TB_VALID && m.flag ALM.STAT_IN_GUAR

/-- The engine uses the entry of a unit: it goes on once the entry is at hand, and counts its lookup (R190). -/
def Mach.withEnt (m : Mach) (uk : Nat) (f : Mach → Mach) : Mach := if (m.lookup uk).1 then f (m.lookup uk).2 else (m.lookup uk).2

/-! ### The delta log and checkpoints (R195, R196) -/

/-- DELTA_LINE_TIMEOUT (R195): 2 µs after its first record a partly filled line is written. -/
def deltaLineTimeout (m : Mach) : Mach :=
  if m.fabricUp && !m.map.delta.cur.isEmpty && m.map.delta.curAt + usec 2 ≤ m.now then m.deltaFlush else m

/-- CKPT_INTERVAL_EXPIRE (R196); an interval of 0 is off (R205). -/
def ckptIntervalExpire (m : Mach) : Mach :=
  if m.mapUp && m.get MAP.CKPT_INTERVAL ≠ 0 && m.map.ckptAt + secs (m.get MAP.CKPT_INTERVAL) ≤ m.now then
    { m.ckptStart with map := { m.ckptStart.map with ckptAt := m.now } }
  else m

/-- The ALT bit of a written page flips (R196). -/
def Mach.flipAlt (m : Mach) (pg : Nat) : Mach :=
  m.modMap fun s =>
    if pg < 2 ^ 32 then { s with l1 := s.l1.upd pg (fun w => if w.valid then { w with alt := !w.alt } else w) }
    else if pg < 2 ^ 33 then { s with root := s.root.upd (pg - 2 ^ 32) (fun w => if w.valid then { w with alt := !w.alt } else w) }
    else { s with rootAlt := s.rootAlt.upd (pg - 2 ^ 33) (fun b => !b) }

/-- Waiting map changes may go on: the stall is counted, and the flag changes that waited are made (R195). -/
def Mach.deltaUnstall (m : Mach) : Mach :=
  if m.deltaFull || m.map.stallAt = 0 then m
  else
    let m1 := (m.count MAP.CNT_DELTA_STALL 0 (fabricCycles (m.map.stallAt - 1) m.now)).modMap fun s =>
      { s with stallAt := 0, flagDue := [] }
    m.map.flagDue.foldl (fun (m : Mach) x => (m.setEntFlag x.1 x.2.1 x.2.2).2) m1

/-- A change of the map may be made; with the log full it waits, and the wait is noted (R195). -/
def Mach.whenRoom (m : Mach) (f : Mach → Mach) : Mach := if m.deltaFull then m.deltaStall else f m

/-- CKPT_DONE (R196): the root record is programmed once all before it is durable; when it is durable itself ALT bits flip, log space
is released and the generation advances; a pending start follows. -/
def ckptDone (m0 : Mach) : Mach :=
  let m := m0.ckptAdvance
  let c := m.map.ckpt
  if m.get MAP.CKPT_STATE ≠ 3 || c.root ≠ 0 then m
  else
    let m1 := c.pages.foldl (fun (m : Mach) pg => m.flipAlt pg) m
    let m2 := (m1.setFill (m1.get MAP.DELTA_FILL - c.df)).deltaUnstall
    let m3 := (((m2.put MAP.CKPT_GEN 0 (m2.get MAP.CKPT_GEN + 1)).event .map 0 MAP.EV_CKPT_DONE).count MAP.CNT_CKPT).put MAP.CKPT_STATE 0 0
    let m4 := (m3.put MAP.CKPT_LAST_PAGES 0 c.total).put MAP.CKPT_LAST_TIME 0 (aonTicks c.startAt m.now)
    if m4.flag MAP.CKPT_PENDING then (m4.setFlag MAP.CKPT_PENDING 0 false).ckptStart else m4

/-! ### Formatting (R194) -/

/-- Formats outstanding on a channel; the Core keeps to the four that every hub takes (R345). -/
def Mach.formatting (m : Mach) (c : Nat) : Nat := ((m.zs c).outs.filter fun o => o.req.md.op = opFormat).length

/-- Send FORMAT_SEGMENT for a FREE segment of a channel that takes commands, with none outstanding on it (R330); its 4097 programs wait for a ceiling that covers them (R208, R209). -/
def Mach.formatSeg (m : Mach) (c s : Nat) (row : Bool) : Mach :=
  if m.linkServes c && !m.chanRO c && !m.segBusy c s then
    if !m.leaseOk c s 4097 then m.leaseWant c s 4097
    else (m.setSeg c s .formatting).sendCmd c opFormat 0 0 s (.format s row)
  else m

/-- A PARITY namespace exists, so that bundle rows are needed (R194). -/
def Mach.rowsNeeded (m : Mach) : Bool := m.ns.any fun n => n.2.exists_ && n.2.prot = 2

/-- WOODSHED_FORMAT (R194): a channel below its target formats a FREE segment; a group that needs rows formats one while all of its channels
take formats. Formats are sent in the background portion of a period only (R25). -/
def woodshedFormat (c : Nat) (m : Mach) : Mach :=
  if !m.mayWork || !m.linkServes c || m.inGuar then m
  else
    let g := c / 16
    let whole := (List.range 16).all fun k => m.linkServes (16 * g + k) && !m.chanRO (16 * g + k)
    let row := if m.rowsNeeded && whole && (m.rows g).length < m.get MAP.WOODSHED_ROWS then m.pickRow g else none
    match row with
    | some s =>
      (List.range 16).foldl (fun (m : Mach) k =>
        let d := 16 * g + k
        if m.segFree d s && m.formatting d < 4 then m.formatSeg d s true else m) m
    | none =>
      if m.woodshed c + (m.segsIn c .formatting).length < m.get MAP.WOODSHED_TARGET && m.formatting c < 4 then
        match m.pickFormat c with
        | some s => m.formatSeg c s false
        | none => m
      else m

/-- A format is answered (R194): the segment joins the Woodshed, or is FREE again, to be tried after the others. -/
def Mach.formatBack (m : Mach) (c s : Nat) (ok : Bool) : Mach :=
  if m.seg c s ≠ .formatting then m
  else if ok then (m.setSeg c s .woodshed).count MAP.CNT_FORMAT
  else m.setSeg c s .formatFailed

/-! ### Reclaiming (R203) -/

/-- The reservation of a deleted namespace is released once the reclaimer has nothing left of it (R177). -/
def Mach.releaseResv (m : Mach) : Mach :=
  let left (k : Nat) : Bool := (m.map.reclaim.any fun x => x.1 = k) || m.map.orphans.any fun x => unitNs x.1 = k
  let m1 := m.modMap fun s => { s with resv := s.resv.filter fun p => p.1 < 256 || left (p.1 - 256) }
  m1.put MAP.CAP_RESERVED 0 (((List.range 32).map fun c => m1.reservedOn c none).sum)

/-- RECLAIM_VISIT (R203): in the background portion of a period the reclaimer visits its next root word, and the places whose last pin
has been released (R188). A word of which something is still held is visited again after the others. -/
def reclaimVisit (m : Mach) : Mach :=
  if !m.mapUp || m.inGuar then m
  else m.whenRoom fun m =>
    let m0 := m.freeOrphans
    match m0.map.reclaim with
    | [] => m0.releaseResv.showWarm
    | (ns, root, lo, hi) :: rest =>
      let m1 := m0.reclaimRoot ns root lo hi
      let l := if (m1.unitsBelow ns root lo hi).isEmpty then rest else rest ++ [(ns, root, lo, hi)]
      ((m1.setReclaim l).releaseResv).showWarm

/-! ### Rotation (R212 to R214) -/

/-- The first three conditions of R213: the unit is not pinned, not reserved by a stream, not MIGRATING or in
a shift resumed at the start. -/
def Mach.unitFree (m : Mach) (uk : Nat) : Bool :=
  m.map.pins.get uk = 0 && !m.reserved (m.lineOf uk 0) && !eFlag (m.ent uk) fMigrating && !m.map.rots.any fun r => r.1 = uk
/-- The unit lies on a read-only channel (R213). -/
def Mach.unitRO (m : Mach) (uk : Nat) : Bool := (unitChans (m.ent uk)).any m.chanRO

/-- Change a rotation, a migration or a rewrite. -/
def Mach.modRot (m : Mach) (uk : Nat) (f : RotSt → RotSt) : Mach := m.modMap fun s => { s with rots := s.rots.upd uk f }
def Mach.modMig (m : Mach) (uk : Nat) (f : MigSt → MigSt) : Mach := m.modMap fun s => { s with migs := s.migs.upd uk f }
def Mach.modRw (m : Mach) (uk : Nat) (f : RwSt → RwSt) : Mach := m.modMap fun s => { s with rws := s.rws.upd uk f }

/-- ROT_SHIFT_START (R212 step 1, R213): the first due unit that no condition keeps waiting is marked. -/
def rotShiftStart (m : Mach) : Mach :=
  if !m.mayWork || !m.window 1 then m
  else m.whenRoom fun m =>
    match m.map.rotDue.find? fun uk => m.ent uk ≠ 0 && m.unitFree uk && !m.unitRO uk with
    | none => m.modMap fun s => { s with rotDue := s.rotDue.filter (fun uk => m.ent uk ≠ 0) }
    | some uk => m.withEnt uk fun m =>
      let r := m.setEntFlag uk fMigrating true
      r.2.modMap fun s => { s with
        rotDue := s.rotDue.erase uk, rots := s.rots.set uk { stage := 0, acked := 0, flight := 0, delta := r.1 + 1 } }

/-- The line position that the move after `j` acknowledged moves carries, in a unit with rotation `r` (R212). -/
def moveLine (r j : Nat) : Nat := ((if j = 4096 then 4095 else 4095 - j) + 4096 - r) % 4096

/-- A line read for a move, copy or rewrite is programmed with its own GEN and class. -/
def Mach.copyProg (m : Mach) (uk idx seg : Nat) (o : Out) (birth : Option Nat) (rq : Nat) (job : Job)
    (chan : Nat := (unitCopy (m.ent uk) idx).1.1) : Mach :=
  let t := unitCopy (m.ent uk) idx
  m.mQueue chan false rq
    { (default : Media) with
      op := opWriteLine, seg := seg, pos := t.1.2.2, nlines := 1, data := o.data, gen := o.gen, birth := birth, mark := o.cls,
      line := some (m.lineOf uk t.2.1), par := t.2.2, uk := some uk } job

/-- A program or read of a move has ended; the move is acknowledged with its last (R212). -/
def Mach.rotAck (m : Mach) (uk : Nat) : Mach :=
  let r := m.map.rots.get uk
  if r.stage ≠ 2 then m
  else if 1 < r.flight then m.modRot uk fun x => { x with flight := x.flight - 1 }
  else ((m.modRot uk fun x => { x with stage := 1, flight := 0, acked := x.acked + 1 }).count MAP.CNT_ROT_MOVES).unitsEnded m 1

/-- The source of a move has been read: it is programmed into the next slot. -/
def Mach.rotGot (m : Mach) (uk idx : Nat) (o : Out) : Mach :=
  let t := unitCopy (m.ent uk) idx
  if (m.map.rots.get uk).stage ≠ 2 then m
  else if m.omitsFor uk t.1.1 then (m.setRebuild uk t.1.1).rotAck uk
  else m.copyProg uk idx t.1.2.1 o o.birth 14 (.rotWr uk idx)

/-- A shift rests, because a program of one of its moves has failed for good: its unit's migration ends it (R217, R329). -/
def Mach.rotRests (m : Mach) (uk : Nat) : Bool :=
  (m.map.rots.get uk).stage = 1 && (unitChans (m.ent uk)).any fun c => !(m.map.bad.get (segKey c (eSeg (m.ent uk)))).isEmpty

/-- ROT_MOVE (R212 steps 2 to 5): the next move of a shift, or its end. -/
def rotMove (m : Mach) : Mach :=
  let ready (p : Nat × RotSt) : Bool :=
    (p.2.stage = 0 && m.deltaDurable (p.2.delta - 1)) || (p.2.stage = 1 && (p.2.acked = 4097 || !m.rotRests p.1))
  if !m.mayWork then m
  else
    match m.map.rots.find? ready with
    | none => m
    | some (uk, r) =>
      let e := m.ent uk
      if r.acked = 4097 then m.whenRoom fun m =>
        let e1 := eSetFlag (setBits e 16 12 ((eRot e + 1) % 4096)) fMigrating false
        ((m.setEnt uk e1).2.modMap fun s => { s with rots := s.rots.erase uk }).count MAP.CNT_ROT_SHIFTS
      else if !m.window 1 || m.rebuildWaits uk (unitChans e) then m
      else m.whenRoom fun m => m.withEnt uk fun m =>
        let n := (unitChans e).length
        let idxs := (List.range n).map fun j => moveLine (eRot e) r.acked * n + j
        let m1 := m.modRot uk fun x => { x with stage := 2, flight := n }
        idxs.foldl (fun (m : Mach) i =>
          if m.omitsFor uk (unitCopy e i).1.1 then (m.setRebuild uk (unitCopy e i).1.1).rotAck uk
          else
            let x := m.copyRead 14 uk i (.rotRd uk i) false
            match x.1 with
            | some o => x.2.rotGot uk i o
            | none => x.2) m1

/-! ### Migration (R216, R217) -/

/-- How far the most worn segment of a unit lies above its channel's mean (R216). -/
def Mach.wearAbove (m : Mach) (uk : Nat) : Int :=
  (unitChans (m.ent uk)).foldl (fun a c => max a ((m.wearC c (eSeg (m.ent uk)) : Int) - m.wearMean c)) (-(2 ^ 40 : Int))

/-- A better candidate of two for migration: a RETIRED unit first, then the highest C above its channel's mean (R216); a unit that
waits because of a read-only channel stands ahead of all (R219). -/
def Mach.migBefore (m : Mach) (a b : Nat) : Bool :=
  let ra := m.unitRO a && eKind (m.ent a) = 1
  let rb := m.unitRO b && eKind (m.ent b) = 1
  let ta := eFlag (m.ent a) fRetired
  let tb := eFlag (m.ent b) fRetired
  if ra ≠ rb then ra else if ta ≠ tb then ta else m.wearAbove b < m.wearAbove a

/-- The Woodshed index on all of the channels `cs` whose largest C is least (R216). -/
def Mach.leastWorn (m : Mach) (cs : List Nat) : Option Nat :=
  let cand := match cs with
    | [] => []
    | c :: _ => (m.segsIn c .woodshed).filter fun s => cs.all fun d => m.seg d s == SegSt.woodshed
  let worst (s : Nat) : Nat := cs.foldl (fun a c => max a (m.wearC c s)) 0
  cand.foldl (fun (b : Option Nat) s => match b with
    | none => some s
    | some x => if worst s < worst x then some s else some x) none

/-- The destination of a unit: its place field and segment (R216). A NONE unit on a read-only channel goes to the next channel upward that
is not read-only and has a formatted segment (R219). -/
def Mach.migDest (m : Mach) (uk : Nat) : Option (Nat × Nat) :=
  let e := m.ent uk
  if eKind e = 1 && m.chanRO (eChan e) then
    (List.range 32).findSome? fun k =>
      let c := (eChan e + k) % 32
      if m.chanRO c then none else (m.leastWorn [c]).map fun s => (c, s)
  else
    let place := if eKind e = 1 then eChan e else eChan e % (if eKind e = 2 then 16 else 2)
    (m.leastWorn (unitChans e)).map fun s => (place, s)

/-- The row of a group with the fewest mapped NONE and MIRROR segments: its units are queued, so that the row becomes free (R194). -/
def Mach.emptyRow (m : Mach) (g : Nat) : Mach :=
  let cs := (List.range 16).map (16 * g + ·)
  let mapped (s : Nat) : List Nat := cs.filterMap fun c => if m.seg c s == .mapped then m.segUnit c s else none
  let ok (s : Nat) : Bool := cs.all (fun c => m.segFree c s || m.seg c s == .woodshed || m.seg c s == .mapped) &&
    (mapped s).all fun uk => eKind (m.ent uk) ≤ 2
  let cand := ((cs.flatMap fun c => m.segsIn c .mapped).eraseDups).filter ok
  let best := cand.foldl (fun (b : Option Nat) s => match b with
    | none => some s
    | some x => if (mapped s).length < (mapped x).length then some s else some x) none
  match best with
  | none => m
  | some s => (mapped s).foldl (fun (m : Mach) uk => m.queueMig uk) m

/-- Collier's firmware is at work: RUNNING, or ACTIVATING and not past step 1 of R423. It takes posts, and it chooses the next migration
and rewrite; otherwise queued work waits (R403). -/
def Mach.takesPosts (m : Mach) : Bool :=
  let st := m.get COLLIER.STAT_STATE
  st = 2 || (st = 3 && m.post.cmds.all fun c => !(c.op = 12 && 2 ≤ c.stage))

/-- A unit whose shift rests is free for its migration (R213, R329). -/
def Mach.rotStuck (m : Mach) (uk : Nat) : Bool :=
  (m.map.rots.any fun r => r.1 = uk) && m.rotRests uk && m.map.pins.get uk = 0 && !m.reserved (m.lineOf uk 0) &&
    !m.map.migs.any fun p => p.1 = uk

/-- Begin the best due migration that may start: its destination leaves the Woodshed and MIGRATING is set (R216, R217). -/
def Mach.migBegin (m : Mach) : Mach :=
  let ok := m.map.migDue.filter fun uk => m.takesPosts && m.ent uk ≠ 0 && (m.unitFree uk || m.rotStuck uk) && (m.migDest uk).isSome &&
    ((unitChans (m.ent uk)).filter m.omits).length ≤ 1
  match ok.foldl (fun (b : Option Nat) uk => match b with
      | none => some uk
      | some x => if m.migBefore uk x then some uk else some x) none with
  | none => m.modMap fun s => { s with migDue := s.migDue.filter (fun uk => m.ent uk ≠ 0) }
  | some uk => m.withEnt uk fun m =>
    let d := (m.migDest uk).getD (0, 0)
    let m1 := m.takeSegs (eMake (eKind (m.ent uk)) d.1 d.2 false)
    let r := m1.setEntFlag uk fMigrating true
    r.2.modMap fun t => { t with
      migDue := t.migDue.erase uk, migs := t.migs.set uk { segNew := d.2, chanNew := d.1, stale := 0, next := 0, flight := 0, marked := [] } }

/-- A copied line is here: it is programmed at its destination, whose rotation is 0 (R217). One for a lost or read-only channel is omitted,
and the destination's entry will carry REBUILD (R127, R219). -/
def Mach.migGot (m : Mach) (uk idx : Nat) (o : Out) : Mach :=
  let x := m.map.migs.get uk
  let c := if eKind (m.ent uk) = 1 then x.chanNew else (unitCopy (m.ent uk) idx).1.1
  if !(m.map.migs.any fun p => p.1 = uk) then m
  else if 2 ≤ eKind (m.ent uk) && (m.omits c || m.badLine c x.segNew (unitCopy (m.ent uk) idx).1.2.2) &&
      (x.stale = 0 || x.stale = c + 1) then
    (m.modMig uk fun x => { x with flight := x.flight - 1, stale := c + 1 }).unitsEnded m 1
  else m.copyProg uk idx x.segNew o o.birth 14 (.migWr uk idx) c

/-- A copy has been programmed. -/
def Mach.migAck (m : Mach) (uk : Nat) : Mach :=
  if m.map.migs.any fun p => p.1 = uk then (m.modMig uk fun x => { x with flight := x.flight - 1 }).unitsEnded m 1 else m

/-- A program of the unit's source place has been acknowledged: the copy is marked for recopy (R217). -/
def Mach.migMark (m : Mach) (uk c seg pos : Nat) : Mach :=
  let e := m.ent uk
  match m.map.migs.find? fun p => p.1 = uk with
  | none => m
  | some (_, x) =>
    let cs := unitChans e
    let idx := pos * cs.length + cs.findIdx (· = c)
    if seg = eSeg e && idx < x.next && !x.marked.contains idx then m.modMig uk fun y => { y with marked := y.marked ++ [idx] } else m

/-- MIGRATE_COPY (R217): the next line copy of the migration under way, or a new migration. -/
def migrateCopy (m : Mach) : Mach :=
  if !m.mayWork || !m.window 1 then m
  else m.whenRoom fun m =>
    match m.map.migs.find? fun p => p.2.next < unitCopies (m.ent p.1) || !p.2.marked.isEmpty with
    | none =>
      if !m.map.migs.isEmpty then m
      else
        let short := m.rowsNeeded && m.map.migDue.isEmpty
        let m1 := if short && m.rowShort 0 then m.emptyRow 0 else m
        (if short && m1.rowShort 1 then m1.emptyRow 1 else m1).migBegin
    | some (uk, x) => m.withEnt uk fun m =>
      let e := m.ent uk
      let first := x.next < unitCopies e
      let idx := if first then x.next else x.marked.headD 0
      let m1 := m.modMig uk fun y => { y with
        next := if first then y.next + 1 else y.next, marked := if first then y.marked else y.marked.drop 1 }
      let c := (unitCopy e idx).1.1
      if 2 ≤ eKind e && m.omits c then
        if x.stale = 0 || x.stale = c + 1 then m1.modMig uk fun y => { y with stale := c + 1 } else m
      else
        let r := (m1.modMig uk fun y => { y with flight := y.flight + 1 }).copyRead 14 uk idx (.migRd uk idx) false
        match r.1 with
        | some o => r.2.migGot uk idx o
        | none => r.2

/-- Requests of a unit that wait at its old segment go to the new one (R188, R217). -/
def LineReq.moved (uk old new : Nat) (q : LineReq) : LineReq :=
  if q.md.uk = some uk && q.md.seg = old then { q with md := { q.md with seg := new } } else q

/-- Every waiting request of a unit, and every ladder on it, follows the map switch. -/
def Mach.redirect (m : Mach) (uk old new : Nat) : Mach :=
  let f := LineReq.moved uk old new
  let g (l : Ladder) : Ladder := if l.uk = some uk && l.seg = old then { l with seg := new } else l
  let m1 := (m.modSc fun s => { s with queues := s.queues.mapv (fun _ l => l.map f) }).modRota fun r => { r with
    next := r.next.mapv (fun _ o => o.map f), restarts := r.restarts.mapv (fun _ l => l.map f) }
  { m1 with
    zml := m1.zml.mapv (fun _ z => { z with refused := z.refused.map f }),
    err := { m1.err with ladders := m1.err.ladders.map g } }

/-- A NONE unit has moved to another channel: its reads that wait at stage C join that channel's queues, and programs of the old place,
which a read-only channel never takes, are dropped (R188, R219). -/
def Mach.rechannel (m : Mach) (uk old c seg c2 : Nat) : Mach :=
  let mine (q : LineReq) : Bool := q.md.uk = some uk && q.md.seg = old
  let k (rx : Bool) (rq : Nat) : Nat := 32 * dirKey (tgtMedia c) rx + rq
  let gs := (List.range 32).flatMap fun rq => (m.sc.queues.get (k false rq)).filterMap fun q =>
    match q.job with | .repair key g => if mine q then some (key, g) else none | _ => none
  let rds := (List.range 32).flatMap fun rq => (m.sc.queues.get (k true rq)).filter mine
  let moved (l : Ladder) : Ladder := if l.uk = some uk && l.seg = old then { l with chan := c2, seg := seg } else l
  let m0 := m.modSc fun s => { s with queues := (List.range 32).foldl (fun (t : Tab (List LineReq)) rq =>
    (t.upd (k false rq) fun l => l.filter fun q => !mine q).upd (k true rq) fun l => l.filter fun q => !mine q) s.queues }
  let m1 : Mach := { m0 with
    rota := { m0.rota with restarts := m0.rota.restarts.upd c fun l => l.filter fun q => !mine q },
    zml := m0.zml.upd c fun z => { z with refused := z.refused.filter fun q => !mine q },
    err := { m0.err with ladders := m0.err.ladders.map moved } }
  (rds.foldl (fun (m : Mach) q => m.mQueue c2 true q.rq { q.md with seg := seg } q.job q.port q.green) m1).gleanDropped gs

/-- A command of a unit is outstanding at a segment, of the kind asked for. -/
def Mach.outOn (m : Mach) (c seg : Nat) (programs : Bool) : Bool :=
  let at_ (q : LineReq) : Bool := q.md.area = 0 && q.md.seg = seg && (!programs || q.md.op = opWriteLine)
  ((m.zs c).outs.any fun o => at_ o.req) ||
    [false, true].any fun rx => match m.rota.next.get (dirKey (tgtMedia c) rx) with | some q => at_ q | none => false

/-- Segments whose last reads have returned pass to FREE, or to RETIRED with a spare in their place (R194, R217, R218). -/
def Mach.freeOld (m : Mach) : Mach :=
  let ready := m.map.oldSegs.filter fun x => !m.outOn x.1 x.2.1 false
  (ready.foldl (fun (m : Mach) x =>
    let c := x.1
    let s := x.2.1
    let retire := x.2.2 && (m.worn c (m.wearC c s) || !(m.map.bad.get (segKey c s)).isEmpty)
    let m0 := m.modMap fun t => { t with bad := t.bad.erase (segKey c s) }
    if !retire then (m0.setSeg c s .free).count MAP.CNT_RECLAIM
    else
      let m1 := m0.setSeg c s .retired
      if m.spares c = 0 then (m1.modMap fun t => { t with readOnly := t.readOnly.set c true }).wdEvent 1
      else m1.modMap fun t => { t with sparesUsed := t.sparesUsed.upd c (· + 1) }) m).modMap fun t =>
    { t with oldSegs := t.oldSegs.filter (fun x => m.outOn x.1 x.2.1 false) }

/-- MIGRATE_SWITCH (R217): once every line is copied and no program of the source is in flight, the entry takes the new place; freed
segments follow when their reads have returned. A unit of which a copy failed for good at its new place is retired in its turn (R329). -/
def migrateSwitch (m0 : Mach) : Mach :=
  let m := m0.freeOld
  let done (p : Nat × MigSt) : Bool :=
    let e := m.ent p.1
    unitCopies e ≤ p.2.next && p.2.flight = 0 && p.2.marked.isEmpty && e ≠ 0 &&
      !(m.map.stripes.any fun x => x.2.uk = p.1) && !((unitChans e).any fun c => m.outOn c (eSeg e) true)
  if !m.mayWork then m
  else
    match m.map.migs.find? done with
    | none => m
    | some (uk, x) => m.whenRoom fun m =>
      let e := m.ent uk
      let e1 := eMake (eKind e) x.chanNew x.segNew (eFlag e fRunahead)
      let e2 := eSetFlag (eSetFlag e1 fPoison (eFlag e fPoison)) fFormatted (eFlag e fFormatted)
      let e3 := if x.stale = 0 then e2 else eRebuild e2 (x.stale - 1)
      let m0 := (m.setEnt uk e3).2
      let m1 := (if eKind e = 1 && eChan e ≠ x.chanNew then m0.rechannel uk (eSeg e) (eChan e) x.segNew x.chanNew
        else m0.redirect uk (eSeg e) x.segNew).modMap fun s => { s with
        migs := s.migs.erase uk, rots := s.rots.erase uk,
        oldSegs := s.oldSegs ++ (unitChans e).map (fun c => (c, eSeg e, eFlag e fRetired)) }
      let m2 := ((m1.count MAP.CNT_MIGRATE).modMap fun s => { s with rwDue := s.rwDue.erase uk }).freeOld
      if (unitChans e3).any fun c => !(m2.map.bad.get (segKey c x.segNew)).isEmpty then m2.retireUnit uk else m2

/-! ### Drift rewrite (R227, R228) -/

/-- Queue a unit for drift rewrite. -/
def Mach.queueRw (m : Mach) (uk : Nat) : Mach :=
  if m.map.rwDue.contains uk || (m.map.rws.any fun p => p.1 = uk) then m
  else m.modMap fun s => { s with rwDue := s.rwDue ++ [uk] }

/-- The due unit with the oldest AGE that may be rewritten (R213, R227). -/
def Mach.rwPick (m : Mach) : Option Nat :=
  (m.map.rwDue.filter fun uk => m.ent uk ≠ 0 && !m.reserved (m.lineOf uk 0) && !eFlag (m.ent uk) fMigrating && !m.unitRO uk).foldl
    (fun (b : Option Nat) uk => match b with
      | none => some uk
      | some x => if eAge (m.ent x) < eAge (m.ent uk) then some uk else some x) none

/-- A line of a rewrite has ended. -/
def Mach.rwAck (m : Mach) (uk : Nat) : Mach :=
  if m.map.rws.any fun p => p.1 = uk then (m.modRw uk fun x => { x with flight := x.flight - 1 }).unitsEnded m 0 else m

/-- A line of a rewrite has been read: it is programmed in place with a new BIRTH, unless a newer value has overtaken it; a line that
its ladder poisoned has its program already (R228). -/
def Mach.rwGot (m : Mach) (uk idx : Nat) (o : Out) : Mach :=
  let t := unitCopy (m.ent uk) idx
  let key := parKey (m.lineOf uk t.2.1) t.2.2
  let x := m.map.rws.get uk
  if !(m.map.rws.any fun p => p.1 = uk) then m
  else if o.lost then (m.count MAP.CNT_REWRITE_LINES).rwAck uk
  else if x.dropped.contains key || m.omits t.1.1 || (t.2.2 && m.stripeOpenOn uk t.1.2.2) then
    (m.modRw uk fun y => { y with dropped := y.dropped.erase key }).rwAck uk
  else m.copyProg uk idx (eSeg (m.ent uk)) o none 15 (.rwWr uk idx)

/-- REWRITE_LINE (R228): the next line of the unit being rewritten, or a new unit; the last acknowledgement sets AGE to 0. -/
def rewriteLine (m : Mach) : Mach :=
  if !m.mayWork then m
  else
    match m.map.rws.find? fun p => unitCopies (m.ent p.1) ≤ p.2.next - 1 && p.2.flight = 0 with
    | some (uk, _) =>
      let m1 := m.modMap fun s => { s with rws := s.rws.erase uk }
      if m.ent uk = 0 then m1 else m.whenRoom fun _ => (m1.setEnt uk (setBits (m.ent uk) 8 8 0)).2
    | none =>
      if !m.window 0 then m
      else
        match m.map.rws.find? fun p => p.2.next - 1 < unitCopies (m.ent p.1) with
        | none =>
          match if m.map.rws.isEmpty && m.takesPosts then m.rwPick else none with
          | none => m
          | some uk => m.withEnt uk fun m => m.modMap fun s => { s with rwDue := s.rwDue.erase uk, rws := s.rws.set uk { next := 1, flight := 0, dropped := [] } }
        | some (uk, x) => m.withEnt uk fun m =>
          let idx := x.next - 1
          let t := unitCopy (m.ent uk) idx
          let m1 := m.modRw uk fun y => { y with next := y.next + 1 }
          if (!t.2.2 && (m.dirFind (m.lineOf uk t.2.1)).isSome) || m.omits t.1.1 || (t.2.2 && m.stripeOpenOn uk t.1.2.2) then m1
          else
            let m2 := m1.modRw uk fun y => { y with
              flight := y.flight + 1, dropped := y.dropped.filter (· ≠ parKey (m.lineOf uk t.2.1) t.2.2) }
            let r := m2.copyRead 15 uk idx (.rwRd uk idx) false
            match r.1 with
            | some o => r.2.rwGot uk idx o
            | none => r.2

/-! ### The drift clock (R223, R224) -/

/-- AGE after the drift clock has moved from `t` to `d2` (R224). -/
def ageCatch : Nat → Nat → Nat → Nat → Nat
  | 0, j, _, _ => j
  | f + 1, j, t, d2 =>
    if 31 ≤ j then j
    else
      let nxt := (t / 2 ^ (j + 1) + 1) * 2 ^ (j + 1)
      if d2 < nxt then j else ageCatch f (j + 1) nxt d2

/-- One unit's AGE follows the drift clock to now: promoted, queued for rewrite, overdue (R224, R227). Its promotions are judged from the
clock to which they, or all units' promotions, have been made. -/
def Mach.promoteUnit (m : Mach) (uk : Nat) : Mach :=
  let e := m.ent uk
  let j := eAge e
  let j' := ageCatch 32 j (max m.map.promoAt (m.map.promoUk.get uk)) (m.get MAP.AGE_NOW)
  let m0 := m.modMap fun s => { s with promoUk := s.promoUk.set uk (m.get MAP.AGE_NOW) }
  if e = 0 || j' = j then m0
  else
    let m1 := (m0.setEnt uk (setBits e 8 8 j')).2.count MAP.CNT_PROMOTE
    let r := m.get MAP.REWRITE_AGE
    let m2 := if r ≤ j' then m1.queueRw uk else m1
    if j < r + 2 && r + 2 ≤ j' then m2.wdEvent 3 else m2

/-- DRIFT_CLOCK_TICK (R223, R224): a second passes on the always-on counter; units whose AGE is due are promoted. Once DELTA_FILL reaches
DELTA_HIGH promotion pauses where it is, and goes on from there. -/
def driftTick (m : Mach) : Mach :=
  if !m.porstN then m
  else
    let m1 := m.put MAP.AGE_NOW 0 (m.get MAP.AGE_NOW + 1)
    if !m1.mapUp then m1
    else
      let m2 := m1.map.ents.keys.foldl (fun (x : Mach) uk => if x.deltaHigh then x else x.promoteUnit uk) m1
      if m2.deltaHigh then m2 else m2.modMap fun s => { s with promoAt := m1.get MAP.AGE_NOW, promoUk := [] }

/-! ### Canaries (R229 to R232) -/

/-- The key of canary `k` of a channel. -/
def canKey (c k : Nat) : Nat := 8 * c + k

/-- A program of canary `k` of a channel waits or is outstanding. -/
def Mach.canaryWaits (m : Mach) (c k : Nat) : Bool :=
  let is (q : LineReq) : Bool := q.job == .canaryWr k
  ((m.zs c).outs.any fun o => is o.req) || (m.zs c).refused.any is || (m.scQueue (dirKey (tgtMedia c) false) 13).any is ||
    (m.rota.restarts.get c).any is || match m.rota.next.get (dirKey (tgtMedia c) false) with | some q => is q | none => false

/-- The content of canary `k` of a channel at a drift clock (R229). -/
def Mach.canaryLine (m : Mach) (c k : Nat) : Line :=
  let p := m.map.pattern.get c
  Line.ofWords (BitVec.ofNat 64 (m.get MAP.AGE_NOW) :: BitVec.ofNat 64 (c + k * 2 ^ 8) :: (List.range 30).map fun i => Line.word p (i + 2))


/-- The statistics of a canary are asked for: at once, or when its channel takes the command (R330). -/
def Mach.canaryAsk (m : Mach) (c k : Nat) : Mach :=
  (m.modMap fun s => { s with canDue := if s.canDue.contains (c, k) then s.canDue else s.canDue ++ [(c, k)] }).canaryGo c

/-- CANARY_SAMPLE (R230): the next canary of every hub in service is read for its statistics, as soon as the hub takes it (R330). -/
def canarySample (m : Mach) : Mach :=
  if !(m.mode = mRun || m.mode = mDegraded) then m
  else
    let k := m.map.canaryIdx
    ((List.range 32).foldl (fun (m : Mach) c =>
      if m.link c = 4 then ((m.canaryAsk c k).count MAP.CNT_CANARY) else m) m).modMap fun s =>
        { s with canaryIdx := (k + 1) % 8 }

/-- The expected canary shift of a bucket in the present band (R225). -/
def Mach.expShift (m : Mach) (c b : Nat) : Int := sx 8 (m.map.dtbl.get (1024 * c + 32 * m.band c + b) / 256)

/-- The statistics of a canary, compared with what its age lets expect (R231). -/
def Mach.canaryJudge (m : Mach) (c k : Nat) (s : Int) : Mach :=
  let age := m.get MAP.AGE_NOW - ((m.map.canaries.get (canKey c k)).at_ - 1)
  let b := min 31 (Nat.log2 (max 1 age))
  let p := m.expShift c b
  let lim : Int := m.get MAP.CANARY_LIMIT
  let m1 := m.modMap fun t => { t with lastCanary := t.lastCanary.set c (b, s, p) }
  if lim < s - p then
    let us := m.map.ents.keys.filter fun uk => (unitChans (m.ent uk)).contains c && b ≤ eAge (m.ent uk)
    us.foldl (fun (m : Mach) uk => m.queueRw uk) ((m1.wdEvent 2).modMap fun t => { t with bias := t.bias.upd c (fun x => min 3 (x + 1)) })
  else if 2 * (s - p) ≤ lim then m1.modMap fun t => { t with bias := t.bias.upd c (· - 1) }
  else m1

/-- Change a canary's part in the estimate. -/
def Mach.modEst (m : Mach) (c k : Nat) (f : CanEst → CanEst) : Mach :=
  m.modMap fun s => { s with ests := s.ests.upd (canKey c k) f }

/-- Read a canary's data at the offset set of a bucket, to find when it was programmed (R232 step 1). -/
def Mach.canaryData (m : Mach) (c k b : Nat) : Mach :=
  m.mQueue c true 13
    { (default : Media) with op := opCanaryRead, area := 1, pos := k, nlines := 1, bkt := b + 2 } (.canaryRd k)

/-- CANARY_PROGRAM (R229): canary `k` of a hub is programmed when its age has come, and at the first full-rate training after its hub was
formatted, which shows in that it verifies at no bucket. A canary of which the Core knows nothing is read first. -/
def canaryProgram (c k : Nat) (m : Mach) : Mach :=
  let x := m.map.canaries.get (canKey c k)
  let st := (m.map.ests.get (canKey c k)).stage
  if !m.mayWork || m.link c ≠ 4 || !m.map.estDone then m
  else if x.at_ = 0 && st = 0 then
    if m.get ZML.LINK_RATE c = 0 then (m.modEst c k fun y => { y with stage := 1, bucket := 0 }).canaryData c k 0 else m
  else if (if x.at_ = 0 then st = 4 && m.get ZML.LINK_RATE c = 0 else m.get MAP.CANARY_INTERVAL * 2 ^ k ≤ m.get MAP.AGE_NOW - (x.at_ - 1)) &&
      !m.canaryWaits c k then
    m.mQueue c false 13 { (default : Media) with op := opWriteLine, area := 1, pos := k, nlines := 1, data := m.canaryLine c k } (.canaryWr k)
  else m

/-- The program of a canary is acknowledged: its age runs from word 0. -/
def Mach.canaryAck (m : Mach) (c k : Nat) (d : Line) : Mach :=
  m.modMap fun s => { s with canaries := s.canaries.set (canKey c k) { at_ := (Line.word d 0).toNat % 2 ^ 48 + 1 } }

/-- The data of a canary is here (R232 step 1): it verifies, or the next bucket is tried. -/
def Mach.canaryBack (m0 : Mach) (c k cls : Nat) (d : Line) (tag : Nat) : Mach :=
  let x := m0.map.ests.get (canKey c k)
  let m := if x.stage = 1 && cls ≠ 0 then m0.probeFail (canKey c k) tag else m0
  if x.stage ≠ 1 then m
  else if cls = 0 then
    let w := (Line.word d 0).toNat % 2 ^ 48
    (((m.probeEnd (canKey c k) c k 13 x.bucket true).modEst c k fun y => { y with stage := 2, word0 := w }).modMap fun s =>
      { s with canaries := s.canaries.set (canKey c k) { at_ := w + 1 } }).canaryAsk c k
  else if x.bucket < 31 then (m.modEst c k fun y => { y with bucket := x.bucket + 1 }).canaryData c k (x.bucket + 1)
  else (m.probeEnd (canKey c k) c k 13 3 false).modEst c k fun y => { y with stage := 4 }

/-- The bucket whose expected shift is nearest `s`, the lower on a tie (R232 step 2). -/
def Mach.nearBucket (m : Mach) (c : Nat) (s : Int) : Nat :=
  (List.range 32).foldl (fun b j => if (s - m.expShift c j).natAbs < (s - m.expShift c b).natAbs then j else b) 0

/-- The statistics of a canary in the estimate (R232 step 2): word 0 + 3 × 2^(j−1). DESIGN CHOICE, log entry 105: at j = 0 the second and a
half is taken as 1 s. -/
def Mach.canaryStat (m : Mach) (c k : Nat) (s : Int) : Mach :=
  let x := m.map.ests.get (canKey c k)
  if x.stage = 2 then m.modEst c k fun y => { y with stage := 3, est := y.word0 + 3 * 2 ^ m.nearBucket c s / 2 }
  else m.canaryJudge c k s

/-- A channel that does not reach FULL in this start: Collier is HALTED, or runs, so that step 8 is over, with the channel ACTIVE below FULL
for want of a set, by its cap or by a fallback (R232, R337, R428, R430). -/
def Mach.neverFull (m : Mach) (c : Nat) : Bool :=
  m.get COLLIER.STAT_STATE = 5 || (m.get COLLIER.STAT_STATE = 2 && m.link c = 4 && m.get ZML.LINK_RATE c ≠ 0)

/-- A channel has settled in the start sequence: its canaries are through, or it cannot reach full rate (R232). -/
def Mach.canSettled (m : Mach) (c : Nat) : Bool :=
  m.chanLost c ||
    (m.link c = 4 && (if m.get ZML.LINK_RATE c = 0 then
      (List.range 8).all fun k => 3 ≤ (m.map.ests.get (canKey c k)).stage
      else m.neverFull c))

/-- AGE_ESTIMATE (R232): the canaries of every hub at full rate are read, and once all are through the drift clock is set from the
median of their estimates. Where none verifies it is set to `store`, the newest drift clock value found in the map store, or to 0 in a FRESH
start (R433), so the start kind is decided first. -/
def ageEstimate (store : Nat) (m : Mach) : Mach :=
  if !m.running || m.mode ≠ mBringup || m.map.estDone then m
  else
    let m1 := (List.range 32).foldl (fun (m : Mach) c =>
      if m.link c = 4 && m.get ZML.LINK_RATE c = 0 && (m.map.ests.get (canKey c 0)).stage = 0 then
        (List.range 8).foldl (fun (m : Mach) k => (m.modEst c k fun y => { y with stage := 1 }).canaryData c k 0) m
      else m) m
    let ok := (m1.map.ests.map (·.2)).filter fun x => x.stage = 3
    let kind := m.get GLOBAL.STAT_START_KIND
    if !((List.range 32).all m1.canSettled) || (ok.isEmpty && kind = 0) then m1
    else
      let found := if kind = 1 then 0 else store
      let l := (ok.map (·.est)).mergeSort (· ≤ ·)
      let newest := ok.foldl (fun a x => max a x.word0) 0
      let v := if ok.isEmpty then found else max (l.getD (l.length / 2) 0) (newest + 1)
      let m2 := ((m1.put MAP.AGE_NOW 0 v).put MAP.AGE_EST 0 v).setFlag MAP.AGE_EST_ESTIMATED 0 true
      (m2.wdEvent 4).modMap fun s => { s with estDone := true, promoAt := if ok.isEmpty then found else newest, promoUk := [] }

def execDeltaLineTimeout (s : State) := answer s deltaLineTimeout
def execCkptGo (a : BitVec 3) (s : State) := answer s fun m => m.viaCfg a.toNat .map 0 0x140 1 Mach.ckptStart
def execCkptIntervalExpire (s : State) := answer s ckptIntervalExpire
def execCkptDone (s : State) := answer s ckptDone
def execWoodshedFormat (c : BitVec 5) (s : State) := answer s (woodshedFormat c.toNat)
def execReclaimVisit (s : State) := answer s reclaimVisit
def execRotShiftStart (s : State) := answer s rotShiftStart
def execRotMove (s : State) := answer s rotMove
def execMigrateCopy (s : State) := answer s migrateCopy
def execMigrateSwitch (s : State) := answer s migrateSwitch
def execRewriteLine (s : State) := answer s rewriteLine
def execDriftClockTick (s : State) := answer s driftTick
def execCanaryProgram (c : BitVec 5) (k : BitVec 3) (s : State) := answer s (canaryProgram c.toNat k.toNat)
def execCanarySample (s : State) := answer s canarySample
def execAgeEstimate (store : BitVec 48) (s : State) := answer s (ageEstimate store.toNat)

end Sys2Proof.Machine
end

