-- ==== Sys2Proof/Machine/Gleaner.lean ====
section
/-! DEFINITION. The Gleaner and the flip masks (chapter "Line integrity, recovery and scrubbing", R256 to R269). -/
namespace Sys2Proof.Machine

/-! ### Starting and ending a pass (R258, R262, R264) -/

def GLN.sums : List Field :=
  [GLN.SUM_CHECKED, GLN.SUM_CLEAN, GLN.SUM_UNWRITTEN, GLN.SUM_RETRIED, GLN.SUM_RECOMPUTED, GLN.SUM_POISONED, GLN.SUM_POISON_FOUND,
   GLN.SUM_SKIPPED, GLN.SUM_DEEPEST, GLN.SUM_FIRST_BAD, GLN.SUM_LAST_BAD, GLN.SUM_TICKS]

/-- A pass is RUNNING. -/
def Mach.gleaning (m : Mach) : Bool := m.get GLN.RESULT_STATE = 1

/-- Why a GO is refused: 1 RANGE, 2 MODE (R258). -/
def Mach.gleanCheck (m : Mach) : Option Nat :=
  let s := m.get GLN.START
  let n := m.get GLN.LENGTH
  let d := m.nsDesc (s / 2 ^ 52)
  if s % 256 ≠ 0 || n = 0 || n % 256 ≠ 0 || !d.exists_ || d.size < s % 2 ^ 52 + n then some 1
  else if m.get GLN.MODE_KIND = 3 then some 2 else none

/-- GLN_GO (R258): a pass starts RUNNING or is REFUSED; a GO during a pass is ignored. -/
def glnGo (m : Mach) : Mach :=
  if m.gleaning then m.event .gln 0 GLN.EV_REFUSED
  else
    let m0 := (GLN.sums.foldl (fun (m : Mach) f => m.put f 0 0) m).put GLN.RESULT_ABORT_OUT 0 0
    match m.gleanCheck with
    | some r => ((m0.put GLN.RESULT_STATE 0 4).put GLN.RESULT_REASON 0 r).event .gln 0 GLN.EV_REFUSED
    | none =>
      let m1 := ((m0.put GLN.RESULT_STATE 0 1).put GLN.RESULT_REASON 0 0).put GLN.PROGRESS 0 (m.get GLN.START)
      (m1.setFlag GLN.STAT_RUNNING 0 true).modErr fun e => { e with
        gFly := [], gBad := [], gTick := m.get ALM.TB_NOW, gCmd := none, gAbort := false, gClean := [], gCut := [] }

/-- The pass has visited its whole range. -/
def Mach.gleanOver (m : Mach) : Bool := m.get GLN.START + m.get GLN.LENGTH ≤ m.get GLN.PROGRESS
/-- No line of a pass is in flight. -/
def Mach.gleanStill (m : Mach) : Bool := m.err.gFly.isEmpty
/-- A pass that has not completed: a line of it is to be visited or in flight. -/
def Mach.gleanGoing (m : Mach) : Bool := m.gleaning && !(m.gleanOver && m.gleanStill)

/-- GLN_ABORT (R264): a running pass ends after its lines in flight; one that has completed, or none, answers ALREADY_DONE. -/
def glnAbort (m : Mach) : Mach :=
  if m.gleanGoing then m.modErr fun e => { e with gAbort := true } else m.put GLN.RESULT_ABORT_OUT 0 2

/-- GLEANER_PASS_END (R262, R264): the pass ends DONE, or ABORTED where an abort came before its end; a command block that asked for it
takes its summary (R422). The ALREADY_DONE of an abort that came too late stays (R265). -/
def gleanerPassEnd (m : Mach) : Mach :=
  if !m.gleaning || !m.gleanStill || !(m.gleanOver || m.err.gAbort) then m
  else
    let done := !m.err.gAbort
    let m1 := (m.put GLN.RESULT_STATE 0 (if done then 2 else 3)).put GLN.RESULT_ABORT_OUT 0 (if done then m.get GLN.RESULT_ABORT_OUT else 1)
    let m2 := m1.put GLN.SUM_TICKS 0 (m.tb - BitVec.ofNat 64 m.err.gTick).toNat
    let m3 := ((m2.setFlag GLN.STAT_RUNNING 0 false).setFlag GLN.STAT_WAITING 0 false).setFlag GLN.STAT_PAUSED 0 false
    let sums := Line.ofWords (GLN.sums.map fun f => BitVec.ofNat 64 (m3.get f))
    let m4 : Mach := { m3 with post := { m3.post with cmds := m3.post.cmds.map fun (c : Cmd) =>
      if m3.err.gCmd == (some c.id) then { c with stage := if done then 2 else 3, line := sums } else c } }
    (m4.event .gln 0 (if done then GLN.EV_DONE else GLN.EV_ABORTED)).count GLN.CNT_PASSES

/-! ### Counting (R259, R260, R262) -/

/-- Count one media line in the summary. -/
def Mach.gleanCount (m : Mach) (f : Field) (n : Nat := 1) : Mach :=
  ((m.put f 0 (m.get f + n)).put GLN.SUM_CHECKED 0 (m.get GLN.SUM_CHECKED + n)).count GLN.CNT_LINES 0 n

/-- A line counted RETRIED, RECOMPUTED, POISONED or POISON_FOUND enters FIRST_BAD and LAST_BAD (R262). -/
def Mach.gleanBad (m : Mach) (line : Nat) : Mach := m.setBad (line :: m.err.gBad)

/-- A line of a unit was checked without poison; a unit wholly checked loses POISON_PRESENT (R260). -/
def Mach.gleanClean (m : Mach) (uk : Nat) : Mach :=
  let m1 := m.modErr fun e => { e with gClean := e.gClean.upd uk (· + 1) }
  if unitCopies (m.ent uk) ≤ m1.err.gClean.get uk then (m1.setEntFlag uk fPoison false).2 else m1

/-- A line is in a range removed since GO (R259). -/
def Mach.gleanCut (m : Mach) (l : Nat) : Bool := m.err.gCut.any fun c => c.1 = lineNs l && c.2 ≤ lineOff l

/-- A line of a RUNNING or STOPPING stream's target above its TAIL (R259). -/
def Mach.aboveTail (m : Mach) (l : Nat) : Bool :=
  match m.strOfLine l with
  | none => false
  | some k =>
    let o := 256 * (l - m.strBase k)
    let t := m.get STREAM.TAIL k
    let n := m.nextOff k
    if m.ring k then
      let len := max 1 (m.strLen k)
      (if t < len then t ≤ o || o + len < n else (o + len - t % len) % len < n - t)
    else t ≤ o

/-- The visit of a line makes no access (R259). -/
def Mach.gleanSkips (m : Mach) (l : Nat) : Bool :=
  m.gleanCut l || (m.dirFind l).isSome || (m.kilnFind l).isSome || m.aboveTail l

/-- The outcome of a Gleaner read (R259, R260): it is counted; a line restored by drift steps is rewritten by CHECK_RECOVER, and its unit
queued for drift rewrite by CHECK_REFRESH. -/
def Mach.gleanTake (m : Mach) (key chan seg pos : Nat) (o : Out) : Mach :=
  if !m.gleaning then m
  else
    let line := key % 2 ^ 56
    let par := 2 ^ 56 ≤ key
    let kind := m.get GLN.MODE_KIND
    let uk := (m.unitOf line).1
    let m0 := m.gleanSub key 1
    let m1 := if m0.get GLN.SUM_DEEPEST < o.steps then m0.put GLN.SUM_DEEPEST 0 o.steps else m0
    if o.lost then
      let m2 := m1.event .gln 0 GLN.EV_UNCORRECTABLE
      if o.newer then m2.gleanCount GLN.SUM_SKIPPED else (m2.gleanCount GLN.SUM_POISONED).gleanBad line
    else if o.cls = 2 then (m1.gleanCount GLN.SUM_POISON_FOUND).gleanBad line
    else if o.birth.isNone then
      if o.newer && kind = 2 then m1.gleanCount GLN.SUM_SKIPPED
      else ((m1.gleanCount GLN.SUM_RECOMPUTED).gleanBad line).gleanClean uk
    else if 0 < o.steps then
      if o.newer && kind = 2 then m1.gleanCount GLN.SUM_SKIPPED
      else
        let m2 := ((m1.gleanCount GLN.SUM_RETRIED).gleanBad line).gleanClean uk
        let m3 := if kind = 1 && m.get GLN.MODE_REFRESH_STEP ≤ o.steps then m2.queueRw uk else m2
        if kind = 2 && !m.omits chan && !(par && m.stripeOpenOn uk pos) then
          (m3.mQueue chan false 16
            { (default : Media) with
              op := opWriteLine, seg := seg, pos := pos, nlines := 1, data := o.data, gen := o.gen, mark := o.cls,
              line := some line, par := par, uk := some uk } (.repair key 1)).gleanAdd key 1
        else m3
    else if o.cls = 0 then (m1.gleanCount GLN.SUM_CLEAN).gleanClean uk
    else (m1.gleanCount GLN.SUM_UNWRITTEN).gleanClean uk

/-- A Gleaner read has ended; a line with no program left to wait for ends its unit (R54, R259, R260). -/
def Mach.gleanGot (m : Mach) (key chan seg pos : Nat) (o : Out) : Mach := (m.gleanTake key chan seg pos o).unitsEnded m 2

/-! ### Visits (R259, R261, R263) -/

/-- Read one copy of a line for the pass. -/
def Mach.gleanRead (m : Mach) (uk idx : Nat) : Mach :=
  let t := unitCopy (m.ent uk) idx
  let key := parKey (m.lineOf uk t.2.1) t.2.2
  let m1 := m.gleanAdd key 1
  let r := m1.copyRead 16 uk idx (.glean key) (m.get GLN.MODE_KIND ≠ 2)
  match r.1 with
  | some o => r.2.gleanGot key t.1.1 t.1.2.1 t.1.2.2 o
  | none => r.2

/-- The copy number of line position `p` on channel `c` of a unit. -/
def copyIdx (e p c : Nat) : Nat := p * (unitChans e).length + (unitChans e).findIdx (· = c)

/-- Visit the line of the range at PROGRESS (R259). A line of a range removed since GO is SKIPPED, mapped or not; the stripe of such a line
is passed over with its first one. -/
def Mach.gleanLine (m : Mach) (l : Nat) : Mach :=
  let u := m.unitOf l
  let e := m.ent u.1
  let prot := (m.nsDesc (lineNs l)).prot
  let s := u.2 / 15
  let par := prot = 2 && (u.2 % 15 = 0 || 256 * l = m.get GLN.START)
  let parSkip := (List.range 15).any fun d => m.gleanSkips (m.lineOf u.1 (15 * s + d))
  let m1 :=
    if e = 0 && !m.gleanCut l then m.gleanCount GLN.SUM_UNWRITTEN
    else if m.gleanSkips l then m.gleanCount GLN.SUM_SKIPPED (if prot = 1 then 2 else 1)
    else (copiesOf e u.2).foldl (fun (m : Mach) p => m.gleanRead u.1 (copyIdx e p.2.2 p.1)) m
  if !par || (e = 0 && !m.gleanCut l) then m1
  else if parSkip then m1.gleanCount GLN.SUM_SKIPPED
  else m1.gleanRead u.1 (copyIdx e s (bundleChan (eChan e % 2) s 15))

/-- The pass is paused by the mode (R263). -/
def Mach.gleanPaused (m : Mach) : Bool := m.gleaning && !m.maint

/-- The pass waits for a window: it has a line to start, and none is open (R261). -/
def Mach.gleanWaiting (m : Mach) : Bool := m.gleaning && m.maint && !m.gleanOver && !m.err.gAbort && !m.flag GLN.MODE_ANYTIME && !m.window 2

/-- STAT.WAITING and STAT.PAUSED follow the mode and the windows. -/
def Mach.showGlean (m : Mach) : Mach :=
  (m.setFlag GLN.STAT_PAUSED 0 m.gleanPaused).setFlag GLN.STAT_WAITING 0 m.gleanWaiting

/-- GLEANER_VISIT (R259, R261, R263): the next line of the range is visited, unless the pass waits, is paused or has enough lines in
flight. -/
def gleanerVisit (m : Mach) : Mach :=
  if !m.gleaning then m
  else
    let m0 := m.showGlean
    if m.gleanPaused || m.gleanWaiting || !m.mapUp || m.err.gAbort || m.gleanOver || m.get GLN.MODE_DEPTH ≤ m.gleanLines then m0
    else m0.withEnt (m.unitOf (m.get GLN.PROGRESS / 256)).1 fun m0 =>
      ((m0.gleanLine (m.get GLN.PROGRESS / 256)).put GLN.PROGRESS 0 (m.get GLN.PROGRESS + 256)).showGlean

/-! ### Flip masks (R256, R267) -/

/-- FLIP_ARM (R256): a write of FLIP_CTL arms and disarms the masks; an arm of a reserved target, or of reads without a match, is kept
out. Other reserved encodings keep their old values (R10). -/
def flipArm (a v : Nat) (m : Mach) : Mach :=
  let ht := bits v 0 6
  let mt := bits v 8 6
  let sr := bits v 24 2
  let rd := bits v 16 3
  let bad := (bitAt v 7 && 32 < ht) || (bitAt v 15 && 32 < mt) || (bitAt v 27 && sr = 3) || (bitAt v 15 && 0 < rd && !bitAt v 14)
  if bad then m.event .err 0 ERR.EV_PARAM_REJECT
  else
    let m1 := (m.setFlag ERR.FLIP_H_MATCH 0 (bitAt v 6)).setFlag ERR.FLIP_H_ARM 0 (bitAt v 7)
    let m2 := ((m1.setFlag ERR.FLIP_M_MATCH 0 (bitAt v 14)).setFlag ERR.FLIP_M_ARM 0 (bitAt v 15)).put ERR.FLIP_M_READS 0 rd
    let m3 := (m2.setFlag ERR.FLIP_S_TARGET 0 (bitAt v 26)).setFlag ERR.FLIP_S_ARM 0 (bitAt v 27)
    let m4 := if ht ≤ 32 then m3.put ERR.FLIP_H_TARGET 0 ht else m3
    let m5 := if mt ≤ 32 then m4.put ERR.FLIP_M_TARGET 0 mt else m4
    let m6 := if sr < 3 then m5.put ERR.FLIP_S_RAM 0 sr else m5
    let m7 := m6.modErr fun e => { e with flipReads := rd }
    if 32 < ht || 32 < mt || sr = 3 then m7.cfgReserved a .err 0 0x118 else m7

/-- The line, by its key, that a media read reads: one for step 4 reads another line of the stripe, or the line's mirror copy (R243). -/
def Mach.readsLine (m : Mach) (q : LineReq) : Option Nat :=
  match q.job, q.md.uk, q.md.line with
  | .helper _ d, some uk, some l => some (if eKind (m.ent uk) = 3 then m.stripeKey uk (m.unitOf l).2 d else l)
  | _, _, some l => some (parKey l q.md.par)
  | _, _, none => none

/-- Read injection (R256): the armed media mask corrupts the next reads of the matched line before their check. -/
def Mach.flipRead (m : Mach) (q : LineReq) (d : Line) (tag : Nat) : Line × Nat × Mach :=
  if m.flag ERR.FLIP_M_ARM && 0 < m.get ERR.FLIP_M_READS && m.readsLine q = some (m.get ERR.FLIP_MATCH) then
    let mask := m.get ERR.FLIP_MASK_M
    let t := m.get ERR.FLIP_M_TARGET
    let left := m.err.flipReads - 1
    let m1 := m.modErr fun e => { e with flipReads := left }
    let m2 := if left = 0 then (m1.setFlag ERR.FLIP_M_ARM 0 false).event .err 0 ERR.EV_FLIP_DONE_M else m1
    (if t < 32 then d ^^^ (BitVec.ofNat 2048 mask <<< (64 * t)) else d, if t = 32 then Nat.xor tag mask else tag, m2)
  else (d, tag, m)

def execGlnGo (a : BitVec 3) (s : State) := answer s fun m => m.viaCfg a.toNat .gln 0 0x118 1 glnGo
def execGlnAbort (a : BitVec 3) (s : State) := answer s fun m => m.viaCfg a.toNat .gln 0 0x120 1 glnAbort
def execGleanerVisit (s : State) := answer s gleanerVisit
def execGleanerPassEnd (s : State) := answer s gleanerPassEnd
def execFlipArm (a : BitVec 3) (v : BitVec 28) (s : State) := answer s fun m => m.viaCfg a.toNat .err 0 0x118 v.toNat (flipArm a.toNat v.toNat)

end Sys2Proof.Machine
end

