-- ==== Sys2Proof/Machine/Media.lean ====
section
/-! DEFINITION. What a hub's answers mean for the commands that they answer: RSP, RDATA and STATUS (chapter "Zilold Media Link and the
hub contract", R328 to R335, R343, R344), and the durability that an acknowledged program brings. -/
namespace Sys2Proof.Machine

/-! ### Outcomes of media reads -/

/-- Deliver the outcome of a read issued at `at_` to what asked for it. `chan`, `seg` and `pos` are the copy that was read. -/
def Mach.deliver1 (m : Mach) (chan seg pos at_ : Nat) (j : Job) (o : Out) : Mach :=
  match j with
  | .client port id k => m.clientFill port id k o
  | .glean key => m.gleanGot key chan seg pos o
  | .rotRd uk i => m.rotGot uk i o
  | .migRd uk i => m.migGot uk i o
  | .rwRd uk i => m.rwGot uk i o
  | .stripeRd k d => m.stripeFallback k d o
  | .loom k id n => m.loomArrive k id n 10 o at_
  | .image k n => m.imageArrive k n o at_
  | .hint l =>
    let m1 := if o.newer || (m.dirFind l).isSome then m else m.keepHome l o.data o.cls false false true
    if !o.newer && m1.homeHit l then m1.hQueue 12 (m1.homePlace l) true else m1
  | _ => m

/-- Deliver every outcome of a ladder. -/
def Mach.deliver (chan seg pos at_ : Nat) (r : List (Job × Out) × Mach) : Mach :=
  r.1.foldl (fun (m : Mach) x => m.deliver1 chan seg pos at_ x.1 x.2) r.2

/-- Ladders that waited in BRINGUP climb on once every channel of their group is ACTIVE, or BRINGUP is over (R431). -/
def Mach.ladderResume (m : Mach) : Mach :=
  (m.err.ladders.filter fun l => l.held && l.step = 4 && l.wait = 0).foldl (fun (m : Mach) x =>
    match m.ladder? x.id with
    | some l => Mach.deliver l.chan l.seg l.pos l.at_ (m.ladderStep4 l)
    | none => m) m

/-- A seal line is here (R337): it verifies, is read again at the next bucket's offset set, or waits for the drift table. -/
def Mach.sealBack (m0 : Mach) (c slot cls : Nat) (d : Line) (tag : Nat) : Mach :=
  let key := 8 * c + slot
  let x := m0.power.sealRd.get key
  let m := if x.stage = 1 && cls ≠ 0 then m0.probeFail (256 + key) tag else m0
  let ended (ok : Bool) : Mach := m.probeEnd (256 + key) c slot 19 x.bucket ok
  let set (m : Mach) (y : SealRd) : Mach := { m with power := { m.power with sealRd := m.power.sealRd.set key y } }
  if x.stage ≠ 1 then m
  else if cls = 0 then
    let m1 := set (ended true) ⟨2, x.bucket, d⟩
    if slot % 4 = 0 then m1.put ZML.SEAL_GEN c (max (m.get ZML.SEAL_GEN c) (Line.word d 1).toNat) else m1
  else if 31 ≤ x.bucket then set (ended false) ⟨3, x.bucket, 0⟩
  else if !m.map.dloaded.get c then set m ⟨4, 0, 0⟩
  else
    (set m ⟨1, x.bucket + 1, 0⟩).mQueue c true 19
      { (default : Media) with
        op := opSealRead, area := 2, pos := slot, nlines := 1, bkt := x.bucket + 3 } (.sealRd slot)

/-- A read line of a map page, or of a copy of the trim record, fails its check: the other channel of its pair gives it (R192, R254). -/
def Mach.mapPageFail (m : Mach) (c : Nat) (q : LineReq) : Mach :=
  ((m.count ERR.CNT_MEDIA_FAIL).judgeEst).ringAdd { (default : RingInfo) with
    tick := m.get ALM.TB_NOW, chan := c, seg := q.md.seg, pos := q.md.pos, rq := q.rq, est := m.estimated, step := 4, outcome := 2 }

/-- A read of a map page line is back; one that fails its check is read from the other channel of its pair, once (R192). -/
def Mach.mapPageBack (m : Mach) (c cls key : Nat) (q : LineReq) : Mach :=
  if cls ≠ 3 then m.mapGot key true
  else
    let m1 := m.mapPageFail c q
    let o := (c + 16) % 32
    if q.md.tries = 0 && !m.chanLost o then m1.mQueue o true 13 { q.md with tries := 1 } q.job else m1.mapGot key true

/-- Whether another command of the same job waits or is outstanding, on any channel. -/
def Mach.jobLeft (m : Mach) (j : Job) : Bool :=
  (m.zml.any fun z => z.2.outs.any (fun o => o.req.job == j) || z.2.refused.any fun q => q.job == j) ||
    (m.sc.queues.any fun p => p.2.any fun q => q.job == j) || (m.rota.next.any fun p => match p.2 with | some q => q.job == j | none => false) ||
    (m.rota.restarts.any fun p => p.2.any fun q => q.job == j) || m.map.leaseWait.any fun x => x.2.2.job == j

/-- Lines of a page that warms the Hearth map region: the region holds it once the last is here (R191). A line that fails its check is read
from the other channel of its pair, once (R192). -/
def Mach.mapWarmBack (m : Mach) (c cls pg : Nat) (q : LineReq) : Mach :=
  let o := (c + 16) % 32
  let m1 := if cls ≠ 3 then m
    else if q.md.tries = 0 && !m.chanLost o then (m.mapPageFail c q).mQueue o true 13 { q.md with tries := 1 } q.job
    else m.mapPageFail c q
  let used := if pg < 2 ^ 32 then (m.map.l1.get pg).valid else (m.map.root.get (pg - 2 ^ 32)).valid
  if m1.jobLeft (.mapWarm pg) || !used then m1 else m1.hmapAdd pg

/-- A read of the entry's line is still speculative (R164). -/
def Mach.loomSpec (m : Mach) (k id : Nat) : Bool :=
  match (m.seq k).queue.find? fun e => e.id = id with
  | some e => e.spec.isSome
  | none => true

/-- The issue of the access for which a ladder runs. -/
def Mach.ladderAt (m : Mach) (id : Nat) : Nat := match m.ladder? id with | some l => l.at_ | none => m.now

/-- A line of a firmware image, or the selector, is here (R404, R405). -/
def Mach.fwGot (m : Mach) (id pos cls : Nat) (d : Line) : Mach :=
  let x := m.post.fw
  if x.id ≠ id || !x.on then m
  else { m with post := { m.post with fw := { x with left := x.left - 1, bad := x.bad || cls ≠ 0, img := x.img.set pos d } } }

/-- The data of a read is here, with its class: `data` and `tag` as the Core took them (R240). -/
def Mach.readBack (m : Mach) (c : Nat) (q : LineReq) (cls : Nat) (d : Line) (tag : Nat) : Mach :=
  let first (demand merge noRepair : Bool) (at_ : Nat) : Mach :=
    Mach.deliver c q.md.seg q.md.pos q.since (m.firstBack q q.job c demand merge noRepair at_ cls d tag)
  match q.job with
  | .client port id _ =>
    match m.req? port id with
    | some r => first (r.op ≠ opPrefetch) (writesLines r.op && r.op ≠ opClearPoison) false r.at_
    | none => first false false false m.now
  | .ladder id => Mach.deliver c q.md.seg q.md.pos (m.ladderAt id) (m.ladderBack id cls d tag)
  | .helper id idx => Mach.deliver c q.md.seg q.md.pos (m.ladderAt id) (m.helperBack id idx c q.md.seg q.md.pos cls d tag)
  | .glean _ => first false false (m.get GLN.MODE_KIND ≠ 2) m.now
  | .stripeRd k i => if (m.stripe k).stage = 1 || (m.stripe k).stage = 9 then m.stripeBack k i cls d tag else first false false false m.now
  | .loom k id n =>
    if q.rq = 11 && m.loomSpec k id then
      match readOut cls d tag with
      | some o => m.loomArrive k id n 11 o q.since
      | none => (m.count ERR.CNT_MEDIA_FAIL).loomArrive k id n 11
          ⟨stPoison, d, 2, bits tag 32 8, some (bits tag 40 24), true, 0, false, usec 32 / 10⟩ q.since
    else first true false false q.since
  | .image _ _ => first true false false q.since
  | .mapPage key => m.mapPageBack c cls key q
  | .mapWarm pg => m.mapWarmBack c cls pg q
  | .trimRd k => (if cls = 3 then m.mapPageFail c q else m).trimGot k q.md.pos cls d
  | .canaryRd k => m.canaryBack c k cls d tag
  | .sealRd slot => m.sealBack c slot cls d tag
  | .fwRd id => m.fwGot id q.md.pos cls d
  | .hubInfo id => { m with post := { m.post with cmds := m.post.cmds.map fun x =>
      if x.id = id then { x with stage := if cls = 3 then 3 else 2, line := d } else x } }
  | .rotRd _ _ => first false false false m.now
  | .migRd _ _ => first false false false m.now
  | .rwRd _ _ => first false false false m.now
  | .hint _ => first false false false m.now
  | _ => m

/-! ### Hearth reads -/

/-- HEARTH_LINE_RETURN (R246): the oldest read of a stack whose data has left the array. `xd`, `xt` and `xm` are the bits of data, TAG
and MCRC that have gone wrong in the stack; the check is made where the line is used. -/
def hearthReturn (n : Nat) (xd : Line) (xt xm : Nat) (m : Mach) : Mach :=
  match m.ht.flights.find? fun f => f.stack = n with
  | none => m
  | some f =>
    let p := (n, f.req.h)
    let m0 := m.modHt fun h => { h with flights := h.flights.filter (fun x => !(x.stack = n && x.req.id = f.req.id)) }
    let m1 := if xd = 0 && xt = 0 && xm = 0 then m0
      else m0.modHt fun h => { h with cells := h.cells.upd (cellKey p) fun c => c.corrupt p xd xt xm }
    match f.req.job with
    | .client port id k => m1.modLine port id k fun x => if x.phase == .hearth then { x with phase := .served } else x
    | .wbH e => m1.wbArrive e
    | .spill k no => m1.spillArrive k no
    | .loomH k id i => m1.loomHearth k id i f.req.rq
    | .imageH k j => m1.imageTake k j
    | .listH k j => m1.listArrive k j
    | .mapLine key => if (m1.cell p).cls ≠ 3 then m1.mapGot key false else m1.mapLineFail p key
    | _ => m1

/-! ### Programs acknowledged -/

/-- The ledger word of a segment that a ledger line carries (R209). -/
def Mach.ledgerWord (m : Mach) (key : Nat) (d : Line) : Nat :=
  let i := (key / 2 ^ 27 * m.map.segS + key % 2 ^ 27) % 64
  bits (Line.word d (i / 2)).toNat (32 * (i % 2)) 32

/-- A ledger line is durable at one position on both channels: the second position follows the first, the ceiling counts, and what waited
for it goes (R209, R210). With the second a checkpoint waits for it no longer (R197). -/
def Mach.ledgerAck (m : Mach) (key pos : Nat) (d : Line) : Mach :=
  if m.jobLeft (.ledger key pos) then m
  else if pos ≠ 0 then m.modMap fun s => { s with ckpt := { s.ckpt with ledgers := s.ckpt.ledgers.filter (· ≠ key) } }
  else
    let n := max (m.wearD (key / 2 ^ 27) (key % 2 ^ 27)) (m.ledgerWord key d)
    let m1 := m.modMap fun s => { s with wearD := s.wearD.set key (Nat.xor n ceil0) }
    (m1.ledgerWrite (key / 2 ^ 27) (key % 2 ^ 27) 1).leaseGo

/-- A program of the delta line `n` is acknowledged; its records are durable with the last (R195). -/
def Mach.deltaAck (m : Mach) (n : Nat) : Mach :=
  m.modMap fun s => { s with delta := { s.delta with
    lines := (s.delta.lines.map fun l => if l.1 = n then (l.1, l.2.1, l.2.2.1, l.2.2.2 - 1) else l).filter fun l => l.2.2.2 ≠ 0 } }

/-- Change the checkpoint under way. -/
def Mach.modCkpt (m : Mach) (f : CkptSt → CkptSt) : Mach := m.modMap fun s => { s with ckpt := f s.ckpt }

/-- The last seal program of a record is acknowledged (R458): a SEALED record sets SEALED, an OPEN one clears it. -/
def Mach.sealDone (m : Mach) : Mach :=
  let p := m.power
  let m1 : Mach := { m with power := { p with sealPhase := 0, sealFor := 0 } }
  if p.sealPhase = 2 then ((m1.setFlag POWER.STAT_SEALED 0 true).event .power 0 POWER.EV_SEALED).count POWER.CNT_SEAL
  else m1.setFlag POWER.STAT_SEALED 0 false

/-- A seal line of channel `c` waits or is outstanding. -/
def Mach.sealPending (m : Mach) (c : Nat) : Bool :=
  let is (q : LineReq) : Bool := match q.job with | .sealWr _ => true | _ => false
  let k := dirKey (tgtMedia c) false
  (m.zs c).outs.any (fun o => is o.req) || (m.zs c).refused.any is || (m.scQueue k 19).any is || (m.rota.restarts.get c).any is ||
    match m.rota.next.get k with | some q => is q | none => false

/-- The record being written is done once every channel in service has answered all its lines (R458). -/
def Mach.sealSettle (m : Mach) : Mach :=
  if m.power.sealPhase ≠ 0 && !(m.chansIn.any m.sealPending) then m.sealDone else m

/-- A seal line of channel `c` is durable; SEAL_GEN shows its generation (R337). -/
def Mach.sealAck (m : Mach) (c : Nat) : Mach := (m.put ZML.SEAL_GEN c m.power.sealGen).sealSettle

/-- A repair or poison program for which a Gleaner pass may wait has ended (R261). -/
def Mach.gleanAck (m : Mach) (key g : Nat) : Mach := if gleanWaits g then (m.gleanSub key 1).unitsEnded m 2 else m

/-- A program has ended DONE: what waits for it goes on. A repair counts here (R244). -/
def Mach.programAck (m : Mach) (c : Nat) (q : LineReq) : Mach :=
  let m0 := match q.md.uk, q.job with
    | some _, .migWr _ _ => m
    | some uk, _ => m.migMark uk c q.md.seg q.md.pos
    | none, _ => m
  match q.job with
  | .kiln k x =>
    let m1 := if q.md.mark = 2 || x % 16 = 15 then m0 else m0.lostPast (m0.slotLine k (x / 16) (x % 16))
    (m1.modSlot k (x / 16) fun s => { s with left := s.left - 1 }).showStr k
  | .wb e => m0.modHt fun h => { h with wbs := h.wbs.upd e (fun w => { w with left := w.left - 1 }) }
  | .stripeWr k _ => m0.stripeAck k
  | .repair key g => (if g = 2 || g = 4 then m0.count ERR.CNT_REPAIR else m0).gleanAck key g
  | .delta n => m0.deltaAck n
  | .ckptPage => m0.modCkpt fun x => { x with flight := x.flight - 1 }
  | .ckptRoot => m0.modCkpt fun x => { x with root := x.root - 1 }
  | .ledger key pos => m0.ledgerAck key pos q.md.data
  | .rotWr uk _ => m0.rotAck uk
  | .migWr uk _ => m0.migAck uk
  | .rwWr uk _ => (m0.count MAP.CNT_REWRITE_LINES).rwAck uk
  | .canaryWr k => m0.canaryAck c k q.md.data
  | .commit k => m0.modStr k fun s => { s with commit := s.commit - 1 }
  | .sealWr _ => m0.sealAck c
  | .fwWr id _ => { m0 with post := { m0.post with cmds := m0.post.cmds.map fun x =>
      if x.id = id then { x with left := x.left - 1, committed := x.committed || (x.left ≤ 1 && x.lastProgs) } else x } }
  | _ => m0

/-! ### Programs that fail (R329) -/

/-- A line on channel `c` cannot be left out: the unit's REBUILD names another channel (R182). -/
def Mach.rebuildHeld (m : Mach) (uk c : Nat) : Bool := match staleChan (m.ent uk) with | some s => s ≠ c | none => false

/-- A migration is given up: its waiting copies leave, its destination is FREE again, or RETIRED where a program failed there, once nothing
is outstanding on it, and the unit is due again. -/
def Mach.migAbandon (m : Mach) (uk : Nat) : Mach :=
  let x := m.map.migs.get uk
  let e := m.ent uk
  let mine (q : LineReq) : Bool := match q.job with | .migRd k _ => k = uk | .migWr k _ => k = uk | _ => false
  let dest := (if eKind e = 1 then [x.chanNew] else unitChans e).map fun c => (c, x.segNew, true)
  ((((m.withdraw mine).setEntFlag uk fMigrating false).2.modMap fun s => { s with
    migs := s.migs.erase uk, oldSegs := s.oldSegs ++ dest }).unitsEnded m 1).queueMig uk

/-- A copied line cannot be programmed at its destination on channel `c`: the new entry will carry REBUILD for it; where that is not possible
the migration is given up (R127, R219, R329). -/
def Mach.migSkip (m : Mach) (uk c : Nat) : Mach :=
  let x := m.map.migs.get uk
  if !(m.map.migs.any fun p => p.1 = uk) then m
  else if 2 ≤ eKind (m.ent uk) && (x.stale = 0 || x.stale = c + 1) then (m.modMig uk fun x => { x with stale := c + 1 }).migAck uk
  else m.migAbandon uk

/-- The third failure of a program (R329): its unit is retired, and the line is handled as on a read-only channel until its unit has moved.
A writeback of a NONE unit leaves its line dirty; a rotation move that cannot be left out is not made, and its shift rests until then; a
poison program and a stream line of a NONE unit wait. A canary is programmed anew. -/
def Mach.programLost (m : Mach) (c : Nat) (q : LineReq) : Mach :=
  let m0 := m.event .zml c ZML.EV_WRITE_FAILED
  match q.md.uk with
  | none => match q.job with
    | .canaryWr _ => m0
    | _ => m0.programAck c q
  | some uk =>
    let m1 := m0.modMap fun s => { s with bad := s.bad.upd (segKey c q.md.seg) fun l => if l.contains q.md.pos then l else l ++ [q.md.pos] }
    let m2 := m1.retireUnit uk
    let kind := eKind (m.ent uk)
    let held := kind = 1 || m2.rebuildHeld uk c
    let again (j : Job) : Mach := m2.sendAgain c { q with md := { q.md with tries := 0 }, job := j }
    match q.job with
    | .migWr _ _ => m1.migSkip uk c
    | .rotWr _ _ =>
      if held then m2.modRot uk fun x => { x with stage := 1, flight := 0 } else (m2.setRebuild uk c).rotAck uk
    | .wb e => if kind = 1 then m2.wbBack e else if held then again q.job else (m2.setRebuild uk c).programAck c q
    | .rwWr _ _ => m2.rwAck uk
    | .repair key g => if q.md.mark = 2 && kind ≠ 2 then (again (.repair key 0)).gleanAck key g else m2.gleanAck key g
    | _ => if held then again q.job else (m2.setRebuild uk c).programAck c q

/-- A program of a logical line is left out: its channel is lost or read-only (R127, R182, R219). A NONE line stays dirty in Hearth and its
unit is queued to leave the channel; a NONE migration to a channel that has become read-only is given up. -/
def Mach.programOmitted (m : Mach) (c : Nat) (q : LineReq) : Mach :=
  match q.md.uk with
  | none => m
  | some uk =>
    match q.job with
    | .rwWr uk _ => m.rwAck uk
    | .repair key g => m.gleanAck key g
    | .migWr uk _ => m.migSkip uk c
    | .wb e => if eKind (m.ent uk) = 1 then (m.wbBack e).roQueue uk else (m.setRebuild uk c).programAck c q
    | _ => (m.setRebuild uk c).programAck c q

/-- A waiting program can be left out now: not a poison program or a stream line of a NONE unit, not a poison program of a BUNDLE line, which
keeps the line's poison (R249), and not one that has to wait for a rebuild (R182). On a lost channel a NONE program waits. -/
def Mach.mayOmit (m : Mach) (c : Nat) (q : LineReq) : Bool :=
  match q.md.uk with
  | none => false
  | some uk =>
    let kiln := match q.job with | .kiln _ _ => true | _ => false
    q.md.area = 0 && q.md.op = opWriteLine &&
      (if eKind (m.ent uk) = 1 then m.chanRO c && !(q.md.mark = 2 && !(q.job matches .wb _)) && !kiln
        else !m.rebuildHeld uk c && !(eKind (m.ent uk) = 3 && q.md.mark = 2 && (q.job matches .repair _ _)))

/-- Programs that wait for a channel declared lost or read-only, and those outstanding on a lost one, are left out; a lost one's
outstanding commands are still sent again when it returns (R127, R219, R343). -/
def Mach.omitWaiting (m : Mach) (c : Nat) : Mach :=
  if !m.omits c then m
  else
    let k := dirKey (tgtMedia c) false
    let wait := ((List.range 32).flatMap fun rq => m.sc.queues.get (32 * k + rq)) ++ m.rota.restarts.get c ++ (m.zs c).refused ++
      (match m.rota.next.get k with | some q => [q] | none => [])
    let out := if m.chanLost c then ((m.zs c).outs.map (·.req)).filter fun q => !(q.job matches .none) else []
    let gone (m : Mach) (q : LineReq) : Mach :=
      { m with
        sc := { m.sc with queues := (List.range 32).foldl (fun (t : Tab (List LineReq)) rq =>
          t.upd (32 * k + rq) fun l => l.filter fun x => x.id ≠ q.id) m.sc.queues },
        rota := { m.rota with
          restarts := m.rota.restarts.upd c fun l => l.filter fun x => x.id ≠ q.id,
          next := m.rota.next.upd k fun x => x.filter fun y => y.id ≠ q.id },
        zml := m.zml.upd c fun z => { z with refused := z.refused.filter (fun x => x.id ≠ q.id), outs := z.outs.map fun o =>
          if o.req.id = q.id && o.req.job == q.job then { o with req := { o.req with job := .none } } else o } }
    (wait ++ out).foldl (fun (m : Mach) q => if m.mayOmit c q then (gone m q).programOmitted c q else m) m

/-- A program is sent again, unless its channel takes it no longer and it can be left out (R127, R219, R329). -/
def Mach.againOrOmit (m : Mach) (c : Nat) (q : LineReq) : Mach :=
  if m.omits c && m.mayOmit c q then m.programOmitted c q else m.sendAgain c q

/-- A program is answered FAILED (R329): three attempts in all. -/
def Mach.programFailed (m : Mach) (c : Nat) (q : LineReq) : Mach :=
  let m0 := m.count ZML.CNT_WRITE_FAILED c
  if q.md.tries + 1 < 3 then m0.againOrOmit c { q with md := { q.md with tries := q.md.tries + 1 } } else m0.programLost c q

/-- A rotation or migration move keeps the BIRTH of its source; every other restart takes its own issue time (R220). -/
def Outst.moves (o : Outst) : Bool := match o.req.job with | .rotWr _ _ => true | .migWr _ _ => true | _ => false

/-- A program is answered ABORTED (R398): it is restarted after the read that aborted it, or after RESTART_WAIT. -/
def Mach.programAborted (m : Mach) (c : Nat) (o : Outst) : Mach :=
  let id := o.abortBy.getD 0
  let here := ((m.zs c).outs.any fun x => x.req.id = id && !x.drop) || ([false, true].any fun rx =>
    match m.rota.next.get (dirKey (tgtMedia c) rx) with | some q => q.id = id && !m.rota.withdrawn.contains id | none => false)
  let q := { o.req with
    aborts := o.req.aborts + 1, abortBy := id, restart := true, md := { o.req.md with birth := if o.moves then o.req.md.birth else none },
    holdEnd := some (if here then o.abortAt + usec (m.get ROTA.RESTART_WAIT c) else m.now) }
  let m1 := m.count MAP.CNT_ABORT_WEAR
  if m.omits c && m.mayOmit c q then m1.programOmitted c q
  else m1.modRota fun r => { r with restarts := r.restarts.upd c (· ++ [q]) }

/-- RELEASE is answered: the programs refused in HOLD are sent again in their order, and the formats (R329). -/
def Mach.refusedGo (m : Mach) (c : Nat) : Mach :=
  let l := (m.zs c).refused
  let m1 := m.modZml c fun z => { z with refused := [] }
  let m2 := (l.filter fun q => q.md.op ≠ opFormat).reverse.foldl (fun (m : Mach) q => m.againOrOmit c q) m1
  (l.filter fun q => q.md.op = opFormat).foldl (fun (m : Mach) q => m.formatAgain c q) m2

/-! ### The messages -/

/-- Take the first message of a virtual channel from a link's inbox. -/
def Mach.takeMsg (m : Mach) (c vc : Nat) : Option (Nat × Mach) :=
  match (m.zs c).inbox.find? fun x => x.1 = vc with
  | none => none
  | some x => some (x.2, m.modZml c fun z => { z with inbox := z.inbox.erase x })

/-- An outstanding command is answered for good. -/
def Mach.answered (m : Mach) (c ctag : Nat) : Mach :=
  (m.modZml c fun z => { z with outs := z.outs.filter fun o => o.ctag ≠ ctag }).showOut c

/-- A status that the hub may give to a command (R329). -/
def statusOk (o : Outst) (st : Nat) : Bool :=
  let op := o.req.md.op
  st = 0 || (st = 1 && op = opWriteLine && o.abortBy.isSome) || (st = 2 && (op = opWriteLine || op = opFormat)) ||
    (st = 3 && (op = opWriteLine || op = opFormat))

/-- HUB_RSP (R328, R329): an RSP is matched by CTAG and acted on by its status. -/
def hubRsp (c : Nat) (m : Mach) : Mach :=
  match m.takeMsg c 3 with
  | none => m
  | some (v, m0) =>
    let st := bits v 16 4
    let ctag := bits v 4 12
    match (m0.zs c).outs.find? fun o => o.ctag = ctag with
    | none => m0.protocol c
    | some o =>
      let q := o.req
      let stats := q.md.op = opCanaryRead && q.md.gen = 1
      if q.md.op ≠ v % 16 || (readsData q.md.op && !stats) || !statusOk o st then m0.protocol c
      else
        let m1 := m0.answered c ctag
        if o.drop then m1
        else if st = 1 then m1.programAborted c o
        else if st = 2 then (m1.count ZML.CNT_REFUSED c).modZml c fun z => { z with refused := z.refused ++ [q] }
        else if q.md.op = opFormat then m1.formatBack c q.md.seg (st = 0)
        else if st = 3 then m1.programFailed c q
        else if stats then m1.canaryStat c q.md.pos (sx 8 (bits v 32 8))
        else if q.md.op = opRelease then if m1.link c = 4 then m1.refusedGo c else m1
        else if q.md.op = opWriteLine || q.md.op = opSealWrite then
          let m2 := if q.md.op = opWriteLine then m1.count ZML.CNT_LINES_WR c else m1
          (if o.abortBy.isSome then m2.count ZML.CNT_ABORT_LATE c else m2).programAck c q
        else m1

/-- RDATA_RECEIVE (R240, R256, R328): a line, the INDEX-th of its command, is taken, corrupted by an armed read mask, classified, and delivered or sent up its
ladder. -/
def rdataReceive (c : Nat) (m : Mach) : Mach :=
  match m.takeMsg c 2 with
  | none => m
  | some (v, m0) =>
    let st := bits v 16 4
    let ctag := bits v 4 12
    let d : Line := BitVec.ofNat 2048 (v / 2 ^ 64)
    let tag := bits v 2112 64
    match (m0.zs c).outs.find? fun o => o.ctag = ctag with
    | none => m0.protocol c
    | some o =>
      let q := o.req
      if q.md.op ≠ v % 16 || !readsData q.md.op || !(st = 0 || st = 3 || st = 4) then m0.protocol c
      else
        let m1 := m0.count ZML.CNT_LINES_RD c
        let m2 := if o.left ≤ 1 then (m1.answered c ctag).readEnded c q.id
          else m1.modZml c fun z => { z with outs := z.outs.map fun x => if x.ctag = ctag then { x with left := x.left - 1 } else x }
        let m3 := if st = 4 then m2.protocol c else m2
        if q.md.op = opHubInfo || q.md.op = opDriftTable then m3.readBack c q (if st = 0 then 0 else 3) d tag
        else
          let i := if q.md.op = opReadLines then bits v 20 6 else 0
          let q := { q with md := { q.md with pos := q.md.pos + i, slot := q.md.slot + i, nlines := 1 } }
          let f := m3.flipRead q d tag
          f.2.2.readBack c q (if st ≠ 0 then 3 else mediaClass c q.md f.1 f.2.1) f.1 f.2.1

/-- STATUS (R335): a hub's STATUS message updates HUB_TEMP and the HOLD flag. A LINK_PARAMS outside training is taken and unused. -/
def statusReceive (c : Nat) (m : Mach) : Mach :=
  match m.takeMsg c 4 with
  | none => m
  | some (v, m0) => if v % 16 = 14 then m0.takeStatus c (v % 2 ^ 64) else m0

def execHubRsp (c : BitVec 5) (s : State) := answer s (hubRsp c.toNat)
def execRdataReceive (c : BitVec 5) (s : State) := answer s (rdataReceive c.toNat)
def execHearthLineReturn (n : BitVec 1) (xd : Line) (xt xm : BitVec 32) (s : State) :=
  answer s (hearthReturn n.toNat xd xt.toNat xm.toNat)
def execStatus (c : BitVec 5) (s : State) := answer s (statusReceive c.toNat)

end Sys2Proof.Machine
end

