-- ==== Sys2Proof/Machine/Phy.lean ====
section
/-! DEFINITION. The life of a Hearth stack: training, retraining, fill, temperature, loss of contents and loss of the stack, and the
test features of its PHY (chapters "Hearth PHY and interface training", R302 to R316, and "Hearth: the HBM tier controller", R291,
R293, R296 to R298), with the release of the Core that follows the first fill (R428). -/
namespace Sys2Proof.Machine

/-- The PHY state of a stack. -/
def Mach.phy (m : Mach) (n : Nat) : PhySt := m.ht.phy.get n
/-- Change it. -/
def Mach.modPhy (m : Mach) (n : Nat) (f : PhySt → PhySt) : Mach := m.modHt fun h => { h with phy := h.phy.upd n f }

/-- The stacks in service. -/
def Mach.inService (m : Mach) : List Nat := [0, 1].filter m.stackIn

/-- The start sequence may begin its next step: no supply warning holds it (R430). -/
def Mach.bootFree (m : Mach) : Bool := !m.flag POWER.STAT_WARN

/-! ### Loss of Hearth contents and of a stack (R297, R298) -/

/-- A spilled slot loses the data lines that `gone` names: they drain with the poison tag (R246, R298). -/
def Slot.spillLost (s : Slot) (data : Nat) (gone : Nat → Bool) : Slot :=
  { s with poison := s.poison ++ (List.range data).filter fun d => gone d && !s.poison.contains d }

/-- Every stream's spilled slots lose the lines whose place `gone` names; `half` marks them as laid out for two stacks. -/
def Mach.spillLost (m : Mach) (gone : Nat × Nat → Bool) (half : Bool) : Mach :=
  (List.range 32).foldl (fun (m : Mach) k =>
    let hit := m.spilled k
    let new (s : Slot) : Slot :=
      { (s.spillLost (m.slotData k) fun d => gone (m.slotPlace s d)) with laid2 := s.laid2 || half }
    let n := (hit.map fun s => (new s).poison.length - s.poison.length).sum
    let m1 := m.modStr k fun t => { t with slots := t.slots.map fun s => if hit.contains s then new s else s }
    let ls := hit.flatMap fun s => ((List.range (m.slotData k)).filter fun d => (new s).poison.contains d && !s.poison.contains d).map
      fun d => m.slotLine k s.no d
    if n = 0 then m1 else ls.foldl (fun (m : Mach) l => m.loomDiscard l) (m1.poisoned n)) m

/-- The directory after a loss that leaves only what `keep` says of an entry (some: the entry that stays): stale entries are freed, and
the others are LOST; a writeback of theirs of which nothing has been sent yet makes way for their poison program (R297, R298). -/
def Mach.dirLost (m : Mach) (keep : Nat → DirEnt → Option DirEnt) : Mach :=
  let es := m.ht.dir.filter (·.2.valid)
  let m1 := es.foldl (fun (a : Mach) (e : Nat × DirEnt) =>
    match keep e.1 e.2 with
    | some d => a.setDir e.1 d
    | none =>
      if !m.dirCurrent e.1 then a.dirFreeEnt e.1
      else
        let w := m.ht.wbs.get e.1
        let begun := e.2.wb && !(w.reading || w.waiting)
        let a1 := a.setDir e.1 { e.2 with lost := true, mirrored := false, wb := begun }
        if begun then a1 else a1.modHt fun h => { h with wbs := h.wbs.erase e.1 }) m
  (es.filter fun e => (keep e.1 e.2).isNone && m.dirCurrent e.1 && !e.2.lost).foldl (fun (m : Mach) e => m.poisonLine e.2.line) m1

/-- The Parish has lost its contents: Collier takes every free latch, and no command accepted before writes results (R417). -/
def Mach.parishLost (m : Mach) : Mach :=
  let ls := (List.range 8).foldl (fun (t : Tab Latch) k => t.upd k fun l => if l.owner = 0 then ⟨15, m.now, false⟩ else l) m.post.latches
  let cs := m.post.cmds.map fun (c : Cmd) => { c with parishLost := true }
  Mach.event { m with post := { m.post with latches := ls, cmds := cs, lost := true } } .post 0 POST.EV_PARISH_LOST

/-- The Parish fill has ended: the latches that Collier took for it are released with BROKEN set (R417). -/
def Mach.parishBack (m : Mach) : Mach :=
  let mine := (List.range 8).filter fun k => (m.post.latches.get k).owner = 15
  let m1 : Mach := { m with post := { m.post with latches := mine.foldl (fun (t : Tab Latch) k => t.set k default) m.post.latches } }
  m1.put POST.LATCH_BROKEN 0 (mine.foldl (fun v k => v ||| 2 ^ k) (m1.get POST.LATCH_BROKEN))

/-- The contents of every stack in service are lost: step 3b of R297 begins. -/
def Mach.contentLost (m : Mach) : Mach :=
  let m1 := ((m.dirLost fun _ _ => none).spillLost (fun _ => true) false).loomForget
  let m2 := m1.modHt fun h => { h with
    cells := [], phy := m.inService.foldl (fun (t : Tab PhySt) n => t.upd n fun p => { p with fill := true, lostFill := true }) h.phy }
  let m3 := m2.hmapLost
  m.inService.foldl (fun (m : Mach) n => (m.put HT.FILL_PROG n 0).event .ht n HT.EV_CONTENT_LOST) m3.parishLost.showWarm

/-- A Hearth read is not answered: what asked for it looks again where its data is now. -/
def Mach.readGone (m : Mach) (q : LineReq) : Mach :=
  let ph (k id i : Nat) : Mach := m.modEnt k id fun e =>
    let p := e.ph.get i
    { e with ph := if p = 1 || p = 5 || ((p = 8 || p = 9) && (e.here.get i).isNone) then e.ph.set i 0 else e.ph }
  match q.job with
  | .client p id i => m.modLine p id i fun x => if x.phase == .hearth then { x with phase := .served } else x
  | .mapLine key => m.modMap fun s => { s with reads := s.reads.set key 0 }
  | .spill k no => m.spillArrive k no
  | .wbH e => m.wbArrive e
  | .loomH k id i => ph k id i
  | .imageH k j => m.modSeq k fun s => { s with imgSt := if s.imgSt.get j = 99 then s.imgSt.set j 0 else s.imgSt }
  | .listH k _ => m.modSeq k fun s => { s with bufWait := false }
  | _ => m

/-- The traffic of a failed stack goes elsewhere, and engine traffic ends. -/
def Mach.rerouteStack (m : Mach) (n : Nat) : Mach :=
  let k := dirKey (tgtHearth n) false
  let sc := (List.range 32).flatMap fun rq => m.scQueue k rq
  let nx := match m.rota.next.get k with | some q => [q] | none => []
  let pc := (List.range 32).flatMap fun p => (m.pcSt n p).queue
  let fl := (m.ht.flights.filter fun f => f.stack = n).map (·.req)
  let m1 := ((sc ++ nx ++ pc ++ fl).filter fun q => !q.write).foldl (fun (m : Mach) q => m.readGone q) m
  let m2 := m1.modSc fun s => { s with queues := (List.range 32).foldl (fun (t : Tab (List LineReq)) rq => t.set (32 * k + rq) []) s.queues }
  let m3 := m2.modRota fun r => { r with next := r.next.erase k }
  m3.modHt fun h => { h with
    flights := h.flights.filter (fun f => f.stack ≠ n), pcs := h.pcs.mapv (fun i p => if i / 32 = n then default else p) }

/-- SINGLE and MIRROR_OFF follow the stacks in service (R282, R298). -/
def Mach.showSingle (m : Mach) : Mach := m.setFlag HT.STAT_MIRROR_OFF 0 (m.stacksIn = 1)

/-- Stack `n` fails and leaves service (R298). -/
def Mach.stackFail (m : Mach) (n : Nat) : Mach :=
  if m.flag HT.STAT_FAILED n then m
  else
    let was := m.stackIn n
    let other := m.stackIn (1 - n)
    let keep (e : Nat) (d : DirEnt) : Option DirEnt :=
      if !other then none
      else if e % 2 = n then (if d.mirrored then some { d with mirrored := false } else none)
      else some { d with mirrored := false }
    let m1 := if was then (m.dirLost keep).spillLost (fun p => !other || p.1 = n) other else m
    let m2 := if was then m1.rerouteStack n else m1
    let m3 := ((((((m2.setFlag HT.STAT_IN_SERVICE n false).setFlag HT.STAT_FAILED n true).put HT.PC_SERVICE n 0).setFlag HT.STAT_FILLING n
      false).setFlag HT.STAT_SELF_REFRESH n false).setFlag HPHY.STAT_TRAINING n false).setFlag HPHY.STAT_UNIT n false
    let m4 := ((m3.unitsEnded m 4).modPhy n fun p => { p with
      want := 0, step := 0, fill := false, lostFill := false, lostAfter := false, dueAt := 0 }).modHt fun h =>
      { h with cells := h.cells.filter fun c => c.1 / 2 ^ 28 ≠ n }
    let m5 := if 2 ≤ m.integ.stackCount then m4.setFlag HT.STAT_SINGLE 0 true else m4
    let m6 := if was then m5.loomForget else m5
    let m7 := if other then m6 else m6.hmapLost
    (((m7.showSingle.showCapability n).showLayout).showWarm).event .ht n HT.EV_STACK_FAILED

/-- STACK_FAIL (R298): the stack reports `errs` command-address parity errors; the sixteenth within 1 ms fails it. Failures of training
and by temperature come with those commands. -/
def stackFailCmd (n errs : Nat) (m : Mach) : Mach :=
  if !m.stackIn n || m.mode = mSafehold then m
  else
    let l := ((List.replicate errs m.now ++ m.ht.parity.get n).filter fun t => m.now < t + msec 1).take 16
    let m1 := m.modHt fun h => { h with parity := h.parity.set n l }
    if l.length < 16 then m1 else (m1.event .ht n HT.EV_PARITY).stackFail n

/-! ### Temperature (R291, R293) -/

/-- CNT_THROTTLE_CK up to now (R293). -/
def Mach.settleThrottle (m : Mach) (n : Nat) : Mach :=
  let m1 := if m.flag HT.STAT_THROTTLED n then m.count HT.CNT_THROTTLE_CK n (m.ck - m.ht.thrAt.get n) else m
  m1.modHt fun h => { h with thrAt := h.thrAt.set n m.ck }

/-- HEARTH_TEMP_READ (R291, R293): the stack temperature is read; refresh is halved, traffic throttled, or the stack tripped. -/
def hearthTempRead (n temp : Nat) (m : Mach) : Mach :=
  if !m.stackIn n || m.mode = mSafehold || m.flag HT.STAT_SELF_REFRESH n then m
  else
    let t := sx 8 temp
    let m0 := (m.settleThrottle n).put HT.TEMP n temp
    let hot : Int := m.get HT.REF_TEMP_HOT n
    let thr : Int := m.get HT.REF_TEMP_THROTTLE n
    let m1 := if hot ≤ t then (if m.flag HT.STAT_HOT n then m0 else (m0.setFlag HT.STAT_HOT n true).event .ht n HT.EV_HOT)
      else if t ≤ hot - 5 then m0.setFlag HT.STAT_HOT n false else m0
    let m2 := if thr ≤ t then (if m.flag HT.STAT_THROTTLED n then m1 else (m1.setFlag HT.STAT_THROTTLED n true).event .ht n HT.EV_THROTTLE)
      else if t ≤ thr - 5 then m1.setFlag HT.STAT_THROTTLED n false else m1
    let m3 := m2.showCapability n
    if (m.get HT.REF_TEMP_TRIP n : Int) ≤ t then (m3.event .ht n HT.EV_TRIP).stackFail n else m3

/-! ### Lanes (R302) -/

/-- The half of a data lane. -/
def laneHalf (k : Nat) : Nat := if laneNo k < 16 || laneNo k = 32 || laneNo k = 34 then 0 else 1
/-- The key of the spare of a lane's repair group, which names the group. -/
def laneSpare (k : Nat) : Nat := k - laneNo k + (if laneKind k = 0 then 34 + laneHalf k else 18)
/-- The lane is a spare. -/
def isSpare (k : Nat) : Bool := laneSpare k = k

/-- Read or command eye, and write eye. -/
def laneEye (v : Nat) : Nat := bits v 0 7
def laneWrEye (v : Nat) : Nat := bits v 8 7
/-- LANE_RES with STATE and REPLACED_BY. -/
def laneRes (v state by_ : Nat) : Nat := setBits (setBits (v % 2 ^ 48) 40 2 state) 42 6 by_

/-- The spares in use (R315). -/
def Mach.showRepair (m : Mach) (n : Nat) : Mach :=
  let r := (m.phy n).lanes.filter fun l => bits l.2 40 2 = 2
  (m.put HPHY.REPAIR_DQ n (r.filter fun l => laneKind l.1 = 0).length).put HPHY.REPAIR_CA n (r.filter fun l => laneKind l.1 = 1).length

/-- Both eyes of a lane are at least `e`; a command and address lane has one. -/
def eyesAt (k v e : Nat) : Bool := e ≤ laneEye v && (laneKind k = 1 || e ≤ laneWrEye v)

/-! ### Full and resume training (R304 to R308) -/

/-- The bin's timing values are loaded at training (R290). -/
def Mach.loadTiming (m : Mach) (n : Nat) : Mach :=
  (List.zip HT.timing (timingDefaults m.ht.bin)).foldl (fun (m : Mach) fv => m.put fv.1 n fv.2)
    (m.modHt fun h => { h with timing := h.timing.erase n })

/-- The stacks in service run at the lower bin and the smaller geometry; GEOMETRY reports the values in use (R271). -/
def Mach.useGeometry (m : Mach) : Mach :=
  let low (f : PhySt → Nat) : Nat := m.inService.foldl (fun a n => if a = 0 then f (m.phy n) else min a (f (m.phy n))) 0
  let b := low (·.b)
  let r := low (·.r)
  let bin := low (·.bin)
  let old := m.ht.bin
  let m1 := m.modHt fun h => { h with geomB := b, geomR := r, bin := bin }
  let m2 := if old = bin then m1 else m.inService.foldl (fun (m : Mach) n => m.loadTiming n) m1
  (m.inService.foldl (fun (m : Mach) n =>
    ((((m.put HT.GEOM_B n b).put HT.GEOM_R n r).put HT.GEOM_BIN n bin).put HT.GEOM_C n (m.stackMiB / 1024)).showCapability n) m2).showLayout

/-- The start sequence's training step has ended for every stack (R306, R430). -/
def Mach.bootTrained (m : Mach) : Mach :=
  if m.get GLOBAL.STAT_BOOT_STEP = 4 && (List.range m.integ.stackCount).all fun n => (m.phy n).want = 0 then
    if m.stacksIn = 0 then m.setFlag GLOBAL.STAT_BRINGUP_FAIL 0 true else m.showSingle
  else m

/-- A failed resume training has cost the contents (R308): they are declared lost once every full training that it led to has ended. -/
def Mach.lostSettle (m : Mach) : Mach :=
  let l := [0, 1].filter fun n => (m.phy n).lostAfter
  if l.isEmpty || l.any fun n => (m.phy n).want ≠ 0 then m
  else (l.foldl (fun (m : Mach) n => m.modPhy n fun p => { p with lostAfter := false }) m).contentLost

/-- A stack has completed its training: it is in service, with its bin's default timing (R289), and a new round of retraining lies before it. A
full training makes the repairs that were still due, and its codes are kept for resume training (R307, R311). -/
def Mach.trained (m : Mach) (n kind : Nat) : Mach :=
  let dur := (m.now - (m.phy n).startAt) / usec 1
  let m1 := (((m.put HPHY.TRAIN_KIND n kind).setFlag HPHY.TRAIN_PASS n true).put HPHY.TRAIN_DURATION n (satU 32 dur)).setFlag
    HPHY.STAT_TRAINING n false
  let m2 := m1.modPhy n fun p => { p with
    want := 0, step := 0, keeps := false, recorded := [], roundAt := m.now, roundTemp := sx 8 (m.get HT.TEMP n), dueAt := 0,
    overdue := false, srxAt := 0, codes := if kind = 1 then p.lanes else p.codes, repair := if kind = 1 then [] else p.repair }
  let m3 := (((m2.setFlag HT.STAT_IN_SERVICE n true).put HT.PC_SERVICE n (2 ^ 32 - 1)).setFlag HPHY.RETRAIN_DUE n false).put HPHY.RETRAIN_POS n 0
  let m4 := m3.modHt fun h => { h with pcs := h.pcs.mapv fun i p => if i / 32 = n then { p with banks := [], hold := false } else p }
  ((m4.useGeometry.loadTiming n).showCapability n).bootTrained.lostSettle

/-- The last attempt of a full training has failed: the stack fails (R298, R304, R306). -/
def Mach.trainFailed (m : Mach) (n : Nat) : Mach :=
  let dur := (m.now - (m.phy n).startAt) / usec 1
  let m1 := ((m.setFlag HPHY.TRAIN_PASS n false).put HPHY.TRAIN_DURATION n (satU 32 dur)).event .hphy n HPHY.EV_TRAIN_FAIL
  (m1.stackFail n).bootTrained.lostSettle

/-- An attempt of a full training fails: it is repeated from step 2, or was the last (R304). -/
def Mach.attemptFailed (m : Mach) (n : Nat) (final : Bool) : Mach :=
  let a := m.get HPHY.TRAIN_ATTEMPTS n
  let r := m.get HPHY.RETRY n
  let m0 := m.modPhy n fun p => { p with recorded := [], lanes := [], step := 1 }
  if final then ((m0.put HPHY.TRAIN_ATTEMPTS n (r + 1)).count HPHY.CNT_FULL n (r + 1 - a)).trainFailed n
  else if a ≤ r then (m0.put HPHY.TRAIN_ATTEMPTS n (a + 1)).count HPHY.CNT_FULL n
  else m0.trainFailed n

/-- The lanes that step `s` of a full training measures. -/
def stepLane (s k : Nat) : Bool :=
  if s = 3 then laneKind k = 1 && !isSpare k else if s = 7 then isSpare k else laneKind k = 0 && !isSpare k

/-- One measured lane of steps 3, 5 and 6: it passes, is MARGINAL, or is recorded (R304, R305). -/
def Mach.trainLane (m : Mach) (n s : Nat) (x : LaneIn) : Mach :=
  let k := x.key.toNat
  let v := x.res.toNat
  let old := bits ((m.phy n).lanes.get k) 40 2
  let e := m.get HPHY.MIN_EYE n
  let pass := if s = 6 then m.get HPHY.MIN_VREF n ≤ x.margin.toNat else eyesAt k v e
  let marginal := s ≠ 6 && pass && !eyesAt k v (e + 8)
  let st := if !pass then 3 else if marginal then 1 else old
  let m1 := m.modPhy n fun p => { p with
    lanes := p.lanes.set k (laneRes v st 0), recorded := if pass || p.recorded.contains k then p.recorded else p.recorded ++ [k] }
  if marginal && old ≠ 1 then (m1.event .hphy n HPHY.EV_MARGINAL).count HPHY.CNT_MARGINAL n else m1

/-- Step 7: every recorded lane is mapped onto the spare of its group, or the attempt fails (R304). A spare may be MARGINAL (R305). -/
def Mach.laneRepair (m : Mach) (n : Nat) (ls : List LaneIn) : Option Mach :=
  let rec_ := (m.phy n).recorded
  let bad := rec_.any fun k => (rec_.filter fun j => laneSpare j = laneSpare k).length ≠ 1 ||
    ls.any fun x => x.key.toNat = laneSpare k &&
      !(eyesAt (laneSpare k) x.res.toNat (m.get HPHY.MIN_EYE n) &&
        (laneKind k = 1 || m.get HPHY.MIN_VREF n ≤ x.margin.toNat))
  if bad then none
  else
    let used := ls.filter fun x => rec_.any fun k => laneSpare k = x.key.toNat
    let low (x : LaneIn) : Bool := !eyesAt x.key.toNat x.res.toNat (m.get HPHY.MIN_EYE n + 8)
    let m1 := (used.filter low).foldl (fun (m : Mach) _ => (m.event .hphy n HPHY.EV_MARGINAL).count HPHY.CNT_MARGINAL n) m
    some ((m1.modPhy n fun p => { p with
      lanes := rec_.foldl (fun t k => t.set k (laneRes (t.get k) 2 (laneNo (laneSpare k))))
        (used.foldl (fun t x => t.set x.key.toNat (laneRes x.res.toNat (b2n (low x)) 0)) p.lanes) }).showRepair n)

/-- FULL_TRAINING (R304): stack `n` runs the next step of full training. `kill`: a failure other than a lane's; `b`, `r`, `bin` and the
refresh-management figures are what step 1 reads; a lane that is not listed passes. -/
def fullTraining (n : Nat) (kill : Bool) (b r bin : Nat) (need : Bool) (imt mmt : Nat) (ls : List LaneIn) (m0 : Mach) : Mach :=
  let begin_ := m0.get GLOBAL.STAT_BOOT_STEP = 3 && m0.bootFree && m0.flag CLOCK.STAT_PLL_LOCK
  let m := if begin_ then
      ((List.range m0.integ.stackCount).foldl (fun (m : Mach) k =>
        ((m.modPhy k fun p => { p with want := 1, fill := true, startAt := m.now }).setFlag HT.STAT_FITTED k true).setFlag
          HT.GEOM_FITTED k true) m0).put GLOBAL.STAT_BOOT_STEP 0 4
    else m0
  let p := m.phy n
  if p.want ≠ 1 || !m.flag CLOCK.STAT_PLL_LOCK || m.mode = mSafehold || !m.outOfReset then m
  else
    let s := p.step + 1
    let m1 := (m.put HPHY.TRAIN_KIND n 1).setFlag HPHY.STAT_TRAINING n true
    let m2 := if p.step = 0 || m.get HPHY.TRAIN_ATTEMPTS n = 0 then
      ((m1.put HPHY.TRAIN_ATTEMPTS n 1).count HPHY.CNT_FULL n).setFlag HPHY.TRAIN_PASS n false else m1
    let m3 := (m2.put HPHY.TRAIN_STEP n s).modPhy n fun p => { p with step := s }
    if s = 1 then
      let m4 := m3.modPhy n fun p => { p with b := b, r := r, bin := bin, recorded := [], lanes := [] }
      let m4 := (((m4.put HT.GEOM_B n b).put HT.GEOM_R n r).put HT.GEOM_BIN n bin).put HT.GEOM_C n (2 ^ (b + r) / 32 / 1024)
      if !kill && 4 ≤ b && b ≤ 6 && 13 ≤ r && r ≤ 15 && bin ≠ 0 then
        (((m4.setFlag HT.RFM_ENABLE n need).put HT.RFM_RAAIMT n imt).put HT.RFM_RAAMMT n mmt).modHt fun h => { h with
          rfmNeed := h.rfmNeed.set n need, raaimt := h.raaimt.set n imt, raammt := h.raammt.set n mmt }
      else m4.attemptFailed n true
    else if kill then m3.attemptFailed n false
    else if s = 7 then
      match m3.laneRepair n (ls.filter fun x => stepLane 7 x.key.toNat) with
      | none => m3.attemptFailed n false
      | some m4 => m4.trained n 1
    else if s = 3 || s = 5 || s = 6 then
      (ls.filter fun x => stepLane s x.key.toNat).foldl (fun (m : Mach) x => m.trainLane n s x) m3
    else m3

/-- Full training from step 2, without a stack reset (R308). -/
def Mach.fullAgain (m : Mach) (n : Nat) (keeps lost : Bool) : Mach :=
  if (m.phy n).want = 1 then m.modPhy n fun p => { p with keeps := keeps, lostAfter := lost }
  else
    let m1 := m.modPhy n fun p => { p with
      want := 1, step := 1, startAt := m.now, keeps := keeps, lostAfter := lost, recorded := [], lanes := [] }
    (((m1.put HPHY.TRAIN_ATTEMPTS n 1).count HPHY.CNT_FULL n).setFlag HPHY.TRAIN_PASS n false)

/-- Resume training has failed at step `s` (R308): with step 2 passed the contents are kept; else they are lost once full training, which
every stack in service then runs (R304), has ended. -/
def Mach.resumeFailed (m : Mach) (n s : Nat) : Mach :=
  let m1 := m.event .hphy n HPHY.EV_RESUME_FAIL
  if 2 < s then m1.fullAgain n true (m.phy n).lostAfter
  else m1.inService.foldl (fun (m : Mach) k => m.fullAgain k false true) m1

/-- RESUME_TRAINING (R307): stack `n` runs the next step of resume training, once it is out of self-refresh; `ok` is the step's outcome, and
step 4 judges the listed lanes at FLOOR_EYE. Step 1 loads the stored codes. -/
def resumeTraining (n : Nat) (ok : Bool) (ls : List LaneIn) (m : Mach) : Mach :=
  let p := m.phy n
  if p.want ≠ 2 || !m.flag CLOCK.STAT_PLL_LOCK || m.mode = mSafehold || !m.outOfReset || !m.srxOver n then m
  else
    let s := p.step + 1
    let m0 := if p.step = 0 then
      (((m.count HPHY.CNT_RESUME n).put HPHY.TRAIN_ATTEMPTS n 1).setFlag HPHY.TRAIN_PASS n false).modPhy n fun p => { p with
        startAt := m.now, lanes := p.codes } else m
    let m1 := (((m0.put HPHY.TRAIN_KIND n 2).setFlag HPHY.STAT_TRAINING n true).put HPHY.TRAIN_STEP n s).modPhy n fun p =>
      { p with step := s, keeps := 2 ≤ s }
    let floor := m.get HPHY.FLOOR_EYE n
    let pass := ok && (s ≠ 4 || ls.all fun x => laneKind x.key.toNat = 1 || eyesAt x.key.toNat x.res.toNat floor)
    if !pass then m1.resumeFailed n s else if s = 4 then m1.trained n 2 else m1

/-! ### Fill and release (R296, R428) -/

/-- The Core is released (step 6 of R428): mode BRINGUP, TBCLK starts, and the links and Collier begin. DESIGN CHOICE, log entry 82: until the
level of TB_ALIVE has changed for the first time the silence of R42 is counted from here. -/
def Mach.coreRelease (m : Mach) : Mach :=
  let m1 := (((m.put GLOBAL.STAT_BOOT_STEP 0 6).setFlag GLOBAL.STAT_RELEASED 0 true).setMode mBringup).modAlm fun a =>
    { a with aliveAt := m.now }
  (m1.put COLLIER.STAT_STATE 0 1).showLayout.showWarm

/-- Step 5 of the start sequence has ended: the Core is released once no warning holds it. -/
def Mach.bootFilled (m : Mach) : Mach :=
  if m.get GLOBAL.STAT_BOOT_STEP = 5 && 0 < m.stacksIn && m.inService.all (fun n => !(m.phy n).fill) && m.bootFree then m.coreRelease
  else m

/-- The fill of a stack may run: at the start once every stack has been trained, later at once. -/
def Mach.mayFill (m : Mach) (n : Nat) : Bool :=
  let p := m.phy n
  let b := m.get GLOBAL.STAT_BOOT_STEP
  m.stackIn n && p.fill && p.want = 0 && m.mode ≠ mSafehold && m.flag CLOCK.STAT_PLL_LOCK &&
    !(b = 4 && !(m.bootFree && (List.range m.integ.stackCount).all fun k => (m.phy k).want = 0))

/-- HEARTH_FILL (R296): the fill engine writes `k` more lines of stack `n` with zero data and valid metadata. -/
def hearthFill (n k : Nat) (m : Mach) : Mach :=
  if !m.mayFill n then m
  else
    let m1 := if m.get GLOBAL.STAT_BOOT_STEP = 4 then
        ((m.modHt fun h => { h with dir := [], wbs := [] }).put HT.DIR_COUNT 0 0).put GLOBAL.STAT_BOOT_STEP 0 5
      else m
    let a := if m1.flag HT.STAT_FILLING n then m1.get HT.FILL_PROG n else 0
    let b := min m1.stackLines (a + k)
    let m2 := m1.modHt fun h => { h with cells := h.cells.filter fun c => !(n * 2 ^ 28 + a ≤ c.1 && c.1 < n * 2 ^ 28 + b) }
    (m2.setFlag HT.STAT_FILLING n true).put HT.FILL_PROG n b

/-- HEARTH_FILL_DONE (R296, R297): the fill has written every line: the stack serves traffic; the Parish is zero, and lost entries are
programmed with the poison tag by the writeback engine. -/
def hearthFillDone (n : Nat) (m : Mach) : Mach :=
  let p := m.phy n
  if !(p.fill && m.flag HT.STAT_FILLING n && m.get HT.FILL_PROG n = m.stackLines) then m.bootFilled
  else
    let m1 := (m.setFlag HT.STAT_FILLING n false).modPhy n fun p => { p with fill := false, lostFill := false }
    let m2 := if p.lostFill && m1.inService.all (fun k => !(m1.phy k).lostFill) then m1.parishBack.warmUp else m1
    (m2.showCapability n).bootFilled

/-! ### The layout of the regions (R276) -/

/-- LAYOUT_APPLY (R276): the written region sizes are refused, or applied with every CGEN incremented; the map region and the Loom area
restart empty: the map region warms again, and list copies are restored (R170). -/
def layoutApply (m : Mach) : Mach :=
  let l : Layout := ⟨m.get HT.LAYOUT_MAP, m.get HT.LAYOUT_SPILL, m.get HT.LAYOUT_LOOM⟩
  let refuse (r : Nat) : Mach := (m.put HT.LAYOUT_RESULT 0 1).put HT.LAYOUT_REASON 0 r
  if m.get KILN.ACTIVE ≠ 0 || m.get KILN.SPILL_LEVEL ≠ 0 || m.get LOOM.ACTIVE ≠ 0 then refuse 1
  else if m.stackMiB < m.mapBase / 4096 + l.map + l.spill + l.loom + 1024 || l.map % 64 ≠ 0 || l.spill % 64 ≠ 0 ||
      l.loom % 64 ≠ 0 then refuse 2
  else
    let m1 := ((m.modHt fun h => { h with layout := some l }).bumpAllCgen).showLayout
    let m2 := m1.hmapLost.loomForget
    ((((m2.setFlag MAP.STAT_WARM 0 false).put HT.LAYOUT_RESULT 0 0).put HT.LAYOUT_REASON 0 0).event .ht 0 HT.EV_LAYOUT_DONE).warmUp

/-! ### Periodic retraining (R309 to R312) -/

/-- RETRAIN_ROUND_DUE (R309, R312): a round is due by time, or by temperature, since the last one began; a new one merges with one that is
not complete, which then counts as begun now. -/
def retrainRoundDue (n : Nat) (m : Mach) : Mach :=
  let p := m.phy n
  let t := sx 8 (m.get HT.TEMP n)
  let step : Int := m.get HPHY.RETRAIN_TEMP_STEP n
  let due := p.roundAt + msec (m.get HPHY.RETRAIN_PERIOD n) ≤ m.now || step ≤ t - p.roundTemp || step ≤ p.roundTemp - t
  if !m.stackUp n || !due then m
  else if m.flag HPHY.RETRAIN_DUE n then m.modPhy n fun p => { p with roundAt := m.now, roundTemp := t }
  else (m.setFlag HPHY.RETRAIN_DUE n true).modPhy n fun p => { p with dueAt := m.now + 1, overdue := false }

/-- The unit in progress may not begin: a refresh at its limit, or a bank at RAAMMT (R310). -/
def Mach.unitBlocked (m : Mach) (n pc : Nat) : Bool :=
  let p := m.pcSt n pc
  m.get HT.REF_POSTPONE n ≤ p.postponed && 0 < p.postponed ||
    (m.flag HT.RFM_ENABLE n && 0 < m.get HT.RFM_RAAMMT n && p.banks.any fun b => m.get HT.RFM_RAAMMT n ≤ b.2.raa)

/-- Step 1 of a unit (R310): the pseudo-channel is held, its rows are closed, and it leaves service. -/
def Mach.unitBegin (m : Mach) (n pc : Nat) : Mach :=
  let m1 := m.modPc n pc fun p => { p with hold := true, banks := p.banks.mapv fun _ b => m.closeBank b }
  (((m1.setFlag HPHY.STAT_UNIT n true).put HT.PC_SERVICE n (m1.get HT.PC_SERVICE n - 2 ^ pc)).showCapability n).modPhy n fun p =>
    { p with unitAt := m.now }

/-- The unit ends: the pseudo-channel serves again (R310). -/
def Mach.unitEnd (m : Mach) (n pc : Nat) : Mach :=
  let m1 := ((m.modPc n pc fun p => { p with hold := false }).setFlag HPHY.STAT_UNIT n false).unitsEnded m 4
  let m2 := (m1.put HT.PC_SERVICE n (m1.get HT.PC_SERVICE n + 2 ^ pc)).showCapability n
  (m2.count HPHY.CNT_UNITS n).count HPHY.CNT_HOLD_NS n ((m.now - (m.phy n).unitAt) * 10 / 192)

/-- RETRAIN_UNIT (R310, R311): the next pseudo-channel of the round is taken; or the unit in progress ends with the listed lanes'
new eyes, a lane below FLOOR_EYE keeping its codes and being recorded. A command and address lane below it fails the stack. -/
def retrainUnit (n : Nat) (ls : List LaneIn) (m : Mach) : Mach :=
  let pc := m.get HPHY.RETRAIN_POS n
  if !m.stackUp n || !m.flag HPHY.RETRAIN_DUE n then m
  else if !m.flag HPHY.STAT_UNIT n then
    if m.window 4 && m.flag HPHY.CTL_RETRAIN_EN n && !m.unitBlocked n pc && ((m.phy n).repair.get pc).isEmpty then
      let m1 := m.unitBegin n pc
      if pc = 0 then m1.modPhy n fun p => { p with roundAt := m.now, roundTemp := sx 8 (m.get HT.TEMP n) } else m1
    else m
  else if !((m.phy n).repair.get pc).isEmpty then m
  else
    let floor := m.get HPHY.FLOOR_EYE n
    let caFail := ls.any fun x => laneKind x.key.toNat = 1 && !eyesAt x.key.toNat x.res.toNat floor
    let inUse (k : Nat) : Bool := !isSpare k || (m.phy n).lanes.any fun l => bits l.2 40 2 = 2 && laneSpare l.1 = k
    let mine := ls.filter fun x => laneKind x.key.toNat = 0 && laneIdx x.key.toNat = pc && inUse x.key.toNat
    let low := (mine.filter fun x => !eyesAt x.key.toNat x.res.toNat floor).map fun x => x.key.toNat
    let m1 := (m.unitEnd n pc).modPhy n fun p => { p with
      lanes := mine.foldl (fun (t : Tab Nat) x =>
        let k := x.key.toNat
        if low.contains k then t else t.set k (laneRes x.res.toNat (bits (t.get k) 40 2) (bits (t.get k) 42 6))) p.lanes,
      repair := p.repair.set pc low }
    if caFail then m1.stackFail n
    else if !low.isEmpty then m1
    else if pc = 31 then
      ((m1.put HPHY.RETRAIN_POS n 0).setFlag HPHY.RETRAIN_DUE n false).modPhy n fun p => { p with dueAt := 0, overdue := false }
    else m1.put HPHY.RETRAIN_POS n (pc + 1)

/-- REPAIR_UNIT (R311): the lanes that the last unit recorded are mapped onto the spares of their groups, whose new eyes are listed;
when a spare is in use already or fails, the stack fails. The round then goes on behind this pseudo-channel. -/
def repairUnit (n : Nat) (ls : List LaneIn) (m : Mach) : Mach :=
  let pc := m.get HPHY.RETRAIN_POS n
  let low := (m.phy n).repair.get pc
  if !m.stackUp n || low.isEmpty then m
  else if !m.flag HPHY.STAT_UNIT n then
    if m.window 4 && m.flag HPHY.CTL_RETRAIN_EN n && !m.unitBlocked n pc then m.unitBegin n pc else m
  else
    let lanes := (m.phy n).lanes
    let used (k : Nat) : Bool := lanes.any fun l => bits l.2 40 2 = 2 && laneSpare l.1 = laneSpare k
    let fails (k : Nat) : Bool := used k || (low.filter fun j => laneSpare j = laneSpare k).length ≠ 1 ||
      ls.any fun x => x.key.toNat = laneSpare k && !eyesAt x.key.toNat x.res.toNat (m.get HPHY.FLOOR_EYE n)
    let m1 := (m.unitEnd n pc).modPhy n fun p => { p with repair := p.repair.erase pc }
    if low.any fails then m1.stackFail n
    else
      let spared (t : Tab Nat) : Tab Nat := low.foldl (fun (t : Tab Nat) k => t.set k (laneRes (t.get k) 2 (laneNo (laneSpare k))))
        ((ls.filter fun x => low.any fun k => laneSpare k = x.key.toNat).foldl (fun (t : Tab Nat) x =>
          t.set x.key.toNat (laneRes x.res.toNat 0 0)) t)
      let m2 := (m1.modPhy n fun p => { p with lanes := spared p.lanes, codes := spared p.codes }).showRepair n
      let m3 := (m2.event .hphy n HPHY.EV_REPAIR).count HPHY.CNT_REPAIR n low.length
      if pc = 31 then
        ((m3.put HPHY.RETRAIN_POS n 0).setFlag HPHY.RETRAIN_DUE n false).modPhy n fun p => { p with dueAt := 0, overdue := false }
      else m3.put HPHY.RETRAIN_POS n (pc + 1)

/-- A unit in progress is abandoned (R312). -/
def Mach.unitAbandon (m : Mach) (n : Nat) : Mach :=
  if m.flag HPHY.STAT_UNIT n then
    let pc := m.get HPHY.RETRAIN_POS n
    (((m.modPc n pc fun p => { p with hold := false }).setFlag HPHY.STAT_UNIT n false).unitsEnded m 4).put HT.PC_SERVICE n (m.get HT.PC_SERVICE n + 2 ^ pc)
  else m

/-- RETRAIN_OVERDUE (R312): a round is not complete LIMIT ms after it became due. -/
def retrainOverdue (n : Nat) (m : Mach) : Mach :=
  let p := m.phy n
  if p.dueAt ≠ 0 && !p.overdue && m.mode ≠ mSafehold && p.dueAt - 1 + msec (m.get HPHY.RETRAIN_LIMIT n) ≤ m.now then
    (m.event .hphy n HPHY.EV_RETRAIN_OVERDUE).modPhy n fun p => { p with overdue := true }
  else m

/-! ### Test features (R313, R314) -/

/-- LOOPBACK_TEST (R313): a loopback runs to its end with the error counts of the listed lanes, or is refused while the stack is in
service. MODE 0 runs nothing. -/
def loopbackTest (n : Nat) (errs : List (BitVec 13 × BitVec 32)) (m : Mach) : Mach :=
  if m.stackIn n then m.put HPHY.TEST_STAT n 1
  else if m.get HPHY.TEST_MODE n = 0 then m.put HPHY.TEST_STAT n 0
  else (m.put HPHY.TEST_STAT n 0).modPhy n fun p => { p with
    errsFrom := 0, errs := errs.foldl (fun (t : Tab Nat) e => t.set e.1.toNat e.2.toNat) [] }

/-- The same for a loopback that a register write starts: its error counts are free values, one for each lane key (R313). -/
def loopbackFree (n : Nat) (m : Mach) : Mach :=
  if m.stackIn n || m.get HPHY.TEST_MODE n = 0 then loopbackTest n [] m
  else { (loopbackTest n [] m).modPhy n fun p => { p with errsFrom := m.free + 1 } with free := m.free + 2 ^ 13 }

/-- T1500_GO (R314): a host instruction is shifted and returns what the stack shifts out, or a write is refused in service. -/
def t1500Go (n : Nat) (out : Nat) (m : Mach) : Mach :=
  if m.stackIn n && m.flag HPHY.T1500_WRITE n then m.put HPHY.T1500_STAT n 1
  else (m.put HPHY.T1500_DATA n out).put HPHY.T1500_STAT n 0

def execHearthTempRead (n : BitVec 1) (temp : BitVec 8) (s : State) := answer s (hearthTempRead n.toNat temp.toNat)
def execLayoutApply (a : BitVec 3) (s : State) := answer s fun m => m.viaCfg a.toNat .ht 0 0x230 1 layoutApply
def execHearthFill (n : BitVec 1) (k : BitVec 29) (s : State) := answer s (hearthFill n.toNat k.toNat)
def execHearthFillDone (n : BitVec 1) (s : State) := answer s (hearthFillDone n.toNat)
def execStackFail (n : BitVec 1) (errs : BitVec 8) (s : State) := answer s (stackFailCmd n.toNat errs.toNat)
def execFullTraining (n : BitVec 1) (kill : Bool) (b r : BitVec 4) (bin : BitVec 2) (need : Bool) (imt : BitVec 8) (mmt : BitVec 16)
    (ls : List LaneIn) (s : State) :=
  answerIf (lanesOk ls) s (fullTraining n.toNat kill b.toNat r.toNat bin.toNat need imt.toNat mmt.toNat ls)
def execResumeTraining (n : BitVec 1) (ok : Bool) (ls : List LaneIn) (s : State) :=
  answerIf (lanesOk ls) s (resumeTraining n.toNat ok ls)
def execRetrainRoundDue (n : BitVec 1) (s : State) := answer s (retrainRoundDue n.toNat)
def execRetrainUnit (n : BitVec 1) (ls : List LaneIn) (s : State) := answerIf (lanesOk ls) s (retrainUnit n.toNat ls)
def execRepairUnit (n : BitVec 1) (ls : List LaneIn) (s : State) := answerIf (lanesOk ls) s (repairUnit n.toNat ls)
def execRetrainOverdue (n : BitVec 1) (s : State) := answer s (retrainOverdue n.toNat)
def execLoopbackTest (a : BitVec 3) (n : BitVec 1) (mode : BitVec 2) (dur : BitVec 16) (errs : List (BitVec 13 × BitVec 32)) (s : State) :=
  answerIf (errLanesOk errs) s fun m =>
    m.viaCfg a.toNat .hphy n.toNat 0x138 (mode.toNat + 16 + dur.toNat * 65536) fun m =>
      let m1 := if mode.toNat < 3 then m.put HPHY.TEST_MODE n.toNat mode.toNat else m.cfgReserved a.toNat .hphy n.toNat 0x138
      let m2 := if dur.toNat = 0 then m1.reject .hphy n.toNat else m1.put HPHY.TEST_DURATION n.toNat dur.toNat
      loopbackTest n.toNat errs (m2.put HPHY.TEST_GO n.toNat 1)
def execT1500Go (a : BitVec 3) (n : BitVec 1) (out : Word) (s : State) :=
  answer s fun m => m.viaCfg a.toNat .hphy n.toNat 0x160 1 (t1500Go n.toNat out.toNat)

end Sys2Proof.Machine
end

