-- ==== Sys2Proof/Machine/Post.lean ====
section
/-! DEFINITION. The Parish and its window, latches, posts, Collier's service cycle and its restarts (chapter "Collier, posts and command
blocks", R403 to R421). -/
namespace Sys2Proof.Machine

/-- Change what the posts and Collier hold. -/
def Mach.modPost (m : Mach) (f : PostSt → PostSt) : Mach := { m with post := f m.post }

/-! ### The Parish (R407, R274, R246) -/

/-- Bytes of an agent's area. -/
def Mach.areaBytes (m : Mach) : Nat := m.integ.parishMiB * 65536
/-- Bytes `x` to `x + n - 1` lie in the area of agent `a`. -/
def Mach.inArea (m : Mach) (a x n : Nat) : Bool := a * m.areaBytes ≤ x && x + n ≤ (a + 1) * m.areaBytes

/-- A fresh free line: words that the spec leaves open. -/
def Mach.freeLine (m : Mach) : Line × Mach :=
  (Line.ofWords ((List.range 32).map fun i => Config.freeWord (m.free + i)), { m with free := m.free + 32 })

/-- The stacks a Parish access reaches; a gated clock or a switched-off domain of theirs resumes (R446, R468). -/
def Mach.parishWake (m : Mach) : Mach := m.inService.foldl (fun (m : Mach) n => (m.wakeDomain (3 + n)).wakeClock (10 + n)) m

/-- The Parish line is written alike on every stack in service. -/
def Mach.parishStore (m : Mach) (l : Nat) (c : HLine) : Mach :=
  m.inService.foldl (fun (m : Mach) n => (m.hWrite (n, l) (2 ^ 52) c).hQueue 18 (n, l) true) m

/-- Read Parish line `l`: its data, whether it is poison (its value is then open), and the machine. A copy that fails its check is
replaced by that of the other stack, as for a dirty line (R246). -/
def Mach.parishRead (m0 : Mach) (l : Nat) : Line × Bool × Mach :=
  let m := m0.parishWake
  let bad (m : Mach) : Line × Bool × Mach := let r := m.freeLine; (r.1, true, r.2)
  match m.inService with
  | [] => bad m
  | n :: rest =>
    let c := m.cell (n, l)
    let m1 := m.hQueue 18 (n, l) false
    if c.cls = 2 then bad m1
    else if c.cls ≠ 3 then (c.data, false, m1)
    else
      let info : RingInfo := { (default : RingInfo) with
        path := 1, tick := m.get ALM.TB_NOW, stack := n, rq := 18, est := m.estimated, step := 4, outcome := 2 }
      let m2 := (m1.count ERR.CNT_HEARTH_FAIL).judgeEst
      let o : HLine := match rest with | k :: _ => m2.cell (k, l) | [] => c
      if o.cls ≠ 3 then
        let m3 := (m2.hWrite (n, l) (2 ^ 52) o).ringAdd info
        if o.cls = 2 then bad m3 else (o.data, false, m3)
      else
        let m2 := if rest.isEmpty then m2 else m2.count ERR.CNT_HEARTH_FAIL
        bad (((m2.parishStore l { c with tagX := poisonXor, mcrcX := 0 }).poisoned).ringAdd { info with step := 5, outcome := 4 })

/-- Write the bytes of `mask` in Parish line `l`; a poison line stays poison. -/
def Mach.parishMerge (m : Mach) (l : Nat) (mask d : Line) : Mach :=
  let r := m.parishRead l
  r.2.2.parishStore l { (default : HLine) with
    data := (r.1 &&& ~~~mask) ||| (d &&& mask), tagX := if r.2.1 && mask ≠ BitVec.allOnes 2048 then poisonXor else 0 }

/-- Write `n` bytes at Parish offset `x` with the value `v`. -/
def Mach.parishPut (m : Mach) (x n v : Nat) : Mach :=
  let sh := 8 * (x % 256)
  (List.range ((x % 256 + n + 255) / 256)).foldl (fun (m : Mach) j =>
    m.parishMerge (x / 256 + j) (BitVec.ofNat 2048 ((2 ^ (8 * n) - 1) * 2 ^ sh / 2 ^ (2048 * j)))
      (BitVec.ofNat 2048 (v % 2 ^ (8 * n) * 2 ^ sh / 2 ^ (2048 * j)))) m

/-- Read `n` bytes at Parish offset `x`. -/
def Mach.parishGet (m : Mach) (x n : Nat) : Nat × Mach :=
  let k := (x % 256 + n + 255) / 256
  let r := (List.range k).foldl (fun (a : Nat × Mach) j =>
    let y := a.2.parishRead (x / 256 + j)
    (a.1 + y.1.toNat * 2 ^ (2048 * j), y.2.2)) (0, m)
  (bits r.1 (8 * (x % 256)) (8 * n), r.2)

/-- The Parish can be read and written: every stack in service serves traffic. -/
def Mach.parishUp (m : Mach) : Bool := 0 < m.stacksIn && m.inService.all fun n => !(m.phy n).fill && !m.flag HT.STAT_SELF_REFRESH n

/-! ### The window (R407, R408) -/

/-- The banked PW_ADDR of an agent. -/
def Mach.pwAddr (m : Mach) (a : Nat) : Nat := (m.post.pwAddr.get a).getD (a * m.areaBytes)
/-- It becomes `x`, cut to [29:3]. -/
def Mach.setPwAddr (m : Mach) (a x : Nat) : Mach := m.modPost fun p => { p with pwAddr := p.pwAddr.set a (some (x % 2 ^ 30 / 8 * 8)) }

/-- PW_DATA_READ (R407). -/
def pwDataRead (a : Nat) (m : Mach) : Mach :=
  let x := m.pwAddr a
  let m1 := m.setPwAddr a (x + 8)
  if m.inArea a x 8 then
    let r := m1.parishGet x 8
    { r.2 with cfg := some ⟨a, BitVec.ofNat 64 r.1, false⟩ }
  else ({ m1 with cfg := some ⟨a, 0, false⟩ } : Mach).event .post 0 POST.EV_PW_RANGE

/-- PW_DATA_WRITE (R407, R408). -/
def pwDataWrite (a v : Nat) (m : Mach) : Mach :=
  let x := m.pwAddr a
  let m1 := m.setPwAddr a (x + 8)
  if m.inArea a x 8 then m1.parishPut x 8 v else m1.event .post 0 POST.EV_PW_RANGE

/-! ### Latches (R409 to R411, R417) -/

/-- Collier holds the latches that are free: the Parish fill after a loss has not ended (R417). -/
def Mach.parishHeld (m : Mach) : Bool := m.inService.any fun n => (m.phy n).lostFill

/-- The owner number that a latch shows, 0 when it is free. -/
def Mach.latchOwner (m : Mach) (k : Nat) : Nat := (m.post.latches.get k).owner

/-- Latch `k` is released; Collier takes it while it holds the latches (R417). -/
def Mach.latchFree (m : Mach) (k : Nat) : Mach :=
  m.modPost fun p => { p with latches := p.latches.set k (if m.parishHeld then ⟨15, m.now, false⟩ else default) }

/-- Latch `k` is broken: released with BROKEN set (R410). -/
def Mach.latchBreak (m : Mach) (k : Nat) : Mach :=
  ((m.latchFree k).put POST.LATCH_BROKEN 0 (m.get POST.LATCH_BROKEN ||| 2 ^ k)).count POST.CNT_BROKEN

/-- AGENT_RST of an agent is asserted. -/
def Mach.agentReset (m : Mach) (a : Nat) : Bool := bitAt m.post.agentRst a

/-- A lease that has run out breaks its latch (R410). -/
def Mach.leaseBreak (m : Mach) (k : Nat) : Mach := (m.latchBreak k).count POST.CNT_LEASE_EXPIRED

/-- LATCH_READ (R409, R411): a free latch becomes the reader's, and is broken at once while the reader's AGENT_RST is asserted. One whose
lease has run out in this cycle breaks first, when another agent reads it. -/
def latchRead (a k : Nat) (m0 : Mach) : Mach :=
  let m := if (m0.post.latches.get k).expiring && m0.latchOwner k ≠ a + 1 then m0.leaseBreak k else m0
  let o := m.latchOwner k
  let m1 : Mach := { m with cfg := some ⟨a, BitVec.ofNat 64 o, false⟩ }
  if o ≠ 0 then m1
  else
    let m2 := m1.modPost fun p => { p with latches := p.latches.set k ⟨a + 1, m.now, false⟩ }
    if m.agentReset a then m2.latchBreak k else m2

/-- LATCH_REL (R410). -/
def latchRel (a v : Nat) (m : Mach) : Mach :=
  let ks := (List.range 8).filter fun k => bitAt v k
  let m1 := (ks.filter fun k => m.latchOwner k = a + 1).foldl (fun (m : Mach) k => m.latchFree k) m
  if ks.any fun k => m.latchOwner k ≠ a + 1 then m1.event .post 0 POST.EV_NOT_HOLDER else m1

/-- LATCH_LEASE_EXPIRE (R410, R411): an agent has held the latch for LATCH_LEASE µs. It breaks when the fabric cycle ends, so that a release by
the holder in the same cycle comes first. -/
def latchLeaseExpire (k : Nat) (m : Mach) : Mach :=
  let l := m.post.latches.get k
  if m.outOfReset && l.owner ≠ 0 && l.owner ≠ 15 && l.since + usec (m.get POST.LATCH_LEASE) ≤ m.now then
    m.modPost fun p => { p with latches := p.latches.set k { l with expiring := true } }
  else m

/-! ### Posts (R412 to R415) -/

/-- Inbound post `k`, and changing it. -/
def Mach.inPost (m : Mach) (k : Nat) : InPost := m.post.ins.get k
def Mach.modIn (m : Mach) (k : Nat) (f : InPost → InPost) : Mach := m.modPost fun p => { p with ins := p.ins.upd k f }
/-- Outbound post `k`, and changing it. -/
def Mach.outPost (m : Mach) (k : Nat) : OutPost := m.post.outs.get k
def Mach.modOut (m : Mach) (k : Nat) (f : OutPost → OutPost) : Mach := m.modPost fun p => { p with outs := p.outs.upd k f }

/-- A write of POST_IN_k's PTR or META: the holder's alone, and not while the post is FULL (R412); a holder whose latch breaks in this cycle is
none (R411). -/
def Mach.postWrite (m : Mach) (a k : Nat) (act : Mach → Mach) : Mach :=
  if m.latchOwner k ≠ a + 1 || (m.post.latches.get k).expiring then m.event .post 0 POST.EV_NOT_HOLDER
  else if (m.inPost k).full then m.event .post 0 POST.EV_PARAM_REJECT
  else act m

/-- A write of POST_IN_k_PTR. -/
def postPtr (a k v : Nat) (m : Mach) : Mach := m.postWrite a k fun m => m.modIn k fun p => { p with ptr := v }

/-- POST_NOTICE (R412): the write of POST_IN_k_META; FULL posts the notice. A post is a wake source (R417, R449). -/
def postNotice (a k v : Nat) (m : Mach) : Mach :=
  m.postWrite a k fun m =>
    let m1 := m.modIn k fun p => { p with len := bits v 0 32, seq := bits v 32 16 }
    if bitAt v 63 then
      (m1.modIn k fun p => { p with full := true, owner := a + 1, at_ := m.now, timedOut := false, due := false }).wake 3
    else m1

/-- POST_IN_TIMEOUT (R414): the report comes when the fabric cycle ends, unless the post is taken or withdrawn in it. -/
def postInTimeout (k : Nat) (m : Mach) : Mach :=
  let p := m.inPost k
  if m.outOfReset && p.full && !p.timedOut && p.at_ + usec (m.get POST.TIMEOUT) ≤ m.now then
    m.modIn k fun p => { p with due := true }
  else m

/-- The fabric cycle ends: the latches whose leases ran out in it and that are still held break, and the posts whose timeouts came in it and
that are still full are reported (R410, R411, R414). -/
def Mach.postEnd (m : Mach) : Mach :=
  (List.range 8).foldl (fun (m : Mach) k =>
    let m1 := if (m.post.latches.get k).expiring then m.leaseBreak k else m
    if !(m1.inPost k).due then m1
    else if !(m1.inPost k).full then m1.modIn k fun p => { p with due := false }
    else ((m1.modIn k fun p => { p with due := false, timedOut := true }).event .post 0 POST.EV_IN_TIMEOUT).count POST.CNT_IN_TIMEOUT) m

/-- CANCEL_STAT of an agent. -/
def Mach.setCancelStat (m : Mach) (a v : Nat) : Mach := m.modPost fun p => { p with cancelStat := p.cancelStat.set a v }

/-- WITHDRAW_POST (R414). -/
def withdrawPost (a k : Nat) (m : Mach) : Mach :=
  let p := m.inPost k
  if p.owner ≠ a + 1 then (m.event .post 0 POST.EV_NOT_HOLDER).setCancelStat a 2
  else if p.full then
    ((m.modIn k fun p => { p with full := false, timedOut := false, due := false }).setCancelStat a 0).count POST.CNT_WITHDRAW
  else m.setCancelStat a 1

/-- POST_OUT_ACK (R415). -/
def postOutAck (a k seq : Nat) (m : Mach) : Mach :=
  let p := m.outPost k
  if a = k && p.full && p.note.seq = seq then
    (m.modOut k fun p => { p with full := false, timedOut := false }).count POST.CNT_POSTS_OUT
  else m.event .post 0 POST.EV_NOT_HOLDER

/-- POST_OUT_TIMEOUT (R415). -/
def postOutTimeout (k : Nat) (m : Mach) : Mach :=
  let p := m.outPost k
  if m.outOfReset && p.full && !p.timedOut && p.at_ + usec (m.get POST.TIMEOUT) ≤ m.now then
    ((m.modOut k fun p => { p with timedOut := true }).event .post 0 POST.EV_OUT_TIMEOUT).count POST.CNT_OUT_TIMEOUT
  else m

/-! ### The end of holds (R116) -/

/-- The holds that `p` names end: the requests that no other hold stalls proceed. -/
def Mach.endHolds (m : Mach) (p : Hold → Bool) : Mach :=
  let m1 : Mach := { m with order := { m.order with holds := m.order.holds.filter fun h => !p h } }
  (List.range 16).foldl (fun (m : Mach) n =>
    ((m.port n).reqs.filter fun r => r.stall.isSome && (m.heldRange n r).isNone).foldl (fun (m : Mach) r =>
      m.modReq n r.id fun (x : Req) => { x with stall := none }) m) m1

/-- AGENT_RST (R417, R434): the level of AGENT_RST_n. -/
def agentRst (n : Nat) (on : Bool) (m : Mach) : Mach :=
  let m1 := m.modPost fun p => { p with agentRst := setBits p.agentRst n 1 (b2n on) }
  if !on || !m.outOfReset then m1
  else
    let m2 := ((List.range 8).filter fun k => m.latchOwner k = n + 1).foldl (fun (m : Mach) k => m.latchBreak k) m1
    let m3 := m2.modPost fun p => { p with
      outs := p.outs.set n default, pwAddr := p.pwAddr.set n none, cancelStat := p.cancelStat.set n 0,
      cancels := p.cancels.filter fun c => c.1 ≠ n }
    m3.endHolds fun h => h.agent = n

/-! ### Accepted commands (R415, R419, R420) -/

/-- Collier's state (R427). -/
def Mach.collier (m : Mach) : Nat := m.get COLLIER.STAT_STATE
/-- Collier firmware can work: RUNNING or ACTIVATING, the Core awake with Hearth serving, and its domain on. -/
def Mach.collierUp (m : Mach) : Bool :=
  (m.collier = 2 || m.collier = 3) && m.running && m.parishUp && bitAt (m.get POWER.PD_ON) 1

/-- Change accepted command `id`. -/
def Mach.modCmd (m : Mach) (id : Nat) (f : Cmd → Cmd) : Mach :=
  m.modPost fun p => { p with cmds := p.cmds.map fun c => if c.id = id then f c else c }

/-- Queue a notice for an agent, or drop it when its queue is full (R415). -/
def Mach.notify (m : Mach) (a : Nat) (n : Notice) : Mach :=
  if (m.outPost a).queue.length < 64 then m.modOut a fun p => { p with queue := p.queue ++ [n] } else m.count POST.CNT_OUT_DROPPED

/-- Place the next queued notice of every empty outbound post (R415). -/
def Mach.placeNotices (m : Mach) : Mach :=
  (List.range 8).foldl (fun (m : Mach) k =>
    let p := m.outPost k
    match p.queue with
    | n :: rest => if p.full then m else m.modOut k fun _ => ⟨n, true, false, m.now, rest⟩
    | [] => m) m

/-- Write result bytes of a command at an offset of its result area (R418). -/
def Mach.result (m : Mach) (c : Cmd) (off n v : Nat) : Mach :=
  if c.result = 0 || c.parishLost then m else m.parishPut (c.result + off) n v

/-- Write the words of a result from word 0 up. -/
def Mach.results (m : Mach) (c : Cmd) (ws : List Nat) : Mach :=
  m.result c 0 (8 * ws.length) (ws.foldr (fun w a => w % 2 ^ 64 + 2 ^ 64 * a) 0)

/-- Write a block's STATUS; after a loss of the Parish the header comes back from Collier RAM with PARISH_LOST (R417, R418). -/
def Mach.blockStatus (m : Mach) (c : Cmd) (code reason : Nat) : Mach :=
  let st := code + 256 * reason
  if c.parishLost then m.parishPut c.ptr 64 (setBits c.hdr.toNat 96 32 (st + 65536)) else m.parishPut (c.ptr + 12) 4 st

/-- A command ends with its final status: BUSY clears, and a notice is queued when NOTIFY asks for one (R413, R415, R420). -/
def Mach.finish (m : Mach) (c : Cmd) (code reason : Nat) : Mach :=
  let m1 := m.blockStatus c code reason
  let m2 := if (m1.inPost c.post).lastId = c.id then m1.modIn c.post fun p => { p with busy := false } else m1
  let m3 := m2.modPost fun p => { p with cmds := p.cmds.filter fun x => x.id ≠ c.id }
  let m4 := if code = 2 || code = 3 then m3.count POST.CNT_CMD_DONE else m3.count POST.CNT_CMD_FAILED
  if c.notify then m4.notify c.agent ⟨c.ptr, c.len, c.pseq⟩ else m4

/-- A command is refused (R419). -/
def Mach.refuse (m : Mach) (c : Cmd) (reason : Nat) : Mach := m.finish c 4 reason

/-- The bytes of an opcode's result (R422). -/
def resultBytes (trimSrc op p0 p1 p2 : Nat) : Nat :=
  match op with
  | 3 => 32 | 6 => 8 | 7 => 8 | 9 => 64 | 10 => 16 + 32 * bits p1 0 11 | 11 => 8 | 12 => 8
  | 13 => if bitAt p0 2 && trimSrc = 2 then 16 + 24832 else 16
  | 15 => 256 | 16 => 24 + 4 * bits p2 0 16 | 17 => 96
  | _ => 0

/-- Take inbound post `k` (R413), and check its block (R420): its status, or a new command with STATUS ACCEPTED. -/
def Mach.takePost (m : Mach) (k : Nat) : Mach :=
  let p := m.inPost k
  let a := p.owner - 1
  let m1 := (m.modIn k fun p => { p with
    full := false, timedOut := false, due := false, lastSeq := p.seq, lastOwner := p.owner, busy := false }).count POST.CNT_POSTS_IN
  let bad (m : Mach) (write : Bool) (code reason : Nat) : Mach :=
    (if write then m.parishPut (p.ptr + 12) 4 (code + 256 * reason) else m).count POST.CNT_CMD_FAILED
  if p.ptr % 64 ≠ 0 || !m.inArea a p.ptr 1 then bad m1 (m.inArea a p.ptr 1) 5 16
  else
    let h := m1.parishGet p.ptr 64
    let w (i : Nat) : Nat := bits h.1 (64 * i) 64
    let len := bits (w 1) 0 32
    let op := bits (w 0) 0 16
    let res := w 2
    if m.post.lost && h.1 = 0 then bad h.2 true 6 0
    else if len ≠ p.len || len < 64 || 4096 < len || len % 8 ≠ 0 || !m.inArea a p.ptr len then bad h.2 true 5 17
    else if res ≠ 0 && (res % 64 ≠ 0 || !m.inArea a res (max 1 (resultBytes m.integ.trimSrc op (w 3) (w 4) (w 5)))) then
      bad h.2 true 5 18
    else if op = 0 || 17 < op then bad h.2 true 6 0
    else
      let f := h.2.flipS 2
      let c : Cmd := { (default : Cmd) with
        id := f.2.serial, post := k, pseq := p.seq, agent := a, ptr := p.ptr, op := op, notify := bitAt (w 0) 16,
        sequence := bits (w 0) 32 32, len := len, result := res, p0 := BitVec.ofNat 64 (w 3), p1 := BitVec.ofNat 64 (w 4),
        p2 := BitVec.ofNat 64 (w 5), hdr := BitVec.ofNat 512 h.1 }
      let m2 := (f.2.fresh.2.modPost fun q => { q with cmds := q.cmds ++ [c], ramBad := q.ramBad || f.1.1 }).modIn k fun p =>
        { p with busy := true, lastId := c.id }
      m2.parishPut (p.ptr + 12) 4 1

/-! ### Restarts (R406) -/

/-- Collier restarts cold: the commands whose BUSY is set are completed after it, and what else it held in its RAM is lost. -/
def Mach.collierRestart (m : Mach) (cause : Nat) : Mach :=
  let keep := m.post.cmds.filter fun c => (m.inPost c.post).busy && (m.inPost c.post).lastId = c.id
  let m1 := m.modPost fun p => { p with
    cmds := keep.map fun (c : Cmd) => { c with restart := true }, ramBad := false, cancels := [], fw := default,
    outs := p.outs.mapv fun _ o => { o with queue := [] } }
  let m2 := m1.modErr fun e => { e with gCmd := none }
  (((m2.put COLLIER.STAT_STATE 0 4).put COLLIER.RESTART_CAUSE 0 cause).count COLLIER.CNT_RESTART).event .collier 0 COLLIER.EV_RESTART

/-- A word of Collier RAM fails its CRC-8 (R247, R406). -/
def Mach.ramFail (m : Mach) : Mach :=
  ((m.ramWordFail 4 7 18).event .err 0 ERR.EV_COLLIER_RESTART).collierRestart 1

/-- COLLIER_WATCHDOG (R406): no service cycle has been finished within WDOG ms. -/
def collierWatchdog (m : Mach) : Mach :=
  if m.collier = 2 && m.running && m.post.servedAt + msec (m.get COLLIER.WDOG) ≤ m.now then
    (m.event .collier 0 COLLIER.EV_WATCHDOG).collierRestart 2
  else m

/-! ### Cancels (R421) -/

/-- An abortable opcode (R422). -/
def abortable (op : Nat) : Bool := op = 10 || op = 11 || op = 13 || op = 17

/-- The selector line: the active slot, and whether the other slot holds a valid staged image (R404). -/
def selectorLine (slot : Nat) (valid : Bool) : Line := BitVec.ofNat 2048 (slot % 2 + 2 * b2n valid)

/-- Program the selector on both copies; the number of programs. -/
def Mach.selectorProg (m : Mach) (id slot : Nat) (valid : Bool) : Nat × Mach :=
  m.storeProg 0 0 128 (selectorLine slot valid) 18 (.fwWr id 0)

/-- Drop the media programs that a command has queued (R421). -/
def Mach.dropFwProgs (m : Mach) (id : Nat) : Mach :=
  m.withdraw fun q => match q.job with | .fwWr i _ => i = id | _ => false

/-- The command's commit point has been passed (R406, R422): also a checkpoint's, a read's and a scrub pass's whose result has still to be
written. -/
def Mach.pastCommit (m : Mach) (c : Cmd) : Bool :=
  c.committed || (c.op = 6 && c.stage = 1 && c.arg ≤ m.get MAP.CKPT_GEN) || ((c.op = 15 || c.op = 17) && c.stage = 2)

/-- The channels of a capture that ends train anew as any others (R353). -/
def Mach.captureOver (m : Mach) (mask : Nat) : Mach :=
  ((List.range 32).filter fun ch => bitAt mask ch && m.link ch = 4).foldl (fun (m : Mach) ch =>
    m.toTrain ch (m.nextRate ch) (m.get ZML.LINK_WIDTH ch) true) m

/-- Answer one cancel. -/
def Mach.cancelOne (m : Mach) (a seq : Nat) : Mach :=
  match m.post.cmds.find? fun c => c.agent = a && c.sequence = seq && !c.cancelled with
  | none => m.setCancelStat a 1
  | some c =>
    if m.pastCommit c then m.setCancelStat a 1
    else if !abortable c.op then m.setCancelStat a 2
    else if c.op = 17 && m.err.gCmd = some c.id then
      if m.gleanGoing then ((m.modCmd c.id fun x => { x with cancelled := true }).setCancelStat a 0).modErr fun e =>
        { e with gAbort := true }
      else m.setCancelStat a 1
    else
      let m1 := m.dropFwProgs c.id
      -- a selector that may already be marked valid on one copy is marked not valid again (R422)
      let m2 := if c.op = 11 && c.stage = 2 then (m1.selectorProg c.id (m.get COLLIER.FW_SLOT) false).2 else m1
      let m3 := if c.op = 13 && c.stage = 1 then m2.captureOver c.arg else m2
      (m3.finish c 7 0).setCancelStat a 0

/-- CANCEL (R421): answered at once by a RUNNING Collier, else in its next service cycle; CANCEL_STAT reads BUSY until then. -/
def cancel (a seq : Nat) (m : Mach) : Mach :=
  if m.collierUp then m.cancelOne a seq
  else (m.setCancelStat a 3).modPost fun p => { p with cancels := p.cancels ++ [(a, seq)] }

/-! ### The service cycle (R413, R416) -/

/-- Take every full inbound post, from POST_IN_0 upward. -/
def Mach.takeAll (m : Mach) : Mach := ((List.range 8).filter fun k => (m.inPost k).full).foldl (fun (m : Mach) k => m.takePost k) m

/-- SERVICE_CYCLE (R413): inbound posts first, then cancels and outbound notices; `us` is what the cycle took. -/
def serviceCycle (us : Nat) (m : Mach) : Mach :=
  if !(m.collierUp && m.takesPosts) then m
  else if m.post.ramBad then m.ramFail
  else
    let m1 := m.takeAll
    let m2 := (m1.post.cancels.foldl (fun (m : Mach) c => m.cancelOne c.1 c.2) m1).modPost fun p => { p with cancels := [] }
    let m3 := m2.placeNotices
    ((m3.count COLLIER.CNT_SERVICE).put COLLIER.SERVICE_MAX 0 (max us (m3.get COLLIER.SERVICE_MAX))).modPost fun p =>
      { p with servedAt := m.now }

def execLatchRead (a k : BitVec 3) (s : State) :=
  answer s fun m => m.viaCfg a.toNat .post 0 (0x100 + 8 * k.toNat) 0 (latchRead a.toNat k.toNat) false
def execLatchRel (a : BitVec 3) (v : BitVec 8) (s : State) := answer s fun m => m.viaCfg a.toNat .post 0 0x140 v.toNat (latchRel a.toNat v.toNat)
def execLatchLeaseExpire (k : BitVec 3) (s : State) := answer s (latchLeaseExpire k.toNat)
def execPostNotice (a k : BitVec 3) (v : Word) (s : State) :=
  answer s fun m => m.viaCfg a.toNat .post 0 (0x208 + 0x20 * k.toNat) v.toNat (postNotice a.toNat k.toNat v.toNat)
def execServiceCycle (us : BitVec 16) (s : State) := answer s (serviceCycle us.toNat)
def execPostInTimeout (k : BitVec 3) (s : State) := answer s (postInTimeout k.toNat)
def execWithdrawPost (a k : BitVec 3) (s : State) :=
  answer s fun m => m.viaCfg a.toNat .post 0 (0x210 + 0x20 * k.toNat) 1 (withdrawPost a.toNat k.toNat)
def execPostOutAck (a k : BitVec 3) (seq : BitVec 16) (s : State) :=
  answer s fun m => m.viaCfg a.toNat .post 0 (0x310 + 0x20 * k.toNat) seq.toNat (postOutAck a.toNat k.toNat seq.toNat)
def execPostOutTimeout (k : BitVec 3) (s : State) := answer s (postOutTimeout k.toNat)
def execPwDataRead (a : BitVec 3) (s : State) := answer s fun m => m.viaCfg a.toNat .post 0 0x170 0 (pwDataRead a.toNat) false
def execPwDataWrite (a : BitVec 3) (v : Word) (s : State) :=
  answer s fun m => m.viaCfg a.toNat .post 0 0x170 v.toNat (pwDataWrite a.toNat v.toNat)
def execCancel (a : BitVec 3) (seq : BitVec 32) (s : State) :=
  answer s fun m => m.viaCfg a.toNat .post 0 0x178 seq.toNat (cancel a.toNat seq.toNat)
def execAgentRst (n : BitVec 3) (on : Bool) (s : State) := answer s (agentRst n.toNat on)
def execCollierWatchdog (s : State) := answer s collierWatchdog

end Sys2Proof.Machine
end

