-- ==== Sys2Proof/Machine/NsChange.lean ====
section
/-! DEFINITION. Changes of namespaces: what a broadcast does to descriptors, requests, streams, lists, holds and units (chapters
"Namespaces, the map and placement", R174 to R180, R201 to R204, and "Ordering, visibility and durability", R509). -/
namespace Sys2Proof.Machine

/-! ### The descriptor (R174) -/

/-- Word `i` of the descriptor of namespace `k`. -/
def Mach.nsWord (m : Mach) (k i : Nat) : Nat :=
  let d := m.nsDesc k
  match i with
  | 0 => d.size % 2 ^ 52 + d.prot % 4 * 2 ^ 52 + b2n d.ephemeral * 2 ^ 54 + b2n d.faultPolicy * 2 ^ 55 + b2n d.exists_ * 2 ^ 56
  | 1 => d.readPorts % 2 ^ 16 + d.writePorts % 2 ^ 16 * 2 ^ 16 + d.epoch % 2 ^ 32 * 2 ^ 32
  | 2 => d.size / unitBytes d.prot % 2 ^ 32 + d.mapped % 2 ^ 32 * 2 ^ 32
  | _ => m.nsHome k

/-- The delta records of a changed descriptor (R195). -/
def Mach.nsRecords (m : Mach) (k : Nat) : Mach :=
  (List.range 4).foldl (fun (m : Mach) i => (m.delta 1 k i (m.nsWord k i)).2) m

/-- EPOCH of a namespace is incremented, with its record; its units pass to the reclaimer, and no unit is mapped (R177, R201). -/
def Mach.nextEpoch (m : Mach) (k : Nat) : Mach :=
  let roots := (m.map.root.filter fun r => r.1 / 2 ^ 14 = k && r.2.valid).map fun r => r.1 % 2 ^ 14
  let m1 := m.modNs k fun d => { d with epoch := (d.epoch + 1) % 2 ^ 32, mapped := 0 }
  let m2 := roots.foldl (fun (m : Mach) r => m.addReclaim (k, r, 0, 2 ^ 32)) m1
  ((((m2.count MAP.CNT_EPOCH).delta 2 k 0 (m2.epoch k)).2).bumpCgen k)

/-- A stale root word of the namespace carries the EPOCH that an increment would give: the increment waits for it (R203). -/
def Mach.epochWaits (m : Mach) (k : Nat) : Bool :=
  m.map.root.any fun r => r.1 / 2 ^ 14 = k && r.2.valid && r.2.epoch = (m.epoch k + 1) % 2 ^ 32

/-! ### Requests to a removed range (R178, R509) -/

/-- A logical line lies in the removed range: namespace `k` from offset `lo` up. -/
def lineGone (k lo l : Nat) : Bool := lineNs l = k && lo ≤ lineOff l

/-- A request is dropped from the queues of Reeve and from stage C. -/
def Mach.unqueue (m : Mach) (port id : Nat) : Mach :=
  let mine (q : LineReq) : Bool := match q.job with | .client p i _ => p = port && i = id | _ => false
  let m1 := (m.withdraw mine).modReeve fun r => { r with
    cq := r.cq.mapv (fun _ l => l.filter fun x => x ≠ (port, id)),
    shapers := r.shapers.mapv fun _ s => { s with fifo := s.fifo.filter fun x => x ≠ (port, id) } }
  m1.modHt fun h => { h with pcs := h.pcs.mapv fun _ p => { p with queue := p.queue.filter fun q => !mine q } }

/-- A request that has taken effect nowhere ends ABORTED. -/
def Mach.abortReq (m : Mach) (port id : Nat) : Mach :=
  (m.unqueue port id).modReq port id fun (r : Req) => { r with
    phase := .ready, status := stAborted, lines := [], stall := none, word0 := 0 }

/-- A line of a request that has begun takes effect now, as though the change came after it: a read takes the value that it has, or
waits for the medium's; what a write has not written by then is never read back. -/
def Mach.forceLine (m : Mach) (port id k : Nat) : Mach :=
  match m.req? port id with
  | none => m
  | some r0 =>
    if (r0.lines.getD k default).phase == .done then m
    else
      let m1 := m.modLine port id k fun x => if x.phase == .hearth then { x with phase := .served } else x
      let m2 := match m1.req? port id with | some r => m1.lineStep port r k | none => m1
      match m2.req? port id with
      | none => m2
      | some r =>
        let x := r.lines.getD k default
        if x.phase == .done then m2
        else if writesLines r.op then m2.lineDone port id k stOk 0 0
        else if x.phase == .served then
          let c := m2.coherent r.rcls port (r.line k) (r.op ≠ opPrefetch) false r.at_
          match c.1 with
          | some (st, d, cls) => c.2.2.valueEffect port r k st d cls
          | none => c.2.2.missEffect port r k
        else m2

/-- Every request to the removed range is aborted, or forced to its end, in the order of acceptance. Requests that feed one of the
streams `ss` and have not been taken are aborted. -/
def Mach.cutRequests (m : Mach) (k lo : Nat) (ss : List Nat) : Mach :=
  let all := (List.range 16).flatMap fun p => (m.port p).reqs.map fun r => (p, r)
  let hit (r : Req) : Bool :=
    addressed r.op && r.fail.isNone && r.phase ≠ .ready &&
      (match r.stream with
       | some s => ss.contains s
       | none => r.op ≠ opAppend && lineGone k lo (r.line (r.nlines - 1)))
  let hits := (all.filter fun x => hit x.2).mergeSort fun a b => a.2.id ≤ b.2.id
  let m1 := (hits.filter fun x => !x.2.began).foldl (fun (m : Mach) x => m.abortReq x.1 x.2.id) m
  (hits.filter fun x => x.2.began).foldl (fun (m : Mach) x =>
    (List.range x.2.lines.length).foldl (fun (m : Mach) i => m.forceLine x.1 x.2.id i)
      (m.modReq x.1 x.2.id fun (r : Req) => { r with past := true })) m1

/-! ### Streams, lists, holds and Hearth (R138, R154, R116, R201, R283) -/

/-- An active stream whose target or index meets the removed range. -/
def Mach.strGone (m : Mach) (k lo s : Nat) : Bool :=
  let hit (a len : Nat) : Bool := 0 < len && a / 2 ^ 52 = k && lo < a % 2 ^ 52 + len
  m.strActive s && (hit (m.get STREAM.TARGET_ADDR s) (m.strLen s) ||
    (m.flag STREAM.MODE_IDX_ENABLE s && hit (m.get STREAM.IDX_ADDR s) (m.get STREAM.IDX_LEN s)))

/-- The removed range is taken from everything that works on it: `reason` is what its streams stop with. A purge (5) ends no hold (R116), and
a read of the medium under way leaves no copy of what it finds there (R111). -/
def Mach.removeRange (m : Mach) (k lo reason : Nat) : Mach :=
  let ss := (List.range 32).filter fun s => m.strGone k lo s
  let m1 := m.cutRequests k lo ss
  let m2 := ss.foldl (fun (m : Mach) s =>
    (m.strDiscard s reason).modStr s fun t => { t with idxLines := t.idxLines.filter fun l => !lineGone k lo l }) m1
  let m3 := m2.seqNsStop fun _ line n => lineGone k lo (line + n - 1)
  let m4 := (m3.loom.copies.filter fun c => c.kind ≠ 4 && lineGone k lo c.line).foldl (fun (m : Mach) c => m.loomDiscard c.line) m3
  let m5 := (if reason = 5 then m4 else m4.endHolds fun h => h.ns = k).markReads fun l _ => lineGone k lo l
  let m6 := ((m5.ht.dir.filter fun e => e.2.valid && e.2.lost && lineGone k lo e.2.line).map (·.1)).foldl
    (fun (m : Mach) e => m.dirFreeEnt e) m5
  if m6.gleaning then m6.modErr fun e => { e with gCut := e.gCut ++ [(k, lo)] } else m6

/-- The whole namespace is removed: EPOCH, CGEN and the reclaimer follow (R177, R201). -/
def Mach.removeAll (m : Mach) (k reason : Nat) : Mach := (m.removeRange k 0 reason).nextEpoch k

/-! ### The four changes -/

/-- Parameters of NS_CREATE and NS_RESIZE (R422). -/
def Cmd.ns (c : Cmd) : Nat := bits c.p0.toNat 0 8
def Cmd.size (c : Cmd) : Nat := bits c.p1.toNat 0 52
def Cmd.prot (c : Cmd) : Nat := bits c.p0.toNat 8 2
def Cmd.home (c : Cmd) : Nat := bits c.p0.toNat 16 5

/-- NS_CREATE takes hold (R175). -/
def Mach.nsCreated (m : Mach) (c : Cmd) : Mach :=
  let k := c.ns
  let m1 := m.nextEpoch k
  let m2 := m1.modNs k fun d => { d with
    size := c.size, prot := c.prot, ephemeral := bitAt c.p0.toNat 10, faultPolicy := bitAt c.p0.toNat 11, exists_ := true,
    readPorts := bits c.p2.toNat 0 16, writePorts := bits c.p2.toNat 16 16, homeX := Nat.xor c.home (k % 32) }
  (m2.setReserve k c.prot (c.size / unitBytes c.prot) c.home).nsRecords k

/-- The reservation of a namespace that is deleted stands until the reclaimer has finished with it (R177). -/
def Mach.keepResv (m : Mach) (k : Nat) : Mach :=
  m.modMap fun s =>
    let both : Tab Nat := (List.range 32).foldl (fun t c => t.set c ((s.resv.get k).get c + (s.resv.get (256 + k)).get c)) []
    { s with resv := (s.resv.erase k).set (256 + k) both }

/-- NS_DELETE takes hold (R177). -/
def Mach.nsDeleted (m : Mach) (k : Nat) : Mach :=
  (((m.removeAll k 4).modNs k fun d => { d with exists_ := false }).nsRecords k).keepResv k |>.releaseResv

/-- NS_RESIZE takes hold (R176): a shrink removes the range above the new SIZE, whose units pass to the reclaimer; a list whose port
loses read permission stops (R154). -/
def Mach.nsResized (m : Mach) (c : Cmd) : Mach :=
  let k := c.ns
  let d := m.nsDesc k
  let rd := bits c.p2.toNat 0 16
  let u := c.size / unitBytes d.prot
  let shrink := c.size < d.size
  let m1 := if shrink then (m.removeRange k c.size 4).bumpCgen k else m
  let m2 := m1.seqNsStop fun port line _ => lineNs line = k && !bitAt rd port
  let gone := if shrink then m2.map.ents.keys.filter fun x => unitNs x = k && u ≤ unitU x && m2.ent x ≠ 0 else []
  let roots := if shrink then (m2.map.root.filter fun r => r.1 / 2 ^ 14 = k && r.2.valid && u / 2 ^ 18 ≤ r.1 % 2 ^ 14).map
    fun r => (k, r.1 % 2 ^ 14, u, 2 ^ 32 - 1) else []
  let m3 := m2.modNs k fun d => { d with
    size := c.size, faultPolicy := bitAt c.p0.toNat 11, readPorts := rd, writePorts := bits c.p2.toNat 16 16,
    homeX := Nat.xor c.home (k % 32), mapped := d.mapped - gone.length }
  ((roots.foldl (fun (m : Mach) x => m.addReclaim x) m3).setReserve k d.prot u c.home).nsRecords k

/-- The namespaces that a SESSION_PURGE names (R201): one, or every EPHEMERAL one that exists. -/
def Mach.purged (m : Mach) (c : Cmd) : List Nat :=
  if bitAt c.p0.toNat 8 then (List.range 256).filter fun k => (m.nsDesc k).exists_ && (m.nsDesc k).ephemeral else [c.ns]

/-- Units that a shrink left to the reclaimer are still mapped: growth over them waits (R111, R203). -/
def Mach.growWaits (m : Mach) (c : Cmd) : Bool :=
  (m.nsDesc c.ns).size < c.size && m.map.reclaim.any fun x => x.1 = c.ns && x.2.2.2 < 2 ^ 32

/-- NS_BROADCAST (R178, R202): the change that the tree carries takes hold; this is the commit point of its command. -/
def nsBroadcast (m : Mach) : Mach :=
  match m.post.cmds.find? fun c => c.stage = 1 && (c.op = 1 || c.op = 2 || c.op = 4 || c.op = 5) with
  | none => m
  | some c =>
    let ks := if c.op = 5 then m.purged c else [c.ns]
    if !m.mapUp || (c.op ≠ 4 && ks.any m.epochWaits) || (c.op = 4 && m.growWaits c) then m
    else m.whenRoom fun m =>
      let m1 :=
        if c.op = 1 then m.nsCreated c
        else if c.op = 2 then m.nsDeleted c.ns
        else if c.op = 4 then m.nsResized c
        else ks.foldl (fun (m : Mach) k => (m.removeAll k 5).nsRecords k) m
      m1.modCmd c.id fun x => { x with stage := 2, committed := true }

def execNsBroadcast (s : State) := answer s nsBroadcast

end Sys2Proof.Machine
end

