-- ==== Sys2Proof/Machine/Blocks.lean ====
section
/-! DEFINITION. The command blocks (R422, R423) and Collier's boot (R404, R405): each row takes the oldest accepted block of its opcode
that can go on, and takes it as far as it can go now. -/
namespace Sys2Proof.Machine

/-! ### Which block a row serves -/

/-- Collier firmware works on blocks: it runs, and no activation has brought them to a safe point (R423 step 2). -/
def Mach.blocksRun (m : Mach) : Bool := m.collierUp && m.takesPosts

/-- The namespace that a command touches: that of its parameters, or of the hold that it releases. -/
def Mach.cmdNs (m : Mach) (c : Cmd) : Option Nat :=
  if c.op = 7 then some (bits c.p0.toNat 52 8)
  else if c.op = 8 then (m.order.holds.find? fun h => h.id = bits c.p0.toNat 0 3).map (·.ns)
  else if 1 ≤ c.op && c.op ≤ 5 then some (bits c.p0.toNat 0 8)
  else none

/-- Two commands touch one namespace, and take their commit points in acceptance order (R420); SESSION_PURGE of ALL touches every one. -/
def Mach.sameNs (m : Mach) (a b : Cmd) : Bool :=
  let all (c : Cmd) : Bool := c.op = 5 && bitAt c.p0.toNat 8
  match m.cmdNs a, m.cmdNs b with
  | some x, some y => all a || all b || x = y
  | _, _ => false

/-- No command accepted before `c` still has its commit point on the same namespace to pass (R420). -/
def Mach.inTurn (m : Mach) (c : Cmd) : Bool := m.post.cmds.all fun x => !(x.id < c.id && !x.committed && m.sameNs x c)

/-- A namespace change is on its way to its broadcast: the tree carries one at a time (R202). -/
def Mach.nsBusy (m : Mach) : Bool := m.post.cmds.any fun c => c.stage = 1 && (c.op = 1 || c.op = 2 || c.op = 4 || c.op = 5)

/-- Serve the oldest block of an opcode that `can` name. -/
def Mach.serve (m : Mach) (op : Nat) (can : Cmd → Bool) (act : Cmd → Mach → Mach) : Mach :=
  if !m.blocksRun then m
  else if m.post.ramBad then m.ramFail
  else match m.post.cmds.find? fun c => c.op = op && !c.restart && !c.cancelled && can c with
    | some c => act c m
    | none => m

/-- A block that is served whole: refused, or its effect, its result and DONE. -/
def Mach.serveOnce (m : Mach) (op : Nat) (refused : Cmd → Option Nat) (act : Cmd → Mach → Mach) : Mach :=
  m.serve op m.inTurn fun c m =>
    match refused c with
    | some r => m.refuse c r
    | none => (act c m).finish c 2 0

/-- The first reason of a list that applies. -/
def firstReason (l : List (Bool × Nat)) : Option Nat := (l.find? (·.1)).map (·.2)

/-! ### Namespaces (R175 to R177, R201) -/

/-- A block that changes a namespace: judged, sent to its broadcast, and completed after it; `after` is what completion waits for. -/
def Mach.nsBlock (m : Mach) (op : Nat) (refused : Mach → Cmd → Option Nat) (after : Cmd → Mach → Mach) : Mach :=
  m.serve op (fun c => c.stage = 2 || (c.stage = 0 && m.inTurn c && !m.nsBusy)) fun c m =>
    if c.stage = 2 then (after c m).finish c 2 0
    else match refused m c with
      | some r => m.refuse c r
      | none => m.modCmd c.id fun x => { x with stage := 1 }

/-- SIZE is no size of a namespace of this protection (R175). -/
def badSize (size prot : Nat) : Bool := size = 0 || size % unitBytes prot ≠ 0

/-- A namespace's units fit on every channel besides all that is reserved (R175, R204). -/
def Mach.createFits (m : Mach) (c : Cmd) : Bool :=
  (List.range 32).all fun ch => m.reservedOn ch none + reserveOn c.prot (c.size / unitBytes c.prot) c.home ch ≤ m.usable ch

/-- NS_CREATE (R175). -/
def nsCreate (m : Mach) : Mach :=
  m.nsBlock 1 (fun m c => firstReason
    [((m.nsDesc c.ns).exists_, 2), (c.prot = 3, 5), (badSize c.size c.prot || 2 ^ 52 ≤ c.p1.toNat, 4), (!m.createFits c, 6)]) fun _ m => m

/-- NS_DELETE (R177). -/
def nsDelete (m : Mach) : Mach :=
  m.nsBlock 2 (fun m c => firstReason [(!(m.nsDesc c.ns).exists_, 3)]) fun _ m => m

/-- NS_QUERY (R174). -/
def nsQuery (m : Mach) : Mach := m.serveOnce 3 (fun _ => none) fun c m => m.results c ((List.range 4).map (m.nsWord c.ns))

/-- NS_RESIZE (R176): one that keeps HOME and does not grow SIZE always passes the reservation check; after a shrink the directory entries beyond the new SIZE are freed before it completes (R283). -/
def nsResize (m : Mach) : Mach :=
  m.nsBlock 4 (fun m c =>
    let d := m.nsDesc c.ns
    firstReason [(!d.exists_, 3), (badSize c.size d.prot || 2 ^ 52 ≤ c.p1.toNat, 4),
      (!(c.size ≤ d.size && c.home = m.nsHome c.ns) && !m.reserveOk c.ns d.prot (c.size / unitBytes d.prot) c.home, 6)]) fun c m =>
    ((m.ht.dir.filter fun e => e.2.valid && lineNs e.2.line = c.ns && (m.nsDesc c.ns).size ≤ lineOff e.2.line).map (·.1)).foldl
      (fun (m : Mach) e => m.dirFreeEnt e) m

/-- SESSION_PURGE (R201). -/
def sessionPurge (m : Mach) : Mach :=
  m.nsBlock 5 (fun m c =>
    if bitAt c.p0.toNat 8 then none
    else firstReason [(!(m.nsDesc c.ns).exists_, 3), (!(m.nsDesc c.ns).ephemeral, 11)]) fun _ m => m

/-! ### Checkpoints (R196) -/

/-- CHECKPOINT: it completes when the root of a checkpoint begun at or after its acceptance is durable. -/
def checkpoint (m : Mach) : Mach :=
  let g := m.get MAP.CKPT_GEN
  m.serve 6 (fun c => c.stage = 0 || c.arg ≤ g || m.get MAP.CKPT_STATE = ckIdle) fun c m =>
    if c.stage = 0 then
      let n := if m.get MAP.CKPT_STATE = ckIdle then g + 1 else g + 2
      m.ckptStart.modCmd c.id fun x => { x with stage := 1, arg := n }
    else if c.arg ≤ g then (m.results c [g]).finish c 2 0
    else if m.mapUp && m.mode ≠ mFlush then m.ckptStart.modCmd c.id fun x => { x with arg := g + 1 }
    else m

/-! ### Range holds (R114, R116) -/

/-- The hold ID that a RANGE_HOLD is given (R114). DESIGN CHOICE (log entry 84): the lowest that no hold in force carries. -/
def Mach.holdId (m : Mach) : Nat :=
  ((List.range 8).find? fun i => !(m.order.holds.any fun h => h.id = i)).getD 0

/-- RANGE_HOLD (R114): judged, and in force from here on; it completes with RANGE_HOLD_DRAIN_DONE. -/
def rangeHold (m : Mach) : Mach :=
  m.serve 7 (fun c => c.stage = 0 && m.inTurn c) fun c m =>
    let a := bits c.p0.toNat 0 60
    let ns := bits c.p0.toNat 52 8
    let off := bits c.p0.toNat 0 52
    let len := bits c.p1.toNat 0 52
    let port := bits c.p2.toNat 0 4
    let h := bits c.p2.toNat 32 17
    let overlap := (m.order.holds.any fun x => meets a len (x.ns * 2 ^ 52 + x.off) x.len) ||
      (List.range 32).any fun k => m.strActive k && meets a len (m.get STREAM.TARGET_ADDR k) (m.strLen k)
    match firstReason
      [(!(m.nsDesc ns).exists_, 3),
       (a % 256 ≠ 0 || len = 0 || len % 256 ≠ 0 || 2 ^ 52 ≤ c.p1.toNat || (m.nsDesc ns).size < off + len || h = 0 || 100000 < h, 4),
       (overlap, 7), (8 ≤ m.order.holds.length, 8)] with
    | some r => m.refuse c r
    | none =>
      let older := (List.range 16).flatMap fun p => if p = port then [] else
        ((m.port p).reqs.filter fun r => writesLines r.op && r.op ≠ opAppend && r.fail.isNone && r.phase ≠ .intake && r.phase ≠ .ready &&
          r.ns = ns && r.addr % 2 ^ 52 / 256 * 256 < off + len && off < (r.addr % 2 ^ 52 / 256 + r.nlines) * 256).map fun r => (p, r.id)
      let x : Hold := ⟨m.holdId, port, ns, off, len, h, c.agent, c.id⟩
      ({ m with order := { m.order with holds := m.order.holds ++ [x] } } : Mach).modCmd c.id fun y =>
        { y with stage := 1, committed := true, arg := x.id, waits := older }

/-- RANGE_HOLD_DRAIN_DONE (R114): every older write to the range has taken effect, and RANGE_HOLD completes. -/
def rangeHoldDrainDone (m : Mach) : Mach :=
  let drained (c : Cmd) : Bool := c.waits.all fun w => match m.req? w.1 w.2 with | some r => r.phase == .ready | none => true
  m.serve 7 (fun c => c.stage = 1 && drained c) fun c m => (m.results c [c.arg]).finish c 2 0

/-- RANGE_RELEASE (R116). -/
def rangeRelease (m : Mach) : Mach :=
  m.serve 8 m.inTurn fun c m =>
    let i := bits c.p0.toNat 0 3
    if m.order.holds.any fun h => h.id = i then (m.endHolds fun h => h.id = i).finish c 2 0 else m.finish c 3 0

/-! ### Queries -/

/-- The channels of a mask whose link is in a state. -/
def Mach.linksIn (m : Mach) (st : Nat) : Nat :=
  (List.range 32).foldl (fun a c => if m.link c = st then a + 2 ^ c else a) 0

/-- The eight words of the HEALTH record (R422). -/
def Mach.healthWords (m : Mach) : List Nat :=
  let fitted := (List.range 32).filter fun c => bitAt m.integ.channels c
  let fewest := match fitted.map m.spares with | x :: l => l.foldl min x | [] => 0
  [m.mode, m.linksIn 4 + m.linksIn 6 * 2 ^ 32,
   b2n (m.stackIn 0) + 2 * b2n (m.stackIn 1) + 4 * b2n (m.flag HT.STAT_FAILED 0) + 8 * b2n (m.flag HT.STAT_FAILED 1),
   m.get REEVE.SHORT_NOW, m.get ERR.RING_WR, fewest,
   m.get COLLIER.FW_VERSION + m.get COLLIER.FW_SLOT * 2 ^ 32 + m.get COLLIER.FW_HOST * 2 ^ 33, m.get MAP.CKPT_GEN]

/-- HEALTH (R422). -/
def health (m : Mach) : Mach := m.serveOnce 9 (fun _ => none) fun c m => m.results c m.healthWords

/-- ERRLOG_READ (R254, R255, R422): entries still present, from the first asked for. -/
def errlogRead (m : Mach) : Mach :=
  m.serveOnce 10 (fun c => firstReason [(c.p1.toNat = 0 || 1024 < c.p1.toNat || 2 ^ 32 ≤ c.p0.toNat, 4)]) fun c m =>
    let i := bits c.p0.toNat 0 32
    let w := m.get ERR.RING_WR
    let first := max i (w - 1024)
    let n := min (i + bits c.p1.toNat 0 11) w - first
    let ents := (List.range n).flatMap fun j =>
      let e := m.err.ring.get ((first + j) % 1024)
      [e.w0, e.w1, e.w2, e.w3]
    m.results c ([first, n] ++ ents)

/-- HUB_INFO (R333, R422): the page is read from the hub. -/
def hubInfo (m : Mach) : Mach :=
  m.serve 15 (fun c => c.stage ≠ 1) fun c m =>
    let ch := bits c.p0.toNat 0 5
    if c.stage = 2 then (m.result c 0 256 c.line.toNat).finish c 2 0
    else if m.link ch ≠ 4 then m.refuse c 12
    else
      (m.mQueue ch true 18 { (default : Media) with op := opHubInfo, pos := bits c.p0.toNat 5 1, nlines := 1 } (.hubInfo c.id)).modCmd
        c.id fun x => { x with stage := 1 }

/-- RETIRE_QUERY (R422). -/
def retireQuery (m : Mach) : Mach :=
  m.serveOnce 16 (fun c => firstReason [(2 ^ 5 ≤ c.p0.toNat || 2 ^ 32 ≤ c.p1.toNat || 2 ^ 16 ≤ c.p2.toNat, 4)]) fun c m =>
    let ch := bits c.p0.toNat 0 5
    let l := (m.segsIn ch .retired).filter fun s => bits c.p1.toNat 0 32 ≤ s
    let out := l.take (bits c.p2.toNat 0 16)
    let m1 := m.results c [m.spares ch, (m.segsIn ch .retired).length, b2n (m.chanRO ch) * 2 ^ 32]
    m1.result c 24 (4 * out.length) (out.foldr (fun s a => s % 2 ^ 32 + 2 ^ 32 * a) 0)

/-! ### Scrubbing (R258 to R264, R422) -/

/-- SCRUB_REQUEST: the Gleaner runs the pass, and the block completes with its summary. -/
def scrubRequest (m : Mach) : Mach :=
  if !m.blocksRun then m
  else if m.post.ramBad then m.ramFail
  else match m.post.cmds.find? fun c => c.op = 17 && !c.restart && c.stage ≠ 1 with
  | none => m
  | some c =>
    if c.stage ≠ 0 then (m.result c 0 96 (bits c.line.toNat 0 768)).finish c (if c.stage = 2 then 2 else 7) 0
    else
      let a := c.p0.toNat
      let n := c.p1.toNat
      let md := c.p2.toNat
      let d := m.nsDesc (bits a 52 8)
      match firstReason
        [(m.gleaning, 9), (!d.exists_, 3),
         (a % 256 ≠ 0 || n = 0 || n % 256 ≠ 0 || d.size < bits a 0 52 + n || bits md 0 2 = 3 || bits md 8 8 = 0 || bits md 16 2 = 0, 4)] with
      | some r => m.refuse c r
      | none =>
        let m1 := (m.put GLN.START 0 a).put GLN.LENGTH 0 n
        let m2 := (((m1.put GLN.MODE_KIND 0 (bits md 0 2)).put GLN.MODE_ANYTIME 0 (bits md 4 1)).put GLN.MODE_DEPTH 0 (bits md 8 8)).put
          GLN.MODE_REFRESH_STEP 0 (bits md 16 2)
        (glnGo m2).modErr (fun e => { e with gCmd := some c.id }) |>.modCmd c.id fun x => { x with stage := 1 }

/-! ### Firmware (R404, R405, R423) -/

/-- A firmware image of `len` bytes is valid (R404). -/
def fwValid (v len : Nat) : Bool :=
  let w (i : Nat) : Nat := bits v (64 * i) 64
  bits (w 0) 0 32 = 0xC0111E20 && bits (w 2) 0 21 = len && 4096 ≤ len && len ≤ 1048576 && len % 64 = 0 &&
    bits (w 3) 0 32 = crc32c (len - 64) (v / 2 ^ 512 % 2 ^ (8 * (len - 64))) && bits (w 4) 0 20 < len && bits (w 5) 0 16 = 3

/-- An activation runs. -/
def Mach.activating (m : Mach) : Bool := m.post.cmds.any fun c => c.op = 12 && c.stage ≠ 0
/-- A staging runs. -/
def Mach.staging (m : Mach) : Bool := m.post.cmds.any fun c => c.op = 11 && c.stage ≠ 0

/-- FW_STAGE (R404, R422): the image goes to the slot that is not active, marked not valid until the whole of it is durable. -/
def fwStage (m : Mach) : Mach :=
  m.serve 11 (fun c => c.stage = 0 || c.left = 0) fun c m =>
    let slot := m.get COLLIER.FW_SLOT
    if c.stage = 0 then
      let x := c.p0.toNat
      let len := c.p1.toNat
      let r := if m.inArea c.agent x len && len ≤ 1048576 then m.parishGet x len else (0, m)
      match firstReason
        [(!fwValid r.1 len, 10), (m.activating || m.staging, 9), (m.link 0 ≠ 4 && m.link 16 ≠ 4, 12)] with
      | some e => r.2.refuse c e
      | none =>
        let s := r.2.selectorProg c.id slot false
        let w := (List.range ((len + 255) / 256)).foldl (fun (a : Nat × Mach) j =>
          let p := a.2.storeProg 0 (if slot = 0 then 2 else 1) j (BitVec.ofNat 2048 (r.1 / 2 ^ (2048 * j))) 18 (.fwWr c.id (1 + j))
          (a.1 + p.1, p.2)) s
        (w.2.setFlag COLLIER.FW_STAGED_VALID 0 false).modCmd c.id fun y =>
          { y with stage := 1, left := w.1, arg := bits r.1 64 32 }
    else if c.stage = 1 then
      let s := m.selectorProg c.id slot true
      s.2.modCmd c.id fun y => { y with stage := 2, left := s.1 }
    else
      ((((m.put COLLIER.FW_STAGED_VERSION 0 c.arg).setFlag COLLIER.FW_STAGED_VALID 0 true).results c [c.arg]).finish c 2 0)

/-- An activation has ended: STATE is RUNNING again, and the watchdog measures from here. -/
def Mach.activateEnd (m : Mach) : Mach := (m.put COLLIER.STAT_STATE 0 2).modPost fun p => { p with servedAt := m.now }

/-! ### Images read from the medium (R404, R405, R423) -/

/-- Change the image reading. -/
def Mach.modFw (m : Mach) (f : FwRead → FwRead) : Mach := m.modPost fun p => { p with fw := f p.fw }

/-- Read `n` lines of reserve segment `seg` from line `pos` on, under COLLIER (R404, R407). -/
def Mach.fwRead (m : Mach) (c seg pos n stage : Nat) : Mach :=
  let id := m.serial
  let m1 := ({ m with serial := m.serial + 1 } : Mach).modFw fun x => { x with stage := stage, id := id, left := n, bad := false }
  (List.range ((n + 63) / 64)).foldl (fun (m : Mach) j =>
    m.mQueue c true 18 { (default : Media) with op := opReadLines, seg := seg, pos := pos + 64 * j, nlines := min 64 (n - 64 * j) }
      (.fwRd id)) m1

/-- The length that the header of the image being read states, and its lines. -/
def FwRead.len (x : FwRead) : Nat := bits (Line.word (x.img.get 0) 2).toNat 0 21
def FwRead.lines (x : FwRead) : Nat := (x.len + 255) / 256

/-- The image reading goes on: a selector names the slots of its channel, the active one first and the other when it is marked valid; an image
is its header and then the rest, and is checked; what fails is passed over (R405). The answer says that the first candidate is valid, or
that none is left. -/
def Mach.fwNext (m : Mach) : Option Bool × Mach :=
  let x := m.post.fw
  match x.cands with
  | [] => (some false, m)
  | (c, s) :: rest =>
    let next (l : List (Nat × Nat)) : Option Bool × Mach :=
      (if l.isEmpty then some false else none, m.modFw fun x => { x with stage := 0, cands := l })
    if m.chanLost c then next rest
    else if x.stage = 0 then
      if !m.linkServes c then (none, m)
      else
        let m1 := m.modFw fun x => { x with img := [] }
        (none, if s = 2 then m1.fwRead c 0 128 1 1 else m1.fwRead c (1 + s) 0 1 2)
    else if x.left ≠ 0 then (none, m)
    else if x.bad then next rest
    else if x.stage = 1 then
      let w := (Line.word (x.img.get 128) 0).toNat
      let r := next ((c, w % 2) :: (if bitAt w 1 then [(c, 1 - w % 2)] else []) ++ rest)
      (r.1, r.2.modFw fun x => { x with sel := w % 4 })
    else if x.stage = 2 then
      if x.len < 4096 || 1048576 < x.len || x.len % 64 ≠ 0 then next rest
      else (none, m.fwRead c (1 + s) 1 (x.lines - 1) 3)
    else if fwValid (imageBytes x.img 0 x.lines) x.len then (some true, m)
    else next rest

/-- FW_ACTIVATE (R423), a step at a time. Step 1 reads the staged image and checks it. `outcome` is what step 4 comes to: 0 the new image
reports itself healthy, 1 it does not and the old one returns, else the old one cannot restore the record either. -/
def fwActivate (outcome : Nat) (m : Mach) : Mach :=
  if !m.collierUp then m
  else match m.post.cmds.find? fun c => c.op = 12 && !c.restart && (c.stage ≠ 3 || c.left = 0) with
  | none => m
  | some c =>
    if c.stage = 0 then
      match firstReason [(!m.flag COLLIER.FW_STAGED_VALID, 10), (m.activating || m.staging, 9)] with
      | some r => m.refuse c r
      | none =>
        let slot := 1 - m.get COLLIER.FW_SLOT
        ((m.put COLLIER.STAT_STATE 0 3).modFw fun _ => { (default : FwRead) with on := true, cands := [(0, slot), (16, slot)] }).modCmd c.id
          fun x => { x with stage := 1 }
    else if c.stage = 1 then
      let r := m.fwNext
      let ended := r.2.modFw fun _ => default
      match r.1 with
      | none => r.2
      | some false => ended.activateEnd.refuse c 10
      | some true => ended.takeAll.modCmd c.id fun x => { x with stage := 2 }
    else if c.stage = 2 then
      if outcome = 1 then (m.event .collier 0 COLLIER.EV_FW_REVERTED).activateEnd.finish c 8 15
      else if outcome ≠ 0 then (m.event .collier 0 COLLIER.EV_FW_REVERTED).collierRestart 3
      else
        let slot := 1 - m.get COLLIER.FW_SLOT
        let s := m.selectorProg c.id slot false
        s.2.modCmd c.id fun x => { x with stage := 3, left := s.1, arg := slot }
    else
      let v := m.get COLLIER.FW_STAGED_VERSION
      let m1 := (((m.put COLLIER.FW_VERSION 0 v).put COLLIER.FW_SLOT 0 c.arg).setFlag COLLIER.FW_HOST 0 false).setFlag
        COLLIER.FW_STAGED_VALID 0 false
      let m2 := (m1.activateEnd.event .collier 0 COLLIER.EV_FW_ACTIVATED).count COLLIER.CNT_ACTIVATE
      (m2.results c [v]).finish c 2 0

/-! ### Trim records (R351 to R353) -/

/-- A record of 97 lines as one number, and back. -/
def recNum (r : Tab Line) : Nat := imageBytes r 0 97
def numRec (v : Nat) : Tab Line := (List.range 97).foldl (fun (t : Tab Line) k => t.set k (BitVec.ofNat 2048 (v / 2 ^ (2048 * k)))) []

/-- TRIM_LOAD (R352). -/
def trimLoad (m : Mach) : Mach :=
  m.serve 14 (fun _ => true) fun c m =>
    let x := c.p0.toNat
    if !m.inArea c.agent x 24832 then m.refuse c 10
    else
      let r := m.parishGet x 24832
      if recValid (numRec r.1) then (r.2.useTrim (numRec r.1) 3).finish c 2 0 else r.2.refuse c 10

/-- Put a captured set into the image (R351); the bits that R349 does not list are zero. -/
def putSet (t : Tab Line) (i : Nat) (s : Nat) : Tab Line :=
  let listed := (List.range 4).foldl (fun a w => a + trimMask w * 2 ^ (64 * w)) 0
  t.upd (1 + i / 8) fun l => BitVec.ofNat 2048 (setBits l.toNat (256 * (i % 8)) 256 (s &&& listed))

/-- The image with the header of R351. The masks of the channels captured at a point stand at key 100 + point. -/
def trimImage (version : Nat) (t : Tab Line) : Tab Line :=
  let body := t.filter fun x => 1 ≤ x.1 && x.1 ≤ 96
  let mask (p : Nat) : Nat := (t.get (100 + p)).toNat
  let both := Nat.land (mask 0) (Nat.land (mask 1) (mask 2))
  let crc := crc32c (256 * 96) (imageBytes body 1 96)
  let w3 := bits (Line.word (t.get 0) 3).toNat 0 24
  Tab.set body 0 (Line.ofWords ([0x7A1B3E0D + 2 ^ 32, version % 2 ^ 32, both, w3, crc].map (BitVec.ofNat 64)))

/-- The lanes of a capture that fail: measured eyes below the channel's floor, and lanes that gave no set at a rate (R353). -/
def Mach.captureFails (m : Mach) (chans : List Nat) (sets : List TrimIn) : Nat :=
  chans.foldl (fun a c => (List.range 4).foldl (fun a l =>
    let ok (rate : Nat) : Bool := sets.any fun s =>
      s.chan.toNat = c && s.lane.toNat = l && s.rate.toNat = rate &&
        m.get ZML.FLOOR_WIDTH c ≤ bits s.set.toNat 192 8 && m.get ZML.FLOOR_HEIGHT c ≤ bits s.set.toNat 200 8
    if ok 0 && ok 1 then a else a + 2 ^ (4 * c + l)) a) 0

/-- The channels that a capture takes: those of its mask that are in DETECT or later, and not LOST. -/
def Mach.captures (m : Mach) (mask : Nat) : List Nat := (List.range 32).filter fun c => bitAt mask c && 1 ≤ m.link c && m.link c ≤ 5

/-- Step 1 of a capture of point `p` (R353): the channels train at TRICKLE, and the point's temperature is recorded. DESIGN CHOICE, log entry
53: of the quad of the lowest channel. -/
def Mach.captureBegin (m : Mach) (c : Cmd) (p : Nat) : Mach :=
  let chans := m.captures c.p1.toNat
  let temp := m.get ZML.TRIM_TEMP_T (chans.headD 0)
  let m1 := m.modTrim fun t => { t with image := t.image.upd 0 fun l => BitVec.ofNat 2048 (setBits l.toNat (192 + 8 * p) 8 temp) }
  let m2 := (chans.filter fun ch => 3 ≤ m.link ch).foldl (fun (m : Mach) ch => m.toTrain ch 2 (m.get ZML.LINK_WIDTH ch) true) m1
  m2.modCmd c.id fun y => { y with stage := 1, arg := chans.foldl (fun a ch => a + 2 ^ ch) 0 }

/-- Every channel of a capture has trained, or is not to be captured any more. -/
def Mach.captureReady (m : Mach) (mask : Nat) : Bool :=
  (List.range 32).all fun c => !bitAt mask c || m.link c = 4 || m.link c = 6 || m.link c = 0 ||
    (m.link c = 1 && !m.flag ZML.STAT_PRESENT c)

/-- Steps 2 to 4 of a capture (R353): the sets enter the image, after a training of each channel at FULL and at HALF; the lanes that fail. The
channels then train anew as any others. -/
def Mach.captureTake (m : Mach) (c : Cmd) (p : Nat) (sets : List TrimIn) : Nat × Mach :=
  let chans := (List.range 32).filter fun ch => bitAt c.arg ch
  let mine := sets.filter fun s => chans.contains s.chan.toNat && m.link s.chan.toNat = 4
  let fails := m.captureFails chans mine
  let good := (chans.filter fun ch => bits fails (4 * ch) 4 = 0).foldl (fun a ch => a + 2 ^ ch) 0
  let old := (m.trim.image.get (100 + p)).toNat
  let kept := (List.range 32).foldl (fun a ch => if bitAt old ch && !chans.contains ch then a + 2 ^ ch else a) good
  let t1 := mine.foldl (fun (t : Tab Line) s =>
    putSet t (setIndex s.rate.toNat p s.chan.toNat s.lane.toNat) s.set.toNat) m.trim.image
  let m1 := m.modTrim fun t => { t with image := t1.set (100 + p) (BitVec.ofNat 2048 kept) }
  (fails, ((chans.filter fun ch => m.link ch = 4).foldl (fun (m : Mach) ch => m.count ZML.CNT_TRAIN ch 2) m1).captureOver c.arg)

/-- TRIM_CAPTURE (R353), a step at a time; `sets` are what its steps 2 and 3 found on the lanes. -/
def trimCapture (sets : List TrimIn) (m : Mach) : Mach :=
  m.serve 13 (fun c => c.stage = 0 || (c.stage = 1 && m.captureReady c.arg) || (c.stage = 2 && c.left = 0)) fun c m =>
    let p := bits c.p0.toNat 0 2
    let store := bitAt c.p0.toNat 2
    if c.stage = 0 then
      match firstReason [(m.mode ≠ mBringup, 1), (p = 3, 4)] with
      | some r => m.refuse c r
      | none => m.captureBegin c p
    else if c.stage = 1 then
      let x := m.captureTake c p sets
      let fails := x.1
      let m1 := x.2
      if !store then (m1.results c [fails % 2 ^ 64, fails / 2 ^ 64]).finish c 2 0
      else
        let r := trimImage (m.get GLOBAL.CORE_VERSION) m1.trim.image
        if m.integ.trimSrc = 2 then
          let m2 := (m1.results c [fails % 2 ^ 64, fails / 2 ^ 64]).result c 16 24832 (recNum r)
          (if recValid r then m2.useTrim r 3 else m2).finish c 2 0
        else
          let w := (List.range 97).foldl (fun (a : Nat × Mach) k =>
            let x := a.2.storeProg 0 0 k (r.get k) 18 (.fwWr c.id k)
            (a.1 + x.1, x.2)) (0, m1)
          w.2.modCmd c.id fun y => { y with stage := 2, left := w.1, line := BitVec.ofNat 2048 fails }
    else
      let r := trimImage (m.get GLOBAL.CORE_VERSION) m.trim.image
      let m1 := m.results c [bits c.line.toNat 0 64, bits c.line.toNat 64 64]
      (if recValid r then m1.useTrim r 1 else m1).finish c 2 0

/-! ### Boot (R405, R406) -/

/-- Commands broken off by a restart are completed by their commit points (R406). -/
def Mach.afterRestart (m : Mach) : Mach :=
  (m.post.cmds.filter (·.restart)).foldl (fun (m : Mach) c =>
    if m.pastCommit c then m.finish c 2 0
    else (if c.op = 13 && c.stage = 1 then m.captureOver c.arg else m).finish c 8 13) m

/-- Collier runs: STATE RUNNING, EVENT.BOOTED, and in BRINGUP it looks for the trim record when TRIM_SRC is HUB (R352). -/
def Mach.collierRuns (m : Mach) (version slot : Nat) (host : Bool) : Mach :=
  let m1 := (((m.put COLLIER.STAT_STATE 0 2).put COLLIER.FW_VERSION 0 version).put COLLIER.FW_SLOT 0 slot).setFlag COLLIER.FW_HOST 0 host
  ((m1.event .collier 0 COLLIER.EV_BOOTED).modPost fun p => { p with servedAt := m.now }).trimSearch.afterRestart

/-- COLLIER_BOOT (R405, R406): the boot ROM goes on to read the selector and the slots, on MEDIA_CH_0 first, each channel once it is ACTIVE; a
channel that is absent is passed over. A valid image runs, after the header of the image that the selector says is staged in the other
slot has been read; without one Collier is HALTED, and no trim record comes (R350, R430). -/
def collierBoot (m : Mach) : Mach :=
  let hub := m.collier = 4 || (m.collier = 1 && m.get COLLIER.BOOT_SRC = 1)
  let run (m : Mach) (version slot : Nat) (staged : Option Nat) : Mach :=
    (((m.modFw fun _ => default).put COLLIER.FW_STAGED_VERSION 0 (staged.getD 0)).setFlag COLLIER.FW_STAGED_VALID 0
      staged.isSome).collierRuns version slot false
  if !(hub && m.running && bitAt (m.get POWER.PD_ON) 1) then m
  else
    let m1 := if m.post.fw.on then m
      else m.modFw fun _ => { (default : FwRead) with on := true, cands := [(0, 2), (16, 2)] }
    let x := m1.post.fw
    if x.stage = 4 then
      match x.cands with
      | (c, s) :: _ =>
        if m1.chanLost c || (x.left = 0 && x.bad) then run m1 x.version s none
        else if x.left ≠ 0 then m1
        else run m1 x.version s (some (bits (Line.word (x.img.get 0) 1).toNat 0 32))
      | [] => m1
    else
      let r := m1.fwNext
      match r.1 with
      | none => r.2
      | some false =>
        (((r.2.modFw fun _ => default).put COLLIER.STAT_STATE 0 5).event .collier 0 COLLIER.EV_BOOT_FAIL).trimMissing
      | some true =>
        let v := bits (Line.word (x.img.get 0) 1).toNat 0 32
        match x.cands with
        | (c, s) :: _ =>
          if bitAt x.sel 1 && s = x.sel % 2 then (r.2.modFw fun y => { y with version := v, img := [] }).fwRead c (2 - s) 0 1 4
          else run r.2 v s none
        | [] => r.2

/-- BOOT_GO (R405): the boot ROM checks the image that the writer of GO has placed in its Parish area. -/
def bootGo (a : Nat) (m : Mach) : Mach :=
  if !(m.collier = 1 && m.get COLLIER.BOOT_SRC = 2 && m.running && m.parishUp) then m
  else
    let x := m.get COLLIER.BOOT_PTR
    let len := m.get COLLIER.BOOT_LEN
    let r := if m.inArea a x len && len ≤ 1048576 then m.parishGet x len else (0, m)
    if fwValid r.1 len then r.2.collierRuns (bits r.1 64 32) 0 true
    else r.2.event .collier 0 COLLIER.EV_BOOT_FAIL

def execNsCreate (s : State) := answer s nsCreate
def execNsDelete (s : State) := answer s nsDelete
def execNsQuery (s : State) := answer s nsQuery
def execNsResize (s : State) := answer s nsResize
def execSessionPurge (s : State) := answer s sessionPurge
def execCheckpoint (s : State) := answer s checkpoint
def execRangeHold (s : State) := answer s rangeHold
def execRangeHoldDrainDone (s : State) := answer s rangeHoldDrainDone
def execRangeRelease (s : State) := answer s rangeRelease
def execHealth (s : State) := answer s health
def execErrlogRead (s : State) := answer s errlogRead
def execFwStage (s : State) := answer s fwStage
def execFwActivate (outcome : BitVec 2) (s : State) := answer s (fwActivate outcome.toNat)
def execTrimCapture (sets : List TrimIn) (s : State) := answer s (trimCapture sets)
def execTrimLoad (s : State) := answer s trimLoad
def execHubInfo (s : State) := answer s hubInfo
def execRetireQuery (s : State) := answer s retireQuery
def execScrubRequest (s : State) := answer s scrubRequest
def execBootGo (a : BitVec 3) (s : State) := answer s fun m => m.viaCfg a.toNat .collier 0 0x118 1 (bootGo a.toNat)
def execCollierBoot (s : State) := answer s collierBoot

end Sys2Proof.Machine
end

