-- ==== Sys2Proof/Machine/Degrade.lean ====
section
/-! DEFINITION. Channels in service, the conditions of DEGRADED and the choice between RUN and DEGRADED (chapter "Operating modes, power
domains and supply sag", R441, R442). -/
namespace Sys2Proof.Machine

/-- A disabled channel on which segments are reserved or MAPPED (R441 bit 1). -/
def Mach.offInUse (m : Mach) (c : Nat) : Bool :=
  !m.flag ZML.CTL_ENABLE c && m.map.segS != 0 && (m.reservedOn c none != 0 || !(m.segsIn c .mapped).isEmpty)

/-- The channels that meet bit 1 of R441, as a mask: lost until ACTIVE again; a disabled channel only while it holds segments. -/
def Mach.missing (m : Mach) : Nat :=
  (List.range 32).foldl (fun a c =>
    if (bitAt m.power.lostCh c && m.flag ZML.CTL_ENABLE c) || m.offInUse c then a + 2 ^ c else a) 0

/-- A rate below FULL counts once BRINGUP has been left (R441 bit 3, R432): step 13 is over. -/
def Mach.rateCounts (m : Mach) : Bool := m.get GLOBAL.STAT_BOOT_STEP == 0

/-- The conditions of DEGRADED, bit by bit (R441); `rate`: a rate below FULL counts. -/
def Mach.degradeBits (m : Mach) (rate : Bool) : Nat :=
  let l := m.missing
  b2n ((List.range m.integ.stackCount).any fun n => m.flag HT.STAT_FAILED n) + 2 * b2n (l != 0) + 4 * b2n (m.power.lanesCh != 0) +
    8 * b2n (rate && m.power.rateCh != 0) + 16 * b2n ((List.range 32).any m.chanRO) +
    32 * b2n (2 ≤ popCount (l % 2 ^ 16) 16 || 2 ≤ popCount (l / 2 ^ 16) 16) + 64 * b2n ((l % 2 ^ 16 &&& l / 2 ^ 16) != 0)

/-- DEGRADE_WHY as it stands (R441). -/
def Mach.degradeWhy (m : Mach) : Nat := m.degradeBits m.rateCounts

/-- Judge the conditions: a condition that was clear and has become true sets EVENT.DEGRADED (R441). -/
def Mach.judgeDegraded (m : Mach) (rate : Bool) : Nat × Mach :=
  let w := m.degradeBits rate
  let m1 : Mach := { m with power := { m.power with lostCh := m.missing } }
  let m2 := if (w &&& m.get POWER.DEGRADE_WHY) = w then m1 else m1.event .power 0 POWER.EV_DEGRADED
  (w, m2.put POWER.DEGRADE_WHY 0 w)

/-- In DEGRADED the programs that wait for a lost or read-only channel are left out (R127, R219). -/
def Mach.omitAll (m : Mach) : Mach :=
  if m.mode = mDegraded then (List.range 32).foldl (fun (m : Mach) c => m.omitWaiting c) m else m

/-- Enter RUN, or DEGRADED while a condition holds (R442); the walk of R380 runs, and ladders that BRINGUP held climb on (R431). -/
def Mach.toRun (m : Mach) : Mach :=
  let j := m.judgeDegraded true
  (j.2.setMode (if j.1 = 0 then mRun else mDegraded)).applyWalk.ladderResume.omitAll

/-- DEGRADED_ENTER (R441, R442): the conditions are judged; one that holds in RUN moves the Core to DEGRADED, in which the programs that wait
for a lost or read-only channel are left out (R127, R219). -/
def degradedEnter (m : Mach) : Mach :=
  if !m.released || !m.outOfReset || m.mode = mSafehold then m
  else
    let j := m.judgeDegraded m.rateCounts
    (if m.mode = mRun && j.1 ≠ 0 then (j.2.setMode mDegraded).applyWalk else j.2).omitAll

/-- RUN_RESTORE (R442): no condition holds. -/
def runRestore (m : Mach) : Mach :=
  if m.mode ≠ mDegraded then m
  else
    let j := m.judgeDegraded true
    if j.1 = 0 then ((j.2.setMode mRun).applyWalk).event .power 0 POWER.EV_RUN else j.2

def execLinkTraining (c : BitVec 5) (step : BitVec 3) (faults : BitVec 8) (params1 params2 status : Word)
    (info0 info1 drift0 drift1 : Line) (s : State) :=
  answer s fun m => (linkTraining c.toNat step.toNat faults.toNat
    ⟨params1.toNat, params2.toNat, status.toNat, info0, info1, drift0, drift1⟩ m).trimDecide.trimSearch.ladderResume
def execDegradedEnter (s : State) := answer s degradedEnter
def execRunRestore (s : State) := answer s runRestore

end Sys2Proof.Machine
end

