-- ==== Sys2Proof/Machine/Cfg.lean ====
section
/-! DEFINITION. The CFG target (chapter "Register pages"; R9 to R13): what a read of a register returns, what a write of one does, the
page header and its events, and EVT. The registers of GLOBAL and POWER whose writes start a sequence are in CfgTop. -/
namespace Sys2Proof.Machine

/-! ### The page header (R478 to R482) -/

/-- The EVENT bits that a page defines. -/
def Page.eventMask (p : Page) (n : Nat) : Nat :=
  match p with
  | .global => 0x303
  | .clock => 0x1F
  | .power => 2 ^ 58 - 2 ^ 48 + (2 ^ 42 - 2 ^ 40) + (2 ^ 37 - 1)
  | .alm => 0x3FF | .post => 0x3F | .collier => 0x7F | .reeve => 0x3F | .err => 0x3FF | .gln => 0x1F | .map => 0x3F
  | .kiln => 1 | .loom => 1 | .port => 0xFF
  | .ht => if n = 0 then 0x7FF else 0xFF
  | .hphy => 0x3F | .rotaH => 7 | .rotaM => 7 | .zml => 0x7FFF | .stream => 0x1FFF | .seq => 0x3FF

/-- PAGE_ID (R478, R479). -/
def Page.idWord (p : Page) (n : Nat) : Nat := p.code * 2 ^ 48 + n * 2 ^ 32 + 1

/-- PAGE_CAPS (R480, R486). -/
def Mach.capsWord (m : Mach) (p : Page) (n : Nat) : Nat :=
  match p with
  | .global => m.integ.stackCount % 4 + m.integ.trimSrc % 4 * 4 + m.integ.bootSrc % 4 * 16 + m.integ.channels % 2 ^ 32 * 2 ^ 32
  | _ => b2n (!m.absentPage p n) + (Nat.log2 (p.eventMask n) + 1) * 2 ^ 8 + p.counters n * 2 ^ 16

/-- EVENT_CLEAR_WRITE (R481): each 1 clears its bit; VALID clears when no bit is left. -/
def eventClear (p : Page) (n v : Nat) (m : Mach) : Mach :=
  let old := m.get (evField p) n
  let new := old - (old &&& v)
  let m1 := m.put (evField p) n new
  if new = 0 then m1.setFlag (evFirstValid p) n false else m1

/-- EVENT_SET (R482): EVENT bits set as hardware would set them; bits that the page does not define are ignored. -/
def eventSet (p : Page) (n v : Nat) (m : Mach) : Mach := m.events p n (v &&& p.eventMask n)

/-! ### Reads -/

/-- A register whose value is taken from the state of its block. -/
def Mach.viewGlobal (m : Mach) (off : Nat) : Option Nat :=
  match off with
  | 0x128 => some (m.summary % 2 ^ 64)
  | 0x130 => some (m.summary / 2 ^ 64 % 2 ^ 64)
  | 0x138 => some (m.summary / 2 ^ 128 % 2 ^ 64)
  | _ => none

/-- DEGRADE_WHY and DIRTY_NOW (R441, R461). -/
def Mach.viewPower (m : Mach) (off : Nat) : Option Nat :=
  match off with
  | 0x110 => some m.degradeWhy
  | 0x128 => some (m.undurable + m.dirtyBytes)
  | _ => none

/-- A mask over the eight posts. -/
def eight (p : Nat → Bool) : Nat := (List.range 8).foldl (fun a k => if p k then a + 2 ^ k else a) 0

/-- The POST page as agent `a` sees it (R407, R409, R412, R415, R424, R425). -/
def Mach.viewPost (m : Mach) (a off : Nat) : Option Nat :=
  match off with
  | 0x018 => some (b2n m.parishHeld)
  | 0x148 => some (m.get POST.LATCH_BROKEN + 2 ^ 8 * eight fun k => m.latchOwner k != 0)
  | 0x160 => some (eight (fun k => (m.inPost k).full) + 2 ^ 8 * eight (fun k => (m.outPost k).full) +
      2 ^ 16 * eight (fun k => (m.inPost k).timedOut) + 2 ^ 24 * eight fun k => (m.outPost k).timedOut)
  | 0x168 => some (m.pwAddr a)
  | 0x180 => some (m.post.cancelStat.get a)
  | 0x190 => some a
  | _ =>
    let i := m.inPost (off % 256 / 32)
    let o := m.outPost (off % 256 / 32)
    if off < 0x200 || 0x400 ≤ off then none
    else if off < 0x300 then
      some (if off % 32 = 0 then i.ptr
        else if off % 32 = 8 then i.len + i.seq * 2 ^ 32 + i.owner * 2 ^ 48 + b2n i.timedOut * 2 ^ 62 + b2n i.full * 2 ^ 63
        else if off % 32 = 24 then i.lastSeq + i.lastOwner * 2 ^ 16 + b2n i.busy * 2 ^ 20 else 0)
    else
      some (if off % 32 = 0 then o.note.ptr
        else if off % 32 = 8 then o.note.len + o.note.seq * 2 ^ 32 + b2n o.full * 2 ^ 63 else 0)

/-- SAMP_RD (R384). -/
def Mach.viewReeve (m : Mach) (off : Nat) : Option Nat :=
  if off = 0x1B8 then
    let s := (m.reeve.rings.get (m.get REEVE.SAMP_RD_RING)).getD (m.get REEVE.SAMP_RD_ENTRY) default
    some (s.bytes + s.age * 2 ^ 32)
  else none

/-- The selected registers of the MAP page, CAP_SEGMENTS and CKPT_DIRTY (R174, R204, R205, R234). -/
def Mach.viewMap (m : Mach) (off : Nat) : Option Nat :=
  let k := m.get MAP.NS_SEL
  let c := m.get MAP.CHAN_SEL
  match off with
  | 0x100 => some ((List.range 32).map m.usable).sum
  | 0x158 => some (m.map.dirty.length % 2 ^ 24)
  | 0x190 => some (m.nsWord k 0)
  | 0x198 => some (m.nsWord k 1)
  | 0x1A0 => some (m.nsWord k 2)
  | 0x1A8 => some (m.nsWord k 3)
  | 0x1C0 => some (m.woodshed c + m.freeCount c * 2 ^ 32)
  | 0x1C8 => some (m.reservedOn c none + (m.segsIn c .mapped).length * 2 ^ 32)
  | 0x218 => some (m.wearMean c % 2 ^ 32 + m.wearMax c % 2 ^ 32 * 2 ^ 32)
  | 0x220 => some (m.map.endur.get c % 2 ^ 29)
  | 0x228 => some (m.spares c % 2 ^ 32 + b2n (m.chanRO c) * 2 ^ 32)
  | 0x230 =>
    let x := m.map.lastCanary.get c
    let band := if m.get ZML.HUB_CONTRACT c = 0 then 0 else m.band c
    some (band + m.map.bias.get c * 2 ^ 4 + toField 8 x.2.1 * 2 ^ 8 + toField 8 x.2.2 * 2 ^ 16 + x.1 * 2 ^ 24)
  | 0x240 =>
    let x := m.map.dtbl.get (1024 * c + 32 * m.get MAP.DTBL_BAND + m.get MAP.DTBL_BUCKET)
    some (x % 256 + x / 256 % 256 * 2 ^ 16)
  | 0x248 => some (satU 16 m.map.migDue.length + satU 16 m.map.rotDue.length * 2 ^ 16 + satU 32 m.map.rwDue.length * 2 ^ 32)
  | _ => none

/-- CGEN on CGEN_SEL (R283). -/
def Mach.viewHt (m : Mach) (off : Nat) : Option Nat :=
  if off = 0x260 then some (m.cgen (m.get HT.CGEN_SEL)) else none

/-- LANE_RES and TEST_RES on LANE_SEL (R315). -/
def Mach.viewHphy (m : Mach) (n off : Nat) : Option Nat :=
  let k := 4096 * m.get HPHY.LANE_SEL_KIND n + 64 * m.get HPHY.LANE_SEL_PC n + m.get HPHY.LANE_SEL_LANE n
  match off with
  | 0x128 => some ((m.phy n).lanes.get k)
  | 0x148 =>
    let p := m.phy n
    some (if p.errsFrom = 0 then p.errs.get k else (Config.freeWord (p.errsFrom - 1 + k)).toNat % 2 ^ 32)
  | _ => none

/-- EFF on EFF_SEL, and BAL on BAL_SEL (R389, R393, R401). -/
def Mach.viewRota (m : Mach) (p : Page) (n off : Nat) : Option Nat :=
  let arb := if p = .rotaH then n else 2 + n
  match off with
  | 0x208 =>
    let k := m.get (ROTA.EFF_SEL p) n
    if ROTA.entries p ≤ k then some 31
    else
      let e := m.slotEff arb k
      some (e % 64 + (if e % 32 = m.slotWritten arb k % 32 then 0 else 64))
  | 0x230 =>
    if p = .rotaH then none
    else some (toField 8 (m.bal (dirKey (tgtMedia n) (m.flag ROTA.BAL_SEL_RX n)) (m.get ROTA.BAL_SEL_REQ n)))
  | _ => none

/-- EYE on EYE_SEL, STALE without codeword lock once the lane has been scanned (R359), and TRIM_WORD on TRIM_WSEL (R360, R361). -/
def Mach.viewZml (m : Mach) (c off : Nat) : Option Nat :=
  match off with
  | 0x228 =>
    let e := m.trim.eyes.get (4 * c + m.get ZML.EYE_SEL c)
    some (e.width % 256 + e.height % 256 * 2 ^ 8 + e.worst % 4 * 2 ^ 16 + b2n (e ≠ default && !(m.zml.get c).locked) * 2 ^ 18 + e.errs % 2 ^ 32 * 2 ^ 32)
  | 0x240 => some (m.trim.now.get (16 * c + 4 * m.get ZML.TRIM_WSEL_LANE c + m.get ZML.TRIM_WSEL_WORD c))
  | _ => none

/-- The registers whose value is computed at the read. -/
def Mach.view (m : Mach) (a : Nat) (p : Page) (n off : Nat) : Option Nat :=
  match p with
  | .global => m.viewGlobal off
  | .power => m.viewPower off
  | .post => m.viewPost a off
  | .reeve => m.viewReeve off
  | .map => m.viewMap off
  | .ht => if n = 0 then m.viewHt off else none
  | .hphy => m.viewHphy n off
  | .rotaH => m.viewRota p n off
  | .rotaM => m.viewRota p n off
  | .zml => m.viewZml n off
  | _ => none

/-- The fields of a register put together; a WO field reads zero (R10, R11). -/
def Mach.fieldsWord (m : Mach) (p : Page) (n off : Nat) : Nat :=
  (fieldsAt p n off).foldl (fun v f => if f.acc = .wo then v else v + m.get f n * 2 ^ f.lo) 0

/-- What a read of a register returns to agent `a`. An offset that the page does not define reads zero (R9). -/
def Mach.regWord (m : Mach) (a : Nat) (p : Page) (n off : Nat) : Nat :=
  match off with
  | 0x000 => p.idWord n
  | 0x008 => m.capsWord p n
  | 0x020 => m.get (evField p) n
  | 0x028 => m.get (evEnField p) n
  | 0x038 => m.get (evFirstBit p) n + m.get (evFirstEst p) n * 2 ^ 62 + m.get (evFirstValid p) n * 2 ^ 63
  | 0x040 => m.get (evTime p) n
  | _ => match m.view a p n off with
    | some v => v
    | none => m.fieldsWord p n off

/-- Counters and levels that run with the clock are brought up to now before an access to their page. -/
def Mach.settlePage (m : Mach) (p : Page) (n off : Nat) : Mach :=
  match p with
  | .power => m.settleRes
  | .port => (m.settleUrg n).settleTag n
  | .kiln => (m.settleGw).showKiln
  | .loom => m.showLoom
  | .gln => m.showGlean
  | .stream => m.showStr n
  | .ht => ((m.settleThrottle n).showQ n).settleDirWait
  | .reeve =>
    let m1 := m.settleFb.settleHolds
    if 0x200 ≤ off && off < 0x400 then
      let k := (off - 0x200) / 0x20
      m1.setPortMeter k (m1.portMeter k)
    else if 0x400 ≤ off && off < 0x600 then
      let c := (off - 0x400) / 0x40
      let m2 := m1.setClassMeter c (m1.classMeter c)
      m2.setShaper c (m2.shaper c)
    else m1
  | _ => m

/-- The RC fields of a register are cleared (R11, R12). -/
def Mach.clearRc (m : Mach) (p : Page) (n off : Nat) : Mach :=
  (fieldsAt p n off).foldl (fun (m : Mach) f => if f.acc = .rc then m.put f n 0 else m) m

/-- A read of a register by agent `a`: its value is answered, and its RC fields are cleared (R12). The latches and PW_DATA have meanings
of their own. -/
def cfgRead (a : Nat) (p : Page) (n off : Nat) (m : Mach) : Mach :=
  if p = .post && 0x100 ≤ off && off < 0x140 then latchRead a ((off - 0x100) / 8) m
  else if p = .post && off = 0x170 then pwDataRead a m
  else
    let m0 := m.settlePage p n off
    let m1 := if p = .reeve && 0x600 ≤ off then m0.keepOld off else m0
    { m1.clearRc p n off with cfg := some ⟨a, BitVec.ofNat 64 (m1.regWord a p n off), false⟩ }

/-! ### Writes -/

/-- A write of `x` to one field by its access code and its range (R10, R11). -/
def Mach.writeField (m : Mach) (a n off v : Nat) (f : Field) : Mach :=
  let x := bits v f.lo f.w
  let old := m.get f n
  match f.acc with
  | .rw => match f.chk with
    | .any => m.put f n x
    | .whole => m.put f n x
    | .range lo hi => if lo ≤ x && x ≤ hi then m.put f n x else m.reject f.page n
    | .resv lo hi => if lo ≤ x && x ≤ hi then m.put f n x else m.cfgReserved a f.page n off
    | .bits mask => if x &&& mask = 0 then m.put f n x else m.cfgReserved a f.page n off
  | .w1c => m.put f n (old - (old &&& x))
  | .w1s => m.put f n (old ||| x)
  | .wop =>
    if m.power.holdupSet then m
    else match f.chk with
      | .range lo hi =>
        if lo ≤ x && x ≤ hi then { m.put f n x with power := { m.power with holdupSet := true } } else m.reject f.page n
      | _ => m.put f n x
  | _ => m

/-- A write to a register with no meaning of its own: field by field (R11). -/
def Mach.writeFields (m : Mach) (a : Nat) (p : Page) (n off v : Nat) : Mach :=
  (fieldsAt p n off).foldl (fun (m : Mach) f => m.writeField a n off v f) m

/-- Three watermarks of Reeve lie in 1 to `hi`, LOW < MID < HIGH (R385). -/
def marksOk (lo mid hi top : Nat) : Bool := 1 ≤ lo && lo < mid && mid < hi && hi ≤ top

/-- A write of ROTA SLOT entries: each byte is judged by itself (R388). -/
def Mach.slotWrite (m : Mach) (p : Page) (n off v : Nat) : Mach :=
  let k0 := off - 0x100
  if ROTA.entries p ≤ k0 then m
  else (List.range 8).foldl (fun (m : Mach) i =>
    let o := bits v (8 * i) 5
    let u := bits v (8 * i + 5) 1
    if (20 ≤ o && o ≤ 30) || (u = 1 && o ≠ 31) then m.reject p n
    else (m.put (ROTA.OWNER p (k0 + i)) n o).put (ROTA.URG p (k0 + i)) n u) m

/-- A write of TRAIN_CRIT or RETRAIN: FLOOR_EYE is 8 to MIN_EYE and LIMIT is above PERIOD, as they stand after the write (R315). -/
def Mach.crossWrite (m : Mach) (a n off v : Nat) : Mach :=
  let m1 := m.writeFields a .hphy n off v
  let old (f : Field) (m : Mach) : Nat := m.get f n
  if off = 0x100 then
    let x := bits v 8 7
    if 8 ≤ x && x ≤ m1.get HPHY.MIN_EYE n then m1 else (m1.put HPHY.FLOOR_EYE n (old HPHY.FLOOR_EYE m)).reject .hphy n
  else
    let x := bits v 32 16
    if m1.get HPHY.RETRAIN_PERIOD n < x then m1
    else (m1.put HPHY.RETRAIN_LIMIT n (old HPHY.RETRAIN_LIMIT m)).reject .hphy n

/-- A write of the HT page's timing fields: 0 keeps the old value (R289). -/
def Mach.timingWrite (m : Mach) (n off v : Nat) : Mach :=
  (fieldsAt .ht n off).foldl (fun (m : Mach) f =>
    let x := bits v f.lo f.w
    if x = 0 then m.reject .ht n else m.put f n x) m

/-- A write of RFM: a figure above the stack's own, and a stop that the stack does not allow, are kept out (R292). -/
def Mach.rfmWrite (m : Mach) (n v : Nat) : Mach :=
  let en := bitAt v 0
  let m1 := if !en && m.ht.rfmNeed.get n then m.reject .ht n else m.setFlag HT.RFM_ENABLE n en
  let m2 := if m.ht.raaimt.get n < bits v 8 8 then m1.reject .ht n else m1.put HT.RFM_RAAIMT n (bits v 8 8)
  if m.ht.raammt.get n < bits v 16 16 then m2.reject .ht n else m2.put HT.RFM_RAAMMT n (bits v 16 16)

/-- A write of an HT register with a meaning of its own (R276, R289, R292, R299). -/
def Mach.writeHt (m : Mach) (a n off v : Nat) : Option Mach :=
  match off with
  | 0x138 => some (if bitAt v 0 then timingApply n m else m)
  | 0x140 =>
    let cap := bits v 0 10
    let lo := bits v 16 6
    let hi := bits v 24 6
    let g := bits v 32 6
    some (if 16 ≤ cap && 1 ≤ lo && lo ≤ 62 && lo < hi && 1 ≤ g then m.writeFields a .ht n off v else m.reject .ht n)
  | 0x148 => some (if bits v 1 4 ≤ 8 then m.writeFields a .ht n off v else m.reject .ht n)
  | 0x150 => some (m.rfmWrite n v)
  | 0x170 => some ((m.writeFields a .ht n off v).showQ n)
  | 0x230 => some (if n = 0 && bitAt v 0 then layoutApply m else m)
  | _ => if 0x110 ≤ off && off ≤ 0x130 then some (m.timingWrite n off v) else none

/-- A write of an HPHY register with a meaning of its own. A command that takes values from the stack takes none from a plain write:
no lane has errors, and what the stack shifts out is a free value. -/
def Mach.writeHphy (m : Mach) (a n off v : Nat) : Option Mach :=
  match off with
  | 0x100 => some (m.crossWrite a n off v)
  | 0x108 => some (m.crossWrite a n off v)
  -- a lane, or a channel, that R302 does not number has no meaning: LANE_SEL keeps its value (R10)
  | 0x120 =>
    let lane := bits v 8 6
    let ok := if bitAt v 16 then lane ≤ 18 && bits v 0 5 ≤ 15 else lane ≤ 35
    some (if ok then m.writeFields a .hphy n off v else m.cfgReserved a .hphy n off)
  | 0x138 =>
    let m1 := if bits v 0 2 < 3 then m.put HPHY.TEST_MODE n (bits v 0 2) else m.cfgReserved a .hphy n off
    let m2 := if bits v 16 16 = 0 then m1.reject .hphy n else m1.put HPHY.TEST_DURATION n (bits v 16 16)
    let m3 := m2.put HPHY.TEST_GO n (bits v 4 1)
    some (if bitAt v 4 then loopbackFree n m3 else m3)
  | 0x160 =>
    some (if bitAt v 0 then t1500Go n (Config.freeWord m.free).toNat { m with free := m.free + 1 } else m)
  | _ => none

/-- A write of a REEVE register with a meaning of its own (R369, R374, R378, R379, R384). A CIR of a GUARANTEED class stays in force
until a COMMIT. -/
def Mach.writeReeve (m : Mach) (a off v : Nat) : Option Mach :=
  if off = 0x108 then
    some (if marksOk (bits v 0 11) (bits v 16 11) (bits v 32 11) 1024 then m.writeFields a .reeve 0 off v else m.reject .reeve)
  else if off = 0x110 then
    some (if marksOk (bits v 0 16) (bits v 16 16) (bits v 32 16) 65535 then m.writeFields a .reeve 0 off v else m.reject .reeve)
  else if off = 0x130 then some (if bitAt v 0 then commitGo m else m)
  else if 0x188 ≤ off && off < 0x1A8 then some (sampSelWrite a ((off - 0x188) / 8) (v % 2 ^ 17) m)
  else if 0x400 ≤ off && off < 0x600 && off % 0x40 = 0 then
    let c := (off - 0x400) / 0x40
    let m1 := if (m.reeve.kind.get c = 1 || m.kindShadow c = 1) && (m.reeve.cir.get c).isNone then
        m.modReeve fun r => { r with cir := r.cir.set c (some (m.get (REEVE.CL_CIR c))) }
      else m
    some (m1.writeFields a .reeve 0 off v)
  else if 0x400 ≤ off && off < 0x600 && off % 0x40 = 0x28 then some (if bitAt v 0 then debtClear ((off - 0x400) / 0x40) m else m)
  -- a meter enabled now is filled, a lowered burst or cap clamps (R364, R366, R369)
  else if 0x200 ≤ off && off < 0x600 then some ((m.writeFields a .reeve 0 off v).settlePage .reeve 0 off)
  else none

/-- A write of an ALM register with a meaning of its own (R46, R48, R49). -/
def Mach.writeAlm (m : Mach) (a off v : Nat) : Option Mach :=
  match off with
  | 0x170 => some (loomReserveWrite (v % 2 ^ 10) m)
  | 0x198 =>
    some (match v % 4 with
      | 1 => entWrite m
      | 2 => entClear m
      | 3 => entRead m
      | _ => m.cfgReserved a .alm 0 off)
  | 0x1B8 => some (if bitAt v 0 then logPop m else m)
  | _ => none

/-- A write of a POST register with a meaning of its own (R407 to R415, R421). -/
def Mach.writePost (m : Mach) (a off v : Nat) : Option Mach :=
  match off with
  | 0x140 => some (latchRel a (v % 256) m)
  | 0x168 => some (m.setPwAddr a v)
  | 0x170 => some (pwDataWrite a v m)
  | 0x178 => some (cancel a (v % 2 ^ 32) m)
  | _ =>
    let k := off % 256 / 32
    if 0x200 ≤ off && off < 0x300 then
      some (if off % 32 = 0 then postPtr a k v m else if off % 32 = 8 then postNotice a k v m
        else if off % 32 = 16 && bitAt v 0 then withdrawPost a k m else m)
    else if 0x300 ≤ off && off < 0x400 then some (if off % 32 = 16 then postOutAck a k (v % 2 ^ 16) m else m)
    else none

/-- A write of STREAM_k (R119, R139): the descriptor is locked while the stream is RUNNING or STOPPING; CMD takes its five codes. -/
def Mach.writeStream (m : Mach) (a k off v : Nat) : Option Mach :=
  if 0x100 ≤ off && off ≤ 0x160 then (if m.strActive k then some (m.reject .stream k) else none)
  else if off = 0x168 then
    some (match v % 8 with
      | 1 => streamStart k m
      | 2 => streamStop k m
      | 3 => streamArm k m
      | 4 => streamDisarm k m
      | 5 => streamRelease k m
      | _ => m.cfgReserved a .stream k off)
  else none

/-- A write of SEQ_k (R153): the descriptor is locked while the list is LOADING, RUNNING or STOPPING; CMD takes its five codes. -/
def Mach.writeSeq (m : Mach) (a k off v : Nat) : Option Mach :=
  let st := m.seqState k
  if 0x100 ≤ off && off ≤ 0x140 then (if st = 1 || st = 3 || st = 4 then some (m.reject .seq k) else none)
  else if off = 0x148 then
    some (match v % 8 with
      | 1 => seqLoad k m
      | 2 => seqStart k m
      | 3 => seqStopCmd k m
      | 4 => seqUnload k m
      | 5 => predClear k m
      | _ => m.cfgReserved a .seq k off)
  else none

/-- A write of ZML_c (R348, R355). -/
def Mach.writeZml (m : Mach) (a c off v : Nat) : Option Mach :=
  match off with
  | 0x150 =>
    some (match v % 4 with
      | 1 => zmlRetrain c m
      | 2 => zmlWiden c m
      | 3 => resetHub c m
      | _ => m.cfgReserved a .zml c off)
  | 0x218 => some (if bitAt v 0 then trimApplyCmd c m else m)
  | _ => none

/-- A write of a page whose registers are few (R48, R82, R84, R102, R205, R235, R256, R258, R264, R268, R405, R467). -/
def Mach.writeOther (m : Mach) (a : Nat) (p : Page) (n off v : Nat) : Option Mach :=
  match p, off with
  | .global, 0x108 => let m1 := m.writeFields a p n off v; some (if bitAt v 0 then gfenceGo m1 else m1)
  | .clock, 0x108 =>
    let en := v &&& 0x9FFFFFFFFC
    some ((m.put CLOCK.GATE_EN 0 en).put CLOCK.GATED 0 (m.get CLOCK.GATED &&& en))
  | .collier, 0x100 => some (if v % 4 = 1 || v % 4 = 2 then m.writeFields a p n off v else m.cfgReserved a p n off)
  | .collier, 0x118 => some (if bitAt v 0 then bootGo a m else m)
  | .err, 0x118 => some (flipArm a v m)
  | .err, 0x130 => some (m.writeFields a p n off v).showRing
  | .gln, 0x118 => some (if bitAt v 0 then glnGo m else m)
  | .gln, 0x120 => some (if bitAt v 0 then glnAbort m else m)
  | .gln, _ => if 0x100 ≤ off && off ≤ 0x110 && m.gleaning then some (m.reject p) else none
  | .map, 0x140 => some (if bitAt v 0 then m.ckptStart else m)
  | .map, 0x200 =>
    let g := bits v 0 31
    let ok := g % 256 = 0 && 16384 ≤ g && g ≤ 2 ^ 30
    let m1 := m.writeFields a p n off v
    some (if ok then m1 else (m1.put MAP.GAP_WRITES 0 (m.get MAP.GAP_WRITES)).reject p)
  | .map, 0x130 => some (m.writeFields a p n off v).showWarm
  | .port, 0x010 => some (portEnableCmd n (v % 2) m)
  | .port, 0x100 => some (pclkSelWrite n (v % 4) m)
  | .rotaH, _ => if 0x100 ≤ off && off < 0x200 then some (m.slotWrite p n off v) else none
  | .rotaM, _ => if 0x100 ≤ off && off < 0x200 then some (m.slotWrite p n off v) else none
  | _, _ => none

/-- The registers whose write has a meaning of its own. -/
def Mach.writeOwn (m : Mach) (a : Nat) (p : Page) (n off v : Nat) : Option Mach :=
  match p with
  | .ht => m.writeHt a n off v
  | .hphy => m.writeHphy a n off v
  | .reeve => m.writeReeve a off v
  | .alm => m.writeAlm a off v
  | .post => m.writePost a off v
  | .stream => m.writeStream a n off v
  | .seq => m.writeSeq a n off v
  | .zml => m.writeZml a n off v
  | _ => m.writeOther a p n off v

/-- A write of `v` to a register by agent `a` (R11, R481, R482). -/
def cfgWrite (a : Nat) (p : Page) (n off v : Nat) (m0 : Mach) : Mach :=
  let m1 := m0.settlePage p n off
  let m := if p = .reeve then m1.keepOld off else m1
  if off = 0x020 then eventClear p n v m
  else if off = 0x028 then m.put (evEnField p) n (v &&& p.eventMask n)
  else if off = 0x030 then eventSet p n v m
  else match m.writeOwn a p n off v with
    | some m' => m'
    | none => m.writeFields a p n off v

/-- The page, its instance and the offset in it that a CFG offset names (R483). -/
def cfgPlace (addr : Nat) : Option (Page × Nat × Nat) := (Page.ofNumber (addr / 4096)).map fun x => (x.1, x.2, addr % 4096)

/-- A held access is completed (R455). -/
def Mach.replayHeld (m : Mach) (h : HeldAcc) : Mach :=
  match cfgPlace h.addr with
  | none => m
  | some (p, n, off) => if h.write then cfgWrite h.agent p n off h.data.toNat m else cfgRead h.agent p n off m

/-- The level of EVT (R490): the Watchman forces it from the loss of the reference to its return (R472); before release it is low. -/
def Mach.evt (m : Mach) : Bool :=
  m.power.ref != 0 || (m.outOfReset && m.released && m.flag GLOBAL.MASTER_EN && m.summary != 0)

end Sys2Proof.Machine
end

