-- ==== Sys2Proof/Machine/Boot.lean ====
section
/-! DEFINITION. Resets and the start sequence (chapter "Bring-up, reset and the partners' view", R428 to R439): the resets, the seal
records and the start kind, the replay of the map with the resynchronisation of open stripes and the stream scans (R144, R145, R198,
R199, R210, R215), Trickle service, the end of BRINGUP, and ML_RESET. -/
namespace Sys2Proof.Machine

/-! ### Resets (R434) -/

/-- What a reset leaves of everything: the integration, the clocks of the model, the levels of the reset inputs, and whether the
reference is there. -/
def Mach.cleared (m : Mach) : Mach :=
  { Mach.reset with
    integ := m.integ, now := m.now, free := m.free, serial := m.serial, porstN := m.porstN, srstLow := m.srstLow,
    post := { (default : PostSt) with agentRst := m.post.agentRst },
    power := { (default : PowerSt) with modeAt := m.now, ref := min 1 m.power.ref, lossAt := m.power.lossAt } }

/-- PORST_ASSERT (R434): everything is reset. -/
def porstAssert (m : Mach) : Mach := { m.cleared with porstN := false }

/-- The register pages that SRST_N leaves as they are: CLOCK and POWER. -/
def keepsOnSrst (r : Nat × Nat) : Bool := r.1 / 32768 = 1 || r.1 / 32768 = 2

/-- SRST_ASSERT (R434): everything but the PLL, the CLOCK and POWER pages with the supply levels behind them, and the drift clock, with
what it measures of the canaries, is reset; the mode is RESET. -/
def srstAssert (m : Mach) : Mach :=
  if !m.porstN then { m with srstLow := true }
  else
    let old := m.settleRes
    let p := old.power
    let m1 : Mach := { old.cleared with
      srstLow := true, regs := old.regs.filter keepsOnSrst,
      power := { (default : PowerSt) with
        modeAt := p.modeAt, warnLow := p.warnLow, failLow := p.failLow, warnClr := p.warnClr, stopClr := p.stopClr, ref := p.ref,
        lossAt := p.lossAt, holdupSet := p.holdupSet } }
    let m2 := ((m1.put MAP.AGE_NOW 0 (m.get MAP.AGE_NOW)).put GLOBAL.RESET_KIND 0 2).modMap fun s => { s with promoAt := m.map.promoAt, estDone := m.map.estDone, canaries := m.map.canaries }
    ((((m2.put POWER.STAT_MODE 0 mReset).put POWER.STAT_PHASE 0 0).setFlag POWER.STAT_HOST_FLUSH 0 false).setFlag
      POWER.STAT_VISITING 0 false)

/-- All seventeen switchable domains (R444). -/
def allDomains : Nat := 2 ^ 17 - 1

/-- The domains that PD_CTL does not hold off are on (R444, R451). -/
def Mach.powerUp (m : Mach) : Mach := m.put POWER.PD_ON 0 (allDomains - (allDomains &&& m.get POWER.PD_OFF))

/-- PORST_RELEASE (R428 steps 1 and 2): AON and the Watchman run on the bypass, and the PLL begins to lock. -/
def porstRelease (m : Mach) : Mach :=
  if m.porstN then m
  else
    let m1 : Mach := { m with porstN := true, power := { m.power with modeAt := m.now } }
    if m1.srstLow then m1 else m1.put GLOBAL.STAT_BOOT_STEP 0 2

/-- SRST_RELEASE (R428): with the PLL locked the sequence starts at step 3. -/
def srstRelease (m : Mach) : Mach :=
  let m1 : Mach := { m with srstLow := false }
  if !m.srstLow || !m.porstN then m1
  else if m1.flag CLOCK.STAT_PLL_LOCK then m1.powerUp.put GLOBAL.STAT_BOOT_STEP 0 3
  else m1.put GLOBAL.STAT_BOOT_STEP 0 2

/-! ### Seal records (R336, R337, R458) -/

/-- Line `i` of a seal record with a STATE and generation (R336). -/
def Mach.sealLine (m : Mach) (state g i : Nat) : Line :=
  let strs := (List.range 32).filter fun k => state = 2 && m.strState k ≠ 0
  let mask (l : List Nat) : Nat := (l.map fun k => 2 ^ k).sum
  let of (f : Field) : List Nat := (List.range 32).map fun k => if strs.contains k then m.get f k else 0
  let ws := match i with
    | 0 => [0x5EA10C0E + state * 2 ^ 32, g, m.map.delta.pos, m.get MAP.CKPT_GEN, m.get MAP.AGE_NOW,
            m.get GLOBAL.CORE_VERSION % 2 ^ 32, mask strs, mask m.chansIn]
    | 1 => of STREAM.TAIL
    | 2 => of STREAM.NEXT_OFFSET
    | _ => of STREAM.LAP
  Line.ofWords (ws.map (BitVec.ofNat 64))

/-- Begin to write a seal record to every hub in service, under requester SEAL; `for_` as PowerSt.sealFor says (R337, R458). -/
def Mach.sealBegin (m : Mach) (state g for_ : Nat) : Mach :=
  let m1 : Mach := { m with power := { m.power with sealPhase := state, sealGen := g, sealFor := for_ } }
  (m.chansIn.foldl (fun (x : Mach) c => (List.range 4).foldl (fun (x : Mach) i =>
    x.mQueue c false 19 { (default : Media) with
      op := opSealWrite, area := 2, pos := 4 * (g % 2) + i, nlines := 1, data := m.sealLine state g i } (.sealWr (4 * (g % 2) + i))) x)
    m1).sealSettle

/-- Word `w` of seal line `slot` as read from channel `c`. -/
def Mach.sealWord (m : Mach) (c slot w : Nat) : Nat := (Line.word (m.power.sealRd.get (8 * c + slot)).data w).toNat

/-- The record with the highest G whose four lines verify on a hub in service: its G, channel and first slot (R337). -/
def Mach.sealBest (m : Mach) : Option (Nat × Nat × Nat) :=
  let whole (c r : Nat) : Bool := (List.range 4).all fun i => (m.power.sealRd.get (8 * c + 4 * r + i)).stage = 2
  let all := m.chansIn.flatMap fun c => ([0, 1].filter (whole c)).map fun r => (m.sealWord c (4 * r) 1, c, 4 * r)
  all.foldl (fun (b : Option (Nat × Nat × Nat)) x => match b with | some y => if y.1 < x.1 then some x else b | none => some x) none

/-- Read seal line `slot` of channel `c` at the offset set of a bucket (R337). -/
def Mach.sealRead (m : Mach) (c slot bucket : Nat) : Mach :=
  let m1 : Mach := { m with power := { m.power with sealRd := m.power.sealRd.set (8 * c + slot) ⟨1, bucket, 0⟩ } }
  m1.mQueue c true 19 { (default : Media) with
    op := opSealRead, area := 2, pos := slot, nlines := 1, bkt := if bucket = 0 then 0 else bucket + 2 } (.sealRd slot)

/-- A seal line that waits for the drift table is read on once it is loaded, or given up when it never will be (R337). -/
def Mach.sealRetry (m : Mach) : Mach :=
  (m.chansIn.flatMap fun c => (List.range 8).map fun s => (c, s)).foldl (fun (m : Mach) x =>
    let k := 8 * x.1 + x.2
    if (m.power.sealRd.get k).stage ≠ 4 then m
    else if m.map.dloaded.get x.1 then m.sealRead x.1 x.2 1
    else if m.neverFull x.1 then { m with power := { m.power with sealRd := m.power.sealRd.set k ⟨3, 0, 0⟩ } }
    else m) m

/-- START_KIND_DECIDE (R337, R433; steps 9 and 10 of R428): with every channel in service ACTIVE the seal records are read; when every
line has verified or been given up the start kind is decided, and an OPEN record is written. `root`: a checkpoint root record
verifies on a hub in service. -/
def startKindDecide (root : Bool) (m : Mach) : Mach :=
  let b := m.get GLOBAL.STAT_BOOT_STEP
  if m.mode ≠ mBringup || !m.bootFree || !(6 ≤ b && b ≤ 9) then m
  else if b < 9 then
    if !(m.chansIn.all fun c => m.link c = 4) then m
    else (m.chansIn.flatMap fun c => (List.range 8).map fun s => (c, s)).foldl (fun (m : Mach) x => m.sealRead x.1 x.2 0)
      (m.put GLOBAL.STAT_BOOT_STEP 0 9)
  else
    let m1 := m.sealRetry
    let ended (k : Nat) : Bool := let s := (m1.power.sealRd.get k).stage; s = 2 || s = 3
    if !(m1.chansIn.all fun c => (List.range 8).all fun s => ended (8 * c + s)) then m1
    else
      let best := m1.sealBest
      let sealed_ := match best with | some x => bits (m1.sealWord x.2.1 x.2.2 0) 32 4 = 2 | none => false
      let kind := match best with | some _ => if sealed_ then 2 else 3 | none => if root then 3 else 1
      let g := match best with | some x => x.1 | none => 0
      (((m1.put GLOBAL.STAT_START_KIND 0 kind).setFlag POWER.STAT_SEALED 0 sealed_).put GLOBAL.STAT_BOOT_STEP 0 10).sealBegin 1 (g + 1) 4

/-! ### The map at the start (R192, R198, R203, R210, R215) -/

/-- A FRESH start writes an empty store (R192, R433): S is the largest segment count in service, and R follows from it. -/
def Mach.freshStore (m : Mach) : Mach :=
  let s := m.chansIn.foldl (fun a c => max a (m.get ZML.HUB_SEGMENTS c)) 0
  let mib16 := 16 * 2 ^ 20
  let r := max (s / 16384) (128 + (4160 * 2 ^ 20 + 768 * s + mib16 - 1) / mib16)
  let m1 := (m.modMap fun x => { x with segS := s, reserve := if s = 0 then 0 else r, ckptAt := m.now }).put MAP.CKPT_GEN 0 0
  { (m1.storeProg 0 64 0 (Config.ownRecord m.free) 13 .none).2 with free := m.free + 1 }

/-- The lowest slot that holds its line's next position, between `lo` and `hi` (R215): a slot whose tag fails for both of its positions is
skipped downward. -/
def shiftSearch (x : ShiftIn) : Nat → Nat → Nat → Nat
  | 0, lo, _ => lo
  | f + 1, lo, hi =>
    if hi ≤ lo then lo
    else
      let mid := (lo + hi) / 2
      let at_ := ((List.range (mid + 1 - lo)).map (mid - ·)).find? fun k => !bitAt x.fails.toNat k
      if (match at_ with | some k => bitAt x.moved.toNat k | none => false) then shiftSearch x f lo mid else shiftSearch x f (mid + 1) hi

/-- A map entry as found: an interrupted shift is settled, or resumed after `j` acknowledged moves; MIGRATING is cleared in every case
(R215). `x` are the tags of the unit's first segment. -/
def entSettle (e : Nat) (x : Option ShiftIn) : Nat × Option Nat :=
  if !eFlag e fMigrating then (e, none)
  else
    let e0 := eSetFlag e fMigrating false
    match x with
    | none => (e0, none)
    | some x =>
      if !x.gap then (e0, none)
      else if x.zero then (setBits e0 16 12 ((eRot e + 1) % 4096), none)
      else (e0, some (4097 - shiftSearch x 12 1 4095))

/-- A word of the tree. -/
def treeWord (x : TreeIn) (root : Bool) : MapWord :=
  let v := x.word.toNat
  ⟨bits v 0 24, if root then bits v 24 32 else 0, bitAt v 56, bitAt v 63⟩

/-- A descriptor from its two words (R174). -/
def nsOf (x : NsIn) : NsDesc :=
  let a := x.d0.toNat
  let b := x.d1.toNat
  { size := bits a 0 52, prot := bits a 52 2, ephemeral := bitAt a 54, faultPolicy := bitAt a 55, exists_ := bitAt a 56,
    readPorts := bits b 0 16, writePorts := bits b 16 16, epoch := bits b 32 32, mapped := 0,
    homeX := Nat.xor x.home.toNat (x.ns.toNat % 32) }

/-- The ledger as found (R209, R210): each word takes the larger of its copies that verify, and a word of a line of which no copy verifies
the highest count held on its channel. A word's exact count starts at its ceiling, which is then raised, and judged as at every raise. -/
def Mach.loadLedger (m : Mach) (x : MapIn) : Mach :=
  let s := x.wear.map fun w => (w.chan.toNat, w.seg.toNat, w.ceil0.toNat, w.ceil1.toNat)
  let n := m.map.segS
  let bad0 := x.bad0.map (·.toNat)
  let bad1 := x.bad1.map (·.toNat)
  let line (c g : Nat) : Nat := (c * n + g) / 64
  let found := s.filterMap fun w =>
    let l := line w.1 w.2.1
    let v0 := if bad0.contains l then none else some w.2.2.1
    let v1 := if bad1.contains l then none else some w.2.2.2
    match v0, v1 with
    | some a, some b => some (w.1, w.2.1, max a b)
    | some a, none => some (w.1, w.2.1, a)
    | none, some b => some (w.1, w.2.1, b)
    | none, none => none
  let high (c : Nat) : Nat := found.foldl (fun a w => if w.1 = c then max a w.2.2 else a) ceil0
  let lost := (bad0.filter bad1.contains).flatMap fun l => ((List.range 64).map fun i => 64 * l + i).filter fun w => w < 32 * n
  let all := found ++ lost.map fun w => (w / n, w % n, high (w / n))
  let a0 := 256 * ceil0
  let m1 := m.modMap fun t => all.foldl (fun t w => { t with
    wearA := t.wearA.set (segKey w.1 w.2.1) (Nat.xor (256 * w.2.2) a0), wearC := t.wearC.set (segKey w.1 w.2.1) (Nat.xor w.2.2 ceil0),
    wearD := t.wearD.set (segKey w.1 w.2.1) (Nat.xor w.2.2 ceil0) }) { t with wearA0 := a0 }
  let m2 := (all.filter fun w => w.2.2 ≠ 0xFFFFFFFF).foldl (fun (m : Mach) w => m.raiseCeil w.1 w.2.1 (256 * w.2.2)) m1
  if lost.isEmpty then m2 else m2.wdEvent 5

/-! ### The replay (R198) -/

/-- What the replay has done: the map so far, the sequence that the next record must carry, and the stripe updates that are open: unit,
stripe, covered lines and those of them that were BLANK (R186, R199). -/
structure ReplayAcc where
  m : Mach
  seq : Nat
  opened : List (Nat × Nat × Nat × Nat)

/-- A word of a descriptor (R174). -/
def NsDesc.setWord (d : NsDesc) (k i w : Nat) : NsDesc :=
  match i with
  | 0 => { d with size := bits w 0 52, prot := bits w 52 2, ephemeral := bitAt w 54, faultPolicy := bitAt w 55, exists_ := bitAt w 56 }
  | 1 => { d with readPorts := bits w 0 16, writePorts := bits w 16 16, epoch := bits w 32 32 }
  | 3 => { d with homeX := Nat.xor (bits w 0 5) (k % 32) }
  | _ => d

/-- One delta record applied (R195): word 0, word 1, and for an ENTRY record the level of the tree that it changes. A root or L1 word that
changes leads to another page or to none, so that nothing that stood below the old one is left. -/
def ReplayAcc.record (a : ReplayAcc) (r : BitVec 2 × Word × Word) : ReplayAcc :=
  let w0 := r.2.1.toNat
  let w := r.2.2.toNat
  let ns := bits w0 52 8
  let idx := bits w0 20 32
  let word (root : Bool) : MapWord := ⟨bits w 0 24, if root then bits w 24 32 else 0, bitAt w 56, bitAt w 63⟩
  let m := a.m
  match bits w0 60 4 with
  | 0 =>
    if r.1 = 0#2 then { a with m := m.modMap fun s => { s with ents := s.ents.set (unitKey ns idx) w } }
    else if r.1 = 1#2 then { a with m := m.modMap fun s => { s with
      l1 := s.l1.set (ns * 2 ^ 23 + idx % 2 ^ 23) (word false),
      ents := s.ents.filter fun p => pgMap p.1 ≠ ns * 2 ^ 23 + idx % 2 ^ 23 } }
    else { a with m := m.modMap fun s => { s with
      root := s.root.set (ns * 2 ^ 14 + idx % 2 ^ 14) (word true),
      l1 := s.l1.filter fun p => p.1 / 512 ≠ ns * 2 ^ 14 + idx % 2 ^ 14,
      ents := s.ents.filter fun p => pgMap p.1 / 512 ≠ ns * 2 ^ 14 + idx % 2 ^ 14 } }
  | 1 => { a with m := m.modNs ns fun d => d.setWord ns idx w }
  | 2 => { a with m := m.modNs ns fun d => { d with epoch := w % 2 ^ 32 } }
  | 4 => { a with opened := a.opened ++ [(unitKey ns idx, bits w 0 12, bits w 12 15, bits w 27 15)] }
  | 5 => { a with opened := a.opened.filter fun x => !(x.1 = unitKey ns idx && x.2.1 = bits w 0 12) }
  | _ => a

/-- The records of a line, up to the first whose sequence breaks; FILL records are skipped and not checked. The flag says that none broke. -/
def ReplayAcc.line (a : ReplayAcc) : List (BitVec 2 × Word × Word) → Bool × ReplayAcc
  | [] => (true, a)
  | r :: rs =>
    if bits r.2.1.toNat 60 4 = 15 then a.line rs
    else if bits r.2.1.toNat 0 20 ≠ a.seq then (false, a)
    else ReplayAcc.line { a.record r with seq := (a.seq + 1) % 2 ^ 20 } rs

/-- The delta log from byte position `pos` on, to the first line that fails its tag or whose sequence breaks, or to the pointer of a seal
record (R198): the position after the last line applied. -/
def ReplayAcc.run (log : List DeltaIn) (lim : Option Nat) : Nat → Nat → ReplayAcc → Nat × ReplayAcc
  | 0, pos, a => (pos, a)
  | f + 1, pos, a =>
    if lim.any (· ≤ pos) then (pos, a)
    else
      match log.find? fun l => l.at_.toNat = pos with
      | none => (pos, a)
      | some l =>
        if !l.ok && lim.isNone then (pos, a)
        else
          let r := a.line l.recs
          if r.1 || lim.isSome then ReplayAcc.run log lim f (pos + 256) r.2
          else (if r.2.seq = a.seq then pos else pos + 256, r.2)

/-- The newest checkpoint root record that verifies (R198). -/
def newestRoot (x : MapIn) : RootIn :=
  (x.cands.filter (·.ok)).foldl (fun a c => if !a.ok || a.gen.toNat < c.gen.toNat then c else a) default

/-- The descriptors and the tree of a checkpoint (R196, R198). -/
def Mach.loadRoot (m : Mach) (x : RootIn) : Mach :=
  let m1 := m.modMap fun t => { t with
    reserve := x.reserve.toNat, segS := x.segs.toNat,
    root := x.roots.foldl (fun (t : Tab MapWord) w => t.set (w.ns.toNat * 2 ^ 14 + w.idx.toNat % 2 ^ 14) (treeWord w true)) [],
    l1 := x.l1.foldl (fun (t : Tab MapWord) w => t.set (w.ns.toNat * 2 ^ 23 + w.idx.toNat) (treeWord w false)) [],
    ents := x.ents.foldl (fun (t : Tab Nat) e => t.set (unitKey e.ns.toNat e.u.toNat) e.entry.toNat) [],
    rootAlt := x.rootAlt.foldl (fun (t : Tab Bool) b => t.set b.toNat true) [] }
  { m1 with ns := x.ns.foldl (fun (t : Tab NsDesc) n => t.set n.ns.toNat (nsOf n)) [] }

/-- The delta pointer of the newest SEALED record, after a sealed shutdown (R198, R336). -/
def Mach.sealPtr (m : Mach) : Option Nat :=
  if m.get GLOBAL.STAT_START_KIND = 2 then m.sealBest.map fun x => m.sealWord x.2.1 x.2.2 2 else none

/-- What the replayed map says of segments, units and the reclaimer: mapped and retired segments, pool slots, shifts to resume, root words
that are stale or hold units above SIZE, reservations, and units due for migration or rewrite (R176, R177, R194, R203, R204, R215, R216,
R227). An entry that a settled shift changes is written as any other change, with its record (R195, R215). -/
def Mach.mapFound (m : Mach) (x : MapIn) : Mach :=
  let settle (p : Nat × Nat) : Nat × Option Nat :=
    entSettle p.2 (x.shifts.find? fun s => unitKey s.ns.toNat s.u.toNat = p.1)
  let ents := m.map.ents.map fun p => (p.1, settle p)
  let m1 := m.modMap fun t => { t with
    ents := ents.foldl (fun (t : Tab Nat) e => t.set e.1 e.2.1) [],
    rots := ents.foldl (fun (t : Tab RotSt) e => match e.2.2 with | some j => t.set e.1 ⟨1, j, 0, 0⟩ | none => t) [],
    pool := (t.root ++ t.l1).foldl (fun (t : Tab Bool) w => if w.2.valid then t.set w.2.slot true else t) [],
    readOnly := (List.range 32).foldl (fun (t : Tab Bool) c => t.set c (bitAt x.readOnly.toNat c)) [],
    sparesUsed := x.sparesUsed.foldl (fun (t : Tab Nat) s => t.set s.1.toNat s.2.toNat) [] }
  let m2 := ents.foldl (fun (m : Mach) e => if eKind e.2.1 = 0 then m else m.setUnitSegs e.2.1 .mapped) m1
  let m3 := x.retired.foldl (fun (m : Mach) s => m.setSeg s.1.toNat s.2.toNat .retired) m2
  let units (k : Nat) : Nat := (m3.nsDesc k).size / unitBytes (m3.nsDesc k).prot
  let m4 := m3.ns.keys.foldl (fun (m : Mach) k => m.modNs k fun d => { d with
    mapped := (ents.filter fun e => unitNs e.1 = k && m.ent e.1 ≠ 0).length }) m3
  let m5 := (m4.map.root.filter fun r => r.2.valid).foldl (fun (m : Mach) r =>
    let k := r.1 / 2 ^ 14
    let i := r.1 % 2 ^ 14
    if r.2.epoch ≠ m.epoch k || !(m.nsDesc k).exists_ then m.addReclaim (k, i, 0, 2 ^ 32)
    else if (m.unitsBelow k i (units k) (2 ^ 32 - 1)).isEmpty then m else m.addReclaim (k, i, units k, 2 ^ 32 - 1)) m4
  let m6 := m5.ns.keys.foldl (fun (m : Mach) k =>
    let m1 := m.setReserve k (m.nsDesc k).prot (units k) (m.nsHome k)
    if (m.nsDesc k).exists_ then m1 else m1.keepResv k) m5
  let m7 := m6.map.ents.keys.foldl (fun (m : Mach) uk =>
    let e := m.ent uk
    let m1 := if eFlag e fRetired then m.queueMig uk else m
    if e ≠ 0 && m.get MAP.REWRITE_AGE ≤ eAge e then m1.queueRw uk else m1) m6
  let changed := m.map.ents.filter fun p => (settle p).1 ≠ p.2 && m7.ent p.1 ≠ 0
  changed.foldl (fun (m : Mach) p => (m.setEnt p.1 (settle p).1).2) m7.releaseResv

/-- The map as the newest checkpoint and the delta log give it (R198), with the stripe updates that are open. -/
def Mach.loadMap (m : Mach) (x : MapIn) : List (Nat × Nat × Nat × Nat) × Mach :=
  let c := newestRoot x
  let r := ReplayAcc.run x.log m.sealPtr (x.log.length + 1) c.df.toNat ⟨m.loadRoot c, c.seq.toNat, []⟩
  let m1 := r.2.m.modMap fun t => { t with delta := { (default : DeltaSt) with seq := r.2.seq, pos := r.1 }, ckptAt := m.now }
  let m2 := (m1.put MAP.CKPT_GEN 0 c.gen.toNat).setFill (r.1 - c.df.toNat)
  (r.2.opened, (m2.mapFound x).loadLedger x)

/-- Every EPHEMERAL namespace's EPOCH is incremented, and the increments are logged (R180, R198). A stale root word that carries the new
EPOCH is reclaimed first (R203). -/
def Mach.ephemeralEpochs (m : Mach) : Mach :=
  ((m.ns.filter fun n => n.2.exists_ && n.2.ephemeral).map (·.1)).foldl (fun (m : Mach) k =>
    let clash := (m.map.root.filter fun r => r.1 / 2 ^ 14 = k && r.2.valid && r.2.epoch = (m.epoch k + 1) % 2 ^ 32).map (·.1)
    (clash.foldl (fun (m : Mach) r => m.reclaimRoot k (r % 2 ^ 14) 0 (2 ^ 32)) m).nextEpoch k) m

/-! ### Open stripe updates (R199) -/

/-- Program line `d` of stripe `s` of a PARITY unit (15 is the parity line), or line `s` of another unit, under RECOVER; the programs
queued. -/
def Mach.startProg (m : Mach) (uk s d : Nat) (data : Line) (gen mark : Nat) : Nat × Mach :=
  let e := m.ent uk
  let b := eKind e = 3
  let cp := if b then [(bundleChan (eChan e % 2) s d, eSeg e, s)] else copiesOf e s
  let line := m.lineOf uk (if b then 15 * s + (if d = 15 then 0 else d) else s)
  cp.foldl (fun (a : Nat × Mach) c =>
    if a.2.omitsFor uk c.1 then
      (a.1, if mark = 2 && b then a.2.keepPoison uk c line (d = 15) data else a.2.setRebuild uk c.1)
    else (a.1 + 1, a.2.mQueue c.1 false 17 { (default : Media) with
      op := opWriteLine, seg := c.2.1, pos := c.2.2, nlines := 1, data := data, gen := gen, mark := mark, line := some line,
      par := b && d = 15, uk := some uk } (.repair (parKey line (b && d = 15)) 0))) (0, m)

/-- A line becomes poison in place: it keeps the data as read (R248). -/
def Mach.startPoison (m : Mach) (uk s d : Nat) (data : Line) : Nat × Mach :=
  (m.poisoned.setEntFlag uk fPoison true).2.startProg uk s d data 0 2

/-- The stripe of an update found open is read whole under RECOVER, with the drift-retry steps of R226 (R199): `o` names the unit, the stripe,
the covered lines and those that were BLANK. A line that lies on a lost or stale channel counts as failing. -/
def Mach.resyncRead (m : Mach) (o : Nat × Nat × Nat × Nat) : Mach :=
  let k := m.map.stripeNo + 1
  let ds := (List.range 15).filter fun d => bitAt o.2.2.1 d
  let x : Stripe := { (default : Stripe) with
    uk := o.1, s := o.2.1, rq := 17, stage := 9,
    covered := ds.foldl (fun (a : Tab Nat) d => a.set d (if bitAt o.2.2.2 d then 2 else 1)) [] }
  if eKind (m.ent o.1) ≠ 3 then m
  else (List.range 16).foldl (fun (m : Mach) d =>
    if m.stripeReads x d then (m.stripeRead k d 1).modStripe k fun y => { y with wait := y.wait + 1 }
    else m.modStripe k fun y => { y with cls := y.cls.set d 3 })
    (m.modMap fun s => { s with stripeNo := k, stripes := s.stripes.set k x })

/-- A stripe that has been read whole is resynchronised (R199). -/
def Mach.resyncStripe (m0 : Mach) (k : Nat) : Mach :=
  let x := m0.stripe k
  let m := m0.modMap fun s => { s with stripes := s.stripes.erase k }
  let cls (d : Nat) : Nat := x.cls.get d
  let line (d : Nat) : Line := x.read.get d
  let ds := List.range 15
  let fails := ds.filter fun d => cls d = 3
  let xorAll : Line := xorLines (ds.map line)
  let prog (d : Nat) (data : Line) (mark : Nat) (a : Nat × Mach) : Nat × Mach :=
    let b := a.2.startProg x.uk x.s d data 0 mark
    (a.1 + b.1, b.2)
  let poison (d : Nat) (a : Nat × Mach) : Nat × Mach :=
    let b := a.2.startPoison x.uk x.s d (line d)
    (a.1 + b.1, b.2)
  let rest := prog 15 xorAll 0 (fails.foldl (fun (a : Nat × Mach) d => poison d a) (0, m))
  let r :=
    match fails with
    | [d] =>
      if x.covered.get d ≠ 0 && cls 15 ≠ 3 then
        if x.covered.get d = 2 then prog d 0 1 (0, m)
        else prog d (xorLines (line 15 :: (ds.filter fun j => j ≠ d).map line)) 0 (0, m)
      else rest
    | _ => rest
  r.2.count ERR.CNT_REPAIR 0 r.1

/-! ### Streams at the start (R140, R144, R145) -/

/-- The registers of a stream as its record gives them (R140). -/
def Mach.loadStream (m : Mach) (x : StreamIn) : Mach :=
  let k := x.k.toNat
  let md := x.mode.toNat
  let fs : List (Field × Nat) :=
    [(STREAM.MODE_RING, bits md 0 1), (STREAM.MODE_STAGING, bits md 1 1), (STREAM.MODE_INTAKE, bits md 2 1),
     (STREAM.MODE_IDX_SHIFT, bits md 4 5), (STREAM.MODE_IDX_CLASS, bits md 9 3), (STREAM.MODE_IDX_ENABLE, bits md 12 1),
     (STREAM.TARGET_ADDR, x.addr.toNat), (STREAM.TARGET_LEN, x.len.toNat), (STREAM.TRIG_TICK, x.trigTick.toNat),
     (STREAM.TRIG_OFFSET, x.trigOff.toNat), (STREAM.STAT_TRIGGERED, b2n x.triggered), (STREAM.IDX_ADDR, x.idxAddr.toNat),
     (STREAM.IDX_LEN, x.idxLen.toNat), (STREAM.IDX_HEAD, x.idxHead.toNat), (STREAM.IDX_COUNT, x.idxCount.toNat),
     (STREAM.TAIL, x.tail.toNat), (STREAM.LAP, x.lap.toNat), (STREAM.STAT_STATE, 3)]
  (fs.foldl (fun (m : Mach) f => m.put f.1 k f.2) m).modStr k fun s => { s with commitPos := x.at_.toNat }

/-- A stream with a commit record comes up COMMITTED as the record says (R140). -/
def Mach.streamBack (m : Mach) (x : StreamIn) : Mach :=
  let k := x.k.toNat
  let m1 := (m.loadStream x).modStr k fun s => { s with commitPos := 1 - x.at_.toNat }
  ((((m1.put STREAM.END_OFFSET k x.endOff.toNat).put STREAM.WIN_START k x.winStart.toNat).put STREAM.STOP_REASON k
    (bits x.stopInfo.toNat 0 4)).put STREAM.STOP_PRE_SHORT k (bits x.stopInfo.toNat 4 1)).put STREAM.STOP_IDX_PARTIAL k
      (bits x.stopInfo.toNat 5 1)

/-- The run-ahead units of a stream's target that hold no stream byte go back to the Woodshed (R132). -/
def Mach.returnAhead (m : Mach) (k : Nat) : Mach :=
  let ub := unitBytes (m.strProt k)
  let e := m.get STREAM.END_OFFSET k
  let used := if m.ring k && m.strLen k ≤ e then m.strUnits k else (e + ub - 1) / ub
  let js := (m.map.ents.keys.filter fun uk => m.strUnit k used ≤ uk && uk < m.strUnit k (m.strUnits k))
  js.foldl (fun (m : Mach) uk =>
    let en := m.ent uk
    if en = 0 || !eFlag en fRunahead then m else ((m.setUnitSegs en .woodshed).setEnt uk 0).2) m

/-- A stream that the loss of power ended comes up COMMITTED with its tail as END_OFFSET, and its commit record is written (R144,
R145). -/
def Mach.streamEnded (m : Mach) (x : StreamIn) (reason : Nat) : Mach :=
  let k := x.k.toNat
  let e := m.get STREAM.TAIL k
  let win := if x.triggered then x.trigOff.toNat - x.pre.toNat else if m.ring k then e - m.strLen k else 0
  let m1 := (((m.put STREAM.END_OFFSET k e).put STREAM.NEXT_OFFSET k e).put STREAM.WIN_START k win).put STREAM.STOP_REASON k reason
  ((m1.setFlag STREAM.STOP_PRE_SHORT k (x.triggered && x.trigOff.toNat < x.pre.toNat)).returnAhead k).commitProg k

/-- Lines of a scanned stripe that verify with a generation. -/
def scanOk (x : ScanIn) (d gen : Nat) : Bool := bits x.cls.toNat (2 * d) 2 ≠ 3 && bits x.gens.toNat (8 * d) 8 = gen
def scanFailed (x : ScanIn) (d : Nat) : Bool := bits x.cls.toNat (2 * d) 2 = 3
/-- The one line of sixteen that is not `good`, if there is exactly one. -/
def oddOne (good : Nat → Bool) : Option Nat :=
  match (List.range 16).filter fun d => !good d with | [d] => some d | _ => none
/-- Line `d` as the exclusive or of the other fifteen. -/
def scanXor (x : ScanIn) (d : Nat) : Line := xorLines (((List.range 16).filter fun j => j ≠ d).map fun j => x.lines.getD j 0)

/-- The unit and the stripe or line in it of slot `no` of a stream; none beyond the mapped units. -/
def Mach.scanPlace (m : Mach) (k no : Nat) : Option (Nat × Nat) :=
  let u := m.unitOf (m.slotLine k no 0)
  if m.strLen k ≤ m.place1 k (no * m.span k) || m.ent u.1 = 0 then none
  else some (u.1, if m.strProt k = 2 then u.2 / 15 else u.2)

/-- The forward scan (R145): TAIL passes each stripe that is whole, or was made whole; the rest of what was read is left. -/
def Mach.scanTail (m : Mach) (k : Nat) : List ScanIn → Nat → List ScanIn × Nat × Mach
  | [], no => ([], no, m)
  | x :: xs, no =>
    let g := m.slotGen k no
    match m.scanPlace k no with
    | none => (x :: xs, no, m)
    | some (uk, s) =>
      if (List.range (m.slotLines k)).all fun d => scanOk x d g then (m.put STREAM.TAIL k ((no + 1) * m.span k)).scanTail k xs (no + 1)
      else if m.slotLines k = 16 then
        match oddOne fun d => scanOk x d g with
        | some d => ((m.startProg uk s d (scanXor x d) g 0).2.put STREAM.TAIL k ((no + 1) * m.span k)).scanTail k xs (no + 1)
        | none => (x :: xs, no, m)
      else (x :: xs, no, m)

/-- A line of the scanned stripe carries its lap's generation or fails its tag: the stripe is touched (R145). -/
def Mach.scanTouched (m : Mach) (k no : Nat) (x : ScanIn) : Bool :=
  (List.range (m.slotLines k)).any fun d => scanFailed x d || scanOk x d (m.slotGen k no)

/-- The cleanup (R145): failing lines that no complete stripe gives back become poison. `free` counts the stream bytes without a touched
stripe; the cleanup ends once they reach `lim`. -/
def Mach.scanClean (m : Mach) (k lim : Nat) : List ScanIn → Nat → Nat → Mach
  | [], _, _ => m
  | x :: xs, no, free =>
    match m.scanPlace k no with
    | none => m
    | some (uk, s) =>
      if lim ≤ free then m
      else
        let bad := (List.range (m.slotLines k)).filter fun d => scanFailed x d
        let m1 := match bad with
          | [d] =>
            let g := bits x.gens.toNat (8 * (if d = 0 then 1 else 0)) 8
            if m.slotLines k = 16 && oddOne (fun j => scanOk x j g) = some d then (m.startProg uk s d (scanXor x d) g 0).2
            else (m.startPoison uk s d (x.lines.getD d 0)).2
          | _ => bad.foldl (fun (m : Mach) d => (m.startPoison uk s d (x.lines.getD d 0)).2) m
        m1.scanClean k lim xs (no + 1) (if m.scanTouched k no x then 0 else free + m.span k)

/-- Index entries counted: those whose OFFSET does not decrease and lies below END_OFFSET (R145). -/
def idxCounted (end_ : Nat) : Nat → List Nat → Nat
  | _, [] => 0
  | p, o :: os => if p ≤ o && o < end_ then 1 + idxCounted end_ o os else 0

/-- A stream that was RUNNING or STOPPING when power was lost without a seal (STREAM_FORWARD_SCAN, R145). -/
def Mach.streamScan (m : Mach) (x : StreamIn) : Mach :=
  let k := x.k.toNat
  let m0 := m.loadStream x
  let no := x.tail.toNat / max 1 (m0.span k)
  let r := m0.scanTail k x.scan no
  let lim := bits x.stg.toNat 16 11 * 65536 + bits x.spill.toNat 16 32 * 2 ^ 20
  let m1 := (r.2.2.scanClean k lim r.1 r.2.1 0)
  let m2 := if m1.strLen k = 0 then m1 else m1.put STREAM.LAP k (m1.get STREAM.TAIL k / m1.strLen k)
  let m3 := m2.streamEnded x 7
  let n := x.idxCount.toNat + idxCounted (m3.get STREAM.END_OFFSET k) (64 * x.idxLast.toNat) (x.index.map fun o => 64 * o.toNat)
  (m3.put STREAM.IDX_COUNT k n).setFlag STREAM.STOP_IDX_PARTIAL k (n < x.idxWritten.toNat)

/-- A stream that was RUNNING or STOPPING at a seal: TAIL and LAP are the record's (R144). -/
def Mach.streamSealed (m : Mach) (x : StreamIn) : Mach :=
  let k := x.k.toNat
  let m0 := m.loadStream x
  match m.sealBest with
  | some (_, c, s) =>
    ((m0.put STREAM.TAIL k (m.sealWord c (s + 1) k)).put STREAM.LAP k (m.sealWord c (s + 3) k)).streamEnded x 6
  | none => m0.streamEnded x 6

/-- The stripes whose updates were found open, and which are being read (R199). -/
def Mach.resyncs (m : Mach) : List (Nat × Stripe) := m.map.stripes.filter fun x => x.2.stage = 9

/-- The end of the replay: the stripes are resynchronised, the EPHEMERAL namespaces take a new EPOCH, and the streams come up (R140, R144,
R145, R198). -/
def Mach.replayEnd (m : Mach) (x : MapIn) : Mach :=
  let kind := m.get GLOBAL.STAT_START_KIND
  let m1 := (m.resyncs.map (·.1)).foldl (fun (m : Mach) k => m.resyncStripe k) m
  x.streams.foldl (fun (m : Mach) s =>
    if s.committed then m.streamBack s else if kind = 2 then m.streamSealed s else m.streamScan s) m1.ephemeralEpochs

/-- MAP_REPLAY (R144, R145, R198, R199, R433; step 11 of R428): the map is loaded, and an unsealed start reads the stripes whose updates were
open. DESIGN CHOICE, log entry 92: the replay ends with the command that finds them all read, and it then names the streams. -/
def mapReplay (x : MapIn) (m : Mach) : Mach :=
  if m.mode ≠ mBringup || !m.bootFree || m.get GLOBAL.STAT_BOOT_STEP ≠ 10 || m.power.sealPhase ≠ 0 ||
      (m.get GLOBAL.RESET_KIND = 1 && !m.map.estDone) then m
  else
    let kind := m.get GLOBAL.STAT_START_KIND
    let m0 :=
      if kind = 1 then m.freshStore
      else if m.flag MAP.STAT_REPLAYING then m
      else
        let a := m.loadMap x
        if kind = 3 then a.1.foldl (fun (m : Mach) o => m.resyncRead o) a.2 else a.2
    if m0.resyncs.any fun p => 0 < p.2.wait then m0.setFlag MAP.STAT_REPLAYING 0 true
    else
      let m1 := if kind = 1 then m0 else m0.replayEnd x
      ((m1.showWarm.setFlag MAP.STAT_REPLAYING 0 false).event .map 0 MAP.EV_REPLAY_DONE).put GLOBAL.STAT_BOOT_STEP 0 11

/-! ### Trickle service and the end of BRINGUP (R431, R432) -/

/-- TRICKLE_SERVICE_BEGIN (R428 step 12, R431). -/
def trickleBegin (m : Mach) : Mach :=
  if m.mode ≠ mBringup || !m.bootFree || m.get GLOBAL.STAT_BOOT_STEP ≠ 11 then m
  else
    let m1 := (m.put GLOBAL.STAT_BOOT_STEP 0 12).setFlag GLOBAL.STAT_SERVICE 0 true
    ({ m1 with power := { m1.power with serviceAt := m.now } } : Mach).portLevels.warmUp

/-- A channel below FULL with four lanes (R432). -/
def Mach.belowFull (m : Mach) (c : Nat) : Bool := !(m.link c = 4 && m.get ZML.LINK_RATE c = 0 && m.get ZML.LINK_WIDTH c = 0)

/-- BRINGUP_EXIT (R432): the Core leaves BRINGUP for RUN or DEGRADED. -/
def bringupExit (m : Mach) : Mach :=
  let ready := m.mode = mBringup && m.flag GLOBAL.STAT_SERVICE && !m.flag MAP.STAT_REPLAYING && m.flag MAP.STAT_WARM &&
    !m.flag GLOBAL.BRINGUP_HOLD && (m.get GLOBAL.RESET_KIND ≠ 1 || m.map.estDone) &&
    (m.power.fullOver || !(m.chansIn.any m.belowFull))
  if ready then (((m.toRun.put GLOBAL.STAT_BOOT_STEP 0 0).event .global 0 GLOBAL.EV_BRINGUP_DONE)).portLevels else m

/-- FULL_WAIT_EXPIRE (R432): FULL_WAIT ms have passed since step 12. -/
def fullWaitExpire (m : Mach) : Mach :=
  let w := m.get GLOBAL.FULL_WAIT
  if m.mode = mBringup && m.flag GLOBAL.STAT_SERVICE && w ≠ 0 && !m.power.fullOver && m.power.serviceAt + msec w ≤ m.now then
    let m1 : Mach := { m with power := { m.power with fullOver := true } }
    if m.chansIn.any m.belowFull then m1.event .global 0 GLOBAL.EV_FULL_WAIT else m1
  else m

/-! ### ML_RESET (R438) -/

/-- A write of 1 to ML_RESET.GO: an ACTIVE channel takes it as RETRAIN, a LOST one as RESET_HUB; while BUSY it is missed. -/
def mlReset (m : Mach) : Mach :=
  if m.flag GLOBAL.ML_BUSY then m.setFlag GLOBAL.ML_MISSED 0 true
  else
    let m1 := (List.range 32).foldl (fun (m : Mach) c =>
      if !m.flag ZML.CTL_ENABLE c then m
      else if m.link c = 4 then m.mlRetrain c
      else if m.link c = 6 then m.toReset c
      else m) m
    m1.setFlag GLOBAL.ML_BUSY 0 m1.linksBusy

/-- A write to ML_RESET: MISSED clears on a 1, GO acts (R11, R438). -/
def mlResetWrite (v : Nat) (m : Mach) : Mach :=
  let m1 := if bitAt v 2 then m.setFlag GLOBAL.ML_MISSED 0 false else m
  if bitAt v 0 then mlReset m1 else m1

def execPorstAssert (s : State) := answer s porstAssert
def execSrstAssert (s : State) := answer s srstAssert
def execPorstRelease (s : State) := answer s porstRelease
def execSrstRelease (s : State) := answer s srstRelease
def execStartKindDecide (root : Bool) (s : State) := answer s (startKindDecide root)
def execMapReplay (x : MapIn) (s : State) := answer s (mapReplay x)
def execTrickleServiceBegin (s : State) := answer s trickleBegin
def execBringupExit (s : State) := answer s bringupExit
def execFullWaitExpire (s : State) := answer s fullWaitExpire
def execMlReset (a : BitVec 3) (s : State) := answer s fun m => m.viaCfg a.toNat .global 0 0x120 1 mlReset

end Sys2Proof.Machine
end

