-- ==== Sys2Proof/Machine/Power.lean ====
section
/-! DEFINITION. The power controller (chapter "Operating modes, power domains and supply sag", R442 to R462): FLUSH and the seal, the
supply levels, entry to and exit from EMBER and SMOULDER, the choice of a state, visits, and the power domains. -/
namespace Sys2Proof.Machine

/-- Change what the power controller holds. -/
def Mach.modPower (m : Mach) (f : PowerSt → PowerSt) : Mach := { m with power := f m.power }

/-- CMD_STAT takes a result and a reason (R462): 0 DONE, 1 ALREADY_DONE, 2 REFUSED; reason 1 STATE, 2 BUSY. -/
def Mach.powerStat (m : Mach) (r why : Nat) : Mach := (m.put POWER.CMD_RESULT 0 r).put POWER.CMD_REASON 0 why

/-! ### FLUSH and the seal (R200, R457 to R460) -/

/-- A page or root program of a checkpoint. -/
def LineReq.ofCkpt (q : LineReq) : Bool := match q.job with | .ckptPage => true | .ckptRoot => true | _ => false

/-- A checkpoint in progress is abandoned: its pages are dirty again, and programs already sent end for nothing (R200). -/
def Mach.ckptAbandon (m : Mach) : Mach :=
  if m.get MAP.CKPT_STATE = ckIdle then m
  else
    let free (q : LineReq) : LineReq := if q.ofCkpt then { q with job := .none } else q
    let m1 := m.withdraw LineReq.ofCkpt
    let m2 : Mach := { m1 with zml := m1.zml.mapv fun _ z => { z with
      outs := z.outs.map (fun (o : Outst) => { o with req := free o.req }), refused := z.refused.filter fun q => !q.ofCkpt } }
    let m3 := m.map.ckpt.pages.foldl (fun (m : Mach) pg => m.dirtyPage pg) m2
    ((m3.modCkpt fun _ => default).put MAP.CKPT_STATE 0 ckIdle).setFlag MAP.CKPT_PENDING 0 false

/-- The streams pad, the delta log is written out and a checkpoint is abandoned (R143, R448, R457). -/
def Mach.flushBegin (m : Mach) : Mach :=
  let m1 := ((List.range 32).filter fun k => m.strState k = 1).foldl (fun (m : Mach) k => (m.kilnPad k true).idxFlush k true 3) m
  m1.deltaFlush.ckptAbandon

/-- Enter FLUSH with the mode to return to (R442, R457). -/
def Mach.enterFlush (m : Mach) (prior : Nat) : Mach :=
  let m1 := ((m.put POWER.STAT_PRIOR 0 prior).setMode mFlush).flushBegin
  ((m1.event .power 0 POWER.EV_FLUSH).count POWER.CNT_FLUSH).portLevels.ladderResume

/-- Nothing of what Kiln and the directory hold, nor a delta record, is still to be made durable (R457). -/
def Mach.drained (m : Mach) : Bool :=
  (List.range 32).all (fun k => m.strUndurable k = 0 && (!m.strActive k || m.idxDurable k)) && m.get HT.DIR_COUNT = 0 && m.map.stripes.all fun x => x.2.stage = 0

/-- The delta log is durable. -/
def Mach.deltaDry (m : Mach) : Bool := m.map.delta.cur.isEmpty && m.map.delta.lines.isEmpty

/-- The mode of work to go back to: BRINGUP until its last step is over, else RUN or DEGRADED by R441 (R442). -/
def Mach.backToWork (m : Mach) : Mach := if m.get GLOBAL.STAT_BOOT_STEP ≠ 0 then m.setMode mBringup else m.toRun

/-- The leaving condition of FLUSH (R460). -/
def Mach.mayLeave (m : Mach) : Bool :=
  m.mode = mFlush && m.power.sealPhase = 0 && m.power.step < 10 && !m.flag POWER.STAT_WARN && !m.flag POWER.STAT_HOST_FLUSH

/-- Leave FLUSH when the condition holds (R442, R460). -/
def Mach.leaveFlush (m : Mach) : Mach :=
  if m.mayLeave then (m.backToWork.event .power 0 POWER.EV_RESUMED).portLevels else m

/-- The Core leaves FLUSH on its own when the condition holds, and the cycle in which it does is kept (R460). -/
def Mach.leaveAlone (m : Mach) : Mach :=
  if m.mayLeave then m.leaveFlush.modPower fun p => { p with leftAt := m.now + 1 } else m

/-- A SEALED record is written once everything else is durable; part-filled index lines and a part-filled delta line are written first
(R143, R195, R458). -/
def Mach.sealWhenDry (m0 : Mach) (for_ : Nat) : Mach :=
  let m := ((List.range 32).filter m0.strActive).foldl (fun (m : Mach) k => m.idxFlush k true 3) m0
  if !m.drained then m
  else if !m.deltaDry then m.deltaFlush
  else m.sealBegin 2 (m.power.sealGen + 1) for_

/-- FLUSH_COMPLETE_SEAL (R458, R460): in FLUSH the seal begins once the flush is complete; a record under way whose remaining channels
have left service is complete; and a leave that waited for the seal follows. -/
def flushCompleteSeal (m : Mach) : Mach :=
  let m1 := m.sealSettle
  if m1.mode ≠ mFlush then m1
  else if m1.mayLeave then m1.leaveAlone
  else if m1.flag POWER.STAT_SEALED || m1.power.sealPhase ≠ 0 then m1
  else m1.sealWhenDry 1

/-- A program other than a seal line waits at stage C. -/
def Mach.programWaits (m : Mach) : Bool :=
  let is (q : LineReq) : Bool := q.md.op = opWriteLine
  (m.sc.queues.any fun p => p.2.any is) || m.rota.restarts.any fun p => p.2.any is

/-- OPEN_RECORD_WRITE (R337, R458): while SEALED is 1 the first program waits for an OPEN record of the next generation. In FLUSH none is
written: a flush that begins sealed is complete at once. -/
def openRecordWrite (m : Mach) : Mach :=
  let able := (m.mapUp && m.mode ≠ mFlush) || (m.asleep && m.get POWER.STAT_PHASE = 1 && m.power.step < 2)
  if able && m.flag POWER.STAT_SEALED && m.power.sealPhase = 0 && m.programWaits then m.sealBegin 1 (m.power.sealGen + 1) 3 else m

/-- POWER.CMD FLUSH_SEAL (R460). -/
def flushSeal (m : Mach) : Mach :=
  if m.mode = mRun || m.mode = mDegraded then ((m.enterFlush m.mode).setFlag POWER.STAT_HOST_FLUSH 0 true).powerStat 0 0
  else if m.mode = mFlush then (m.setFlag POWER.STAT_HOST_FLUSH 0 true).powerStat 1 0
  else m.powerStat 2 1

/-- POWER.CMD RESUME (R460); in the cycle in which the Core has left FLUSH on its own nothing is left to do. -/
def resume (m : Mach) : Mach :=
  if m.mode ≠ mFlush && m.power.leftAt = m.now + 1 then m.powerStat 1 0
  else if m.mode ≠ mFlush || m.flag POWER.STAT_WARN then m.powerStat 2 1
  else ((m.setFlag POWER.STAT_HOST_FLUSH 0 false).powerStat 0 0).leaveFlush

/-! ### Supply levels (R430, R456, R459) -/

/-- The mode of work that a sleep was entered from, for PRIOR at a FLUSH out of it (R442). PRIOR names the sleeping mode where a SAFEHOLD came
in between, and RUN is shown then. -/
def Mach.workPrior (m : Mach) : Nat := if m.get POWER.STAT_PRIOR = mDegraded then mDegraded else mRun

/-- A warning stands: FLUSH, or what the mode makes of it (R442, R456). A sleep entry meets it at its next abort point. -/
def Mach.warned (m : Mach) : Mach :=
  let ph := m.get POWER.STAT_PHASE
  if m.mode = mRun || m.mode = mDegraded || (m.mode = mBringup && m.flag GLOBAL.STAT_SERVICE) then m.enterFlush m.mode
  else if m.asleep && ph = 3 then m.enterFlush m.workPrior
  else if m.asleep && ph = 2 then m.event .power 0 POWER.EV_PWRWARN_ASLEEP
  else m

/-- The warning level sets (R456). -/
def Mach.warnOn (m : Mach) : Mach :=
  let m1 := m.modPower fun p => { p with warnClr := 0 }
  if m.flag POWER.STAT_WARN then m1 else (m1.setFlag POWER.STAT_WARN 0 true).warned

/-- The stop level sets; it implies the warning (R456, R459). -/
def Mach.stopOn (m : Mach) : Mach :=
  let m1 := m.modPower fun p => { p with stopClr := 0 }
  (if m.flag POWER.STAT_STOPPED then m1 else (m1.setFlag POWER.STAT_STOPPED 0 true).event .power 0 POWER.EV_STOPPED).warnOn

/-- The AON domain samples VDD_CORE: not under PORST_N, nor without the reference (R456, R465, R472). -/
def Mach.samples (m : Mach) : Bool := m.porstN && m.mode ≠ mSafehold

/-- SUPPLY_WARNING (R456): PWRWARN_N and VDD_CORE in mV as sampled. -/
def supplyWarning (low : Bool) (mv : Nat) (m : Mach) : Mach :=
  let m1 := m.modPower fun p => { p with warnLow := low }
  if !m.samples then m1
  else
    let m2 := m1.put POWER.VDD_NOW 0 mv
    if mv ≤ 690 then m2.stopOn else if low || mv ≤ 712 then m2.warnOn else m2

/-- SUPPLY_STOP (R456, R459): PWRFAIL_N and VDD_CORE in mV as sampled. -/
def supplyStop (low : Bool) (mv : Nat) (m : Mach) : Mach :=
  let m1 := m.modPower fun p => { p with failLow := low }
  if !m.samples then m1
  else
    let m2 := m1.put POWER.VDD_NOW 0 mv
    if low || mv ≤ 690 then m2.stopOn else if mv ≤ 712 then m2.warnOn else m2

/-- A level clears once its condition has held for WARN_CLEAR µs: the time since which it holds (plus 1), and whether it is over. -/
def Mach.clearSince (m : Mach) (since : Nat) (holds : Bool) : Nat × Bool :=
  if !holds then (0, false)
  else if since = 0 then (m.now + 1, false)
  else (since, since - 1 + usec (m.get POWER.WARN_CLEAR) ≤ m.now)

/-- SUPPLY_CLEAR (R456, R460): the inputs and VDD_CORE are sampled at clear levels; a level held for WARN_CLEAR clears. -/
def supplyClear (warnLow failLow : Bool) (mv : Nat) (m : Mach) : Mach :=
  let m1 := m.modPower fun p => { p with warnLow := warnLow, failLow := failLow }
  if !m.samples then m1
  else
    let s := m.clearSince m.power.stopClr (!failLow && 713 ≤ mv)
    let w := m.clearSince m.power.warnClr (!warnLow && 728 ≤ mv)
    let m2 := (m1.put POWER.VDD_NOW 0 mv).modPower fun p => { p with stopClr := s.1, warnClr := w.1 }
    let m3 := if s.2 then m2.setFlag POWER.STAT_STOPPED 0 false else m2
    let m4 := if w.2 && !m3.flag POWER.STAT_STOPPED then m3.setFlag POWER.STAT_WARN 0 false else m3
    m4.leaveAlone

/-! ### Sleep: entry (R447, R448, R450) -/

/-- Wall-clock estimates in µs of R448 and R451. B_line in MB/s, that is bytes per µs. -/
def Mach.bLine (m : Mach) : Nat :=
  (((List.range 32).filter fun c => m.link c = 4).map fun c => m.get ZML.CAPABILITY c * 25600 / 31086).sum

/-- W: the line bytes that the flush must program (R448). -/
def Mach.flushBytes (m : Mach) : Nat :=
  let str (k : Nat) : Nat := if m.strProt k = 2 then m.strUndurable k * 16 / 15 else m.strUndurable k
  let dir := m.ht.dir.filter fun e => e.2.valid
  ((List.range 32).map str).sum + (dir.map fun e => if (m.nsDesc (lineNs e.2.line)).prot = 1 then 512 else 256).sum

/-- entry(s) of mode `k` (R448). -/
def Mach.estEntry (m : Mach) (k : Nat) : Nat := (if k = mEmber then 2000 else 2200) + m.flushBytes / max 1 m.bLine

/-- A stack in service that RETAIN_MASK does not keep. -/
def Mach.unkept (m : Mach) (mask n : Nat) : Bool := m.stackIn n && !bitAt mask (40 + n)

/-- exit(s) of mode `k` (R451): a stack that is not retained adds its training and its fill. -/
def Mach.estExit (m : Mach) (k : Nat) : Nat :=
  let per := if m.ht.bin = 1 then 25600 else if m.ht.bin = 2 then 30720 else 38400
  (if k = mEmber then 1500 else 4000) +
    (if [0, 1].any (m.unkept (m.get POWER.RETAIN_MASK)) then 19500 + m.stackMiB * 2 ^ 20 / (32 * per) else 0)

/-- Entry to a sleeping mode begins (R448): PORT_READY falls on every port, and range holds end (R116, R447). The AON watch times a URG of 3
that stands from now on (R81). -/
def Mach.sleepBegin (m : Mach) (k : Nat) : Mach :=
  let m1 := ((m.put POWER.STAT_PRIOR 0 m.mode).setMode k).put POWER.STAT_PHASE 0 1
  let m2 := m1.modPower fun p => { p with
    step := 0, wakes := 0, inSvc := m.chansIn, visitIdx := 0, visitAt := m.now, retain := m.get POWER.RETAIN_MASK, idleAt := 0, preAt := 0 }
  let m3 := (m2.endHolds fun _ => true).portLevels
  (List.range 16).foldl (fun (m : Mach) n => m.urgWatch n) m3

/-- An accepted command block is not complete, or an inbound post is FULL (R454, R462). -/
def Mach.blocksBusy (m : Mach) : Bool := !m.post.cmds.isEmpty || (List.range 8).any fun k => (m.inPost k).full

/-- POWER.CMD SLEEP_EMBER and SLEEP_SMOULDER (R442, R448, R462). -/
def sleepCmd (k : Nat) (m : Mach) : Mach :=
  if m.mode ≠ mRun && m.mode ≠ mDegraded then m.powerStat 2 1
  else if m.blocksBusy then m.powerStat 2 2
  else (m.sleepBegin k).powerStat 0 0

/-- POWER.CMD WAKE (R449). -/
def wakeCmd (m : Mach) : Mach :=
  if m.asleep && m.get POWER.STAT_PHASE ≠ 3 then (m.wake 1).powerStat 0 0 else m.powerStat 1 0

/-- A privileged source is latched (R449). -/
def Mach.privileged (m : Mach) : Bool := [3, 4, 5].any (bitAt m.power.wakes)

/-- CFG accesses held while the Core slept are completed, in their order (R455). -/
def Mach.heldDone (m : Mach) : Mach :=
  m.power.held.foldl (fun (m : Mach) h => m.replayHeld h) (m.modPower fun p => { p with held := [] })

/-- A stack comes up without its contents: full training, and a fill; lists whose copy lay in it restore it (R170, R451). -/
def Mach.stackCold (m : Mach) (n : Nat) : Mach :=
  let m1 := (m.modPhy n fun p => { p with want := 1, step := 0, fill := true, keeps := false, startAt := m.now }).modHt fun h => { h with
    cells := h.cells.filter fun c => c.1 / 2 ^ 28 ≠ n }
  (m1.hmapLost.showWarm.loomForget fun p => p.1 = n).setFlag HT.STAT_SELF_REFRESH n false

/-- The stacks in service leave self-refresh by resume training, or reset by full training (R295, R307, R451). -/
def Mach.stacksUp (m : Mach) : Mach :=
  m.inService.foldl (fun (m : Mach) n =>
    if m.unkept m.power.retain n then m.stackCold n else (m.srx n).modPhy n fun p => { p with want := 2, step := 0, startAt := m.now }) m

/-- The entry is over: awake again in a mode of work. -/
def Mach.sleepOver (m : Mach) : Mach :=
  let m1 : Mach := { m with ports := m.ports.mapv fun _ p => { p with urg3At := 0 } }
  (m1.put POWER.STAT_PHASE 0 0).modPower fun p => { p with step := 0, wakes := 0, idleAt := 0, chosen := false, preAt := 0 }

/-- The entry is abandoned at abort point `n` (ENTRY_ABORT, R450). -/
def Mach.entryAbort (m : Mach) (n : Nat) : Mach :=
  let m1 := if n = 3 then m.stacksUp else m
  let prior := m1.get POWER.STAT_PRIOR
  let m2 := if prior = mRun || prior = mDegraded then m1.setMode prior else m1.toRun
  let m3 := ((m2.sleepOver.put POWER.WAKE_POINT 0 n).put POWER.WAKE_ABORT_OUT 0 1).count POWER.CNT_ABORT
  ((m3.event .power 0 POWER.EV_ENTRY_ABORTED).heldDone).portLevels

/-- The entry is left for FLUSH at an abort point before A2 (R442). -/
def Mach.entryFlush (m : Mach) : Mach :=
  let prior := m.workPrior
  (m.sleepOver.enterFlush prior).heldDone

/-- Ports are quiet, and maintenance units in progress have finished (R448 step 1). -/
def Mach.parked (m : Mach) : Bool :=
  (List.range 16).all m.quiet && m.map.rots.all (fun r => r.2.stage ≠ 2) && m.map.rws.all (fun r => r.2.flight = 0) &&
    m.map.migs.all (fun r => r.2.flight = 0) && m.err.gFly.isEmpty &&
    m.ht.pcs.all fun p => !p.2.hold

/-- The wait of a RUNNING list: until its cursor is within HORIZON ticks, in µs (R454). -/
def Mach.listWait (m : Mach) (k : Nat) : Nat :=
  let t : Tick := BitVec.ofNat 64 (m.get SEQ.CURSOR k) - BitVec.ofNat 64 (m.get LOOM.HORIZON)
  if reached m.tb t then 0 else (t - m.tb).toNat * 1000000 / max 1 (m.get ALM.NOMINAL_RATE)

/-- A RUNNING list wants its walk, or holds a PLAY to deliver (R170, R449). -/
def Mach.listWakes (m : Mach) : Bool :=
  (List.range 16).any fun k => m.seqState k = 3 && (m.listWait k = 0 || (m.seq k).queue.any fun e => !e.mark)

/-- The wake sources that are levels are looked at: URG of 3 held on an enabled port, and a RUNNING list (R81, R170, R449). Of sources that
come together WAKE_INFO takes the lowest code. -/
def Mach.levelWakes (m : Mach) : Mach :=
  if !m.asleep then m
  else
    let m1 := (List.range 16).foldl (fun (m : Mach) n => m.urgWake n) m
    if m.listWakes then m1.wake 5 else m1

/-- The stacks that the entry retains. -/
def Mach.kept (m : Mach) : List Nat := m.inService.filter fun n => !m.unkept m.power.retain n

/-- One step of the entry sequence (SLEEP_ENTRY_STEP, R448), whose abort points look at the sources that are levels first (R170, R450). A1
lies before the end of step 2, A2 between steps 3 and 4, A3 between steps 4 and 5. A retained stack enters self-refresh once nothing is
left at it, and T_RFCAB after its REFabs (R295). -/
def Mach.entryStep (m0 : Mach) : Mach :=
  let m := m0.levelWakes
  let step (m : Mach) (k : Nat) : Mach := m.modPower fun p => { p with step := k }
  let warn := m.flag POWER.STAT_WARN
  match m.power.step with
  | 0 =>
    if m.privileged then m.entryAbort 1
    else if warn then m.entryFlush
    else if m.parked then step m.flushBegin 1 else m
  | 1 =>
    if m.privileged then m.entryAbort 1
    else if warn then m.entryFlush
    else if m.flag POWER.STAT_SEALED && m.drained && m.deltaDry && !m.programWaits then step m 2
    else if m.power.sealPhase ≠ 0 then m
    else
      let m1 := m.sealWhenDry 2
      if m1.power.sealPhase = 2 || m1.flag POWER.STAT_SEALED then step m1 2 else m1
  | 2 =>
    if !m.flag POWER.STAT_SEALED || m.power.sealPhase ≠ 0 then m
    else if m.privileged then m.entryAbort 2
    else if warn then m.entryFlush
    else if (m.kept).all m.hearthStill then step (m.kept.foldl (fun (m : Mach) n => m.sreBegin n) m) 3
    else m
  | 3 =>
    if !(m.kept.all fun n => m.flag HT.STAT_SELF_REFRESH n) then
      m.kept.foldl (fun (m : Mach) n => if m.sreReady n then m.setFlag HT.STAT_SELF_REFRESH n true else m) m
    else if m.privileged then m.entryAbort 3
    else
      step ((List.range 32).foldl (fun (m : Mach) c =>
        if m.link c = 4 then m.sleepQuiesce c
        else if m.link c = 5 then m.modZml c fun z => { z with quiesceOff := true, resetGiven := false }
        else if m.link c = 6 then m else m.linkOff c) m) 4
  | 4 => if (List.range 32).all fun c => m.link c = 0 || m.link c = 6 then step m 5 else m
  | 5 => step m 6
  | _ => ((((step m 7).put POWER.PD_ON 0 0).put POWER.STAT_PHASE 0 2).count POWER.CNT_SLEEP).portLevels

/-! ### Choosing a state (R454) -/

/-- The conditions of idleness (R454). -/
def Mach.sleepIdle (m : Mach) : Bool :=
  m.maint && m.flag POWER.SLEEP_EN && (List.range 16).all (fun n => !m.flag PORT.CTL_ENABLE n || m.quiet n) &&
    (List.range 16).all (fun k => (m.seq k).queue.all fun e => e.mark) && !(m.gleaning && !m.flag GLN.STAT_WAITING) &&
    m.get ALM.WIN_MASK = 0 && !m.blocksBusy && (List.range 32).all (fun c => m.link c ≠ 3 && m.link c ≠ 5) &&
    m.get MAP.CKPT_STATE = ckIdle

/-- The wait in µs until the next known event, or until a RUNNING list wants its walk (R58, R454); none is unbounded. -/
def Mach.sleepWait (m : Mach) : Option Nat :=
  if !m.flag ALM.STAT_TB_VALID then none
  else
    let next := m.nextKnown.map fun x => (x.2.tick - m.tb).toNat * 1000000 / max 1 (m.get ALM.NOMINAL_RATE)
    ((List.range 16).filter fun k => m.seqState k = 3).foldl (fun w k => some (min (w.getD (m.listWait k)) (m.listWait k))) next

/-- The choice against the next known event: the deepest state whose entry, exit and minimum residence fit (R454). -/
def Mach.choose (m : Mach) : Mach :=
  let wait := m.sleepWait
  let margin := m.get POWER.WAKE_MARGIN
  let fits (k : Nat) : Bool := match wait with
    | none => true
    | some w => m.estEntry k + m.estExit k + m.get POWER.MIN_RES + margin ≤ w
  let deep := m.get POWER.SLEEP_MAX
  let k := if 2 ≤ deep && fits mSmoulder then mSmoulder else if 1 ≤ deep && fits mEmber then mEmber else 0
  let est := if k = 0 then mEmber else k
  let m1 := ((m.put POWER.EST_ENTRY 0 (satU 20 (m.estEntry est))).put POWER.EST_EXIT 0 (satU 20 (m.estExit est))).put
    POWER.EST_CHOICE 0 (if k = mSmoulder then 2 else if k = mEmber then 1 else 0)
  let m2 := m1.modPower fun p => { p with chosen := true }
  if k = 0 then m2
  else
    let at_ := match wait with | none => 0 | some w => m.now + usec (w - margin - m.estExit k) + 1
    (m2.sleepBegin k).modPower fun p => { p with preAt := at_, chosen := true }

/-- SLEEP_CHOICE (R448, R454): while the Core enters a sleeping mode, the next step of the entry; while it works, the idleness is
sampled and after IDLE_TIME µs of it the state is chosen, once for each idleness. -/
def sleepChoice (m : Mach) : Mach :=
  if m.asleep && m.get POWER.STAT_PHASE = 1 then m.entryStep
  else if !m.sleepIdle then m.modPower fun p => { p with idleAt := 0, chosen := false }
  else if m.power.idleAt = 0 then m.modPower fun p => { p with idleAt := m.now + 1, chosen := false }
  else if !m.power.chosen && m.power.idleAt - 1 + usec (m.get POWER.IDLE_TIME) ≤ m.now then m.choose
  else m

/-- PRE_EVENT_WAKE (R454): the armed wake falls due. -/
def preEventWake (m : Mach) : Mach :=
  if m.asleep && m.power.preAt ≠ 0 && m.power.preAt - 1 ≤ m.now then (m.wake 2).modPower fun p => { p with preAt := 0 } else m

/-! ### Sleep: exit (R449, R451, R452) -/

/-- The SRAM banks and stacks that do not come back: not retained, failed their check, or off in SMOULDER (R447, R452). -/
def Mach.banksLost (m : Mach) (bad : Nat) : Nat :=
  let off := (List.range 40).foldl (fun a k => if bitAt m.power.retain k && m.mode = mEmber then a else a + 2 ^ k) 0
  off ||| bad

/-- A sample line of a retained stack classifies FAIL (R452). -/
def Mach.samplesFail (m : Mach) (n : Nat) : Bool :=
  let d := max 1 (m.stackLines / 4096)
  m.ht.cells.any fun c => c.1 / 2 ^ 28 = n && c.1 % 2 ^ 28 % d = 0 && c.1 % 2 ^ 28 / d < 4096 && c.2.cls = 3

/-- Step 2 of the exit begins (R451, R452): the retained banks named in `bad` fail their signature. -/
def Mach.wakeBanks (m : Mach) (bad : Nat) : Mach :=
  let kept := bad &&& m.power.retain
  let fails := if m.mode = mEmber then kept % 2 ^ 37 else 0
  let lost := m.banksLost fails
  let m1 := m.events .power 0 fails
  let m2 := m1.modMap fun s => { s with sram := s.sram.filter fun b => !bitAt lost (16 + b.1), sramBad := [] }
  let m3 := if bits lost 32 4 = 0 then m2
    else (m2.put COLLIER.STAT_STATE 0 1).modPost fun p => { p with
      cancels := [], ramBad := false, outs := p.outs.mapv fun _ o => { o with queue := [] } }
  ((m3.modReeve fun r => { r with pm := [], cm := [], shapers := r.shapers.mapv fun _ s => { s with credit := 0, at_ := m.now } }).modRota
    fun r => { r with bal := [] }).stacksUp

/-- Every stack in service has been trained: the samples of the retained ones are read; one that fails is filled (R452). -/
def Mach.wakeStacks (m : Mach) (bad : Nat) : Mach :=
  m.inService.foldl (fun (m : Mach) n =>
    if m.unkept m.power.retain n || !(m.samplesFail n || bitAt bad (40 + n)) then m
    else
      let m1 := m.modPhy n fun p => { p with fill := true }
      let m2 := m1.modHt fun h => { h with cells := h.cells.filter fun c => c.1 / 2 ^ 28 ≠ n }
      (m2.hmapLost.showWarm.loomForget).event .power 0 (40 + n)) m

/-- Step 3 of the exit: the Core is awake (R442, R451). A FLUSH that a warning began meanwhile stays. -/
def Mach.wakeDone (m : Mach) : Mach :=
  let m1 := if m.mode = mFlush then m else m.toRun
  let m2 := m1.sleepOver.event .power 0 POWER.EV_WOKE
  (if m2.map.hmap.isEmpty then m2.warmUp else m2).heldDone.portLevels

/-- WAKE_SOURCE (R449, R451): the sources that are levels are looked at; a source that is latched while RESIDENT starts the exit, whose steps follow.
`bad` names the retained banks and stacks that fail their check. -/
def wakeSource (bad : Nat) (m : Mach) : Mach :=
  let m0 := m.levelWakes
  let ph := m0.get POWER.STAT_PHASE
  let s := m0.power.step
  if m0.asleep && ph = 2 && m0.power.wakes ≠ 0 then
    let m1 := ((m0.put POWER.STAT_PHASE 0 3).powerUp.wakeBanks bad).modPower fun p => { p with step := 11 }
    if m1.flag POWER.STAT_WARN then m1.warned else m1
  else if ph = 3 && s = 11 && m0.mode ≠ mSafehold && m0.inService.all fun n => (m0.phy n).want = 0 then
    (m0.wakeStacks bad).modPower fun p => { p with step := 12 }
  else if ph = 3 && s = 12 && m0.mode ≠ mSafehold && m0.inService.all fun n => !(m0.phy n).fill then m0.wakeDone
  else m0

/-! ### Visits (R453) -/

/-- SMOULDER_VISIT (R453): the visit that has fallen due, of the next channel that was in service at entry; `s` holds the measured
shifts of its eight canaries, a byte each, with the hub's and the quad's temperature. -/
def smoulderVisit (s hubTemp quadTemp : Nat) (m : Mach) : Mach :=
  let p := m.power
  if !(m.mode = mSmoulder && m.get POWER.STAT_PHASE = 2 && p.wakes = 0 && !p.inSvc.isEmpty) ||
      m.now < p.visitAt + secs (m.get POWER.SMOULDER_INT) then m
  else
    let c := p.inSvc.getD (p.visitIdx % p.inSvc.length) 0
    let m1 := (m.count ZML.CNT_TRAIN c).put ZML.HUB_TEMP c hubTemp
    let excess (k : Nat) : Int :=
      let age := m.get MAP.AGE_NOW - ((m.map.canaries.get (canKey c k)).at_ - 1)
      sx 8 (bits s (8 * k) 8) - m1.expShift c (min 31 (Nat.log2 (max 1 age)))
    let ks := (List.range 8).filter fun k => (m.map.canaries.get (canKey c k)).at_ ≠ 0
    let best := ks.foldl (fun (b : Nat × Int) k => if b.2 < excess k then (k, excess k) else b) (ks.headD 0, excess (ks.headD 0))
    let e := max (-128) (min 127 best.2)
    let m2 := ((((m1.put POWER.VISIT_CHANNEL 0 c).put POWER.VISIT_CANARY 0 best.1).put POWER.VISIT_EXCESS 0 (toField 8 e)).put
      POWER.VISIT_HUB_TEMP 0 hubTemp).put POWER.VISIT_QUAD_TEMP 0 quadTemp
    let m3 := (m2.count POWER.CNT_VISIT).modPower fun p => { p with visitIdx := (p.visitIdx + 1) % max 1 p.inSvc.length, visitAt := m.now }
    if !ks.isEmpty && (m.get MAP.CANARY_LIMIT : Int) < best.2 then m3.wake 6 0 c else m3

/-! ### Power domains (R444 to R446) -/

/-- Domain `d` may be switched off (R445). -/
def Mach.mayPowerOff (m : Mach) (d : Nat) : Bool :=
  if d = 3 || d = 4 then !(d - 3 < m.integ.stackCount) || m.flag HT.STAT_FAILED (d - 3)
  else if 5 ≤ d && d ≤ 12 then (List.range 4).all fun i => !m.flag ZML.CTL_ENABLE (4 * (d - 5) + i) && m.link (4 * (d - 5) + i) = 0
  else if 13 ≤ d && d ≤ 16 then (List.range 4).all fun i => !m.flag PORT.CTL_ENABLE (4 * (d - 13) + i) && m.quiet (4 * (d - 13) + i)
  else false

/-- A write of PD_CTL (R445): bits that R445 allows switch their domains off, others stay 0 with PARAM_REJECT; a cleared bit switches its
domain on. -/
def pdCtlWrite (v : Nat) (m : Mach) : Mach :=
  (List.range 17).foldl (fun (m : Mach) d =>
    let is := bitAt (m.get POWER.PD_OFF) d
    let on (m : Mach) (b : Bool) : Mach := m.put POWER.PD_ON 0 (setBits (m.get POWER.PD_ON) d 1 (b2n b))
    if bitAt v d && !is then
      if m.mayPowerOff d then on (m.put POWER.PD_OFF 0 (setBits (m.get POWER.PD_OFF) d 1 1)) false else m.reject .power
    else if !bitAt v d && is then
      let m1 := m.put POWER.PD_OFF 0 (setBits (m.get POWER.PD_OFF) d 1 0)
      if m.asleep && m.get POWER.STAT_PHASE = 2 then m1 else on m1 true
    else m) m

/-- DOMAIN_HELD_TRANSFER (R446): a transfer other than a CFG access is held at an off domain, switches it on, and completes. -/
def domainHeld (d : Nat) (m : Mach) : Mach :=
  if d < 17 && m.outOfReset && m.flag CLOCK.STAT_PLL_LOCK && !(m.asleep && m.get POWER.STAT_PHASE = 2) && !bitAt (m.get POWER.PD_ON) d then
    m.wakeDomain d
  else m

/-- A write of POWER.CMD (R462). -/
def powerCmdWrite (a v : Nat) (m : Mach) : Mach :=
  match v % 8 with
  | 1 => sleepCmd mEmber m
  | 2 => sleepCmd mSmoulder m
  | 3 => wakeCmd m
  | 4 => flushSeal m
  | 5 => resume m
  | _ => m.cfgReserved a .power 0 0x100

def execSupplyWarning (low : Bool) (mv : BitVec 10) (s : State) := answer s (supplyWarning low mv.toNat)
def execSupplyStop (low : Bool) (mv : BitVec 10) (s : State) := answer s (supplyStop low mv.toNat)
def execSupplyClear (warnLow failLow : Bool) (mv : BitVec 10) (s : State) := answer s (supplyClear warnLow failLow mv.toNat)
def execFlushCompleteSeal (s : State) := answer s flushCompleteSeal
def execOpenRecordWrite (s : State) := answer s openRecordWrite
def execSleepEmber (a : BitVec 3) (s : State) := answer s fun m => m.viaCfg a.toNat .power 0 0x100 1 (sleepCmd mEmber)
def execSleepSmoulder (a : BitVec 3) (s : State) := answer s fun m => m.viaCfg a.toNat .power 0 0x100 2 (sleepCmd mSmoulder)
def execWake (a : BitVec 3) (s : State) := answer s fun m => m.viaCfg a.toNat .power 0 0x100 3 wakeCmd
def execFlushSeal (a : BitVec 3) (s : State) := answer s fun m => m.viaCfg a.toNat .power 0 0x100 4 flushSeal
def execResume (a : BitVec 3) (s : State) := answer s fun m => m.viaCfg a.toNat .power 0 0x100 5 resume
def execSleepChoice (s : State) := answer s sleepChoice
def execWakeSource (bad : BitVec 42) (s : State) := answer s (wakeSource bad.toNat)
def execPreEventWake (s : State) := answer s preEventWake
def execSmoulderVisit (shifts : Word) (hubTemp quadTemp : BitVec 8) (s : State) :=
  answer s (smoulderVisit shifts.toNat hubTemp.toNat quadTemp.toNat)
def execPdCtlWrite (a : BitVec 3) (v : BitVec 17) (s : State) :=
  answer s fun m => m.viaCfg a.toNat .power 0 0x158 v.toNat (pdCtlWrite v.toNat)
def execDomainHeldTransfer (d : BitVec 5) (s : State) := answer s (domainHeld d.toNat)

end Sys2Proof.Machine
end

