-- ==== Sys2Proof/Machine/Clock.lean ====
section
/-! DEFINITION. Clock generation, gating and the Watchman (chapter "Clock generation, gating and the Watchman", R463 to R476): loss and
return of the reference, the exit from SAFEHOLD, and the automatic gates. -/
namespace Sys2Proof.Machine

/-! ### Loss of the reference (R430, R471, R472, R474, R475) -/

/-- The PLL has lost its reference: the three bypass domains run through the bypass, and every other domain stops (R465, R471). -/
def Mach.unlock (m : Mach) : Mach :=
  (((m.setFlag CLOCK.STAT_REF_OK 0 false).setFlag CLOCK.STAT_PLL_LOCK 0 false).setFlag CLOCK.STAT_BYPASS 0 true).modPower fun p =>
    { p with ref := 1, quiet := [] }

/-- A training of a stack that is under way when its clock stops starts again from its first step. -/
def Mach.trainAgain (m : Mach) (n : Nat) : Mach :=
  if (m.phy n).want = 0 then m
  else (m.setFlag HPHY.STAT_TRAINING n false).modPhy n fun p => { p with step := 0, recorded := [] }

/-- A loss before the release: the start sequence goes back to step 2 (R430); after a failed start only a reset restarts it. -/
def Mach.startAgain (m : Mach) : Mach :=
  if m.flag GLOBAL.STAT_BRINGUP_FAIL || !m.outOfReset then m
  else
    let m1 := [0, 1].foldl (fun (m : Mach) n =>
      ((((m.setFlag HPHY.STAT_TRAINING n false).setFlag HT.STAT_FILLING n false).setFlag HT.STAT_IN_SERVICE n false).put HT.PC_SERVICE n
        0).modPhy n fun p => { p with want := 0, step := 0, recorded := [], fill := false }) m
    m1.put GLOBAL.STAT_BOOT_STEP 0 2

/-- SAFEHOLD is entered from the mode left, which PRIOR holds: ports, links and retraining units stop (R84, R312, R341, R442, R472). -/
def Mach.enterSafehold (m : Mach) : Mach :=
  let m1 := ((m.put POWER.STAT_PRIOR 0 m.mode).setMode mSafehold).modPower fun p => { p with lossAt := m.now }
  let m2 := [0, 1].foldl (fun (m : Mach) n => (m.unitAbandon n).trainAgain n) m1
  ((List.range 32).foldl (fun (m : Mach) c => m.linkOff c) m2).portLevels

/-- REF_LOSS (R471, R472). -/
def refLoss (m : Mach) : Mach :=
  if !m.porstN then m.modPower fun p => { p with ref := 1 }
  else if m.power.ref = 1 then m
  else
    let m1 := ((m.unlock.event .clock 0 CLOCK.EV_REF_LOST).count CLOCK.CNT_REF_LOSS)
    if m.mode = mReset then m1.startAgain
    else if m.mode = mSafehold then m1
    else m1.enterSafehold

/-- REF_STABLE (R474 step 1): 100,000 periods in range have been counted. -/
def refStable (m : Mach) : Mach :=
  if m.porstN && m.power.ref = 1 then
    ((m.setFlag CLOCK.STAT_REF_OK 0 true).event .clock 0 CLOCK.EV_REF_BACK).modPower fun p => { p with ref := 2 }
  else m

/-- REF_CALIBRATE (R471): while the reference is good the delay line is calibrated; `ps` is the measured period. -/
def refCalibrate (ps : Nat) (m : Mach) : Mach :=
  if m.porstN && m.power.ref = 0 then m.put CLOCK.REF_PERIOD 0 ps else m

/-! ### Lock, and the exit from SAFEHOLD (R297, R463, R465, R473, R474) -/

/-- The PLL has locked after `us` µs: the bypass domains move to their dividers (R463, R465, R469). -/
def Mach.locked (m : Mach) (us : Nat) : Mach :=
  ((((((m.setFlag CLOCK.STAT_PLL_LOCK 0 true).setFlag CLOCK.STAT_BYPASS 0 false).setFlag CLOCK.STAT_REF_OK 0 true).put CLOCK.LOCK_TIME 0
    us).event .clock 0 CLOCK.EV_PLL_LOCKED)).modPower fun p => { p with ref := 0 }

/-- Wall-clock time, the residency of SAFEHOLD and the drift clock catch up with SAFE_TIME, `us` µs (R473). -/
def Mach.catchUp (m : Mach) (us : Nat) : Mach :=
  let m1 : Mach := { m with now := max m.now (m.power.lossAt + usec us) }
  let m2 := m1.put CLOCK.SAFE_TIME 0 us
  let m3 := (m2.put (POWER.RES mSafehold) 0 (satU 64 (m2.get (POWER.RES mSafehold) + 100 * us))).modPower fun p => { p with modeAt := m1.now }
  m3.put MAP.AGE_NOW 0 (m3.get MAP.AGE_NOW + (m1.now / secs 1 - m.power.lossAt / secs 1))

/-- Trace time catches up: a discontinuity where trace time has been loaded, and the estimated state, because TB_ALIVE went unobserved
(R473). -/
def Mach.traceCatchUp (m : Mach) (us : Nat) : Mach :=
  let k := us * m.get ALM.NOMINAL_RATE / 1000000
  let m1 := (m.modAlm fun a => { a with backSeen := false, aliveAt := m.now, frac := if m.estimated then a.frac else 0 }).setFlag
    ALM.STAT_ESTIMATED 0 true
  let m2 := m1.event .alm 0 ALM.EV_TIMEBASE_LOST
  if m2.flag ALM.STAT_TB_VALID then
    if k = 0 then m2 else m2.jumpTo (m2.tb + BitVec.ofNat 64 k) m2.tb
  else m2.put ALM.TB_NOW 0 (m2.tb + BitVec.ofNat 64 k).toNat

/-- HT.SAFE_RETAIN, at half its value when the last temperature of a stack was at TEMP_HOT or above (R297). -/
def Mach.safeRetain (m : Mach) : Nat :=
  let hot (n : Nat) : Bool := (m.get HT.REF_TEMP_HOT n : Int) ≤ sx 8 (m.get HT.TEMP n)
  if [0, 1].any hot then m.get HT.SAFE_RETAIN / 2 else m.get HT.SAFE_RETAIN

/-- A stack whose contents were not refreshed in SAFEHOLD: in service, and neither in self-refresh nor reset by a sleep (R295, R297). -/
def Mach.exposed (m : Mach) (n : Nat) : Bool :=
  let asleep := m.get POWER.STAT_PRIOR = mEmber || m.get POWER.STAT_PRIOR = mSmoulder
  let down := asleep && (m.get POWER.STAT_PHASE = 2 || (m.get POWER.STAT_PHASE = 1 && 3 ≤ m.power.step))
  m.stackIn n && !m.flag HT.STAT_SELF_REFRESH n && !(down && m.unkept m.power.retain n)

/-- A stack's contents are kept: resume training, then every row is refreshed, unless full training is due anyway (R297 step 3a). -/
def Mach.keepStack (m : Mach) (n : Nat) : Mach :=
  let m1 := m.modPhy n fun p => { p with want := if p.want = 0 then 2 else p.want, step := 0, startAt := m.now }
  m1.count HT.CNT_REFAB n (8192 * 32)

/-- Hearth on leaving SAFEHOLD after `us` µs (R297). -/
def Mach.hearthAfter (m : Mach) (us : Nat) : Mach :=
  let ss := [0, 1].filter m.exposed
  if ss.isEmpty then m
  else if (us * 105 + 99) / 100 ≤ m.safeRetain then ss.foldl (fun (m : Mach) n => m.keepStack n) m
  else ss.foldl (fun (m : Mach) n => m.modPhy n fun p => { p with want := 1, step := 0, startAt := m.now }) m.contentLost

/-- SAFEHOLD ends (R442, R474 steps 3 and 4): the mode returns to PRIOR, and a supply level that stands is met there. -/
def Mach.leaveSafehold (m : Mach) (us : Nat) : Mach :=
  let m1 := ((m.catchUp us).traceCatchUp us).hearthAfter us
  let m2 := m1.put POWER.STAT_MODE 0 (m1.get POWER.STAT_PRIOR)
  let m3 := if m2.power.failLow then m2.stopOn else if m2.power.warnLow then m2.warnOn else m2
  m3.portLevels

/-- PLL_LOCK (R463, R474): the PLL locks `us` µs after a stable reference; `safe` is the SAFEHOLD time in µs as the Watchman counted it. -/
def pllLock (us safe : Nat) (m : Mach) : Mach :=
  if !m.porstN || m.power.ref = 1 || m.flag CLOCK.STAT_PLL_LOCK then m
  else
    let m1 := m.locked us
    if m.mode = mSafehold then m1.leaveSafehold safe
    else if m.outOfReset && m.get GLOBAL.STAT_BOOT_STEP = 2 then m1.powerUp.put GLOBAL.STAT_BOOT_STEP 0 3
    else m1

/-! ### Automatic gating (R467, R468) -/

/-- No request waits in any stage C queue that `is` names. -/
def Mach.queuesIdle (m : Mach) (is : LineReq → Bool) : Bool := m.sc.queues.all fun q => !q.2.any is

/-- The four channels of a quad hold no request and no command. -/
def Mach.quadIdle (m : Mach) (q : Nat) : Bool :=
  (List.range 4).all fun i =>
    let c := 4 * q + i
    (m.zs c).outs.isEmpty && (m.zs c).refused.isEmpty && (List.range 32).all fun rq =>
      (m.scQueue (dirKey (tgtMedia c) false) rq).isEmpty && (m.scQueue (dirKey (tgtMedia c) true) rq).isEmpty

/-- The block of clock domain `d` has no queued work, no unit in progress and nothing in flight (R464, R467). -/
def Mach.domainIdle (m : Mach) (d : Nat) : Bool :=
  let allQuiet := (List.range 16).all m.quiet
  if d = 3 then !m.blocksBusy && m.get COLLIER.STAT_STATE ≠ 1
  else if d = 4 then allQuiet && m.queuesIdle fun _ => true
  else if d = 5 then allQuiet && m.get MAP.CKPT_STATE = ckIdle && m.deltaDry && m.map.migs.isEmpty && m.map.rots.isEmpty &&
    m.map.rws.isEmpty && m.map.reclaim.isEmpty
  else if d = 6 then (List.range 32).all fun k => !m.strActive k
  else if d = 7 then (List.range 16).all fun k => m.seqState k ≠ 3 && m.seqState k ≠ 4 && (m.seq k).reading = 0
  else if d = 8 then !m.gleaning
  else if d = 9 then m.queuesIdle fun _ => true
  else if d = 10 || d = 11 then
    (List.range 32).all (fun pc => (m.pcSt (d - 10) pc).queue.isEmpty) && !(m.ht.flights.any fun f => f.stack = d - 10)
  else if d = 12 || d = 13 then !m.stackIn (d - 12) || m.flag HT.STAT_SELF_REFRESH (d - 12)
  else if 14 ≤ d && d ≤ 21 then m.quadIdle (d - 14)
  else if 22 ≤ d && d ≤ 29 then (List.range 4).all fun i => m.link (4 * (d - 22) + i) = 0
  else if 30 ≤ d && d ≤ 37 then m.quiet (2 * (d - 30)) && m.quiet (2 * (d - 30) + 1)
  else d = 40

/-- The clocks run: out of reset, the PLL locked, not in SAFEHOLD. -/
def Mach.clocked (m : Mach) : Bool := m.outOfReset && m.flag CLOCK.STAT_PLL_LOCK && m.mode ≠ mSafehold

/-- CLOCK_GATE_CLOSE (R467): the gate of domain `d` looks at its block: one found idle now and GATE_IDLE fabric cycles ago is gated. -/
def clockGateClose (d : Nat) (m : Mach) : Mach :=
  if !m.clocked || d = 0 || 40 < d || !bitAt (m.get CLOCK.GATE_EN) (d - 1) || bitAt (m.get CLOCK.GATED) (d - 1) then m
  else if !m.domainIdle d then m.modPower fun p => { p with quiet := p.quiet.set d 0 }
  else
    let t := m.power.quiet.get d
    if t = 0 then m.modPower fun p => { p with quiet := p.quiet.set d (m.now + 1) }
    else if fabricCycles (t - 1) m.now < m.get CLOCK.GATE_IDLE then m
    else (m.put CLOCK.GATED 0 (m.get CLOCK.GATED + 2 ^ (d - 1))).modPower fun p => { p with quiet := p.quiet.set d 0 }

/-- CLOCK_GATE_WAKE (R468): a transfer arrives at domain `d`. -/
def clockGateWake (d : Nat) (m : Mach) : Mach :=
  if !m.clocked || d = 0 || 40 < d then m
  else (m.wakeClock d).modPower fun p => { p with quiet := p.quiet.set d 0 }

/-- SWITCH_FORCED (R470): domain `d` is switched though its old clock shows no edge; a loss of the reference abandons the switch. -/
def switchForced (d : Nat) (m : Mach) : Mach :=
  if !m.porstN || m.power.ref = 1 || d = 0 || 40 < d then m
  else ((m.put CLOCK.SWITCH_DOMAIN 0 d).event .clock 0 CLOCK.EV_SWITCH_FORCED).count CLOCK.CNT_FORCED_SWITCH

def execRefLoss (s : State) := answer s refLoss
def execRefStable (s : State) := answer s refStable
def execPllLock (us : BitVec 8) (safe : BitVec 32) (s : State) := answer s (pllLock us.toNat safe.toNat)
def execRefCalibrate (ps : BitVec 16) (s : State) := answer s (refCalibrate ps.toNat)
def execClockGateClose (d : BitVec 6) (s : State) := answer s (clockGateClose d.toNat)
def execClockGateWake (d : BitVec 6) (s : State) := answer s (clockGateWake d.toNat)
def execSwitchForced (d : BitVec 6) (s : State) := answer s (switchForced d.toNat)

end Sys2Proof.Machine
end

