-- ==== Sys2Proof/Machine/AlmanacFire.lean ====
section
/-! DEFINITION. What a fired schedule entry does (chapter "Trace time and the Almanac", R39 to R41, R45, R49, R53, R54, R59). -/
namespace Sys2Proof.Machine

/-- A kind of maintenance work, by its mask bit, has work queued (R45, R53): a unit of R24 that has not started. A rewrite, a migration or a
shift whose last line has started has none left. -/
def Mach.workQueued (m : Mach) (kind : Nat) : Bool :=
  match kind with
  | 0 => !m.map.rwDue.isEmpty || m.map.rws.any fun p => p.2.next - 1 < unitCopies (m.ent p.1)
  | 1 => !m.map.migDue.isEmpty || !m.map.rotDue.isEmpty ||
      (m.map.migs.any fun p => p.2.next < unitCopies (m.ent p.1) || !p.2.marked.isEmpty) ||
      m.map.rots.any fun p => p.2.acked + b2n (p.2.stage = 2) < 4097
  | 2 => m.gleaning && !m.gleanOver
  | 3 => (List.range 32).any fun c => m.link c = 4 && m.flag ZML.TRIM_DUE c
  | _ => [0, 1].any fun n => m.stackUp n && (m.flag HPHY.RETRAIN_DUE n || (m.phy n).repair.any fun r => !r.2.isEmpty)

/-- WINDOW_OPEN (R45, R53). -/
def Mach.windowOpen (m : Mach) (mask : Nat) : Mach := m.put ALM.WIN_MASK 0 (m.get ALM.WIN_MASK ||| mask % 32)

/-- WINDOW_CLOSE of tick `t` (R45, R53, R54): the units under way begin to overrun, and every cleared kind that still has work queued
is short. -/
def Mach.windowClose (m : Mach) (mask : Nat) (t : Tick) : Mach :=
  let cut := m.get ALM.WIN_MASK &&& mask % 32
  let kinds := (List.range 5).filter fun k => bitAt cut k
  let m1 := kinds.foldl (fun (m : Mach) k => m.overrunFrom k t) m
  let m2 := m1.put ALM.WIN_MASK 0 (m.get ALM.WIN_MASK - cut)
  let short := kinds.filter m.workQueued
  if short.isEmpty then m2
  else
    let m3 := m2.put ALM.WIN_PENDING 0 (short.foldl (fun v k => v ||| 2 ^ k) (m.get ALM.WIN_PENDING))
    (m3.event .alm 0 ALM.EV_WINDOW_SHORT).count ALM.CNT_WIN_SHORT 0 short.length

/-- The effect of a fired entry of index `i` (R45). -/
def Mach.fireEffect (m : Mach) (i : Nat) (e : Entry) : Mach :=
  match e.kind with
  | .free => m
  | .windowOpen => m.windowOpen e.arg.toNat
  | .windowClose => m.windowClose e.arg.toNat e.tick
  | .period => m.periodEntry e.tick e.arg
  | .playDue => m.loomFire i
  | .arm => (m.arm (e.arg.toNat % 32)).2
  | .disarm => m.setFlag STREAM.STAT_ARMED (e.arg.toNat % 32) false
  | .wake => m

/-- The fire-log record of an entry that fires now (R49, R61). -/
def Mach.fireRec (m : Mach) (i : Nat) (e : Entry) : FireRec :=
  { index := i, kind := e.kind, skewed := e.skewed, past := e.past, est := m.estimated,
    wakeTag := if e.kind = .wake then e.arg.toNat % 65536 else 0, delay := min (2 ^ 32 - 1) (m.tb - e.tick).toNat, tick := e.tick }

/-- An entry fires: it becomes FREE and takes its effect, and the log takes its record (R40, R41, R43, R45, R49). -/
def Mach.fire (m : Mach) (i : Nat) (e : Entry) : Mach :=
  let m1 := (m.setEntry i default).fireEffect i e
  let m2 := (m1.appendLog (m.fireRec i e)).judgeEst
  let m3 := if e.skewed then (m2.event .alm 0 ALM.EV_SKEWED).count ALM.CNT_SKEW else m2
  m3.showNext.showLoomFull false

/-- ALM_ENTRY_FIRE (R37, R41, R59): at most one reached entry fires; while the Core sleeps a reached entry wakes it instead. -/
def almEntryFire (m : Mach) : Mach :=
  if !m.almRuns || !m.flag ALM.STAT_TB_VALID then m
  else
    match m.nextToFire with
    | none => m
    | some (i, e) => if m.asleep then m.wake 2 else m.fire i e

def execAlmEntryFire (s : State) := answer s almEntryFire

end Sys2Proof.Machine
end

