-- ==== Sys2Proof/Machine/CfgTop.lean ====
section
/-! DEFINITION. CFG accesses as they arrive at the target (chapters "Architecture", R9 to R13, and "Register pages", R478 to R492): the
check of an access, the registers of GLOBAL and POWER whose writes start a sequence, and the rows of the table that are accesses. -/
namespace Sys2Proof.Machine

/-- A write to any register (R11): ML_RESET, POWER.CMD and PD_CTL start what their chapters state (R438, R445, R462). -/
def topWrite (a : Nat) (p : Page) (n off v : Nat) (m : Mach) : Mach :=
  match p, off with
  | .global, 0x120 => mlResetWrite v m
  | .power, 0x100 => powerCmdWrite a v m
  | .power, 0x158 => pdCtlWrite v m
  | _, _ => cfgWrite a p n off v m

/-- An access of agent `a` to byte offset `addr`: no response while a reset is asserted or in SAFEHOLD (R437); a bus error unless it is a
naturally aligned 64-bit access (`full` says that it has 64 bits); zero from an offset in no page (R9). -/
def cfgAccess (a addr : Nat) (full : Bool) (act : Page → Nat → Nat → Mach → Mach) (m : Mach) : Mach :=
  if !m.outOfReset || m.mode = mSafehold then m
  else if !full || addr % 8 ≠ 0 then { m with cfg := some ⟨a, 0, true⟩ }
  else match cfgPlace addr with
    | none => { m with cfg := some ⟨a, 0, false⟩ }
    | some (p, n, off) => act p n off m

/-- A CFG write (R9 to R11, R13, R437). -/
def cfgWriteAt (a addr : Nat) (full : Bool) (v : Nat) : Mach → Mach :=
  cfgAccess a addr full fun p n off m => m.viaCfg a p n off v (topWrite a p n off v)

/-- A CFG read (R9 to R13, R429, R437): a page that is not present has its identification only (R480). -/
def cfgReadAt (a addr : Nat) (full : Bool) : Mach → Mach :=
  cfgAccess a addr full fun p n off m =>
    if m.released && m.absentPage p n then
      { m with cfg := some ⟨a, BitVec.ofNat 64 (if off = 0 then p.idWord n else if off = 8 then m.capsWord p n else 0), false⟩ }
    else m.viaCfg a p n off 0 (cfgRead a p n off) false

/-- A write to the EVENT or EVENT_SET register of page number `pg` (R481, R482). -/
def pageWrite (a pg off v : Nat) : Mach → Mach := cfgWriteAt a (4096 * pg + off) true v

/-- A fabric cycle ends: what is judged at its end is judged, a COMMIT's check is over, and time passes (R158, R378, R410, R414). -/
def Mach.cycleEnd (m : Mach) : Mach := m.loomEnd.commitEnd.postEnd.passTime

def execCfgWrite (a : BitVec 3) (addr : BitVec 24) (full : Bool) (v : Word) (s : State) :=
  answer s (cfgWriteAt a.toNat addr.toNat full v.toNat)
def execRcRead (a : BitVec 3) (addr : BitVec 24) (full : Bool) (s : State) := answer s (cfgReadAt a.toNat addr.toNat full)
def execEventClearWrite (a : BitVec 3) (pg : BitVec 12) (v : Word) (s : State) := answer s (pageWrite a.toNat pg.toNat 0x020 v.toNat)
def execEventSet (a : BitVec 3) (pg : BitVec 12) (v : Word) (s : State) := answer s (pageWrite a.toNat pg.toNat 0x030 v.toNat)
def execSleepCfgWrite (a : BitVec 3) (addr : BitVec 24) (v : Word) (s : State) := answer s (cfgWriteAt a.toNat addr.toNat true v.toNat)

end Sys2Proof.Machine
end

