-- ==== Sys2Proof/Machine/Dispatch.lean ====
section
/-! DEFINITION. The dispatcher: one arm for each command. -/
namespace Sys2Proof.Machine

def exec (i : Instr) (s : State) : Host.Outcome State Fault Refusal :=
  match i with
  | .cfgWrite a addr full v => Sys2Proof.Machine.execCfgWrite a addr full v s
  | .rcRead a addr full => Sys2Proof.Machine.execRcRead a addr full s
  | .eventClearWrite a pg v => Sys2Proof.Machine.execEventClearWrite a pg v s
  | .eventSet a pg v => Sys2Proof.Machine.execEventSet a pg v s
  | .timebaseTick adv => Sys2Proof.Machine.execTimebaseTick adv s
  | .tbLoad v adv => Sys2Proof.Machine.execTbLoad v adv s
  | .tbAliveToggle => Sys2Proof.Machine.execTbAliveToggle s
  | .timebaseLost => Sys2Proof.Machine.execTimebaseLost s
  | .almEntryFire => Sys2Proof.Machine.execAlmEntryFire s
  | .entWrite a => Sys2Proof.Machine.execEntWrite a s
  | .entClear a => Sys2Proof.Machine.execEntClear a s
  | .entRead a => Sys2Proof.Machine.execEntRead a s
  | .logPop a => Sys2Proof.Machine.execLogPop a s
  | .loomReserveWrite a v => Sys2Proof.Machine.execLoomReserveWrite a v s
  | .guaranteedPortionEnd => Sys2Proof.Machine.execGuaranteedPortionEnd s
  | .periodEnd => Sys2Proof.Machine.execPeriodEnd s
  | .reqAccept port op tag oid addr len cls attr => Sys2Proof.Machine.execReqAccept port op tag oid addr len cls attr s
  | .read port tag k => Sys2Proof.Machine.execRead port tag k s
  | .write port tag k => Sys2Proof.Machine.execWrite port tag k s
  | .writeMasked port tag k => Sys2Proof.Machine.execWriteMasked port tag k s
  | .fence port tag => Sys2Proof.Machine.execFence port tag s
  | .persist port tag => Sys2Proof.Machine.execPersist port tag s
  | .persistNs port tag => Sys2Proof.Machine.execPersistNs port tag s
  | .append port tag => Sys2Proof.Machine.execAppend port tag s
  | .clearPoison port tag k => Sys2Proof.Machine.execClearPoison port tag k s
  | .prefetch port tag k => Sys2Proof.Machine.execPrefetch port tag k s
  | .zero port tag k => Sys2Proof.Machine.execZero port tag k s
  | .wdatBeat port data be last => Sys2Proof.Machine.execWdatBeat port data be last s
  | .intakePresent port => Sys2Proof.Machine.execIntakePresent port s
  | .portMeterHoldRelease p => Sys2Proof.Machine.execPortMeterHoldRelease p s
  | .classMeterHoldRelease c => Sys2Proof.Machine.execClassMeterHoldRelease c s
  | .shaperRelease c => Sys2Proof.Machine.execShaperRelease c s
  | .rspBeat port tag => Sys2Proof.Machine.execRspBeat port tag s
  | .plyPush port => Sys2Proof.Machine.execPlyPush port s
  | .plyCredit port => Sys2Proof.Machine.execPlyCredit port s
  | .urgChange port v => Sys2Proof.Machine.execUrgChange port v s
  | .urgFallExpire port => Sys2Proof.Machine.execUrgFallExpire port s
  | .pclkSelWrite a port v => Sys2Proof.Machine.execPclkSelWrite a port v s
  | .portEnableWrite a port en => Sys2Proof.Machine.execPortEnableWrite a port en s
  | .gfenceGo a => Sys2Proof.Machine.execGfenceGo a s
  | .gfenceDone => Sys2Proof.Machine.execGfenceDone s
  | .persistComplete port tag => Sys2Proof.Machine.execPersistComplete port tag s
  | .nsBroadcast => Sys2Proof.Machine.execNsBroadcast s
  | .heldTimeout port tag => Sys2Proof.Machine.execHeldTimeout port tag s
  | .rangeHoldDrainDone => Sys2Proof.Machine.execRangeHoldDrainDone s
  | .streamStart a k => Sys2Proof.Machine.execStreamStart a k s
  | .streamStop a k => Sys2Proof.Machine.execStreamStop a k s
  | .streamArm a k => Sys2Proof.Machine.execStreamArm a k s
  | .streamDisarm a k => Sys2Proof.Machine.execStreamDisarm a k s
  | .streamRelease a k => Sys2Proof.Machine.execStreamRelease a k s
  | .trigEdge levels => Sys2Proof.Machine.execTrigEdge levels s
  | .spillSlotMove k => Sys2Proof.Machine.execSpillSlotMove k s
  | .spillDrain k => Sys2Proof.Machine.execSpillDrain k s
  | .spillExit k => Sys2Proof.Machine.execSpillExit k s
  | .padTimeout k => Sys2Proof.Machine.execPadTimeout k s
  | .runaheadMap k => Sys2Proof.Machine.execRunaheadMap k s
  | .tailAdvance k => Sys2Proof.Machine.execTailAdvance k s
  | .commitRecordWrite k => Sys2Proof.Machine.execCommitRecordWrite k s
  | .streamCommitted k => Sys2Proof.Machine.execStreamCommitted k s
  | .seqLoad a k => Sys2Proof.Machine.execSeqLoad a k s
  | .listLoadDone k => Sys2Proof.Machine.execListLoadDone k s
  | .seqStart a k => Sys2Proof.Machine.execSeqStart a k s
  | .seqStop a k => Sys2Proof.Machine.execSeqStop a k s
  | .seqUnload a k => Sys2Proof.Machine.execSeqUnload a k s
  | .predClear a k => Sys2Proof.Machine.execPredClear a k s
  | .loomWalk k => Sys2Proof.Machine.execLoomWalk k s
  | .loomDueIssue k => Sys2Proof.Machine.execLoomDueIssue k s
  | .branchResolve k cond => Sys2Proof.Machine.execBranchResolve k cond s
  | .listDone k => Sys2Proof.Machine.execListDone k s
  | .listRestore k => Sys2Proof.Machine.execListRestore k s
  | .stripeUpdate => Sys2Proof.Machine.execStripeUpdate s
  | .woodshedFormat c => Sys2Proof.Machine.execWoodshedFormat c s
  | .deltaLineTimeout => Sys2Proof.Machine.execDeltaLineTimeout s
  | .ckptGo a => Sys2Proof.Machine.execCkptGo a s
  | .ckptIntervalExpire => Sys2Proof.Machine.execCkptIntervalExpire s
  | .ckptDone => Sys2Proof.Machine.execCkptDone s
  | .reclaimVisit => Sys2Proof.Machine.execReclaimVisit s
  | .rotShiftStart => Sys2Proof.Machine.execRotShiftStart s
  | .rotMove => Sys2Proof.Machine.execRotMove s
  | .migrateCopy => Sys2Proof.Machine.execMigrateCopy s
  | .migrateSwitch => Sys2Proof.Machine.execMigrateSwitch s
  | .driftClockTick => Sys2Proof.Machine.execDriftClockTick s
  | .rewriteLine => Sys2Proof.Machine.execRewriteLine s
  | .canaryProgram c k => Sys2Proof.Machine.execCanaryProgram c k s
  | .canarySample => Sys2Proof.Machine.execCanarySample s
  | .ageEstimate store => Sys2Proof.Machine.execAgeEstimate store s
  | .rdataReceive c => Sys2Proof.Machine.execRdataReceive c s
  | .hearthLineReturn n xd xt xm => Sys2Proof.Machine.execHearthLineReturn n xd xt xm s
  | .flipArm a v => Sys2Proof.Machine.execFlipArm a v s
  | .glnGo a => Sys2Proof.Machine.execGlnGo a s
  | .glnAbort a => Sys2Proof.Machine.execGlnAbort a s
  | .gleanerVisit => Sys2Proof.Machine.execGleanerVisit s
  | .gleanerPassEnd => Sys2Proof.Machine.execGleanerPassEnd s
  | .hearthCommandIssue n pc => Sys2Proof.Machine.execHearthCommandIssue n pc s
  | .hearthQavgUpdate n => Sys2Proof.Machine.execHearthQavgUpdate n s
  | .refreshDue n pc => Sys2Proof.Machine.execRefreshDue n pc s
  | .hearthTempRead n temp => Sys2Proof.Machine.execHearthTempRead n temp s
  | .powerDownEntry n pc => Sys2Proof.Machine.execPowerDownEntry n pc s
  | .hearthFill n k => Sys2Proof.Machine.execHearthFill n k s
  | .hearthFillDone n => Sys2Proof.Machine.execHearthFillDone n s
  | .writebackStart => Sys2Proof.Machine.execWritebackStart s
  | .writebackDone e => Sys2Proof.Machine.execWritebackDone e s
  | .sweepLine => Sys2Proof.Machine.execSweepLine s
  | .layoutApply a => Sys2Proof.Machine.execLayoutApply a s
  | .timingApply a n => Sys2Proof.Machine.execTimingApply a n s
  | .stackFail n errs => Sys2Proof.Machine.execStackFail n errs s
  | .fullTraining n kill b r bin need imt mmt ls => Sys2Proof.Machine.execFullTraining n kill b r bin need imt mmt ls s
  | .resumeTraining n ok ls => Sys2Proof.Machine.execResumeTraining n ok ls s
  | .retrainRoundDue n => Sys2Proof.Machine.execRetrainRoundDue n s
  | .retrainUnit n ls => Sys2Proof.Machine.execRetrainUnit n ls s
  | .repairUnit n ls => Sys2Proof.Machine.execRepairUnit n ls s
  | .retrainOverdue n => Sys2Proof.Machine.execRetrainOverdue n s
  | .loopbackTest a n mode dur errs => Sys2Proof.Machine.execLoopbackTest a n mode dur errs s
  | .t1500Go a n out => Sys2Proof.Machine.execT1500Go a n out s
  | .codewordReceive c ok hdr f0 f1 f2 f3 f4 corr => Sys2Proof.Machine.execCodewordReceive c ok hdr f0 f1 f2 f3 f4 corr s
  | .flitReceive c => Sys2Proof.Machine.execFlitReceive c s
  | .nakRepeat c => Sys2Proof.Machine.execNakRepeat c s
  | .replayTimeout c => Sys2Proof.Machine.execReplayTimeout c s
  | .padFlitTimeout c vc => Sys2Proof.Machine.execPadFlitTimeout c vc s
  | .hubRsp c => Sys2Proof.Machine.execHubRsp c s
  | .status c => Sys2Proof.Machine.execStatus c s
  | .hubHoldTimeout c => Sys2Proof.Machine.execHubHoldTimeout c s
  | .sidebandFrame c half => Sys2Proof.Machine.execSidebandFrame c half s
  | .heartbeatToggle c => Sys2Proof.Machine.execHeartbeatToggle c s
  | .timeMarkSend c => Sys2Proof.Machine.execTimeMarkSend c s
  | .linkDetect c => Sys2Proof.Machine.execLinkDetect c s
  | .linkOff c => Sys2Proof.Machine.execLinkOff c s
  | .linkTraining c step faults params1 params2 status info0 info1 drift0 drift1 => Sys2Proof.Machine.execLinkTraining c step faults params1 params2 status info0 info1 drift0 drift1 s
  | .laneFault c faults cdr => Sys2Proof.Machine.execLaneFault c faults cdr s
  | .laneErrInterval c => Sys2Proof.Machine.execLaneErrInterval c s
  | .commandTimeout c => Sys2Proof.Machine.execCommandTimeout c s
  | .quiesceDone c => Sys2Proof.Machine.execQuiesceDone c s
  | .quiesceTimeout c => Sys2Proof.Machine.execQuiesceTimeout c s
  | .hubReadyTimeout c => Sys2Proof.Machine.execHubReadyTimeout c s
  | .zmlRetrain a c => Sys2Proof.Machine.execZmlRetrain a c s
  | .zmlWiden a c => Sys2Proof.Machine.execZmlWiden a c s
  | .resetHub a c => Sys2Proof.Machine.execResetHub a c s
  | .trimTempSample quad temp => Sys2Proof.Machine.execTrimTempSample quad temp s
  | .trimApplyCmd a c => Sys2Proof.Machine.execTrimApplyCmd a c s
  | .trimApplication c => Sys2Proof.Machine.execTrimApplication c s
  | .eyeScan c lane widths heights => Sys2Proof.Machine.execEyeScan c lane widths heights s
  | .feedbackUpdate => Sys2Proof.Machine.execFeedbackUpdate s
  | .debtClear a c => Sys2Proof.Machine.execDebtClear a c s
  | .commit a => Sys2Proof.Machine.execCommit a s
  | .shortfallWalk => Sys2Proof.Machine.execShortfallWalk s
  | .trainOutage100us c => Sys2Proof.Machine.execTrainOutage100us c s
  | .shortBytesAccrue => Sys2Proof.Machine.execShortBytesAccrue s
  | .sampleTick => Sys2Proof.Machine.execSampleTick s
  | .sampSelWrite a k v => Sys2Proof.Machine.execSampSelWrite a k v s
  | .rotaHDecision n => Sys2Proof.Machine.execRotaHDecision n s
  | .rotaMTxDecision c adv => Sys2Proof.Machine.execRotaMTxDecision c adv s
  | .rotaMRxDecision c adv => Sys2Proof.Machine.execRotaMRxDecision c adv s
  | .withdraw a rx => Sys2Proof.Machine.execWithdraw a rx s
  | .restartHoldEnd c => Sys2Proof.Machine.execRestartHoldEnd c s
  | .latchRead a k => Sys2Proof.Machine.execLatchRead a k s
  | .latchRel a v => Sys2Proof.Machine.execLatchRel a v s
  | .latchLeaseExpire k => Sys2Proof.Machine.execLatchLeaseExpire k s
  | .postNotice a k v => Sys2Proof.Machine.execPostNotice a k v s
  | .serviceCycle us => Sys2Proof.Machine.execServiceCycle us s
  | .postInTimeout k => Sys2Proof.Machine.execPostInTimeout k s
  | .withdrawPost a k => Sys2Proof.Machine.execWithdrawPost a k s
  | .postOutAck a k seq => Sys2Proof.Machine.execPostOutAck a k seq s
  | .postOutTimeout k => Sys2Proof.Machine.execPostOutTimeout k s
  | .pwDataRead a => Sys2Proof.Machine.execPwDataRead a s
  | .pwDataWrite a v => Sys2Proof.Machine.execPwDataWrite a v s
  | .cancel a seq => Sys2Proof.Machine.execCancel a seq s
  | .nsCreate => Sys2Proof.Machine.execNsCreate s
  | .nsDelete => Sys2Proof.Machine.execNsDelete s
  | .nsQuery => Sys2Proof.Machine.execNsQuery s
  | .nsResize => Sys2Proof.Machine.execNsResize s
  | .sessionPurge => Sys2Proof.Machine.execSessionPurge s
  | .checkpoint => Sys2Proof.Machine.execCheckpoint s
  | .rangeHold => Sys2Proof.Machine.execRangeHold s
  | .rangeRelease => Sys2Proof.Machine.execRangeRelease s
  | .health => Sys2Proof.Machine.execHealth s
  | .errlogRead => Sys2Proof.Machine.execErrlogRead s
  | .fwStage => Sys2Proof.Machine.execFwStage s
  | .fwActivate outcome => Sys2Proof.Machine.execFwActivate outcome s
  | .trimCapture sets => Sys2Proof.Machine.execTrimCapture sets s
  | .trimLoad => Sys2Proof.Machine.execTrimLoad s
  | .hubInfo => Sys2Proof.Machine.execHubInfo s
  | .retireQuery => Sys2Proof.Machine.execRetireQuery s
  | .scrubRequest => Sys2Proof.Machine.execScrubRequest s
  | .bootGo a => Sys2Proof.Machine.execBootGo a s
  | .collierBoot => Sys2Proof.Machine.execCollierBoot s
  | .collierWatchdog => Sys2Proof.Machine.execCollierWatchdog s
  | .agentRst n on => Sys2Proof.Machine.execAgentRst n on s
  | .porstAssert => Sys2Proof.Machine.execPorstAssert s
  | .srstAssert => Sys2Proof.Machine.execSrstAssert s
  | .porstRelease => Sys2Proof.Machine.execPorstRelease s
  | .srstRelease => Sys2Proof.Machine.execSrstRelease s
  | .startKindDecide root => Sys2Proof.Machine.execStartKindDecide root s
  | .mapReplay x => Sys2Proof.Machine.execMapReplay x s
  | .trickleServiceBegin => Sys2Proof.Machine.execTrickleServiceBegin s
  | .bringupExit => Sys2Proof.Machine.execBringupExit s
  | .fullWaitExpire => Sys2Proof.Machine.execFullWaitExpire s
  | .mlReset a => Sys2Proof.Machine.execMlReset a s
  | .degradedEnter => Sys2Proof.Machine.execDegradedEnter s
  | .runRestore => Sys2Proof.Machine.execRunRestore s
  | .supplyWarning low mv => Sys2Proof.Machine.execSupplyWarning low mv s
  | .supplyStop low mv => Sys2Proof.Machine.execSupplyStop low mv s
  | .supplyClear warnLow failLow mv => Sys2Proof.Machine.execSupplyClear warnLow failLow mv s
  | .flushCompleteSeal => Sys2Proof.Machine.execFlushCompleteSeal s
  | .openRecordWrite => Sys2Proof.Machine.execOpenRecordWrite s
  | .sleepEmber a => Sys2Proof.Machine.execSleepEmber a s
  | .sleepSmoulder a => Sys2Proof.Machine.execSleepSmoulder a s
  | .wake a => Sys2Proof.Machine.execWake a s
  | .flushSeal a => Sys2Proof.Machine.execFlushSeal a s
  | .resume a => Sys2Proof.Machine.execResume a s
  | .sleepChoice => Sys2Proof.Machine.execSleepChoice s
  | .wakeSource bad => Sys2Proof.Machine.execWakeSource bad s
  | .preEventWake => Sys2Proof.Machine.execPreEventWake s
  | .smoulderVisit shifts hubTemp quadTemp => Sys2Proof.Machine.execSmoulderVisit shifts hubTemp quadTemp s
  | .pdCtlWrite a v => Sys2Proof.Machine.execPdCtlWrite a v s
  | .domainHeldTransfer d => Sys2Proof.Machine.execDomainHeldTransfer d s
  | .sleepCfgWrite a addr v => Sys2Proof.Machine.execSleepCfgWrite a addr v s
  | .refLoss => Sys2Proof.Machine.execRefLoss s
  | .refStable => Sys2Proof.Machine.execRefStable s
  | .pllLock us safe => Sys2Proof.Machine.execPllLock us safe s
  | .refCalibrate ps => Sys2Proof.Machine.execRefCalibrate ps s
  | .clockGateClose d => Sys2Proof.Machine.execClockGateClose d s
  | .clockGateWake d => Sys2Proof.Machine.execClockGateWake d s
  | .switchForced d => Sys2Proof.Machine.execSwitchForced d s

end Sys2Proof.Machine
end

