-- ==== Sys2Proof/Machine/Step.lean ====
section
/-! DEFINITION. One step of the Core: the command at the front of the queue. -/
namespace Sys2Proof.Machine

/-- The command at the front of the queue acts, the rest of the queue waiting; with none, a fabric cycle passes. -/
def step (s : State) : Host.Outcome State Fault Refusal :=
  match s.pending with
  | [] => .next { s with m := s.m.cycleEnd }
  | c :: rest => exec c { s with pending := rest }

/-- The state with the command that a word spells at the front of its queue; no word spells one. -/
def State.withFetchWord (s : State) (nbits w : Nat) : State :=
  match decodeTableWord nbits w with
  | some c => { s with pending := c :: s.pending }
  | none => s

end Sys2Proof.Machine
end

