-- ==== Sys2Proof/Safety.lean ====
section
/-! DEFINITION. The terms in which claims about the Core are made: a command that completes, a page that takes an access at once, what a
command leaves alone, and the canonical form of its tables. -/
namespace Sys2Proof.Machine

/-- The tables that hold the registers and Hearth's lines are in canonical form: keys strictly rising, nothing listed that reads as
unlisted does. -/
def Mach.canonical (m : Mach) : Bool := m.regs.wf && m.ht.cells.wf

/-- A safe state: its tables are canonical. No command faults, so nothing else can go wrong. -/
def State.safe (s : State) : Bool := s.m.canonical

/-- Command `c` completes in `s`: a next state, the queue untouched, with the machine `m'`. -/
def Completes (c : Instr) (s : State) (m' : Mach) : Prop := exec c s = .next { s with m := m' }

/-- Command `c` completes in `s`, the queue untouched, with a machine of which `P` holds. -/
def CompletesWith (c : Instr) (s : State) (P : Mach → Prop) : Prop := ∃ m', exec c s = .next { s with m := m' } ∧ P m'

/-- The machine once an access of agent `a` has been answered without data and without a bus error (R9). -/
def Mach.seen (m : Mach) (a : Nat) : Mach := { m with cfg := some ⟨a, 0, false⟩ }

/-- The block of a page acts on an access at once: the Core is out of reset, released and awake, not in SAFEHOLD, the page is present
(R480), its power domain is on (R446) and its clock runs (R468). -/
def Mach.cfgOpen (m : Mach) (p : Page) (n : Nat) : Prop :=
  m.outOfReset = true ∧ m.mode ≠ mSafehold ∧ m.released = true ∧ m.absentPage p n = false ∧ m.asleep = false ∧
    (∀ d, p.domain n = some d → bitAt (m.get POWER.PD_OFF) d = false ∧ bitAt (m.get POWER.PD_ON) d = true) ∧
    ∀ d, p.clockDomain n = some d → bitAt (m.get CLOCK.GATED) (d - 1) = false

/-- From `m` to `t` only registers change, and of the registers only fields whose keys `ks` lists. -/
def OnlyFields (m t : Mach) (ks : List Nat) : Prop :=
  t = { m with regs := t.regs } ∧ ∀ (f : Field) (n : Nat), f.key n ∉ ks → t.get f n = m.get f n

/-- Of the registers, from `m` to `t` only fields whose keys `ks` lists change; nothing is said of the blocks' own state. -/
def FieldsKept (m t : Mach) (ks : List Nat) : Prop :=
  t.integ = m.integ ∧ ∀ (f : Field) (n : Nat), f.key n ∉ ks → t.get f n = m.get f n

/-- The fields that setting an EVENT bit of a page may change (R43, R481). -/
def eventKeys (p : Page) (n : Nat) : List Nat :=
  [(evField p).key n, (evFirstBit p).key n, (evFirstEst p).key n, (evFirstValid p).key n, (evTime p).key n, ALM.CNT_EST.key 0]

end Sys2Proof.Machine
end

