-- ==== Sys2Proof/Certificates/Slice0/Obligations.lean ====
section
/-! DEFINITION. The statements about the Core, family by family in the order of the command table. A statement's docstring names the
rules it rests on. `Completes` and `CompletesWith` say that a command answers a next state (Safety.lean). -/
section
open Sys2Proof Sys2Proof.Machine

/-- One step takes the command at the front of the queue and runs it with the rest waiting; with none waiting one fabric cycle of 8 root
periods ends: the PLAYs that came due in it are judged, the check of a COMMIT is over, and the latch leases and posts whose time ran out in it
break or are reported. With none of these, nothing but the time changes (R158, R378, R410, R414; the queue and the idle step are the model's
choice, log entries 1, 2 and 101). -/
def Obligations.StepRunsFrontCommand : Prop :=
  (∀ (s : State) (c : Instr) (rest : List Instr), s.pending = c :: rest → step s = exec c { s with pending := rest }) ∧
    ∀ s : State, s.pending = [] → ∃ m' : Mach, step s = .next { s with m := m' } ∧ m'.now = s.m.now + 8 ∧
      (s.m.get REEVE.COMMIT_RESULT = 2 → m'.get REEVE.COMMIT_RESULT = s.m.reeve.outcome % 4) ∧
      ((∀ k < 16, ∀ e ∈ (s.m.seq k).queue, e.mark = true ∨ e.fired = false ∨ e.firedAt ≠ s.m.now) →
        s.m.get REEVE.COMMIT_RESULT ≠ 2 → (∀ k < 8, (s.m.post.latches.get k).expiring = false ∧ (s.m.inPost k).due = false) →
        m' = { s.m with now := s.m.now + 8 })

/-- A 64-bit aligned CFG write to a page that acts at once: SCRATCH takes the value written; EVENT_EN takes the bits that the page defines;
EVENT_SET sets EVENT bits as hardware would; a 1 written to EVENT clears its bit, and VALID of EVENT_FIRST when none is left
(R9, R11, R478, R481, R482). Counters of the page that run with the clock are brought up to now first. -/
def Obligations.CfgWritesReachTheirRegister : Prop :=
  ∀ (s : State) (a : BitVec 3) (v : Word) (pg : BitVec 12) (p : Page) (n : Nat),
    (s.m.cfgOpen .global 0 → Completes (.cfgWrite a 0x150 true v) s ((s.m.seen a.toNat).put GLOBAL.SCRATCH 0 v.toNat)) ∧
    (Page.ofNumber pg.toNat = some (p, n) → s.m.cfgOpen p n →
      CompletesWith (.cfgWrite a (pg ++ (0x028 : BitVec 12)) true v) s (fun t =>
        t.get (evEnField p) n = v.toNat &&& p.eventMask n ∧
          OnlyFields ((s.m.seen a.toNat).settlePage p n 0x028) t [(evEnField p).key n]) ∧
      Completes (.eventSet a pg v) s (((s.m.seen a.toNat).settlePage p n 0x030).events p n (v.toNat &&& p.eventMask n)) ∧
      (let m := (s.m.seen a.toNat).settlePage p n 0x020
       let left := m.get (evField p) n - (m.get (evField p) n &&& v.toNat)
       (left = 0 → Completes (.eventClearWrite a pg v) s ((m.put (evField p) n 0).setFlag (evFirstValid p) n false)) ∧
       (left ≠ 0 → Completes (.eventClearWrite a pg v) s (m.put (evField p) n left))))

/-- A read of a counter answers its value and clears it (R9, R11, R12, R477). -/
def Obligations.CounterReadAnswersAndClears : Prop :=
  ∀ (s : State) (a : BitVec 3) (addr : BitVec 24) (p : Page) (n off : Nat),
    addr.toNat % 8 = 0 → cfgPlace addr.toNat = some (p, n, off) → 0x800 ≤ off → fieldsAt p n off = [Field.counter p off] →
    s.m.cfgOpen p n → CompletesWith (.rcRead a addr true) s (fun t =>
      let m := (s.m.seen a.toNat).settlePage p n off
      t.cfg = some ⟨a.toNat, BitVec.ofNat 64 (m.get (Field.counter p off) n), false⟩ ∧ t.get (Field.counter p off) n = 0 ∧
        OnlyFields { m with cfg := t.cfg } t [(Field.counter p off).key n])

/-- Where no access is answered: while a reset is asserted and in SAFEHOLD nothing changes (R437); an access that is not a naturally aligned
64-bit one changes nothing but its bus error, and one to an offset in no page nothing but its answer of zero (R9).
While the Core sleeps a write to a page outside PD_AON is held, its address and data kept, and wake source CFG is latched (R449,
R455). -/
def Obligations.CfgAccessLimits : Prop :=
 (∀ (s : State) (a : BitVec 3) (addr : BitVec 24) (full : Bool) (v : Word),
    ((s.m.outOfReset = false ∨ s.m.mode = mSafehold) →
      Completes (.cfgWrite a addr full v) s s.m ∧ Completes (.rcRead a addr full) s s.m ∧ Completes (.sleepCfgWrite a addr v) s s.m) ∧
    (s.m.outOfReset = true → s.m.mode ≠ mSafehold →
      ((full = false ∨ addr.toNat % 8 ≠ 0) → Completes (.cfgWrite a addr full v) s { s.m with cfg := some ⟨a.toNat, 0, true⟩ } ∧
        Completes (.rcRead a addr full) s { s.m with cfg := some ⟨a.toNat, 0, true⟩ }) ∧
      (full = true → addr.toNat % 8 = 0 → Page.ofNumber (addr.toNat / 4096) = none →
        Completes (.cfgWrite a addr full v) s (s.m.seen a.toNat) ∧ Completes (.rcRead a addr full) s (s.m.seen a.toNat)))) ∧
 (∀ (s : State) (a : BitVec 3) (addr : BitVec 24) (v : Word) (p : Page) (n off d : Nat),
    addr.toNat % 8 = 0 → cfgPlace addr.toNat = some (p, n, off) → p.domain n = some d → s.m.outOfReset = true → s.m.released = true →
    s.m.absentPage p n = false → s.m.asleep = true → CompletesWith (.sleepCfgWrite a addr v) s (fun t =>
      t.power = { s.m.power with held := s.m.power.held ++ [⟨a.toNat, addr.toNat, v, true⟩], wakes := s.m.power.wakes ||| 2 ^ 7 } ∧
        (s.m.power.wakes = 0 → t.get POWER.WAKE_SOURCE = 7) ∧ OnlyFields { s.m with power := t.power } t [POWER.WAKE_SOURCE.key 0]))

/-- A TBCLK cycle without TB_LOAD: trace time moves on by TB_ADV, or by the nominal rate with its carried fraction while it is estimated,
modulo 2^64; with a window open CNT_WIN_TICKS counts the ticks (R35, R42, R53).
TB_ALIVE: a change of level is dated, and while trace time is estimated it sets TIMEBASE_BACK; once TB_LOSS_TIME µs have passed without
one, trace time becomes estimated and TIMEBASE_LOST sets (R36, R42, R44). -/
def Obligations.TraceTimeAndTimebase : Prop :=
 (∀ (s : State) (adv : BitVec 3), s.m.almRuns = true →
    let sum := s.m.alm.frac + s.m.get ALM.NOMINAL_RATE
    let k := if s.m.estimated then sum / 800000000 else adv.toNat
    let frac := if s.m.estimated then sum % 800000000 else s.m.alm.frac
    let m := { s.m.put ALM.TB_NOW 0 ((s.m.get ALM.TB_NOW + k) % 2 ^ 64) with alm := { s.m.alm with frac := frac } }
    Completes (.timebaseTick adv) s (if s.m.get ALM.WIN_MASK = 0 then m else m.count ALM.CNT_WIN_TICKS 0 k)) ∧
 (∀ s : State, s.m.almRuns = true →
    let seen := { s.m.alm with alive := !s.m.alm.alive, aliveAt := s.m.now }
    (s.m.estimated = false → Completes .tbAliveToggle s { s.m with alm := seen }) ∧
    (s.m.estimated = true →
      Completes .tbAliveToggle s (Mach.event { s.m with alm := { seen with backSeen := true } } .alm 0 ALM.EV_TIMEBASE_BACK)) ∧
    (19200 * s.m.get ALM.TB_LOSS_TIME < s.m.now - s.m.alm.aliveAt →
      (s.m.estimated = false → Completes .timebaseLost s
        ((Mach.event { s.m with alm := { s.m.alm with frac := 0, backSeen := false } } .alm 0 ALM.EV_TIMEBASE_LOST).put
          ALM.STAT_ESTIMATED 0 1)) ∧
      (s.m.estimated = true → s.m.alm.backSeen = false → Completes .timebaseLost s s.m)))

/-- A load of trace time: the first one makes it valid and begins a period; one that agrees with the expected value only confirms it; any
other is a discontinuity, which records the jump, counts it and begins a new period at the loaded tick (R38, R39, R50). -/
def Obligations.TraceTimeLoads : Prop :=
  ∀ (s : State) (v : Tick) (adv : BitVec 3), s.m.almRuns = true → s.m.estimated = false →
    (s.m.flag ALM.STAT_TB_VALID = false → CompletesWith (.tbLoad v adv) s (fun t =>
      t.get ALM.TB_NOW = v.toNat ∧ t.flag ALM.STAT_TB_VALID = true ∧ t.get ALM.PERIOD_BASE = v.toNat ∧
        t.flag ALM.STAT_SHRINKING = false ∧ t.get ALM.JUMP = s.m.get ALM.JUMP ∧ t.get ALM.CNT_DISC = s.m.get ALM.CNT_DISC)) ∧
    (s.m.flag ALM.STAT_TB_VALID = true → v = s.m.tb + adv.setWidth 64 → CompletesWith (.tbLoad v adv) s (fun t =>
      t.get ALM.TB_NOW = v.toNat ∧ t.get ALM.CNT_CONFIRM = countUp (s.m.get ALM.CNT_CONFIRM) 1 % 2 ^ 64 ∧ t.alm = s.m.alm ∧
        OnlyFields s.m t [ALM.TB_NOW.key 0, ALM.CNT_CONFIRM.key 0, ALM.CNT_WIN_TICKS.key 0])) ∧
    (s.m.flag ALM.STAT_TB_VALID = true → v ≠ s.m.tb + adv.setWidth 64 → CompletesWith (.tbLoad v adv) s (fun t =>
      t.get ALM.TB_NOW = v.toNat ∧ t.get ALM.JUMP = (v - (s.m.tb + adv.setWidth 64)).toNat ∧
        t.get ALM.CNT_DISC = countUp (s.m.get ALM.CNT_DISC) 1 % 2 ^ 64 ∧ t.get ALM.PERIOD_BASE = v.toNat ∧
        t.alm.disc = s.m.alm.disc + 1 ∧ t.alm.log = s.m.alm.log))

/-- Commands on the entry at ENT_SEL. A write or clear of an index in the Loom reserve, and a write of kind PLAY_DUE, are denied; a clear of
a FREE entry answers ALREADY_DONE; otherwise the entry is written, cleared or read as the registers say (R45, R46, R48, R58).
LOG_POP discards the oldest fire record and LOG_TICK shows the next; LOOM_RESERVE takes a value up to 512 while every index that it
moves is FREE, and else keeps its value and sets PARAM_REJECT (R48, R49, R61). -/
def Obligations.ScheduleAndFireLog : Prop :=
 (∀ (s : State) (a : BitVec 3), s.m.cfgOpen .alm 0 → s.m.get ALM.ENT_STAT ≠ 3 →
    let m := s.m.seen a.toNat
    let i := m.get ALM.ENT_SEL
    let e := m.alm.sched.get i
    let k := EntKind.ofCode (m.get ALM.ENT_CTL)
    let reserved := 1024 - m.get ALM.LOOM_RESERVE ≤ i
    let tick := BitVec.ofNat 64 (m.get ALM.ENT_TICK)
    let past := m.flag ALM.STAT_TB_VALID && decide ((m.tb - tick).toNat < 2 ^ 63)
    let stat (x : Mach) (v : Nat) : Mach := (x.put ALM.ENT_STAT 0 v).put ALM.ENT_STAT_VALID 0 0
    let holds (x : Entry) : Mach := { m with alm := { m.alm with sched := m.alm.sched.set i x } }
    (reserved → Completes (.entClear a) s ((stat m 2).event .alm 0 ALM.EV_ENT_DENIED)) ∧
    (¬reserved → e.kind = .free → Completes (.entClear a) s (stat m 1)) ∧
    (¬reserved → e.kind ≠ .free → Completes (.entClear a) s (stat (holds default) 0).showNext) ∧
    (k ≠ .free → (reserved ∨ k = .playDue) → Completes (.entWrite a) s ((stat m 2).event .alm 0 ALM.EV_ENT_DENIED)) ∧
    (k ≠ .free → ¬reserved → k ≠ .playDue → past = false →
      Completes (.entWrite a) s (stat (holds ⟨k, tick, BitVec.ofNat 64 (m.get ALM.ENT_ARG), false, false⟩) 0).showNext) ∧
    (k ≠ .free → ¬reserved → k ≠ .playDue → past = true →
      Completes (.entWrite a) s ((stat (holds ⟨k, tick, BitVec.ofNat 64 (m.get ALM.ENT_ARG), true, false⟩) 0).event .alm 0
        ALM.EV_ENT_PAST).showNext) ∧
    Completes (.entRead a) s ((stat (((m.put ALM.ENT_TICK 0 e.tick.toNat).put ALM.ENT_CTL 0 e.kind.code).put ALM.ENT_ARG 0 e.arg.toNat)
      0).put ALM.ENT_STAT_VALID 0 (if e.kind = .free then 0 else 1))) ∧
 (∀ (s : State) (a : BitVec 3) (v : BitVec 10), s.m.cfgOpen .alm 0 →
    let m := s.m.seen a.toNat
    let old := m.get ALM.LOOM_RESERVE
    let free := ∀ i, 1024 - max v.toNat old ≤ i → i < 1024 - max v.toNat old + (max v.toNat old - min v.toNat old) →
      (m.alm.sched.get i).kind = .free
    CompletesWith (.logPop a) s (fun t =>
      t.alm = { m.alm with log := m.alm.log.drop 1 } ∧ t.get ALM.LOG_TICK = (m.alm.log.getD 1 default).tick.toNat ∧
        t.get ALM.LOG_INDEX = (m.alm.log.getD 1 default).index % 1024) ∧
    (v.toNat ≤ 512 → free → CompletesWith (.loomReserveWrite a v) s (fun t =>
      t.get ALM.LOOM_RESERVE = v.toNat ∧ OnlyFields m t [ALM.LOOM_RESERVE.key 0, ALM.STAT_LOOM_FULL.key 0])) ∧
    ((512 < v.toNat ∨ ¬free) → Completes (.loomReserveWrite a v) s (m.event .alm 0 ALM.EV_PARAM_REJECT)))

/-- The periods: the guaranteed portion ends GUAR_TICKS and the shrink after PERIOD_BASE; a period of full length ends at its boundary,
where the next begins and the shrink just repaid leaves LAG (R50, R52, R56). -/
def Obligations.PeriodsEnd : Prop :=
  ∀ s : State, s.m.almRuns = true → s.m.flag ALM.STAT_TB_VALID = true →
    let base := BitVec.ofNat 64 (s.m.get ALM.PERIOD_BASE)
    let act := s.m.alm.act.getD ⟨8192, 6144, 262144, 128⟩
    (s.m.flag ALM.STAT_IN_GUAR = true → (s.m.tb - (base + BitVec.ofNat 64 (act.guar + s.m.alm.shrink))).toNat < 2 ^ 63 →
      Completes .guaranteedPortionEnd s (s.m.put ALM.STAT_IN_GUAR 0 0)) ∧
    ((s.m.tb - (base + BitVec.ofNat 64 act.period)).toNat < 2 ^ 63 →
      CompletesWith .periodEnd s (fun t =>
        t.get ALM.PERIOD_BASE = (base + BitVec.ofNat 64 act.period).toNat ∧
          t.get ALM.LAG = min (s.m.get ALM.LAG - s.m.alm.shrink + s.m.alm.late) (2 ^ 32 - 1) ∧ t.alm.late = 0 ∧ t.alm.spent = [] ∧
          t.get ALM.TB_NOW = s.m.get ALM.TB_NOW))

/-- At most one entry fires in a TBCLK cycle, the earliest tick first and of equal ticks the lowest index; a fired entry becomes FREE,
takes the effect of its kind and leaves its record at the end of the fire log; one marked SKEWED is counted and sets its event; while the
Core sleeps a reached entry only wakes it. WINDOW_OPEN and WINDOW_CLOSE set and clear bits of WIN_MASK, and a kind of work cut off with work
left is pending; PERIOD begins a period at the trace time of the firing, or on the first tick of one leaves its base; ARM arms a RUNNING
stream that has not triggered, DISARM disarms; a PLAY_DUE entry makes its list's entry due (R40, R41, R45, R49, R50, R53, R59, R158; the
period's first tick is the model's choice of log entry 82). -/
def Obligations.ScheduledEntryFires : Prop :=
  ∀ (s : State) (i : Nat) (e : Entry), s.m.almRuns = true → s.m.flag ALM.STAT_TB_VALID = true → s.m.nextToFire = some (i, e) →
    (s.m.asleep = true → Completes .almEntryFire s (s.m.wake 2)) ∧
    (s.m.asleep = false →
      let mask := s.m.get ALM.WIN_MASK
      let arg := e.arg.toNat
      let k := arg % 32
      let period := arg % 2 ^ 32
      let guar := arg / 2 ^ 32
      CompletesWith .almEntryFire s (fun t =>
        t.alm.sched = s.m.alm.sched.set i default ∧
        t.alm.log.getLast? = some ⟨i, e.kind, e.skewed, e.past, s.m.estimated, if e.kind = .wake then arg % 65536 else 0,
          min (2 ^ 32 - 1) (s.m.tb - e.tick).toNat, e.tick⟩ ∧
        (e.skewed = true → (t.get (evField .alm) 0).testBit ALM.EV_SKEWED = true ∧
          t.get ALM.CNT_SKEW = countUp (s.m.get ALM.CNT_SKEW) 1 % 2 ^ 64) ∧
        (e.kind ≠ .windowOpen → e.kind ≠ .windowClose → t.get ALM.WIN_MASK = mask) ∧
        (e.kind = .windowOpen → t.get ALM.WIN_MASK = (mask ||| k) % 32) ∧
        (e.kind = .windowClose → t.get ALM.WIN_MASK = (mask - (mask &&& k)) % 32 ∧
          ∀ b < 5, mask.testBit b = true → k.testBit b = true → s.m.workQueued b = true →
            (t.get ALM.WIN_PENDING).testBit b = true ∧ (t.get (evField .alm) 0).testBit ALM.EV_WINDOW_SHORT = true) ∧
        (e.kind = .period → s.m.boundaryReached = false →
          (s.m.periodElapsed = 0 ∨ e.tick = BitVec.ofNat 64 (s.m.get ALM.PERIOD_BASE) →
            t.get ALM.PERIOD_BASE = s.m.get ALM.PERIOD_BASE) ∧
          (s.m.periodElapsed ≠ 0 → e.tick ≠ BitVec.ofNat 64 (s.m.get ALM.PERIOD_BASE) → t.get ALM.PERIOD_BASE = s.m.tb.toNat) ∧
          (256 ≤ period → guar < period → t.periodAct.period = period ∧ t.periodAct.guar = guar)) ∧
        (e.kind = .arm → s.m.get STREAM.STAT_STATE k = 1 → s.m.flag STREAM.STAT_TRIGGERED k = false →
          t.flag STREAM.STAT_ARMED k = true) ∧
        (e.kind = .arm → (s.m.get STREAM.STAT_STATE k ≠ 1 ∨ s.m.flag STREAM.STAT_TRIGGERED k = true) →
          t.flag STREAM.STAT_ARMED k = s.m.flag STREAM.STAT_ARMED k) ∧
        (e.kind = .disarm → t.flag STREAM.STAT_ARMED k = false) ∧
        ∀ j x, j < 16 → (∀ y < j, ∀ z ∈ (s.m.seq y).queue, z.due ≠ some i) → e.kind = .playDue →
          ((s.m.seq j).queue.find? fun z => z.due = some i) = some x → (∀ z ∈ (s.m.seq j).queue, z.id = x.id → z = x) → x.mark = false →
            ∃ z ∈ (t.seq j).queue, z.id = x.id ∧ z.due = none ∧ z.fired = true ∧ z.firedAt = s.m.now))

/-- A REQ transfer. A tag still in use is held, with the time at which it began to wait and EVENT.TAG_REUSE; otherwise, with room in the
intake, the request is counted and joins the port's requests: in the intake queue when the checks of R69 pass, else answered with the
status of the first check that fails (R65, R69, R76). -/
def Obligations.RequestAcceptance : Prop :=
  ∀ (s : State) (port : BitVec 4) (op : BitVec 5) (tag : BitVec 12) (oid : BitVec 6) (addr : BitVec 60) (len : BitVec 6) (cls : BitVec 3)
    (attr : BitVec 8),
    let n := port.toNat
    let p := s.m.port n
    s.m.flag PORT.STAT_READY n = true → s.m.flag PORT.STAT_PCLK_RUN n = true →
    ((∃ r ∈ p.reqs, r.tag = tag.toNat) → Completes (.reqAccept port op tag oid addr len cls attr) s
      ((s.m.modPort n fun q => { q with tagStall := some (q.tagStall.getD s.m.now), tagHeld := tag.toNat }).event .port n
        PORT.EV_TAG_REUSE)) ∧
    ((∀ r ∈ p.reqs, r.tag ≠ tag.toNat) → s.m.get PORT.INTAKE_LEVEL n < 512 → p.reqs.length < 4096 → p.tagStall = none → p.early = [] →
      CompletesWith (.reqAccept port op tag oid addr len cls attr) s (fun t =>
        let bad := s.m.intakeCheck n op.toNat addr.toNat len.toNat cls.toNat
        t.get PORT.CNT_REQ n = countUp (s.m.get PORT.CNT_REQ n) 1 % 2 ^ 64 ∧ t.serial = s.m.serial + 1 ∧
          ∃ r, (t.port n).reqs = p.reqs ++ [r] ∧ r.id = s.m.serial ∧ r.op = op.toNat ∧ r.tag = tag.toNat ∧ r.oid = oid.toNat ∧
            r.addr = addr.toNat ∧ r.len = len.toNat ∧ r.cls = cls.toNat ∧ r.attr = attr.toNat ∧ r.fail = bad ∧
            r.phase = (if bad.isSome then .ready else .intake)))

/-- A WDAT beat is counted. It joins the oldest write that lacks beats, which it closes when it is the last one wanted; with no such write
it is buffered; while beats are discarded it goes, and the last one ends the discarding; a beat marked last too early or not at the end
fails its request with RANGE and sets WDAT_FRAMING (R70, R71).
One RSP beat of the request with a tag is driven when it is ready and in its turn; a beat that is not the last leaves the request with
one beat more sent, the last one completes the request (R63, R73, R76, R92). -/
def Obligations.PortBeats : Prop :=
 (∀ (s : State) (port : BitVec 4) (data : Beat) (be : ByteEn) (last : Bool),
    let n := port.toNat
    let p := s.m.port n
    let m := s.m.count PORT.CNT_WR_BEATS n
    let wants := p.reqs.find? fun r => writeBearing r.op && !r.closed
    s.m.flag PORT.STAT_READY n = true → s.m.flag PORT.STAT_PCLK_RUN n = true →
    (p.discard = true → Completes (.wdatBeat port data be last) s (if last then m.modPort n fun q => { q with discard := false } else m)) ∧
    (p.discard = false → p.early = [] → wants = none → Completes (.wdatBeat port data be last) s
      (m.modPort n fun q => { q with early := [(⟨data, be⟩, last)] })) ∧
    (p.discard = false → p.early ≠ [] → p.early.length < 64 → Completes (.wdatBeat port data be last) s
      (m.modPort n fun q => { q with early := q.early ++ [(⟨data, be⟩, last)] })) ∧
    ∀ r, p.discard = false → p.early = [] → wants = some r →
      (last = decide (r.beats.length + 1 = r.len + 1) → Completes (.wdatBeat port data be last) s
        ((m.modReq n r.id fun x => { x with beats := x.beats ++ [⟨data, be⟩], closed := last }).showPort n)) ∧
      (last ≠ decide (r.beats.length + 1 = r.len + 1) → CompletesWith (.wdatBeat port data be last) s (fun t =>
        (∃ x ∈ (t.port n).reqs, x.id = r.id ∧ x.closed = true ∧ x.phase = .ready ∧ x.fail = some (r.fail.getD stRange)) ∧
          (t.get (evField .port) n).testBit PORT.EV_WDAT_FRAMING = true ∧ (t.port n).discard = !last))) ∧
 (∀ (s : State) (port : BitVec 4) (tag : BitVec 12) (r : Req),
    let n := port.toNat
    let last := decide (r.sent + 1 = r.rspBeats)
    ((s.m.port n).reqs.find? fun x => x.tag = tag.toNat) = some r → s.m.flag PORT.STAT_PCLK_RUN n = true → r.beatReady r.sent = true →
    s.m.rspTurn n r = true → CompletesWith (.rspBeat port tag) s (fun t =>
      (t.port n).rsp = some ⟨(r.beat r.sent).1, tag.toNat, (r.beat r.sent).2, last⟩ ∧
        (t.port n).reqs = (if last then (s.m.port n).reqs.filter (fun x => x.id ≠ r.id)
          else (s.m.port n).reqs.map fun x => if x.id = r.id then { x with sent := x.sent + 1 } else x) ∧
        t.ht = s.m.ht ∧ t.map = s.m.map ∧ t.kiln = s.m.kiln ∧ ∀ k, k ≠ n → k ≠ n / 2 * 2 → k ≠ n / 2 * 2 + 1 → t.port k = s.m.port k))

/-- Credit, urgency and clocks of a port. A PLY credit returns while fewer than PLY_CREDITS are held, else CREDIT_OVF sets; a rise of URG
takes effect at once, a fall once it has stood 1 µs; PCLK_SEL is taken on an even port while both ports of the pair are disabled and
quiet; while the Core sleeps a URG that becomes 3 is timed by the AON watch (R77, R80, R81, R82). -/
def Obligations.PortCreditUrgencyClock : Prop :=
  ∀ (s : State) (a : BitVec 3) (port : BitVec 4) (v : BitVec 2),
    let n := port.toNat
    let p := s.m.port n
    (s.m.flag PORT.STAT_PCLK_RUN n = true →
      (s.m.get PORT.PLY_CRED_NOW n < p.credits →
        Completes (.plyCredit port) s (s.m.put PORT.PLY_CRED_NOW n (s.m.get PORT.PLY_CRED_NOW n + 1))) ∧
      (p.credits ≤ s.m.get PORT.PLY_CRED_NOW n → Completes (.plyCredit port) s (s.m.event .port n PORT.EV_CREDIT_OVF))) ∧
    (s.m.asleep = false → s.m.flag PORT.STAT_PCLK_RUN n = true →
      (s.m.get PORT.STAT_URG_EFF n < v.toNat → Completes (.urgChange port v) s
        ((((s.m.settleUrg n).modPort n fun q => { q with urg := v.toNat, urgFall := none }).put PORT.STAT_URG_EFF n v.toNat).modPort n
          fun q => { q with urg3At := 0 })) ∧
      (v.toNat < s.m.get PORT.STAT_URG_EFF n → p.urg ≠ v.toNat → Completes (.urgChange port v) s
        ((s.m.settleUrg n).modPort n fun q => { q with urg := v.toNat, urgFall := some s.m.now, urg3At := 0 }))) ∧
    (s.m.asleep = true → s.m.flag PORT.STAT_READY n = false → s.m.flag PORT.STAT_PCLK_RUN n = false → p.urg ≠ 3 → p.urg3At = 0 →
      CompletesWith (.urgChange port v) s (fun t => (t.port n).urg = v.toNat ∧
        (t.port n).urg3At = (if v.toNat = 3 then s.m.now + 1 else 0) ∧ t.power.wakes = s.m.power.wakes)) ∧
    (∀ t, p.urgFall = some t → t + 19200 ≤ s.m.now → Completes (.urgFallExpire port) s
      (((s.m.settleUrg n).put PORT.STAT_URG_EFF n p.urg).modPort n fun q => { q with urgFall := none })) ∧
    (s.m.cfgOpen .port n →
      let m := s.m.seen a.toNat
      let still (k : Nat) : Prop := m.flag PORT.CTL_ENABLE k = false ∧ (m.port k).reqs = []
      (n % 2 = 1 → Completes (.pclkSelWrite a port v) s m) ∧
      (n % 2 = 0 → still n → still (n + 1) → Completes (.pclkSelWrite a port v) s
        ((m.put PORT.PCLK_SEL n v.toNat).put PORT.PCLK_SEL (n + 1) v.toNat)) ∧
      (n % 2 = 0 → ¬(still n ∧ still (n + 1)) → Completes (.pclkSelWrite a port v) s (m.reject .port n)))

/-- Stages A and B. A presented FENCE, PERSIST or PERSIST_NS waits in its order; any other request that no meter judges joins the tail of
its class's shaper; a request held at its port's meter, and the head of a class meter's queue, pass when their meters are off; a cycle uses
the settings as they were before a write in it (R75, R365 to R368).
The head of a class shaper is released while the credit is not negative: its length is charged, and its lines go to their places; with
shaping off nothing is charged. DEBT_CLEAR forgives a negative credit and counts it (R363, R368, R369). -/
def Obligations.IntakeMetersAndShapers : Prop :=
 ((∀ (s : State) (port : BitVec 4) (r : Req),
    let n := port.toNat
    let q := (s.m.port n).intake
    s.m.fabricUp = true → (∀ x ∈ (s.m.port n).reqs, x.phase ≠ .portHeld) → (∀ x ∈ q, s.m.heldRange n x = none) →
    s.m.presentChoice n (q.filter (s.m.presentable n q)) = some r → r ∈ (s.m.port n).reqs →
    (ordering r.op = true → CompletesWith (.intakePresent port) s (fun t =>
      t.serial = s.m.serial + 1 ∧ (t.port n).presented = ((s.m.port n).presented + 1) % 64 ∧
        ∃ x ∈ (t.port n).reqs, x.id = r.id ∧ x.phase = .order ∧ x.pseq = s.m.serial)) ∧
    (ordering r.op = false → s.m.rflag (REEVE.PM_ENABLE n) = false → s.m.rflag (REEVE.CL_METER_EN r.cls) = false →
      s.m.reeve.cq.get r.cls = [] → CompletesWith (.intakePresent port) s (fun t =>
        t.serial = s.m.serial + 1 ∧ (t.reeve.shapers.get r.cls).fifo = (s.m.reeve.shapers.get r.cls).fifo ++ [(n, r.id)] ∧
          ∃ x ∈ (t.port n).reqs, x.id = r.id ∧ x.phase = .shaper ∧ x.color = .green ∧ x.pseq = s.m.serial))) ∧
  (∀ (s : State) (port : BitVec 4) (r : Req),
    ((s.m.port port.toNat).reqs.find? fun x => x.phase == .portHeld) = some r → s.m.fabricUp = true →
    s.m.rflag (REEVE.PM_ENABLE port.toNat) = false → s.m.rflag (REEVE.CL_METER_EN r.cls) = false → s.m.reeve.cq.get r.cls = [] →
    Completes (.portMeterHoldRelease port) s
      ((s.m.count REEVE.CNT_HOLD_CYCLES 0 (s.m.now / 8 - r.heldAt / 8)).toShaper port.toNat r.id r.cls .green)) ∧
  ∀ (s : State) (c : BitVec 3) (p id : Nat) (rest : List (Nat × Nat)) (r : Req),
    s.m.reeve.cq.get c.toNat = (p, id) :: rest → s.m.req? p id = some r → s.m.fabricUp = true →
    s.m.rflag (REEVE.CL_METER_EN c.toNat) = false → Completes (.classMeterHoldRelease c) s
      ((s.m.modReeve fun x => { x with cq := x.cq.set c.toNat rest }).toShaper p id c.toNat r.color)) ∧
 (∀ (s : State) (c : BitVec 3) (a : BitVec 3),
    let sh := s.m.shaper c.toNat
    (∀ p id rest r, sh.fifo = (p, id) :: rest → s.m.req? p id = some r → s.m.fabricUp = true → r.stream = none →
      (s.m.rflag (REEVE.CL_SHAPE_EN c.toNat) = true → 0 ≤ sh.credit → s.m.rget (REEVE.CL_RATE c.toNat) ≠ 0 →
        Completes (.shaperRelease c) s
          ((s.m.setShaper c.toNat { sh with fifo := rest, credit := sh.credit - s.m.reqLen r * 65536 }).splitRequest p r)) ∧
      (s.m.rflag (REEVE.CL_SHAPE_EN c.toNat) = false → Completes (.shaperRelease c) s
        ((s.m.setShaper c.toNat { sh with fifo := rest, credit := 0 }).splitRequest p r)) ∧
      (s.m.rflag (REEVE.CL_SHAPE_EN c.toNat) = true → sh.credit < 0 → Completes (.shaperRelease c) s s.m)) ∧
    (s.m.cfgOpen .reeve 0 → sh.credit < 0 → Completes (.debtClear a c) s
      (((s.m.seen a.toNat).setShaper c.toNat { sh with credit := 0 }).count REEVE.CNT_DEBT_CLEARED 0
        ((-sh.credit + 65535) / 65536).toNat)))

/-- COMMIT. Equal ranks, a table with too many slots of its own, and a demand above ADMIT_PCT of the capability refuse it, with the
reason; otherwise the shadow values of every class and every slot table come into force together; a COMMIT while one is BUSY is ignored
(R377, R378, R379, R388). COMMIT_STAT reads BUSY until the fabric cycle ends, and the outcome is kept for it (the model's choice of log
entry 101). -/
def Obligations.CommitChecksAndTakesEffect : Prop :=
  ∀ (s : State) (a : BitVec 3), s.m.cfgOpen .reeve 0 →
    let m := s.m.seen a.toNat
    let clash := rankClash (rankedOwners (m.get REEVE.RANK_KILN_OUT) (m.get REEVE.RANK_LOOM_DUE) (fun c => m.get (REEVE.CL_RANK c))
      fun c => m.kindShadow c = 1 || (List.range 34).any fun b => 0 < slotCount (m.slotShadow b) (arbSize b) c)
    let crowded := ∃ b < 34, (if b < 2 then 252 else 126) <
      ((List.range (arbSize b)).filter fun k => m.slotShadow b k % 32 ≠ 31).length
    let exceeds (x : Nat) : Prop := 256 * (m.capX x * m.get REEVE.ADMIT_PCT / 100) < m.slotX x + 256 * m.cirX x
    let refused (reason tier : Nat) : Mach := (((m.put REEVE.COMMIT_RESULT 0 1).put REEVE.COMMIT_REASON 0 reason).put REEVE.COMMIT_TIER 0
      tier).count REEVE.CNT_COMMIT_REFUSED
    let busy (x : Mach) : Mach := (x.modReeve fun r => { r with outcome := 1 }).put REEVE.COMMIT_RESULT 0 2
    (m.get REEVE.COMMIT_RESULT = 2 → Completes (.commit a) s m) ∧
    (m.get REEVE.COMMIT_RESULT ≠ 2 →
    (clash = true → Completes (.commit a) s (busy (refused 3 0))) ∧
    (clash = false → crowded → Completes (.commit a) s (busy (refused 2 0))) ∧
    (clash = false → ¬crowded → exceeds 0 →
      Completes (.commit a) s (busy ((refused 1 0).event .reeve 0 REEVE.EV_CFG_ERR_OVERSUB))) ∧
    (clash = false → ¬crowded → ¬exceeds 0 → ¬exceeds 1 → ¬exceeds 2 → CompletesWith (.commit a) s (fun t =>
      t.get REEVE.COMMIT_RESULT = 2 ∧ t.reeve.outcome = 0 ∧ t.flag REEVE.STAT_COMMITTED = true ∧ (∀ c < 8, t.reeve.kind.get c = m.get (REEVE.CL_KIND c)) ∧
        (∀ c < 8, t.reeve.rank.get c = some (m.get (REEVE.CL_RANK c))) ∧
        ∀ b < 34, ∀ k < arbSize b, t.slotWritten b k = m.slotShadow b k)))

/-- Outside BRINGUP the shortfall walk shows which owners are short, at once and when a channel has trained for 100 µs; in BRINGUP it is
withheld. Each microsecond SHORT_BYTES of an owner grows by its shortfall (R380, R381, R382, R431).
Feedback: each media average moves a sixteenth of the way to the bytes queued; the level rises at once and falls only after 16
comparisons in a row showed a lower one. SAMPLE_CYCLES after the last tick the sampling rings record bytes and head age of the selected queue
and step on, modulo 16; a write
of SAMP_SEL empties its ring (R374, R384). -/
def Obligations.ShortfallAndSampling : Prop :=
 (∀ s : State, s.m.fabricUp = true →
    let shown (t : Mach) : Prop := (∀ o < 20, (t.get REEVE.SHORT_NOW).testBit o = decide (0 < t.reeve.short.get o)) ∧
      (t.flag REEVE.STAT_SHORT = true ↔ ∃ o < 20, 0 < t.reeve.short.get o) ∧ t.rota.written = s.m.rota.written
    (s.m.mode ≠ mBringup → CompletesWith .shortfallWalk s shown) ∧ (s.m.mode = mBringup → Completes .shortfallWalk s s.m) ∧
    (∀ c : BitVec 5, s.m.mode ≠ mBringup → s.m.link c.toNat = 3 → (s.m.zs c.toNat).stateAt + 1920000 ≤ s.m.now →
      CompletesWith (.trainOutage100us c) s shown) ∧
    CompletesWith .shortBytesAccrue s (fun t =>
      (∀ o < 20, s.m.reeve.short.get o ≠ 0 →
        t.get (REEVE.SHORT_BYTES o) = countUp (s.m.get (REEVE.SHORT_BYTES o)) (s.m.reeve.short.get o) % 2 ^ 64) ∧
        OnlyFields s.m t (((List.range 20).filter fun o => s.m.reeve.short.get o ≠ 0).map fun o => (REEVE.SHORT_BYTES o).key 0))) ∧
 (∀ (s : State) (a : BitVec 3) (k : BitVec 2) (v : BitVec 17),
    (s.m.fabricUp = true → CompletesWith .feedbackUpdate s (fun t =>
      (∀ c < 32, let n := (s.m.scBytes (2 * (2 + c)) + s.m.scBytes (2 * (2 + c) + 1)) / 64
        t.reeve.mavg.get c = ((s.m.reeve.mavg.get c : Int) + ((n : Int) - s.m.reeve.mavg.get c) / 16).toNat) ∧
      let old := s.m.get REEVE.STAT_FB_LEVEL
      let x := t.fbNow.1
      t.get REEVE.STAT_FB_LEVEL = if x < old ∧ s.m.reeve.falls + 1 < 16 then old else x)) ∧
    (fabricCycles s.m.reeve.sampAt s.m.now < s.m.get REEVE.SAMPLE_CYCLES → Completes .sampleTick s s.m) ∧
    (s.m.fabricUp = true → s.m.get REEVE.SAMPLE_CYCLES ≤ fabricCycles s.m.reeve.sampAt s.m.now → CompletesWith .sampleTick s (fun t => ∀ j < 4,
      (s.m.flag (REEVE.SAMP_ENABLE j) = true → s.m.get (REEVE.SAMP_POS j) < 16 →
        t.get (REEVE.SAMP_POS j) = (s.m.get (REEVE.SAMP_POS j) + 1) % 16 ∧
          (t.reeve.rings.get j)[s.m.get (REEVE.SAMP_POS j)]? =
            some (s.m.sampleOf (s.m.get (REEVE.SAMP_TARGET j)) (s.m.get (REEVE.SAMP_REQ j)))) ∧
      (s.m.flag (REEVE.SAMP_ENABLE j) = false →
        t.get (REEVE.SAMP_POS j) = s.m.get (REEVE.SAMP_POS j) ∧ t.reeve.rings.get j = s.m.reeve.rings.get j))) ∧
    (s.m.cfgOpen .reeve 0 → bits v.toNat 0 6 < 34 → bits v.toNat 8 5 < 20 → Completes (.sampSelWrite a k v) s
      (((((s.m.seen a.toNat).put (REEVE.SAMP_TARGET k.toNat) 0 (bits v.toNat 0 6)).put (REEVE.SAMP_REQ k.toNat) 0 (bits v.toNat 8 5)).put
        (REEVE.SAMP_ENABLE k.toNat) 0 (bits v.toNat 16 1)).put (REEVE.SAMP_POS k.toNat) 0 0
        |>.modReeve fun r => { r with rings := r.rings.set k.toNat [] })))

/-- A READ or PREFETCH whose line the Core holds takes the line's value at the point of coherence: its data when it is GOOD, else none, with
the status of its class; a PREFETCH answers OK (R66, R68, R74, R91, R112). -/
def Obligations.ReadsTakeTheValue : Prop :=
  ∀ (s : State) (port tag k : Nat) (r : Req) (st cls : Nat) (d : Line) (hf : Bool) (m1 : Mach) (p4 : BitVec 4) (t12 : BitVec 12)
    (k4 : BitVec 4), p4.toNat = port → t12.toNat = tag → k4.toNat = k → s.m.fabricUp = true → k < r.lines.length →
    (r.lines.getD k default).phase = .served → s.m.lineFree port r k = true → s.m.behindMark r.id = false → r.phase = .lines →
    s.m.coherent r.rcls port (r.line k) (decide (r.op ≠ opPrefetch)) false r.at_ = (some (st, d, cls), hf, m1) →
    ((∀ x ∈ (s.m.port port).reqs, x.id = r.id → x = r) → r ∈ (s.m.port port).reqs →
    (r.op = opRead → ((s.m.port port).reqs.find? fun x => x.tag = tag && x.op = opRead) = some r →
      CompletesWith (.read p4 t12 k4) s (fun t => ∃ x ∈ (t.port port).reqs, x.id = r.id ∧
        (x.lines.getD k default).phase = .done ∧ (x.lines.getD k default).data = (if cls = 0 then d else 0) ∧
        (x.lines.getD k default).status = (if cls = 2 then stPoison else if cls = 1 ∨ st = stUnwritten then stUnwritten else st))) ∧
    (r.op = opPrefetch → ((s.m.port port).reqs.find? fun x => x.tag = tag && x.op = opPrefetch) = some r →
      CompletesWith (.prefetch p4 t12 k4) s (fun t => ∃ x ∈ (t.port port).reqs, x.id = r.id ∧
        (x.lines.getD k default).phase = .done ∧ (x.lines.getD k default).status = stOk)))

/-- A write takes effect by writing its line whole into the dirty slot of the line: its entry, or a free way of its bucket while the
hold-up rule has room; else it waits, with EVENT.DIR_WAIT. WRITE and ZERO of a whole line need no read; a partial WRITE or WRITE_MASKED
merges into the line found, into zeros where that is BLANK, and keeps poison as poison; CLEAR_POISON writes zeros over a line found
BLANK or POISON and leaves a GOOD one (R67, R72, R74, R95, R250, R251, R279). -/
def Obligations.WritesTakeEffectOnTheLine : Prop :=
  ∀ (s : State) (p4 : BitVec 4) (t12 : BitVec 12) (k4 : BitVec 4) (r : Req),
    let port := p4.toNat
    let k := k4.toNat
    let x := r.lines.getD k default
    let l := r.line k
    let found (op : Nat) : Prop := r.op = op ∧
      ((s.m.port port).reqs.find? fun x => x.tag = t12.toNat && x.op = op) = some r ∧ r.phase = .lines
    let slot (e : Nat) : Prop := s.m.dirFind l = some e ∨ (s.m.dirFind l = none ∧ s.m.dirAny l = some e) ∨
      (s.m.dirAny l = none ∧ s.m.dirtyRoom = true ∧ s.m.dirFree (lineBucket l) = some e)
    let done (t : Mach) (status : Nat) : Prop := ∃ y ∈ (t.port port).reqs, y.id = r.id ∧ (y.lines.getD k default).phase = .done ∧
      (y.lines.getD k default).status = status
    let holds (t : Mach) (e : Nat) (d : Line) (cls : Nat) : Prop := (t.dirEnt e).valid = true ∧ (t.dirEnt e).line = l ∧
      (s.m.flag ERR.FLIP_H_ARM = false →
        (t.cell (t.dirtyPlace e)).data = d ∧ (t.cell (t.dirtyPlace e)).cls = cls ∧ (t.cell (t.dirtyPlace e)).st = 2)
    let writes (c : Instr) (d : Line) (cls status : Nat) : Prop :=
      (∀ e, slot e → CompletesWith c s (fun t => done t status ∧ holds t e d cls)) ∧
      ((∀ e, ¬slot e) → CompletesWith c s (fun t => (t.get (evField .ht) 0).testBit HT.EV_DIR_WAIT = true ∧
        ∃ y ∈ (t.port port).reqs, y.id = r.id ∧ (y.lines.getD k default).phase = .dirWait))
    let merges (c : Instr) : Prop := ∀ e, slot e →
      let cls := if x.cls = 2 then 2 else 0
      CompletesWith c s (fun t => t.get PORT.CNT_RMW port = countUp (s.m.get PORT.CNT_RMW port) 1 % 2 ^ 64 ∧
        done t (if x.cls = 2 then stWritePoisoned else if x.cls = 1 then stOk else x.status) ∧
        holds t e (r.newLine k (if x.cls = 1 then 0 else x.data)) cls)
    s.m.fabricUp = true → k < r.lines.length → r ∈ (s.m.port port).reqs → (∀ y ∈ (s.m.port port).reqs, y.id = r.id → y = r) →
    (x.phase = .served → s.m.lineFree port r k = true → s.m.behindMark r.id = false → r.wholeLine k = true →
      (found opWrite → writes (.write p4 t12 k4) (r.newLine k 0) 0 stOk) ∧
      (found opZero → writes (.zero p4 t12 k4) (r.newLine k 0) 0 stOk) ∧
      (found opWriteMasked → writes (.writeMasked p4 t12 k4) (r.newLine k 0) 0 stOk)) ∧
    (x.phase = .dirWait → r.wholeLine k = false → r.emptyLine k = false →
      (found opWrite → merges (.write p4 t12 k4)) ∧ (found opWriteMasked → merges (.writeMasked p4 t12 k4))) ∧
    (x.phase = .dirWait → r.wholeLine k = false → r.emptyLine k = true → x.cls ≠ 2 → found opWriteMasked →
      CompletesWith (.writeMasked p4 t12 k4) s (fun t => t.get PORT.CNT_RMW port = countUp (s.m.get PORT.CNT_RMW port) 1 % 2 ^ 64 ∧
        t.ht = s.m.ht ∧ done t (if x.cls = 1 then stOk else x.status))) ∧
    (x.phase = .dirWait → found opClearPoison →
      (x.cls = 0 → CompletesWith (.clearPoison p4 t12 k4) s (fun t => t.ht = s.m.ht ∧ done t stOk)) ∧
      (x.cls ≠ 0 → writes (.clearPoison p4 t12 k4) 0 0 stOk))

/-- The ordering operations. A FENCE takes effect once every earlier request of its port has; a PERSIST or PERSIST_NS pads the open stripe
of a RUNNING stream that holds bytes it covers, and a covered line that is not durable is due for writeback at once; it completes once every request, line and stream byte it covers is durable: OK, or WRITE_POISONED when a covered
line became durable only as poison (R100, R104 to R107).
The global fence marks every port at once and refuses a second one while it runs; it is done once every request before the mark has
taken effect, and then sets DONE and its event. A request that a range hold of another port stalls for the hold's time is answered HELD
(R102, R103, R115). -/
def Obligations.FencesAndPersists : Prop :=
 (∀ (s : State) (p4 : BitVec 4) (t12 : BitVec 12) (r : Req),
    let port := p4.toNat
    let reqs := (s.m.port port).reqs
    s.m.fabricUp = true →
    ((reqs.find? fun x => x.tag = t12.toNat && x.op = opFence && x.phase == .order) = some r →
      ((∀ x ∈ reqs, r.id ≤ x.id ∨ x.took = true) → Completes (.fence p4 t12) s
        (s.m.modReq port r.id fun x => { x with phase := .ready, status := stOk })) ∧
      (¬(∀ x ∈ reqs, r.id ≤ x.id ∨ x.took = true) → Completes (.fence p4 t12) s s.m)) ∧
    (let pads (c : Instr) : Prop :=
       (∀ k o, s.m.coveredStr port r = [(k, o)] → s.m.get STREAM.STAT_STATE k = 1 → s.m.openFrom k < o →
         Completes c s (s.m.kilnPad k true).kilnOffer) ∧
       ((∀ w ∈ s.m.coveredStr port r, s.m.get STREAM.STAT_STATE w.1 ≠ 1 ∨ w.2 ≤ s.m.openFrom w.1) → CompletesWith c s (fun t => t = s.m ∧
         ∀ w ∈ s.m.coveredWrites port r, s.m.lineDurable w.1 w.2 = false → t.persistWants w.1 = true))
     ((reqs.find? fun x => x.tag = t12.toNat && x.op = opPersist && x.phase == .order) = some r → pads (.persist p4 t12)) ∧
      ((reqs.find? fun x => x.tag = t12.toNat && x.op = opPersistNs && x.phase == .order) = some r → pads (.persistNs p4 t12))) ∧
    ((reqs.find? fun x => x.tag = t12.toNat && (x.op = opPersist || x.op = opPersistNs) && x.phase == .order) = some r →
      (∀ x ∈ reqs, x.id ∈ r.covers → x.took = true) → (∀ w ∈ s.m.coveredWrites port r, s.m.lineDurable w.1 w.2 = true) →
      (∀ w ∈ s.m.coveredStr port r, s.m.strActive w.1 = true → w.2 ≤ s.m.get STREAM.TAIL w.1) → r.coverLines = [] → r.coverStr = [] →
      CompletesWith (.persistComplete p4 t12) s (fun t => ∃ x ∈ (t.port port).reqs, x.id = r.id ∧ x.phase = .ready ∧
        x.status = (if r.lostSeen = true ∨ ∃ l ∈ (s.m.port port).lostTo, (s.m.nsDesc (lineNs l.1)).ephemeral = false ∧ l.2 < r.id ∧
          (r.op = opPersist ∨ lineNs l.1 = r.ns) then stWritePoisoned else stOk)))) ∧
 (∀ (s : State) (a : BitVec 3) (p4 : BitVec 4) (t12 : BitVec 12),
    (s.m.cfgOpen .global 0 →
      let m := s.m.seen a.toNat
      (m.flag GLOBAL.GFENCE_BUSY = false → Completes (.gfenceGo a) s
        ((({ m with order := { m.order with mark := m.serial }, serial := m.serial + 1 } : Mach).put GLOBAL.GFENCE_BUSY 0 1).put
          GLOBAL.GFENCE_DONE 0 0)) ∧
      (m.flag GLOBAL.GFENCE_BUSY = true → Completes (.gfenceGo a) s (m.put GLOBAL.GFENCE_MISSED 0 1))) ∧
    (s.m.flag GLOBAL.GFENCE_BUSY = true →
      let all := ∀ n < 16, ∀ r ∈ (s.m.port n).reqs, s.m.order.mark ≤ r.id ∨ r.took = true
      (all → Completes .gfenceDone s
        (((s.m.put GLOBAL.GFENCE_BUSY 0 0).put GLOBAL.GFENCE_DONE 0 1).event .global 0 GLOBAL.EV_GFENCE_DONE)) ∧
      (¬all → Completes .gfenceDone s s.m)) ∧
    ∀ (r : Req) (t : Nat) (h : Hold), ((s.m.port p4.toNat).reqs.find? fun x => x.tag = t12.toNat && x.phase == .intake) = some r →
      r.stall = some t → s.m.heldRange p4.toNat r = some h → t + 19200 * h.time ≤ s.m.now → s.m.releasing h = false →
      Completes (.heldTimeout p4 t12) s
        ((s.m.modReq p4.toNat r.id fun x => { x with phase := .ready, status := stHeld, fail := some stHeld }).showPort p4.toNat))

/-- The commands of a stream: one written while CMD_STAT reads BUSY is ignored; START checks the descriptor, clears the stream's registers,
reserves its target and runs; STOP records where the stream ends and why; ARM, DISARM and RELEASE act in their states only, and every command
leaves its result in CMD_STAT (R122, R133, R138, R139).
Commit: a STOPPING stream with its tail at END_OFFSET, nothing in spill and its index durable writes its commit record at the other
of its two positions; once that is durable the stream is COMMITTED and its target is free again (R122, R138, R140, R193). -/
def Obligations.StreamLife : Prop :=
 (∀ (s : State) (a : BitVec 3) (k5 : BitVec 5), s.m.cfgOpen .stream k5.toNat →
    let k := k5.toNat
    let m := s.m.seen a.toNat
    let st := m.get STREAM.STAT_STATE k
    let stat (x : Mach) (res why : Nat) : Mach := (x.put STREAM.CMD_RESULT k res).put STREAM.CMD_REASON k why
    (m.get STREAM.CMD_RESULT k = 3 → ∀ c ∈ [Instr.streamStart a k5, .streamStop a k5, .streamArm a k5, .streamDisarm a k5,
      .streamRelease a k5], Completes c s (m.reject .stream k)) ∧
    (m.get STREAM.CMD_RESULT k ≠ 3 →
    (∀ why, m.startCheck k = some why → Completes (.streamStart a k5) s ((stat m 2 why).event .stream k STREAM.EV_REFUSED)) ∧
    (m.startCheck k = none → CompletesWith (.streamStart a k5) s (fun t =>
      t.get STREAM.STAT_STATE k = 1 ∧ t.get STREAM.NEXT_OFFSET k = 0 ∧ t.get STREAM.TAIL k = 0 ∧ t.get STREAM.CMD_RESULT k = 0 ∧
        t.flag STREAM.STAT_ARMED k = false ∧ t.flag STREAM.STAT_TRIGGERED k = false ∧
        t.ht.targets.get k = (m.strBase k, m.strLines k))) ∧
    (st = 1 → CompletesWith (.streamStop a k5) s (fun t =>
      t.get STREAM.STAT_STATE k = 2 ∧ t.get STREAM.END_OFFSET k = m.get STREAM.NEXT_OFFSET k % 2 ^ 64 ∧ t.get STREAM.STOP_REASON k = 1 ∧
        t.flag STREAM.STAT_ARMED k = false ∧ t.get STREAM.CMD_RESULT k = 0)) ∧
    (st = 0 → Completes (.streamStop a k5) s (stat m 2 8)) ∧
    (st = 2 ∨ st = 3 → Completes (.streamStop a k5) s (stat m 1 0)) ∧
    (st ≠ 1 → Completes (.streamArm a k5) s (stat m 2 8)) ∧
    (st = 1 → m.flag STREAM.STAT_TRIGGERED k = true → Completes (.streamArm a k5) s (stat m 1 0)) ∧
    (st = 1 → m.flag STREAM.STAT_TRIGGERED k = false → Completes (.streamArm a k5) s (stat (m.put STREAM.STAT_ARMED k 1) 0 0)) ∧
    (m.flag STREAM.STAT_ARMED k = true → Completes (.streamDisarm a k5) s (stat (m.put STREAM.STAT_ARMED k 0) 0 0)) ∧
    (m.flag STREAM.STAT_ARMED k = false → Completes (.streamDisarm a k5) s (stat m 1 0)) ∧
    (st = 3 → CompletesWith (.streamRelease a k5) s (fun t =>
      t.get STREAM.STAT_STATE k = 0 ∧ t.get STREAM.TAIL k = 0 ∧ t.get STREAM.END_OFFSET k = 0 ∧ t.flag STREAM.STAT_TRIGGERED k = false ∧
        t.get STREAM.CMD_RESULT k = 0)) ∧
    (st = 0 → Completes (.streamRelease a k5) s (stat m 1 0)) ∧
    (st = 1 ∨ st = 2 → Completes (.streamRelease a k5) s (stat m 2 8)))) ∧
 (∀ (s : State) (k5 : BitVec 5),
    let k := k5.toNat
    let m := s.m.idxFlush k true 3
    (m.fabricUp = true → m.get STREAM.STAT_STATE k = 2 → m.get STREAM.TAIL k = m.get STREAM.END_OFFSET k → m.spilled k = [] →
      m.idxDurable k = true → (m.str k).commit = 0 → CompletesWith (.commitRecordWrite k5) s (fun t =>
        (t.str k).commit ≠ 0 ∧ (t.str k).commitPos = 1 - (m.str k).commitPos ∧ t.get STREAM.STAT_STATE k = 2)) ∧
    (s.m.get STREAM.STAT_STATE k = 2 → (s.m.str k).commit = 1 → s.m.deltaFull = false → CompletesWith (.streamCommitted k5) s (fun t =>
      t.get STREAM.STAT_STATE k = 3 ∧ t.ht.targets.get k = default ∧ (t.str k).slots = [] ∧
        (t.get (evField .stream) k).testBit STREAM.EV_COMMITTED = true ∧ t.get STREAM.TAIL k = s.m.get STREAM.TAIL k)))

/-- An APPEND whose turn has come and for which there is room is staged whole at NEXT_OFFSET: each beat in its place of its slot, its bytes
counted, NEXT_OFFSET moved past them, and the response carries the offset at which it was stored; at a stream that does not run it is
answered ABORTED (R67, R121, R123, R126, R130).
A trigger edge of the selected sense on a RUNNING, armed stream latches trace time and NEXT_OFFSET, disarms the stream and marks it
TRIGGERED; the sampled levels are kept for the next edge (R33, R133). -/
def Obligations.AppendAndTrigger : Prop :=
 (∀ (s : State) (p4 : BitVec 4) (t12 : BitVec 12) (r : Req) (k : Nat),
    let n := p4.toNat
    let o := s.m.get STREAM.NEXT_OFFSET k
    let len := 64 * r.beats.length
    s.m.fabricUp = true → ((s.m.port n).reqs.find? fun x => x.tag = t12.toNat && x.op = opAppend) = some r → s.m.req? n r.id = some r →
    r.op = opAppend → r.stream = some k → k < 32 → r.phase = .kiln → r.beats.length = r.len + 1 →
    (∀ p < 16, ∀ x ∈ (s.m.port p).reqs, x.stream = some k → x.phase ≠ .ready → x.phase ≠ .intake → r.pseq ≤ x.pseq) →
    (s.m.get STREAM.STAT_STATE k ≠ 1 → Completes (.append p4 t12) s
      (s.m.modReq n r.id fun x => { x with phase := .ready, status := stAborted, word0 := 0 })) ∧
    (s.m.get STREAM.STAT_STATE k = 1 → (s.m.ring k = true ∨ o + len ≤ s.m.strLen k) → s.m.strMapped k len = true →
    s.m.holdupBlocked k (max 1 (s.m.newSlots k len)) = false → s.m.stgRoom k (s.m.newSlots k len) = true → s.m.flag STREAM.STAT_TRIGGERED k = false →
    (s.m.str k).idxBuf.length < 28 → s.m.behindMark r.id = false →
    (∀ l ∈ s.m.takeLines k o len, ∀ x ∈ (s.m.port n).reqs, x.id < r.id → x.stream ≠ some k → (x.oid = r.oid ∨ writesLines x.op = true) →
      s.m.mayTouch x l = false) →
    CompletesWith (.append p4 t12) s (fun t =>
      (s.m.mode ≠ mFlush → t.get STREAM.NEXT_OFFSET k = (o + len) % 2 ^ 64) ∧ t.get STREAM.CNT_BYTES k = countUp (s.m.get STREAM.CNT_BYTES k) len % 2 ^ 64 ∧
        t.get STREAM.STAT_STATE k = 1 ∧
        (∃ x ∈ (t.port n).reqs, x.id = r.id ∧ x.phase = .ready ∧ x.status = stOk ∧ x.word0 = BitVec.ofNat 64 o) ∧
        (s.m.mode ≠ mFlush → s.m.flag ERR.FLIP_S_ARM = false → o + len < 2 ^ 64 → ∀ i b, r.beats[i]? = some b →
          ∃ y ∈ (t.str k).slots, y.no = (o + 64 * i) / s.m.span k ∧
            Line.beat (y.lines.get ((o + 64 * i) % s.m.span k / 256)) ((o + 64 * i) % 256 / 64) = b.data)))) ∧
 (∀ (s : State) (levels : BitVec 8) (k : Nat), k < 32 → s.m.almRuns = true → s.m.fabricUp = true → s.m.get STREAM.STAT_STATE k = 1 →
    s.m.flag STREAM.TRIG_ENABLE k = true → s.m.flag STREAM.STAT_ARMED k = true → s.m.flag STREAM.STAT_TRIGGERED k = false →
    (s.m.str k).armedEnd ≠ some s.m.now →
    (let b := s.m.get STREAM.TRIG_SRC k
     if s.m.flag STREAM.TRIG_FALLING k then bitAt s.m.kiln.trig b = true ∧ bitAt levels.toNat b = false
     else bitAt s.m.kiln.trig b = false ∧ bitAt levels.toNat b = true) →
    CompletesWith (.trigEdge levels) s (fun t =>
      t.kiln.trig = levels.toNat ∧ t.get STREAM.TRIG_TICK k = s.m.get ALM.TB_NOW % 2 ^ 64 ∧
        t.get STREAM.TRIG_OFFSET k = s.m.get STREAM.NEXT_OFFSET k % 2 ^ 64 ∧ t.flag STREAM.STAT_TRIGGERED k = true ∧
        t.flag STREAM.STAT_ARMED k = false))

/-- Spill: a full slot that cannot be issued moves to the lowest free place of the spill region; the lines of the spill head are read from
there when no staged slot can go first; a stream leaves spill once nothing is spilled and staging has fallen below SPILL_ON (R128, R129).
A stripe or line that has waited PAD_TIMEOUT µs is padded to its end; run-ahead maps the next unit on the channel, pair or group that
the stream's turn gives; the tail moves past an acknowledged slot whose unit a durable record locates (R131, R136, R137). -/
def Obligations.SpillPadAndTail : Prop :=
 (∀ (s : State) (k5 : BitVec 5) (x : Slot),
    let k := k5.toNat
    let head := (s.m.str k).slots.find? fun y => y.spill.isNone && !y.issued
    (s.m.fabricUp = true → s.m.flag STREAM.STAT_SPILLING k = true → head = some x → s.m.issuable k x = false →
      s.m.slotFull k x = true → s.m.spillBlocked k = false → s.m.ringBlocked k = false →
      s.m.undurable + s.m.dirtyBytes ≤ s.m.get POWER.HOLDUP_BYTES → ∀ place, s.m.spillFree (s.m.slotLines k) = some place →
      CompletesWith (.spillSlotMove k5) s (fun t =>
        t.get STREAM.CNT_SPILL_BYTES k = countUp (s.m.get STREAM.CNT_SPILL_BYTES k) (256 * s.m.slotLines k) % 2 ^ 64 ∧
          ∃ y ∈ (t.str k).slots, y.no = x.no ∧ y.spill = some place)) ∧
    (s.m.fabricUp = true → (∀ y, head = some y → s.m.issuable k y = false) →
      ((s.m.spilled k).find? fun y => !y.issued && y.reading = 0) = some x → s.m.issuable k x = true →
      CompletesWith (.spillDrain k5) s (fun t => t.serial = s.m.serial + s.m.slotLines k ∧
        t.get STREAM.CNT_STRIPES k = s.m.get STREAM.CNT_STRIPES k ∧
          ∃ y ∈ (t.str k).slots, y.no = x.no ∧ y.reading = s.m.slotLines k ∧ y.issued = false)) ∧
    (s.m.flag STREAM.STAT_SPILLING k = true → s.m.spilled k = [] →
      256 * s.m.stgFill k < s.m.get STREAM.SPILL_ON k * s.m.stgCap k →
      Completes (.spillExit k5) s (((s.m.put STREAM.STAT_SPILLING k 0).event .stream k STREAM.EV_SPILL_EXIT).showStr k))) ∧
 (∀ (s : State) (k5 : BitVec 5) (x : Slot),
    let k := k5.toNat
    let o := s.m.get STREAM.NEXT_OFFSET k
    let span := s.m.span k
    let ub := unitBytes (s.m.strProt k)
    let wants := (o + ub - 1) / ub + s.m.get STREAM.RUNAHEAD k
    (s.m.fabricUp = true → s.m.get STREAM.STAT_STATE k = 1 → s.m.pingpong k = false → s.m.get STREAM.PAD_TIMEOUT k ≠ 0 →
      ((s.m.str k).slots.find? fun y => y.staged && !s.m.slotFull k y) = some x →
      x.since + 19200 * s.m.get STREAM.PAD_TIMEOUT k ≤ s.m.now → o % span ≠ 0 →
      CompletesWith (.padTimeout k5) s (fun t => t.get STREAM.NEXT_OFFSET k = (o + (span - o % span)) % 2 ^ 64 ∧
        t.get STREAM.CNT_PAD_BYTES k = countUp (s.m.get STREAM.CNT_PAD_BYTES k) (span - o % span) % 2 ^ 64)) ∧
    (s.m.fabricUp = true → s.m.get STREAM.STAT_STATE k = 1 → (s.m.str k).mapped < min (s.m.strUnits k) wants →
      s.m.ent (s.m.strUnit k (s.m.str k).mapped) = 0 → s.m.deltaFull = false →
      (∀ c sg, s.m.strPlace k (s.m.str k).mapped = some (c, sg) → CompletesWith (.runaheadMap k5) s (fun t =>
        (t.str k).mapped = (s.m.str k).mapped + 1 ∧ (t.str k).took = (s.m.str k).took ++ [(s.m.str k).mapped] ∧
          t.map.ents.get (s.m.strUnit k (s.m.str k).mapped) = eMake (protKind (s.m.strProt k)) c sg true)) ∧
      (s.m.strPlace k (s.m.str k).mapped = none → Completes (.runaheadMap k5) s
        ((s.m.event .stream k STREAM.EV_WOODSHED_LOW).showStr k))) ∧
    let m := s.m.kilnOffer
    let e := (x.no + 1) * m.span k
    ∀ rest, (m.str k).slots = x :: rest → m.strActive k = true → x.done = true → x.no * m.span k ≤ m.get STREAM.TAIL k →
      m.located (m.unitOf (m.slotLine k x.no 0)).1 = true → CompletesWith (.tailAdvance k5) s (fun t =>
        (t.str k).slots = rest ∧
          t.get STREAM.TAIL k = (if m.get STREAM.STAT_STATE k = 2 then min e (m.get STREAM.END_OFFSET k) else e) % 2 ^ 64))

/-- A change of a namespace takes hold at its broadcast: a created one exists with the attributes that its command gives, a deleted one no
longer exists, a resized one has its new size, and EPOCH moves on when its content is removed (R174 to R178, R201, R202). -/
def Obligations.NamespaceChangeTakesHold : Prop :=
  ∀ (s : State) (c : Cmd),
    (s.m.post.cmds.find? fun x => x.stage = 1 && (x.op = 1 || x.op = 2 || x.op = 4 || x.op = 5)) = some c →
    s.m.mapUp = true → s.m.deltaFull = false → s.m.epochWaits c.ns = false →
    let k := c.ns
    let next := (s.m.epoch k + 1) % 2 ^ 32
    (c.op = 1 → CompletesWith .nsBroadcast s (fun t =>
      (t.nsDesc k).exists_ = true ∧ (t.nsDesc k).size = c.size ∧ (t.nsDesc k).prot = c.prot ∧
        (t.nsDesc k).readPorts = bits c.p2.toNat 0 16 ∧ (t.nsDesc k).writePorts = bits c.p2.toNat 16 16 ∧ t.nsHome k = c.home ∧
        t.epoch k = next ∧ ∃ x ∈ t.post.cmds, x.id = c.id ∧ x.stage = 2 ∧ x.committed = true)) ∧
    (c.op = 2 → CompletesWith .nsBroadcast s (fun t => (t.nsDesc k).exists_ = false ∧ t.epoch k = next)) ∧
    (c.op = 4 → s.m.growWaits c = false → CompletesWith .nsBroadcast s (fun t =>
      (t.nsDesc k).size = c.size ∧ (t.nsDesc k).readPorts = bits c.p2.toNat 0 16 ∧ t.epoch k = s.m.epoch k)) ∧
    (c.op = 5 → bitAt c.p0.toNat 8 = false → CompletesWith .nsBroadcast s (fun t =>
      t.epoch k = next ∧ (t.nsDesc k).exists_ = (s.m.nsDesc k).exists_))

/-- The commands of a list. One written while CMD_STAT reads BUSY only sets PARAM_REJECT; else each acts in its states and leaves its result
in CMD_STAT: LOAD checks the image's place and begins to read it, START checks every PLAY and the port (and with a lost list copy waits for
its restore, the model's choice of log entry 85), STOP squashes what is not committed
and moves the list to STOPPING, UNLOAD releases the copy, PRED_CLEAR clears the recorded outcomes (R153 to R155, R163). -/
def Obligations.ListCommands : Prop :=
  ∀ (s : State) (a : BitVec 3) (k4 : BitVec 4), s.m.cfgOpen .seq k4.toNat →
    let k := k4.toNat
    let m := s.m.seen a.toNat
    let st := m.get SEQ.STAT_STATE k
    let addr := m.get SEQ.LIST_ADDR k
    let len := m.get SEQ.LIST_LEN k
    let ns := m.nsDesc (addr / 2 ^ 52)
    let lost := (m.seq k).lost = true ∨ ∃ i < len, m.seqEntry k i = none
    let failing := m.loom.copies.filter fun c => c.seq = k && c.kind = 4 && (m.cell (m.loomPlace c.slot)).cls = 3
    let placed := addr % 256 = 0 ∧ 0 < len ∧ len ≤ 4096 ∧ ns.exists_ = true ∧ addr % 2 ^ 52 + 16 * len ≤ ns.size
    let answers (c : Instr) (res why : Nat) : Prop := CompletesWith c s fun t =>
      t.get SEQ.CMD_RESULT k = res ∧ t.get SEQ.CMD_REASON k = why ∧ t.get SEQ.STAT_STATE k = st ∧ t.loom = m.loom
    (m.get SEQ.CMD_RESULT k = 3 → ∀ c ∈ [Instr.seqLoad a k4, .seqStart a k4, .seqStop a k4, .seqUnload a k4, .predClear a k4],
      Completes c s (m.event .seq k SEQ.EV_PARAM_REJECT)) ∧
    (m.get SEQ.CMD_RESULT k ≠ 3 →
      (st ≠ 0 → st ≠ 2 → st ≠ 5 → answers (.seqLoad a k4) 2 6) ∧
      (st = 0 ∨ st = 2 ∨ st = 5 → ¬placed → CompletesWith (.seqLoad a k4) s (fun t =>
        t.get SEQ.STAT_STATE k = 0 ∧ t.get SEQ.CMD_RESULT k = 2 ∧ t.get SEQ.CMD_REASON k = 1 ∧
          (t.get (evField .seq) k).testBit SEQ.EV_REFUSED = true)) ∧
      (st = 0 ∨ st = 2 ∨ st = 5 → placed → Completes (.seqLoad a k4) s
        (((((m.seqEmpty k).put SEQ.STAT_STATE k 1).seqStat k 3 0 0).imageRead k 1).showSeq k)) ∧
      (st ≠ 2 → st ≠ 5 → answers (.seqStart a k4) 2 6 ∧ answers (.predClear a k4) 2 6) ∧
      (st = 2 ∨ st = 5 →
        (lost → Completes (.seqStart a k4) s
          (((((failing.foldl (fun (m : Mach) c => m.listFail k c) m).seqLost k).modSeq k fun x => { x with startWaits := true }).seqStat
            k 3 0 0).showSeq k)) ∧
        (∀ why i, ¬lost → m.seqCheck k = some (why, i) → CompletesWith (.seqStart a k4) s (fun t =>
          t.get SEQ.STAT_STATE k = st ∧ t.get SEQ.CMD_RESULT k = 2 ∧ t.get SEQ.CMD_REASON k = why % 16 ∧
            t.get SEQ.CMD_INDEX k = i % 4096 ∧ (t.get (evField .seq) k).testBit SEQ.EV_REFUSED = true)) ∧
        (¬lost → m.seqCheck k = none → CompletesWith (.seqStart a k4) s (fun t =>
          t.get SEQ.STAT_STATE k = 3 ∧ t.get SEQ.CMD_RESULT k = 0 ∧ (t.seq k).t = BitVec.ofNat 64 (m.get SEQ.START_TICK k) ∧
            (t.seq k).idx = 0 ∧ (t.seq k).queue = [] ∧ (t.seq k).hist = (m.seq k).hist)) ∧
        CompletesWith (.predClear a k4) s (fun t => (t.seq k).hist = [] ∧ t.get SEQ.STAT_STATE k = st ∧ t.get SEQ.CMD_RESULT k = 0) ∧
        CompletesWith (.seqUnload a k4) s (fun t => t.get SEQ.STAT_STATE k = 0 ∧ t.get SEQ.CMD_RESULT k = 0 ∧
          (∀ c ∈ t.loom.copies, c.seq ≠ k) ∧ (t.seq k).hist = (m.seq k).hist)) ∧
      (st = 3 → CompletesWith (.seqStop a k4) s (fun t =>
        t.get SEQ.STAT_STATE k = 4 ∧ t.get SEQ.STOP_REASON k = 2 ∧ t.get SEQ.STOP_INDEX k = (m.seq k).committed.1 % 4096 ∧
          t.get SEQ.CMD_RESULT k = 0 ∧ (t.seq k).brs = [] ∧ (t.seq k).end_ = true)) ∧
      (st = 4 ∨ st = 5 → answers (.seqStop a k4) 1 0) ∧
      (st ≠ 3 → st ≠ 4 → st ≠ 5 → answers (.seqStop a k4) 2 6) ∧
      (st = 0 → answers (.seqUnload a k4) 1 0) ∧
      (st ≠ 0 → st ≠ 2 → st ≠ 5 → answers (.seqUnload a k4) 2 6))

/-- Reading a list's image and ending a list. An image that is here is refused at the first line that did not read or the first bad entry,
else stored with its CRC-32C; a list whose walk has ended with nothing left is DONE, and a STOPPING one with no entry begun and no read under way is done too; a
lost copy is read again and kept when its CRC agrees (R152, R153, R170). -/
def Obligations.ListImageAndEnd : Prop :=
  ∀ (s : State) (k4 : BitVec 4),
    let k := k4.toNat
    let st := s.m.get SEQ.STAT_STATE k
    let q := s.m.seq k
    let bad := (List.range (s.m.get SEQ.LIST_LEN k)).find? fun i =>
      entryBad (s.m.get SEQ.LIST_LEN k) i (s.m.imageEntry k i).1 (s.m.imageEntry k i).2
    let refused (why i : Nat) : Prop := CompletesWith (.listLoadDone k4) s fun t =>
      t.get SEQ.STAT_STATE k = 0 ∧ t.get SEQ.CMD_RESULT k = 2 ∧ t.get SEQ.CMD_REASON k = why ∧ t.get SEQ.CMD_INDEX k = i % 4096
    (st = 1 → s.m.imageHere k = true →
      (∀ j, s.m.imageBad k = some j → refused 1 (16 * j)) ∧
      (∀ i, s.m.imageBad k = none → bad = some i → refused 2 i) ∧
      (s.m.imageBad k = none → bad = none → CompletesWith (.listLoadDone k4) s (fun t =>
        t.get SEQ.STAT_STATE k = 2 ∧ t.get SEQ.CMD_RESULT k = 0 ∧ (t.seq k).hist = [] ∧
          (t.get (evField .seq) k).testBit SEQ.EV_LOADED = true))) ∧
    (st = 3 → q.end_ = true → q.brs = [] → q.queue = [] → CompletesWith (.listDone k4) s (fun t =>
      t.get SEQ.STAT_STATE k = 5 ∧ t.get SEQ.STOP_REASON k = 1 ∧ t.get SEQ.STOP_INDEX k = q.idx % 4096 ∧
        (t.get (evField .seq) k).testBit SEQ.EV_DONE = true ∧ ∀ c ∈ t.loom.copies, c.seq = k → c.kind = 4)) ∧
    (st = 4 → q.queue.any LEnt.begun = false → s.m.seqReads k = false → CompletesWith (.listDone k4) s (fun t =>
      t.get SEQ.STAT_STATE k = 5 ∧ t.get SEQ.STOP_REASON k = s.m.get SEQ.STOP_REASON k ∧
        (t.get (evField .seq) k).testBit SEQ.EV_STOPPED = true)) ∧
    (st = 3 → q.end_ = false → Completes (.listDone k4) s s.m) ∧
    (s.m.fabricUp = true → q.lost = true → q.reading = 2 → s.m.imageHere k = true → s.m.imageBad k = none → 2 ≤ st →
      s.m.imageCrc k = s.m.get SEQ.LIST_CRC k →
        Completes (.listRestore k4) s (((s.m.imageStore k).seqResume k q.startWaits).showSeq k))

/-- The walk of a RUNNING list: held by the first unmet condition of R156 it walks nothing and shows it; else it walks its next entry, and in
both cases speculation issues what its caps allow. A walked PLAY pins its units, joins the list's queue and moves T on by its advance; a
MARK joins the queue; a WAIT moves T on or sets it; a LOOP counts its pass and goes back, or on after its last; a BRANCH that the entry
decides goes to its target and any other one to the entry it predicts, to be resolved at its sample tick; an END ends the walk. An
entry whose line of the list copy has not been read yet is read first (R17, R150 to R152, R156 to R158, R162, R164).
Committed reads are issued up to FETCH_DEPTH. A branch whose sample tick is reached takes its outcome from COND: as predicted, its path
stands; else everything walked past it is squashed and the walk goes on at the other entry, with T and the loop counters as they were
(R151, R159, R162 to R166). -/
def Obligations.ListWalkAndBranches : Prop :=
 (∀ (s : State) (k4 : BitVec 4) (w0 w1 : Nat),
    let k := k4.toNat
    let q := s.m.seq k
    let m := s.m.placeDues k
    let h := m.walkHold k q w0
    let shown := m.put SEQ.STAT_HOLD k h
    let walked (x : Mach) : Prop := Completes (.loomWalk k4) s ((x.specIssue k (s.m.get SEQ.SPEC_LINES k)).showSeq k)
    s.m.fabricUp = true → s.m.asleep = false → s.m.get SEQ.STAT_STATE k = 3 → q.lost = false →
    (q.end_ = true → w0 = 0 → h ≠ 0 → h ≠ 4 → walked shown) ∧
    (q.end_ = false → q.idx < s.m.get SEQ.LIST_LEN k → q.entry q.idx = some (w0, w1) →
      (h ≠ 0 → h ≠ 4 → walked shown) ∧
      (h = 4 → walked (shown.showLoomFull true)) ∧
      (h = 0 → iKind w0 = 0 → walked (shown.modSeq k fun x => { x with end_ := true })) ∧
      (h = 0 → iKind w0 = 3 → bitAt w0 23 = true → walked (shown.modSeq k fun x => { x with idx := iTarget w0 })) ∧
      (h = 0 → iKind w0 = 4 → bitAt w0 4 = false →
        walked (shown.modSeq k fun x => { x with t := x.t + BitVec.ofNat 64 w1, idx := q.idx + 1 })) ∧
      (h = 0 → iKind w0 = 4 → bitAt w0 4 = true → tickBefore (BitVec.ofNat 64 w1) q.t = false →
        walked (shown.modSeq k fun x => { x with t := BitVec.ofNat 64 w1, idx := q.idx + 1 })) ∧
      (h = 0 → iKind w0 = 5 → bitAt w0 4 = false → bitAt w0 5 = false → walked (shown.modSeq k fun x => { x with idx := q.idx + 1 })) ∧
      (let new : LEnt := { (default : LEnt) with id := shown.serial, idx := q.idx, t := q.t, spec := q.brs.getLast?.map (·.id) }
       (h = 0 → iKind w0 = 1 →
        let us := shown.rangeUnits (w0 / 2 ^ 8 % 2 ^ 52) (w1 % 2 ^ 24)
        let r := shown.resolveUnits us
        let e : LEnt := { new with line := w0 / 2 ^ 8 % 2 ^ 52, lines := w1 % 2 ^ 24, keep := w1.testBit 56, pins := us }
        (r.1 = false → walked r.2) ∧
        (r.1 = true → walked ((({ r.2.pinUnits us with serial := shown.serial + 1 } : Mach).modSeq k fun x => { x with
          queue := x.queue ++ [e], t := x.t + BitVec.ofNat 64 (w1 / 2 ^ 24 % 2 ^ 32), idx := q.idx + 1 }).placeDue k e))) ∧
       (h = 0 → iKind w0 = 5 → bitAt w0 4 = true ∨ bitAt w0 5 = true →
        let e : LEnt := { new with mark := true, ply := bitAt w0 4, evt := bitAt w0 5, arg := BitVec.ofNat 64 w1 }
        let queued := (shown.modSeq k fun x => { x with idx := q.idx + 1 }).modSeq k fun x => { x with queue := x.queue ++ [e] }
        walked (({ queued with serial := shown.serial + 1 } : Mach).placeDue k e))) ∧
      (h = 0 → iKind w0 = 2 →
        let c := q.loops.get q.idx + 1
        let n := w0 / 2 ^ 32 % 2 ^ 32
        (n ≠ 0 → n ≤ c → walked (shown.modSeq k fun x =>
          { x with loops := x.loops.erase q.idx, loopT := x.loopT.erase q.idx, idx := q.idx + 1 })) ∧
        (c < n → (q.loops.get q.idx ≠ 0 ∨ q.loops.length < 8) → walked (shown.modSeq k fun x =>
          { x with loops := x.loops.set q.idx c, loopT := x.loopT.set q.idx (some q.t), idx := iTarget w0 }))) ∧
      (h = 0 → iKind w0 = 3 → bitAt w0 23 = false → s.m.tb ≠ sampleTick64 q.t w1 → tickBefore s.m.tb (sampleTick64 q.t w1) = true →
        let o := q.hist.get q.idx
        let pred := if bitAt w0 22 && o % 2 = 1 then bitAt o 1 else bitAt w0 21
        let b : LBranch := ⟨shown.serial, q.idx, if pred then q.idx + 1 else iTarget w0, q.t, q.loops, q.loopT, w0 / 2 ^ 16 % 2 ^ 4,
          bitAt w0 20, sampleTick64 q.t w1, pred, none, false, false, false, 0⟩
        walked { (shown.modSeq k fun x => { x with brs := x.brs ++ [b], idx := if pred then iTarget w0 else q.idx + 1 }) with
          serial := shown.serial + 1 })) ∧
    (q.end_ = false → q.idx < s.m.get SEQ.LIST_LEN k → q.entry q.idx = none → Completes (.loomWalk k4) s (s.m.listFetch k (q.idx / 16)))) ∧
 (∀ (s : State) (k4 : BitVec 4) (cond : BitVec 16) (b : LBranch),
    let k := k4.toNat
    let o : Bool := bitAt cond.toNat b.cond = b.sense
    let b' := { b with out := some o, est := s.m.estimated }
    let committed (x : Mach) : Mach := ((x.commitBranches k (x.seq k).brs.length).loopCheck k).showSeq k
    s.m.fabricUp = true → s.m.get SEQ.STAT_STATE k = 3 →
    Completes (.loomDueIssue k4) s ((s.m.dueIssue k (s.m.get SEQ.FETCH_DEPTH k)).showSeq k) ∧
    ((s.m.seq k).brs.find? (fun x => x.out.isNone && decide ((s.m.tb - x.sample).toNat < 2 ^ 63)) = some b →
      (o = b.pred → Completes (.branchResolve k4 cond) s
        (committed (s.m.modSeq k fun x => { x with brs := x.brs.map fun y => if y.id = b.id then b' else y }))) ∧
      (o ≠ b.pred → Completes (.branchResolve k4 cond) s
        (committed ((s.m.squash k b).modSeq k fun x => { x with
          brs := (x.brs.takeWhile fun y => y.id ≠ b.id) ++ [b'], idx := b.other, t := b.t, loops := b.loops, loopT := b.loopT,
          end_ := false })))) ∧
    ((s.m.seq k).brs.find? (fun x => x.out.isNone && decide ((s.m.tb - x.sample).toNat < 2 ^ 63)) = none →
      Completes (.branchResolve k4 cond) s s.m))

/-- Delivery: with a credit on the port, a MARK entry is pushed as one beat of its argument; a line's beats are pushed in order, each taking
a credit, the first one of an entry judged as on time or late, and the last beat of an entry releases its pins and counts it. Without a credit nothing is pushed, and a STOPPING list pushes only an entry that has begun, its
port disabled or not. A port that is disabled stops the RUNNING list it receives (R77, R84, R154, R157, R159, R161). -/
def Obligations.DeliveryToAPort : Prop :=
  ∀ (s : State) (p4 : BitVec 4) (k : Nat) (e : LEnt),
    let n := p4.toNat
    let st := s.m.get SEQ.STAT_STATE k
    let list := (List.range 16).find? fun j => (s.m.get SEQ.STAT_STATE j = 3 || s.m.get SEQ.STAT_STATE j = 4) && s.m.get SEQ.PORT j = n
    let able := s.m.fabricUp = true ∧ s.m.asleep = false ∧ (s.m.flag PORT.STAT_READY n = true ∨ st = 4) ∧
      s.m.flag PORT.STAT_PCLK_RUN n = true ∧ 0 < s.m.get PORT.PLY_CRED_NOW n
    (list = none → Completes (.plyPush p4) s s.m) ∧
    (list = some k → (¬able ∨ (s.m.seq k).pushNext = none ∨ (st ≠ 3 ∧ (s.m.seq k).pushNext = some e ∧ e.begun = false)) →
      Completes (.plyPush p4) s s.m) ∧
    (able → list = some k → (s.m.seq k).pushNext = some e → (st = 3 ∨ e.begun = true) →
      (e.mark = true → CompletesWith (.plyPush p4) s (fun t =>
        t.get PORT.PLY_CRED_NOW n = (s.m.get PORT.PLY_CRED_NOW n - 1) % 2 ^ 13 ∧
          (t.port n).ply = some ⟨e.arg.setWidth 512, 1, 0, true, true, false, 0⟩ ∧ t.map = s.m.map)) ∧
      (∀ st d c m', e.mark = false → s.m.pushValue k e e.pushed = (some (st, d, c), m') →
        (let j := m'.judgeFirst k n e st
         e.pushed = 0 → e.beat = 0 → Completes (.plyPush p4) s
          (((j.2.2.pushBeat n ⟨Line.beat d 0, 0, j.1, true, false, s.m.estimated, j.2.1⟩).modEnt k e.id fun x =>
            { x with beat := x.beat + 1 }).showSeq k)) ∧
        ((0 < e.pushed ∨ 0 < e.beat) → e.beat < 3 → Completes (.plyPush p4) s
          (((m'.pushBeat n ⟨Line.beat d e.beat, 0, st, false, false, false, 0⟩).modEnt k e.id fun x => { x with beat := x.beat + 1 }).showSeq
            k)) ∧
        (e.beat = 3 → e.pushed + 1 ≠ e.lines → CompletesWith (.plyPush p4) s (fun t =>
          (t.port n).ply = some ⟨Line.beat d 3, 0, st, false, false, false, 0⟩ ∧
            ∃ x ∈ (t.seq k).queue, x.id = e.id ∧ x.pushed = e.pushed + 1 ∧ x.beat = 0)) ∧
        (e.beat = 3 → e.pushed + 1 = e.lines → st ≠ stPoison → CompletesWith (.plyPush p4) s (fun t =>
          (t.port n).ply = some ⟨Line.beat d 3, 0, st, false, true, false, 0⟩ ∧ (∀ x ∈ (t.seq k).queue, x.id ≠ e.id) ∧
            t.get SEQ.CNT_ENTRIES k = countUp (m'.get SEQ.CNT_ENTRIES k) 1 % 2 ^ 64))) ∧
      (∀ m', e.mark = false → s.m.pushValue k e e.pushed = (none, m') → Completes (.plyPush p4) s (m'.showSeq k))) ∧
    ∀ (a : BitVec 3) (en : BitVec 1), s.m.cfgOpen .port n →
      let m := s.m.seen a.toNat
      (en = 1 → Completes (.portEnableWrite a p4 en) s (((m.put PORT.CTL_ENABLE n 1).pairClock (n / 2)).portLevel n)) ∧
      (en = 0 → m.flag PORT.CTL_ENABLE n = false →
        Completes (.portEnableWrite a p4 en) s (((m.put PORT.CTL_ENABLE n 0).pairClock (n / 2)).portLevel n)) ∧
      (en = 0 → m.flag PORT.CTL_ENABLE n = true → Completes (.portEnableWrite a p4 en) s
        ((((m.seqPortStop n).put PORT.CTL_ENABLE n 0).pairClock (n / 2)).portLevel n))

/-- Writeback: the first due entry that can begin begins; a stale one, or one beyond its namespace's SIZE, is freed without a program. An
ended writeback frees its entry and leaves a home copy as R281 says, or leaves it dirty when it was rewritten meanwhile, or LOST without
being programmed as poison (R297); a stripe update
gathers its waiting lines once every open update has moved on (R186, R281).
The delta log and checkpoints: a partly filled line is written 2 µs after its first record; GO and the interval start a checkpoint,
which freezes the dirty pages, or mark one as pending; with the root record durable the checkpoint is done: log space is released and the
generation advances by one (R195, R196). -/
def Obligations.WritebackAndMapLog : Prop :=
 (∀ (s : State) (e18 : BitVec 18) (e : Nat),
    let i := e18.toNat
    let en := s.m.dirEnt i
    let w := s.m.ht.wbs.get i
    let ended := en.valid = true ∧ en.wb = true ∧ w.reading = false ∧ w.waiting = false ∧ w.stripe = none ∧ w.left = 0
    let durable := ∀ n, w.delta = some n → s.m.deltaDurable n = true
    (s.m.fabricUp = true → s.m.stacksIn ≠ 0 →
      (s.m.wbDue = [] → Completes .writebackStart s s.m) ∧
      (s.m.wbDue.find? s.m.wbCan = some e →
        (s.m.wbDrops e = true → Completes .writebackStart s (s.m.dirFreeEnt e)) ∧
        (s.m.wbDrops e = false → Completes .writebackStart s (s.m.wbBegin e)))) ∧
    (¬ended → Completes (.writebackDone e18) s s.m) ∧
    (ended → ¬durable → s.m.persistWants en.line = false → Completes (.writebackDone e18) s s.m) ∧
    (ended → ¬durable → s.m.persistWants en.line = true → Completes (.writebackDone e18) s s.m.deltaFlush) ∧
    (ended → durable → en.rewritten = true → CompletesWith (.writebackDone e18) s (fun t =>
      t.ht.wbs = s.m.ht.wbs.erase i ∧ t.dirEnt i = { en with rewritten := false, wb := false, born := w.serial })) ∧
    (ended → durable → en.rewritten = false → w.poison = false → en.lost = true →
      Completes (.writebackDone e18) s ((s.m.lostPast en.line).wbBack i)) ∧
    (ended → durable → en.rewritten = false → w.poison = false → en.lost = false →
      Completes (.writebackDone e18) s ((((s.m.lostPast en.line).wbHome i).dirFreeEnt i).count HT.CNT_WB_LINES)) ∧
    (ended → durable → en.rewritten = false → w.poison = true →
      Completes (.writebackDone e18) s ((((s.m.lostWrites en.line w.serial).wbHome i).dirFreeEnt i).count HT.CNT_WB_LINES)) ∧
    (s.m.fabricUp = true →
      let m := s.m.map.stripes.keys.foldl (fun m k => m.stripeStage k) s.m
      (∀ x, ((m.ht.wbs.filter (·.2.waiting)).find? fun x => m.stripeReady x.1) = some x → Completes .stripeUpdate s (m.stripeBegin x.1)) ∧
      (((m.ht.wbs.filter (·.2.waiting)).find? fun x => m.stripeReady x.1) = none → Completes .stripeUpdate s m))) ∧
 (∀ (s : State) (a : BitVec 3),
    let c := s.m.map.ckpt
    let line := s.m.map.delta.curAt + 38400 ≤ s.m.now
    let due := s.m.get MAP.CKPT_INTERVAL ≠ 0 ∧ s.m.map.ckptAt + 19200000000 * s.m.get MAP.CKPT_INTERVAL ≤ s.m.now
    (s.m.fabricUp = true → s.m.map.delta.cur ≠ [] → line → Completes .deltaLineTimeout s s.m.deltaFlush) ∧
    ((s.m.map.delta.cur = [] ∨ ¬line) → Completes .deltaLineTimeout s s.m) ∧
    (s.m.cfgOpen .map 0 →
      let m := s.m.seen a.toNat
      (m.mode = mFlush → Completes (.ckptGo a) s m) ∧
      (m.mode ≠ mFlush → m.get MAP.CKPT_STATE ≠ 0 → Completes (.ckptGo a) s (m.put MAP.CKPT_PENDING 0 1)) ∧
      (m.mode ≠ mFlush → m.get MAP.CKPT_STATE = 0 → CompletesWith (.ckptGo a) s (fun t =>
        t.get MAP.CKPT_STATE = 2 ∧ t.viewMap 0x158 = some 0 ∧ t.map.dirty = [] ∧ t.map.ckpt.pages = m.map.dirty.keys ∧
          t.map.ckpt.total = m.map.dirty.keys.length + m.map.ledgerDirty.length ∧ t.map.ckpt.startAt = m.now ∧ t.map.ckpt.root = 0))) ∧
    (s.m.mapUp = true → s.m.mode ≠ mFlush → due →
      (s.m.get MAP.CKPT_STATE ≠ 0 → CompletesWith .ckptIntervalExpire s (fun t =>
        t.map.ckptAt = s.m.now ∧ t.flag MAP.CKPT_PENDING = true ∧ OnlyFields { s.m with map := t.map } t [MAP.CKPT_PENDING.key 0])) ∧
      (s.m.get MAP.CKPT_STATE = 0 → CompletesWith .ckptIntervalExpire s (fun t =>
        t.map.ckptAt = s.m.now ∧ t.get MAP.CKPT_STATE = 2 ∧ t.map.dirty = [] ∧ t.map.ckpt.pages = s.m.map.dirty.keys))) ∧
    (¬due → Completes .ckptIntervalExpire s s.m) ∧
    (s.m.get MAP.CKPT_STATE = 2 → c.flight ≠ 0 → Completes .ckptDone s s.m) ∧
    (s.m.get MAP.CKPT_STATE = 3 → c.root ≠ 0 → Completes .ckptDone s s.m) ∧
    (s.m.get MAP.CKPT_STATE = 3 → c.root = 0 → s.m.flag MAP.CKPT_PENDING = false → s.m.map.stallAt = 0 → CompletesWith .ckptDone s (fun t =>
      t.get MAP.CKPT_STATE = 0 ∧ t.get MAP.CKPT_GEN = (s.m.get MAP.CKPT_GEN + 1) % 2 ^ 64 ∧
        t.get MAP.DELTA_FILL = (s.m.get MAP.DELTA_FILL - c.df) % 2 ^ 64 ∧ t.get MAP.CKPT_LAST_PAGES = c.total % 2 ^ 25 ∧
        (t.get (evField .map) 0).testBit MAP.EV_CKPT_DONE = true)))

/-- Formatting and reclaiming: a channel below its Woodshed target formats the segment that R194 picks and one at its target none, all of it in
the background portion of a period (R25); the
reclaimer works only in the background portion of a period, visits the next root word of its list, and visits one again of which units
are still held (R194, R195, R203).
The drift clock and the canaries: a second advances AGE_NOW unless PORST is asserted; a canary is programmed when its age has come, or once no bucket reads it at full rate;
samples go round the eight canaries; the start's estimate waits for every channel to settle, sets AGE_NOW from the median of what the
canaries gave, or from the store when none was read, and marks it as estimated
(R223, R224, R229, R230, R232). -/
def Obligations.ReclaimAndDrift : Prop :=
 (∀ (s : State) (c5 : BitVec 5),
    let c := c5.toNat
    let below := s.m.woodshed c + (s.m.segsIn c .formatting).length < s.m.get MAP.WOODSHED_TARGET ∧ s.m.formatting c < 4
    (s.m.mayWork = true → s.m.linkServes c = true → s.m.inGuar = false → s.m.rowsNeeded = false →
      (¬below → Completes (.woodshedFormat c5) s s.m) ∧
      (below → s.m.pickFormat c = none → Completes (.woodshedFormat c5) s s.m) ∧
      (∀ g, below → s.m.pickFormat c = some g → (s.m.chanRO c = true ∨ s.m.segBusy c g = true) → Completes (.woodshedFormat c5) s s.m) ∧
      (∀ g, below → s.m.pickFormat c = some g → s.m.chanRO c = false → s.m.segBusy c g = false →
        (s.m.leaseOk c g 4097 = true →
          Completes (.woodshedFormat c5) s ((s.m.setSeg c g .formatting).sendCmd c opFormat 0 0 g (.format g false))) ∧
        (s.m.leaseOk c g 4097 = false → Completes (.woodshedFormat c5) s (s.m.leaseWant c g 4097)))) ∧
    (s.m.linkServes c = false ∨ s.m.inGuar = true → Completes (.woodshedFormat c5) s s.m) ∧
    let m := s.m.freeOrphans
    ((s.m.mapUp = false ∨ (s.m.flag ALM.STAT_TB_VALID = true ∧ s.m.flag ALM.STAT_IN_GUAR = true)) → Completes .reclaimVisit s s.m) ∧
    (s.m.mapUp = true → s.m.flag ALM.STAT_IN_GUAR = false →
      (s.m.deltaFull = true → Completes .reclaimVisit s s.m.deltaStall) ∧
      (s.m.deltaFull = false → m.map.reclaim = [] → Completes .reclaimVisit s m.releaseResv.showWarm) ∧
      ∀ ns root lo hi rest, s.m.deltaFull = false → m.map.reclaim = (ns, root, lo, hi) :: rest →
        let m1 := m.reclaimRoot ns root lo hi
        let left := m1.unitsBelow ns root lo hi
        (left = [] → Completes .reclaimVisit s (m1.setReclaim rest).releaseResv.showWarm) ∧
        (left ≠ [] → Completes .reclaimVisit s (m1.setReclaim (rest ++ [(ns, root, lo, hi)])).releaseResv.showWarm))) ∧
 (∀ (s : State) (c5 : BitVec 5) (k3 : BitVec 3) (store : BitVec 48),
    let c := c5.toNat
    let k := k3.toNat
    let x := s.m.map.canaries.get (8 * c + k)
    let full := s.m.get ZML.LINK_RATE c = 0
    let seek := (s.m.map.ests.get (8 * c + k)).stage
    let now := (s.m.get MAP.AGE_NOW + 1) % 2 ^ 48
    let come := s.m.get MAP.CANARY_INTERVAL * 2 ^ k ≤ s.m.get MAP.AGE_NOW - (x.at_ - 1)
    (s.m.porstN = false → Completes .driftClockTick s s.m) ∧
    (s.m.porstN = true → s.m.mapUp = false → Completes .driftClockTick s (s.m.put MAP.AGE_NOW 0 (s.m.get MAP.AGE_NOW + 1))) ∧
    (s.m.porstN = true → s.m.deltaHigh = true → Completes .driftClockTick s (s.m.put MAP.AGE_NOW 0 (s.m.get MAP.AGE_NOW + 1))) ∧
    (s.m.porstN = true → s.m.mapUp = true → s.m.deltaHigh = false →
      (∀ uk ∈ s.m.map.ents.keys,
        ageCatch 32 (eAge (s.m.ent uk)) (max s.m.map.promoAt (s.m.map.promoUk.get uk)) now = eAge (s.m.ent uk)) →
      CompletesWith .driftClockTick s (fun t => t.get MAP.AGE_NOW = now ∧ t.map.promoAt = now ∧ t.map.ents = s.m.map.ents)) ∧
    ((s.m.mayWork = false ∨ s.m.link c ≠ 4 ∨ s.m.map.estDone = false ∨ (x.at_ ≠ 0 ∧ ¬come)) → Completes (.canaryProgram c5 k3) s s.m) ∧
    (s.m.mayWork = true → s.m.link c = 4 → s.m.map.estDone = true →
      (x.at_ = 0 → seek = 0 → full →
        Completes (.canaryProgram c5 k3) s ((s.m.modEst c k fun y => { y with stage := 1, bucket := 0 }).canaryData c k 0)) ∧
      ((x.at_ = 0 ∧ seek = 4 ∧ full) ∨ (x.at_ ≠ 0 ∧ come) → s.m.canaryWaits c k = false → Completes (.canaryProgram c5 k3) s
        (s.m.mQueue c false 13
          { (default : Media) with op := opWriteLine, area := 1, pos := k, nlines := 1, data := s.m.canaryLine c k } (.canaryWr k)))) ∧
    (s.m.mode ≠ mRun → s.m.mode ≠ mDegraded → Completes .canarySample s s.m) ∧
    ((s.m.mode = mRun ∨ s.m.mode = mDegraded) → CompletesWith .canarySample s (fun t =>
      t.map.canaryIdx = (s.m.map.canaryIdx + 1) % 8)) ∧
    ((s.m.mode ≠ mBringup ∨ s.m.map.estDone = true) → Completes (.ageEstimate store) s s.m) ∧
    (s.m.running = true → s.m.mode = mBringup → s.m.map.estDone = false →
      (∀ d < 32, s.m.link d = 4 → s.m.get ZML.LINK_RATE d = 0 → (s.m.map.ests.get (8 * d)).stage ≠ 0) →
      let ok := (s.m.map.ests.map (·.2)).filter fun y => y.stage = 3
      let sorted := (ok.map (·.est)).mergeSort (· ≤ ·)
      let newest := ok.foldl (fun a y => max a y.word0) 0
      let kind := s.m.get GLOBAL.STAT_START_KIND
      let found := if kind = 1 then 0 else store.toNat
      let age := if ok = [] then found else max (sorted.getD (ok.length / 2) 0) (newest + 1)
      ((∃ d < 32, s.m.canSettled d = false) ∨ (ok = [] ∧ kind = 0) → Completes (.ageEstimate store) s s.m) ∧
      ((∀ d < 32, s.m.canSettled d = true) → ok ≠ [] ∨ kind ≠ 0 → CompletesWith (.ageEstimate store) s (fun t =>
        t.get MAP.AGE_NOW = age % 2 ^ 48 ∧ t.get MAP.AGE_EST = age % 2 ^ 48 ∧ t.flag MAP.AGE_EST_ESTIMATED = true ∧
          (t.get MAP.WD_EVENT).testBit 4 = true ∧ t.map.estDone = true ∧
          t.map.promoAt = if ok = [] then found else newest))))

/-- Rotation: the first due unit that no condition keeps waiting is marked MIGRATING, and after its 4,097th move ROT advances by one; a
shift's move reads the line position that R212 gives. None of it starts outside its window (R212, R213).
Migration and drift rewrite: the next line copy of the unit under way is read; once every line is copied and no program of the source
is in flight the entry takes the new place and the old segments follow their last reads; a rewritten unit's AGE becomes 0 with its last
acknowledgement. An engine that needs a map entry which is not at hand first has it fetched (R190, R217, R227, R228). -/
def Obligations.RotationAndMigration : Prop :=
 (∀ (s : State) (uk : Nat) (r : RotSt),
    let e := s.m.ent uk
    let ready := s.m.map.rots.find? fun p =>
      (p.2.stage = 0 && s.m.deltaDurable (p.2.delta - 1)) || (p.2.stage = 1 && (p.2.acked = 4097 || !s.m.rotRests p.1))
    let m0 := (s.m.lookup uk).2
    (s.m.mayWork = false → Completes .rotShiftStart s s.m ∧ Completes .rotMove s s.m) ∧
    (s.m.window 1 = false → Completes .rotShiftStart s s.m) ∧
    (s.m.mayWork = true → s.m.window 1 = true → s.m.deltaFull = true → Completes .rotShiftStart s s.m.deltaStall) ∧
    (s.m.mayWork = true → s.m.window 1 = true → s.m.deltaFull = false →
      (s.m.map.rotDue.find? fun u => s.m.ent u ≠ 0 && s.m.unitFree u && !s.m.unitRO u) = some uk →
      ((s.m.lookup uk).1 = false → Completes .rotShiftStart s m0) ∧
      ((s.m.lookup uk).1 = true → CompletesWith .rotShiftStart s (fun t => ∃ n m', m0.setEntFlag uk fMigrating true = (n, m') ∧
        t.map.rotDue = m'.map.rotDue.erase uk ∧ (t.map.rots.get uk).stage = 0 ∧ (t.map.rots.get uk).acked = 0 ∧
        (t.map.rots.get uk).delta = n + 1))) ∧
    (s.m.mayWork = true → ready = none → Completes .rotMove s s.m) ∧
    (s.m.mayWork = true → ready = some (uk, r) → r.acked ≠ 4097 → s.m.window 1 = false → Completes .rotMove s s.m) ∧
    (s.m.mayWork = true → ready = some (uk, r) → r.acked = 4097 → s.m.deltaFull = false → Completes .rotMove s
      (((s.m.setEnt uk (eSetFlag (setBits e 16 12 ((eRot e + 1) % 4096)) fMigrating false)).2.modMap fun x =>
        { x with rots := x.rots.erase uk }).count MAP.CNT_ROT_SHIFTS)) ∧
    (s.m.mayWork = true → s.m.window 1 = true → ready = some (uk, r) → r.acked ≠ 4097 → s.m.rebuildWaits uk (unitChans e) = true →
      Completes .rotMove s s.m) ∧
    (s.m.mayWork = true → s.m.window 1 = true → ready = some (uk, r) → r.acked ≠ 4097 → s.m.rebuildWaits uk (unitChans e) = false →
      s.m.deltaFull = false →
      let n := (unitChans e).length
      let line := ((if r.acked = 4096 then 4095 else 4095 - r.acked) + 4096 - eRot e) % 4096
      let move (m : Mach) (i : Nat) : Mach :=
        let c := (unitCopy e i).1.1
        if m.omitsFor uk c then (m.setRebuild uk c).rotAck uk
        else
          let y := m.copyRead 14 uk i (.rotRd uk i) false
          match y.1 with
          | some o => y.2.rotGot uk i o
          | none => y.2
      ((s.m.lookup uk).1 = false → Completes .rotMove s m0) ∧
      ((s.m.lookup uk).1 = true → Completes .rotMove s (((List.range n).map fun j => line * n + j).foldl move
        (m0.modRot uk fun x => { x with stage := 2, flight := n }))))) ∧
 (∀ (s : State) (uk : Nat) (x : MigSt) (y : RwSt),
    let copying := s.m.map.migs.find? fun p => p.2.next < unitCopies (s.m.ent p.1) || !p.2.marked.isEmpty
    let m := s.m.freeOld
    let copied := m.map.migs.find? fun p =>
      let e := m.ent p.1
      unitCopies e ≤ p.2.next && p.2.flight = 0 && p.2.marked.isEmpty && e ≠ 0 && !(m.map.stripes.any fun z => z.2.uk = p.1) &&
        !((unitChans e).any fun c => m.outOn c (eSeg e) true)
    let written := s.m.map.rws.find? fun p => unitCopies (s.m.ent p.1) ≤ p.2.next - 1 && p.2.flight = 0
    ((s.m.mayWork = false ∨ s.m.window 1 = false) → Completes .migrateCopy s s.m) ∧
    (s.m.mayWork = true → s.m.window 1 = true → s.m.deltaFull = false →
      (copying = some (uk, x) → (s.m.lookup uk).1 = false → Completes .migrateCopy s (s.m.lookup uk).2) ∧
      (copying = some (uk, x) → (s.m.lookup uk).1 = true →
        let m0 := (s.m.lookup uk).2
        let e := m0.ent uk
        let first := x.next < unitCopies e
        let i := if first then x.next else x.marked.headD 0
        let c := (unitCopy e i).1.1
        let omitted := 2 ≤ eKind e ∧ m0.omits c = true
        let m1 := m0.modMig uk fun z => { z with
          next := if first then z.next + 1 else z.next, marked := if first then z.marked else z.marked.drop 1 }
        let y := (m1.modMig uk fun z => { z with flight := z.flight + 1 }).copyRead 14 uk i (.migRd uk i) false
        (¬omitted → Completes .migrateCopy s (match y.1 with | some o => y.2.migGot uk i o | none => y.2)) ∧
        (omitted → (x.stale = 0 ∨ x.stale = c + 1) → Completes .migrateCopy s (m1.modMig uk fun z => { z with stale := c + 1 })) ∧
        (omitted → x.stale ≠ 0 → x.stale ≠ c + 1 → Completes .migrateCopy s m0)) ∧
      (copying = none → s.m.map.migs = [] → s.m.rowsNeeded = false → Completes .migrateCopy s s.m.migBegin)) ∧
    (m.mayWork = true → copied = none → Completes .migrateSwitch s m) ∧
    (m.mayWork = true → copied = some (uk, x) → m.deltaFull = false →
      let e := m.ent uk
      let made := eMake (eKind e) x.chanNew x.segNew (eFlag e fRunahead)
      let new := eSetFlag (eSetFlag made fPoison (eFlag e fPoison)) fFormatted (eFlag e fFormatted)
      let t := (m.setEnt uk (if x.stale = 0 then new else eRebuild new (x.stale - 1))).2
      let t1 := if eKind e = 1 ∧ eChan e ≠ x.chanNew then t.rechannel uk (eSeg e) (eChan e) x.segNew x.chanNew
        else t.redirect uk (eSeg e) x.segNew
      let switched := (((t1.modMap fun z => { z with
        migs := z.migs.erase uk, rots := z.rots.erase uk,
        oldSegs := z.oldSegs ++ (unitChans e).map fun c => (c, eSeg e, eFlag e fRetired) }).count
          MAP.CNT_MIGRATE).modMap fun z => { z with rwDue := z.rwDue.erase uk }).freeOld
      let failed := ∃ c ∈ unitChans (if x.stale = 0 then new else eRebuild new (x.stale - 1)),
        switched.map.bad.get (segKey c x.segNew) ≠ []
      (¬failed → Completes .migrateSwitch s switched) ∧ (failed → Completes .migrateSwitch s (switched.retireUnit uk))) ∧
    (s.m.mayWork = false → Completes .rewriteLine s s.m) ∧
    (s.m.mayWork = true → written = none → s.m.window 0 = false → Completes .rewriteLine s s.m) ∧
    (s.m.mayWork = true → written = some (uk, y) →
      let m := s.m.modMap fun z => { z with rws := z.rws.erase uk }
      (m.ent uk ≠ 0 → s.m.deltaFull = false → Completes .rewriteLine s (m.setEnt uk (setBits (m.ent uk) 8 8 0)).2) ∧
      (m.ent uk = 0 → Completes .rewriteLine s m)) ∧
    (s.m.mayWork = true → written = none → s.m.window 0 = true → s.m.map.rws = [] → s.m.takesPosts = true →
      s.m.rwPick = some uk →
      let m0 := (s.m.lookup uk).2
      ((s.m.lookup uk).1 = false → Completes .rewriteLine s m0) ∧
      ((s.m.lookup uk).1 = true → CompletesWith .rewriteLine s (fun t =>
        t.map.rwDue = m0.map.rwDue.erase uk ∧ (t.map.rws.get uk).next = 1 ∧ (t.map.rws.get uk).flight = 0 ∧
          t = { m0 with map := t.map }))))

/-- The Gleaner: GO during a pass is ignored with EVENT.REFUSED, and else starts a pass at START or is refused with its reason; ABORT marks a
running pass, which ends DONE or ABORTED with its last line, and changes nothing on one that has completed; a visit outside its window waits, and PROGRESS moves on by one line with each
visit (R258, R259, R262 to R264).
A write of FLIP_CTL arms and disarms the flip masks. An armed mask with a target beyond the tag word, the reserved SRAM code, or read
injection without a match, is kept out with PARAM_REJECT (R256). -/
def Obligations.GleanerAndFlipMasks : Prop :=
 (∀ (s : State) (a : BitVec 3),
    let over_ := s.m.get GLN.START + s.m.get GLN.LENGTH ≤ s.m.get GLN.PROGRESS
    let stopped := s.m.mode ≠ mRun ∧ s.m.mode ≠ mDegraded
    let closed := s.m.flag GLN.MODE_ANYTIME = false ∧ s.m.window 2 = false
    let line := s.m.get GLN.PROGRESS / 256
    let at_ := s.m.showGlean.lookup (s.m.unitOf line).1
    (s.m.cfgOpen .gln 0 →
      let m := s.m.seen a.toNat
      let ended := over_ ∧ s.m.err.gFly = []
      (m.get GLN.RESULT_STATE = 1 → Completes (.glnGo a) s (m.event .gln 0 GLN.EV_REFUSED) ∧
        (¬ended → CompletesWith (.glnAbort a) s (fun t => t = { m with err := { m.err with gAbort := true } })) ∧
        (ended → Completes (.glnAbort a) s (m.put GLN.RESULT_ABORT_OUT 0 2))) ∧
      (m.get GLN.RESULT_STATE ≠ 1 →
        (∀ why, m.gleanCheck = some why → CompletesWith (.glnGo a) s (fun t =>
          t.get GLN.RESULT_STATE = 4 ∧ t.get GLN.RESULT_REASON = why ∧ (t.get (evField .gln) 0).testBit GLN.EV_REFUSED = true ∧
            t.err = m.err)) ∧
        (m.gleanCheck = none → CompletesWith (.glnGo a) s (fun t =>
          t.get GLN.RESULT_STATE = 1 ∧ t.get GLN.PROGRESS = m.get GLN.START % 2 ^ 60 ∧ t.flag GLN.STAT_RUNNING = true ∧
            t.get GLN.SUM_CHECKED = 0 ∧ t.get GLN.SUM_POISONED = 0 ∧ t.err.gAbort = false ∧ t.err.gTick = m.get ALM.TB_NOW)) ∧
        Completes (.glnAbort a) s (m.put GLN.RESULT_ABORT_OUT 0 2))) ∧
    (s.m.get GLN.RESULT_STATE ≠ 1 → Completes .gleanerVisit s s.m ∧ Completes .gleanerPassEnd s s.m) ∧
    (s.m.get GLN.RESULT_STATE = 1 →
      (stopped → CompletesWith .gleanerVisit s (fun t => t.flag GLN.STAT_PAUSED = true ∧ t.flag GLN.STAT_WAITING = false ∧
        OnlyFields s.m t [GLN.STAT_PAUSED.key 0, GLN.STAT_WAITING.key 0])) ∧
      (¬stopped → closed → ¬over_ → s.m.err.gAbort = false → CompletesWith .gleanerVisit s (fun t => t.flag GLN.STAT_PAUSED = false ∧ t.flag GLN.STAT_WAITING = true ∧
        OnlyFields s.m t [GLN.STAT_PAUSED.key 0, GLN.STAT_WAITING.key 0])) ∧
      (¬stopped → over_ ∨ s.m.err.gAbort = true → CompletesWith .gleanerVisit s (fun t =>
        t.flag GLN.STAT_PAUSED = false ∧ t.flag GLN.STAT_WAITING = false ∧
          OnlyFields s.m t [GLN.STAT_PAUSED.key 0, GLN.STAT_WAITING.key 0])) ∧
      (¬stopped → ¬closed → s.m.mapUp = true → s.m.err.gAbort = false → ¬over_ → s.m.gleanLines < s.m.get GLN.MODE_DEPTH →
        (at_.1 = false → Completes .gleanerVisit s at_.2) ∧
        (at_.1 = true → Completes .gleanerVisit s
          (((at_.2.gleanLine line).put GLN.PROGRESS 0 (s.m.get GLN.PROGRESS + 256)).showGlean))) ∧
      (s.m.err.gFly = [] → over_ → s.m.err.gAbort = false → CompletesWith .gleanerPassEnd s (fun t =>
        t.get GLN.RESULT_STATE = 2 ∧ t.get GLN.RESULT_ABORT_OUT = s.m.get GLN.RESULT_ABORT_OUT ∧ t.flag GLN.STAT_RUNNING = false ∧ (t.get (evField .gln) 0).testBit GLN.EV_DONE = true ∧
          t.get GLN.CNT_PASSES = countUp (s.m.get GLN.CNT_PASSES) 1 % 2 ^ 64)) ∧
      (s.m.err.gFly = [] → s.m.err.gAbort = true → CompletesWith .gleanerPassEnd s (fun t =>
        t.get GLN.RESULT_STATE = 3 ∧ t.get GLN.RESULT_ABORT_OUT = 1 ∧ (t.get (evField .gln) 0).testBit GLN.EV_ABORTED = true)) ∧
      ((s.m.err.gFly ≠ [] ∨ (¬over_ ∧ s.m.err.gAbort = false)) → Completes .gleanerPassEnd s s.m))) ∧
 (∀ (s : State) (a : BitVec 3) (v : BitVec 28), s.m.cfgOpen .err 0 →
    let m := s.m.seen a.toNat
    let ht := v.toNat % 2 ^ 6
    let mt := v.toNat / 2 ^ 8 % 2 ^ 6
    let reads := v.toNat / 2 ^ 16 % 2 ^ 3
    let ram := v.toNat / 2 ^ 24 % 2 ^ 2
    let on (k : Nat) : Bool := v.toNat.testBit k
    (((on 7 = true ∧ 32 < ht) ∨ (on 15 = true ∧ 32 < mt) ∨ (on 27 = true ∧ ram = 3) ∨ (on 15 = true ∧ 0 < reads ∧ on 14 = false)) →
      Completes (.flipArm a v) s (m.event .err 0 ERR.EV_PARAM_REJECT)) ∧
    (ht ≤ 32 → mt ≤ 32 → ram ≠ 3 → (on 15 = true → 0 < reads → on 14 = true) → CompletesWith (.flipArm a v) s (fun t =>
      t.flag ERR.FLIP_H_ARM = on 7 ∧ t.flag ERR.FLIP_M_ARM = on 15 ∧ t.flag ERR.FLIP_S_ARM = on 27 ∧ t.get ERR.FLIP_H_TARGET = ht ∧
        t.get ERR.FLIP_M_TARGET = mt ∧ t.get ERR.FLIP_S_RAM = ram ∧ t.get ERR.FLIP_M_READS = reads ∧ t.err.flipReads = reads ∧
        t = { m with regs := t.regs, err := t.err })))

/-- A pseudo-channel's commands: a command in power-down first ends it; nothing issues while the whole pseudo-channel is blocked; an RFM
that a bank needs goes first, at its next opportunity; else the request of R286 takes its next command, which opens its row, closes another
one, or serves the line. The queue average moves by a sixteenth of its distance to the occupancy (R286 to R288, R292, R294).
Refresh and power-down: a due refresh is postponed during a retraining unit (R310), and while requests wait, up to POSTPONE of them, after
which it is forced; an idle
pseudo-channel catches up; in self-refresh nothing is due. Power-down is entered after PD_IDLE quiet cycles (R291, R294). -/
def Obligations.PseudoChannels : Prop :=
 (∀ (s : State) (n1 : BitVec 1) (pc5 : BitVec 5) (q : LineReq),
    let n := n1.toNat
    let pc := pc5.toNat
    let wm := s.m.writeModeNext n (s.m.pcSt n pc)
    let m := if wm = (s.m.pcSt n pc).writeMode then s.m
      else (s.m.modPc n pc fun x => { x with writeMode := wm, served := 0 }).count HT.CNT_TURN n
    let p := m.pcSt n pc
    let ck := s.m.ck
    let c := Instr.hearthCommandIssue n1 pc5
    ((s.m.stackUp n = false ∨ s.m.mode = mSafehold ∨ p.hold = true) → Completes c s s.m) ∧
    (s.m.stackUp n = true → s.m.mode ≠ mSafehold → p.hold = false → p.queue = [] → (p.pd = true ∨ m.rfmBank n pc = none) →
      Completes c s m) ∧
    (∀ k, s.m.stackUp n = true → s.m.mode ≠ mSafehold → p.hold = false → p.pd = false → p.blocked ≤ ck → m.rfmBank n pc = some k →
      CompletesWith c s (fun t =>
        ((t.pcSt n pc).banks.get k).raa = (p.banks.get k).raa - s.m.get HT.RFM_RAAIMT n ∧
          ((t.pcSt n pc).banks.get k).blocked = ck + s.m.tim n 18 ∧ (t.pcSt n pc).queue = p.queue ∧
          t.get HT.CNT_RFM n = countUp (s.m.get HT.CNT_RFM n) 1 % 2 ^ 64)) ∧
    (s.m.stackUp n = true → s.m.mode ≠ mSafehold → p.hold = false → p.queue ≠ [] →
      (p.pd = true → Completes c s (m.modPc n pc fun x => { x with pd := false, blocked := ck + s.m.tim n 21, idleAt := ck })) ∧
      (p.pd = false → ck < p.blocked → Completes c s m) ∧
      (p.pd = false → p.blocked ≤ ck → m.rfmBank n pc = none →
        (m.pcChoice n p = none → Completes c s (m.raaWaits n pc)) ∧
        (m.pcChoice n p = some q → m.cmdReady n p q = false → Completes c s (m.raaWaits n pc)) ∧
        (m.pcChoice n p = some q → m.cmdReady n p q = true →
          (p.nextCmd q = 2 → CompletesWith c s (fun t =>
            ((t.pcSt n pc).banks.get q.bank).row = 0 ∧ ((t.pcSt n pc).banks.get q.bank).pre = some ck ∧ (t.pcSt n pc).queue = p.queue ∧
              t.regs = m.regs)) ∧
          (p.nextCmd q = 1 → CompletesWith c s (fun t =>
            ((t.pcSt n pc).banks.get q.bank).row = q.row + 1 ∧ ((t.pcSt n pc).banks.get q.bank).act = some ck ∧ t.regs = m.regs)) ∧
          (p.nextCmd q = 0 → q.write = false → CompletesWith c s (fun t =>
            (t.pcSt n pc).queue = p.queue.filter (fun x => x.id != q.id) ∧ ((t.pcSt n pc).banks.get q.bank).rd = some ck ∧
              t.get HT.CNT_RD_LINES n = countUp (m.get HT.CNT_RD_LINES n) 1 % 2 ^ 64 ∧
              t.ht.flights = if q.job = .none then m.ht.flights else m.ht.flights ++ [⟨q, n⟩])) ∧
          (p.nextCmd q = 0 → q.write = true → CompletesWith c s (fun t =>
            (t.pcSt n pc).queue = p.queue.filter (fun x => x.id != q.id) ∧ ((t.pcSt n pc).banks.get q.bank).wr = some ck ∧
              t.get HT.CNT_WR_LINES n = countUp (m.get HT.CNT_WR_LINES n) 1 % 2 ^ 64 ∧ t.ht.flights = m.ht.flights ∧
              ∀ port id k, q.job = .client port id k → ∀ r ∈ (m.port port).reqs, r.id = id → k < r.lines.length →
                (r.lines.getD k default).phase = .hearth → ∃ y ∈ (t.port port).reqs, y.id = id ∧ (y.lines.getD k default).phase = .served)))))
      ∧
    ((s.m.stackUp n = false ∨ s.m.mode = mSafehold) → Completes (.hearthQavgUpdate n1) s s.m) ∧
    (s.m.stackUp n = true → s.m.mode ≠ mSafehold → CompletesWith (.hearthQavgUpdate n1) s (fun t =>
      ((t.pcSt n pc).avg : Int) = max 0 ((p.avg : Int) + (16 * (p.queue.length : Int) - p.avg) / 16)))) ∧
 (∀ (s : State) (n1 : BitVec 1) (pc5 : BitVec 5),
    let n := n1.toNat
    let pc := pc5.toNat
    let p := s.m.pcSt n pc
    let idle := s.m.get HT.PWR_PD_IDLE n
    let quiet := p.pd = false ∧ p.queue = [] ∧ p.postponed = 0 ∧ 0 < idle ∧ max idle (s.m.tim n 23) ≤ s.m.ck - p.idleAt
    let training := (s.m.phy n).want ≠ 0 ∧ (s.m.phy n).keeps = false
    ((s.m.stackIn n = false ∨ s.m.mode = mSafehold ∨ s.m.flag HT.STAT_SELF_REFRESH n = true ∨ training) →
      Completes (.refreshDue n1 pc5) s s.m) ∧
    (s.m.stackIn n = true → s.m.mode ≠ mSafehold → s.m.flag HT.STAT_SELF_REFRESH n = false → ¬training → p.hold = true →
      CompletesWith (.refreshDue n1 pc5) s (fun t =>
        (t.pcSt n pc).postponed = p.postponed + 1 ∧ (t.pcSt n pc).queue = p.queue ∧ t.regs = s.m.regs)) ∧
    (s.m.stackIn n = true → s.m.mode ≠ mSafehold → s.m.flag HT.STAT_SELF_REFRESH n = false → ¬training → p.hold = false →
      (p.queue = [] → CompletesWith (.refreshDue n1 pc5) s (fun t => (t.pcSt n pc).postponed = 0)) ∧
      (p.queue ≠ [] → p.postponed < s.m.get HT.REF_POSTPONE n → CompletesWith (.refreshDue n1 pc5) s (fun t =>
        (t.pcSt n pc).postponed = p.postponed + 1 ∧ (t.pcSt n pc).queue = p.queue ∧ t.regs = s.m.regs)) ∧
      (p.queue ≠ [] → s.m.get HT.REF_POSTPONE n ≤ p.postponed → CompletesWith (.refreshDue n1 pc5) s (fun t =>
        (t.pcSt n pc).postponed = p.postponed ∧ (∃ x, (t.pcSt n pc).lastRef = some x ∧ s.m.ck ≤ x) ∧
          (t.get (evField .ht) n).testBit HT.EV_REF_FORCED = true ∧
          t.get HT.CNT_REF_FORCED n = countUp (s.m.get HT.CNT_REF_FORCED n) 1 % 2 ^ 64))) ∧
    (s.m.stackUp n = true → s.m.mode ≠ mSafehold → quiet →
      Completes (.powerDownEntry n1 pc5) s ((s.m.modPc n pc fun x => { x with pd := true }).count HT.CNT_PD_ENTRY n)) ∧
    (¬quiet → Completes (.powerDownEntry n1 pc5) s s.m))

/-- Timing, layout and the sweeper: a timing change takes the written values, a zero among them keeping the old one with PARAM_REJECT; a
layout is refused while streams, spill or lists are active, or for its sizes; the sweeper goes on to the next home slot (R274, R276,
R285, R289). -/
def Obligations.TimingLayoutAndSweep : Prop :=
  ∀ (s : State) (a : BitVec 3) (n1 : BitVec 1),
    let n := n1.toNat
    (s.m.cfgOpen .ht n →
      let m := s.m.seen a.toNat
      let old (i : Nat) : Nat := (m.ht.timing.get n).getD i ((timingDefaults m.ht.bin).getD i 0)
      CompletesWith (.timingApply a n1) s (fun t =>
        (∀ i f, HT.timing[i]? = some f → (t.ht.timing.get n)[i]? = some (if m.get f n = 0 then old i else m.get f n)) ∧
          ((∃ f ∈ HT.timing, m.get f n = 0) → (t.get (evField .ht) n).testBit HT.EV_PARAM_REJECT = true))) ∧
    (s.m.cfgOpen .ht 0 →
      let m := s.m.seen a.toNat
      let l : Layout := ⟨m.get HT.LAYOUT_MAP, m.get HT.LAYOUT_SPILL, m.get HT.LAYOUT_LOOM⟩
      let busy := m.get KILN.ACTIVE ≠ 0 ∨ m.get KILN.SPILL_LEVEL ≠ 0 ∨ m.get LOOM.ACTIVE ≠ 0
      let large := m.stackMiB < m.mapBase / 4096 + l.map + l.spill + l.loom + 1024
      let ragged := l.map % 64 ≠ 0 ∨ l.spill % 64 ≠ 0 ∨ l.loom % 64 ≠ 0
      (busy → Completes (.layoutApply a) s ((m.put HT.LAYOUT_RESULT 0 1).put HT.LAYOUT_REASON 0 1)) ∧
      (¬busy → large ∨ ragged → Completes (.layoutApply a) s ((m.put HT.LAYOUT_RESULT 0 1).put HT.LAYOUT_REASON 0 2)) ∧
      (¬busy → ¬large → ¬ragged →
        let m1 := ((m.modHt fun h => { h with layout := some l }).bumpAllCgen).showLayout
        Completes (.layoutApply a) s
          (((((m1.hmapLost.loomForget.setFlag MAP.STAT_WARM 0 false).put HT.LAYOUT_RESULT 0 0).put HT.LAYOUT_REASON 0 0).event .ht 0
            HT.EV_LAYOUT_DONE).warmUp))) ∧
    let p := s.m.spread s.m.homeBase (s.m.ht.sweep % s.m.homeSlots)
    let c := s.m.cell p
    let stale := c.st = 1 ∧ ((s.m.nsDesc (lineNs c.ltag)).exists_ = false ∨ c.gen ≠ s.m.cgen (lineNs c.ltag))
    ((s.m.running = false ∨ s.m.stacksIn = 0 ∨ s.m.homeSlots = 0) → Completes .sweepLine s s.m) ∧
    (s.m.running = true → s.m.stacksIn ≠ 0 → s.m.homeSlots ≠ 0 → s.m.ht.sweep + 1 < s.m.homeSlots → c.cls ≠ 3 →
      (¬stale → Completes .sweepLine s ((s.m.hQueue 13 p false).modHt fun h => { h with sweep := h.sweep + 1 })) ∧
      (stale → Completes .sweepLine s
        ((((s.m.hQueue 13 p false).homeEmpty p).count HT.CNT_SWEEP_EMPTIED).modHt fun h => { h with sweep := h.sweep + 1 })))

/-- What a stack returns and how it leaves service: a read's data goes back to the request, the map lookup or the engine that waits for it, its flipped
bits staying in the cell, and a map line that fails its check is recovered; the sixteenth parity error within 1 ms, and a temperature at TEMP_TRIP, fail the stack; HOT and THROTTLED follow the
temperature with 5 degrees of hysteresis (R246, R291, R293, R298).
The fill: it writes the next lines of a stack and shows its progress; with its last line the stack serves traffic; and the Core is
released, in mode BRINGUP, when the first fill has ended on every stack in service (R296, R428, R430). -/
def Obligations.StackFailureAndFill : Prop :=
 (∀ (s : State) (n1 : BitVec 1) (xd : Line) (xt xm : BitVec 32) (errs temp : BitVec 8),
    let n := n1.toNat
    let t8 := sx 8 temp.toNat
    let hot : Int := s.m.get HT.REF_TEMP_HOT n
    let thr : Int := s.m.get HT.REF_TEMP_THROTTLE n
    let trip : Int := s.m.get HT.REF_TEMP_TRIP n
    let recent := ((List.replicate errs.toNat s.m.now ++ s.m.ht.parity.get n).filter fun x => s.m.now < x + 19200000).take 16
    let reads := s.m.stackIn n = true ∧ s.m.mode ≠ mSafehold ∧ s.m.flag HT.STAT_SELF_REFRESH n = false
    ((s.m.ht.flights.find? fun f => f.stack = n) = none → Completes (.hearthLineReturn n1 xd xt xm) s s.m) ∧
    (∀ f, (s.m.ht.flights.find? fun f => f.stack = n) = some f →
      let p := (n, f.req.h)
      let taken := s.m.modHt fun h => { h with
        flights := h.flights.filter (fun x => !(x.stack = n && x.req.id = f.req.id)),
        cells := if xd = 0 ∧ xt = 0 ∧ xm = 0 then h.cells else h.cells.upd (cellKey p) fun c => c.corrupt p xd xt.toNat xm.toNat }
      (∀ port id k, f.req.job = .client port id k → Completes (.hearthLineReturn n1 xd xt xm) s (taken.modLine port id k fun x =>
        if x.phase = .hearth then { x with phase := .served } else x)) ∧
      (∀ key, f.req.job = .mapLine key → Completes (.hearthLineReturn n1 xd xt xm) s
        (if (taken.cell p).cls = 3 then taken.mapLineFail p key else taken.mapGot key false)) ∧
      (∀ e, f.req.job = .wbH e → Completes (.hearthLineReturn n1 xd xt xm) s (taken.wbArrive e)) ∧
      (∀ k no, f.req.job = .spill k no → Completes (.hearthLineReturn n1 xd xt xm) s (taken.spillArrive k no)) ∧
      (∀ k id i, f.req.job = .loomH k id i → Completes (.hearthLineReturn n1 xd xt xm) s (taken.loomHearth k id i f.req.rq)) ∧
      (∀ k j, f.req.job = .imageH k j → Completes (.hearthLineReturn n1 xd xt xm) s (taken.imageTake k j)) ∧
      (∀ k j, f.req.job = .listH k j → Completes (.hearthLineReturn n1 xd xt xm) s (taken.listArrive k j)) ∧
      (f.req.job = .none → Completes (.hearthLineReturn n1 xd xt xm) s taken)) ∧
    ((s.m.stackIn n = false ∨ s.m.mode = mSafehold) → Completes (.stackFail n1 errs) s s.m) ∧
    (s.m.stackIn n = true → s.m.mode ≠ mSafehold →
      (recent.length < 16 → Completes (.stackFail n1 errs) s (s.m.modHt fun h => { h with parity := h.parity.set n recent })) ∧
      (16 ≤ recent.length → CompletesWith (.stackFail n1 errs) s (fun t =>
        t.flag HT.STAT_FAILED n = true ∧ (t.get (evField .ht) n).testBit HT.EV_PARITY = true))) ∧
    (¬reads → Completes (.hearthTempRead n1 temp) s s.m) ∧
    (reads → t8 < trip → CompletesWith (.hearthTempRead n1 temp) s (fun t =>
      t.get HT.TEMP n = temp.toNat ∧ (hot ≤ t8 → t.flag HT.STAT_HOT n = true) ∧ (t8 ≤ hot - 5 → t.flag HT.STAT_HOT n = false) ∧
        (thr ≤ t8 → t.flag HT.STAT_THROTTLED n = true) ∧ (t8 ≤ thr - 5 → t.flag HT.STAT_THROTTLED n = false) ∧
        (hot - 5 < t8 → t8 < hot → t.flag HT.STAT_HOT n = s.m.flag HT.STAT_HOT n))) ∧
    (reads → trip ≤ t8 → CompletesWith (.hearthTempRead n1 temp) s (fun t =>
      t.flag HT.STAT_FAILED n = true ∧ (t.get (evField .ht) n).testBit HT.EV_TRIP = true))) ∧
 (∀ (s : State) (n1 : BitVec 1) (k : BitVec 29),
    let n := n1.toNat
    let m := s.m
    let from_ := if m.flag HT.STAT_FILLING n then m.get HT.FILL_PROG n else 0
    let upto := min m.stackLines (from_ + k.toNat)
    let complete := (m.phy n).fill = true ∧ m.flag HT.STAT_FILLING n = true ∧ m.get HT.FILL_PROG n = m.stackLines
    (m.mayFill n = false → Completes (.hearthFill n1 k) s m) ∧
    (m.mayFill n = true → m.get GLOBAL.STAT_BOOT_STEP ≠ 4 → Completes (.hearthFill n1 k) s
      (((m.modHt fun h => { h with cells := h.cells.filter fun c => !(n * 2 ^ 28 + from_ ≤ c.1 && c.1 < n * 2 ^ 28 + upto) }).put
        HT.STAT_FILLING n 1).put HT.FILL_PROG n upto)) ∧
    (m.mayFill n = true → m.get GLOBAL.STAT_BOOT_STEP = 4 → CompletesWith (.hearthFill n1 k) s (fun t =>
      t.get GLOBAL.STAT_BOOT_STEP = 5 ∧ t.ht.dir = [] ∧ t.get HT.DIR_COUNT = 0 ∧ t.flag HT.STAT_FILLING n = true)) ∧
    (¬complete → m.get GLOBAL.STAT_BOOT_STEP ≠ 5 → Completes (.hearthFillDone n1) s m) ∧
    (¬complete → m.get GLOBAL.STAT_BOOT_STEP = 5 → 0 < m.stacksIn → (∀ j ∈ m.inService, (m.phy j).fill = false) →
      m.flag POWER.STAT_WARN = false → CompletesWith (.hearthFillDone n1) s (fun t =>
        t.get GLOBAL.STAT_BOOT_STEP = 6 ∧ t.flag GLOBAL.STAT_RELEASED = true ∧ t.mode = mBringup ∧ t.get COLLIER.STAT_STATE = 1 ∧
          t.alm.aliveAt = m.now)) ∧
    (complete → (m.phy n).lostFill = false → m.get GLOBAL.STAT_BOOT_STEP ≠ 5 → Completes (.hearthFillDone n1) s
      (((m.put HT.STAT_FILLING n 0).modPhy n fun p => { p with fill := false, lostFill := false }).showCapability n)))

/-- Training of a stack, step by step: full training reads the geometry at step 1 and repeats from step 2 after a failure while RETRY
allows; step 7 puts the stack in service. Resume training takes four steps, the first no earlier than T_XS after self-refresh, and falls back to
full training: of its own stack, the contents kept, when it failed at step 3 or 4, else of every stack in service, the contents lost at its
end (R304, R306 to R308). -/
def Obligations.TrainingSteps : Prop :=
  ∀ (s : State) (n1 : BitVec 1) (kill ok need : Bool) (b r : BitVec 4) (bin : BitVec 2) (imt : BitVec 8) (mmt : BitVec 16)
    (ls : List LaneIn),
    let n := n1.toNat
    let p := s.m.phy n
    let full := Instr.fullTraining n1 kill b r bin need imt mmt ls
    let resume := Instr.resumeTraining n1 ok ls
    let runs := s.m.flag CLOCK.STAT_PLL_LOCK = true ∧ s.m.mode ≠ mSafehold ∧ s.m.outOfReset = true
    lanesOk ls = true →
    (s.m.get GLOBAL.STAT_BOOT_STEP ≠ 3 →
      (p.want ≠ 1 → Completes full s s.m) ∧
      (p.want = 1 → runs →
        (p.step = 0 → kill = false → 4 ≤ b.toNat → b.toNat ≤ 6 → 13 ≤ r.toNat → r.toNat ≤ 15 → bin ≠ 0 → CompletesWith full s (fun t =>
          t.get HPHY.TRAIN_STEP n = 1 ∧ t.get HPHY.TRAIN_ATTEMPTS n = 1 ∧ t.flag HPHY.STAT_TRAINING n = true ∧ (t.phy n).b = b.toNat ∧
            (t.phy n).r = r.toNat ∧ (t.phy n).bin = bin.toNat ∧ t.get HT.GEOM_B n = b.toNat ∧ t.get HT.GEOM_R n = r.toNat ∧ t.flag HT.RFM_ENABLE n = need ∧ t.get HT.RFM_RAAIMT n = imt.toNat ∧
            t.get HT.RFM_RAAMMT n = mmt.toNat)) ∧
        ((p.step = 1 ∨ p.step = 3) → kill = false → CompletesWith full s (fun t =>
          t.get HPHY.TRAIN_STEP n = p.step + 1 ∧ (t.phy n).step = p.step + 1 ∧ (t.phy n).want = 1 ∧
            t.flag HT.STAT_IN_SERVICE n = s.m.flag HT.STAT_IN_SERVICE n)) ∧
        (0 < p.step → kill = true → 0 < s.m.get HPHY.TRAIN_ATTEMPTS n → s.m.get HPHY.TRAIN_ATTEMPTS n ≤ s.m.get HPHY.RETRY n →
          CompletesWith full s (fun t => t.get HPHY.TRAIN_ATTEMPTS n = (s.m.get HPHY.TRAIN_ATTEMPTS n + 1) % 2 ^ 8 ∧
            (t.phy n).step = 1 ∧ (t.phy n).recorded = [] ∧ (t.phy n).want = 1)) ∧
        (p.step = 6 → kill = false → p.recorded = [] → (∀ k < 2, (s.m.phy k).lostAfter = false) → CompletesWith full s (fun t =>
          t.flag HT.STAT_IN_SERVICE n = true ∧ t.get HT.PC_SERVICE n = 2 ^ 32 - 1 ∧ t.flag HPHY.TRAIN_PASS n = true ∧
            t.flag HPHY.STAT_TRAINING n = false ∧ (t.phy n).want = 0)))) ∧
    (s.m.get GLOBAL.STAT_BOOT_STEP = 3 → s.m.flag POWER.STAT_WARN = false → runs → p.step = 0 → kill = false → n < s.m.integ.stackCount →
      4 ≤ b.toNat → b.toNat ≤ 6 → 13 ≤ r.toNat → r.toNat ≤ 15 → bin ≠ 0 → CompletesWith full s (fun t =>
        t.get GLOBAL.STAT_BOOT_STEP = 4 ∧ t.get HPHY.TRAIN_STEP n = 1 ∧ (t.phy n).fill = true ∧ (t.phy n).startAt = s.m.now)) ∧
    (p.want ≠ 2 ∨ s.m.srxOver n = false → Completes resume s s.m) ∧
    (p.want = 2 → runs → s.m.srxOver n = true →
      (p.step < 3 → ok = true → CompletesWith resume s (fun t =>
        t.get HPHY.TRAIN_KIND n = 2 ∧ t.get HPHY.TRAIN_STEP n = p.step + 1 ∧ (t.phy n).step = p.step + 1 ∧
          t.flag HT.STAT_IN_SERVICE n = s.m.flag HT.STAT_IN_SERVICE n)) ∧
      (p.step = 3 → ok = true → (∀ k < 2, (s.m.phy k).lostAfter = false) → (∀ x ∈ ls, laneKind x.key.toNat = 1 ∨ eyesAt x.key.toNat x.res.toNat (s.m.get HPHY.FLOOR_EYE n) = true) →
        CompletesWith resume s (fun t => t.flag HT.STAT_IN_SERVICE n = true ∧ t.get HT.PC_SERVICE n = 2 ^ 32 - 1 ∧
          t.flag HPHY.TRAIN_PASS n = true ∧ (t.phy n).want = 0)) ∧
      (p.step = 2 ∨ p.step = 3 → ok = false → CompletesWith resume s (fun t =>
        (t.get (evField .hphy) n).testBit HPHY.EV_RESUME_FAIL = true ∧ (t.phy n).want = 1 ∧ (t.phy n).step = 1 ∧
          (t.phy n).keeps = true ∧ t.ht.cells = s.m.ht.cells)) ∧
      (p.step < 2 → ok = false → CompletesWith resume s (fun t =>
        (t.get (evField .hphy) n).testBit HPHY.EV_RESUME_FAIL = true ∧ t.ht.cells = s.m.ht.cells ∧
          ∀ k ∈ s.m.inService, (t.phy k).want = 1 ∧ (t.phy k).lostAfter = true)))

/-- Retraining: a round becomes due by time or temperature; a unit holds its pseudo-channel, and its end frees it and goes on to the next,
the last one completing the round; a lane below FLOOR_EYE waits for its repair unit, which maps it onto the spare of its group, and the
stack fails when that spare is used or when a command lane is below it; a round not complete in time is overdue (R309 to R312).
The test features of the PHY are refused while the stack is in service, a loopback keeps the error counts it measured, and an
instruction of the IEEE 1500 port returns what the stack shifts out (R313, R314). -/
def Obligations.RetrainingAndPhyTests : Prop :=
 (∀ (s : State) (n1 : BitVec 1) (ls : List LaneIn),
    let n := n1.toNat
    let m := s.m
    let p := m.phy n
    let pc := m.get HPHY.RETRAIN_POS n
    let t8 := sx 8 (m.get HT.TEMP n)
    let step : Int := m.get HPHY.RETRAIN_TEMP_STEP n
    let due := p.roundAt + 19200000 * m.get HPHY.RETRAIN_PERIOD n ≤ m.now ∨ step ≤ t8 - p.roundTemp ∨ step ≤ p.roundTemp - t8
    let late := p.dueAt ≠ 0 ∧ p.overdue = false ∧ m.mode ≠ mSafehold ∧ p.dueAt - 1 + 19200000 * m.get HPHY.RETRAIN_LIMIT n ≤ m.now
    let low := p.repair.get pc
    let mayBegin := m.window 4 = true ∧ m.flag HPHY.CTL_RETRAIN_EN n = true ∧ m.unitBlocked n pc = false
    (m.stackUp n = true → due → m.flag HPHY.RETRAIN_DUE n = false → CompletesWith (.retrainRoundDue n1) s (fun t =>
      t.flag HPHY.RETRAIN_DUE n = true ∧ (t.phy n).dueAt = m.now + 1 ∧ (t.phy n).overdue = false ∧
        OnlyFields { m with ht := t.ht } t [HPHY.RETRAIN_DUE.key n])) ∧
    (m.stackUp n = true → due → m.flag HPHY.RETRAIN_DUE n = true →
      Completes (.retrainRoundDue n1) s (m.modPhy n fun x => { x with roundAt := m.now, roundTemp := t8 })) ∧
    ((m.stackUp n = false ∨ ¬due) → Completes (.retrainRoundDue n1) s m) ∧
    (late → CompletesWith (.retrainOverdue n1) s (fun t =>
      (t.get (evField .hphy) n).testBit HPHY.EV_RETRAIN_OVERDUE = true ∧ (t.phy n).overdue = true)) ∧
    (¬late → Completes (.retrainOverdue n1) s m) ∧
    (lanesOk ls = true →
      (m.flag HPHY.RETRAIN_DUE n = false → Completes (.retrainUnit n1 ls) s m) ∧
      (low = [] → Completes (.repairUnit n1 ls) s m) ∧
      (m.stackUp n = true → m.flag HPHY.RETRAIN_DUE n = true →
        (m.flag HPHY.STAT_UNIT n = false → mayBegin → low = [] → Completes (.retrainUnit n1 ls) s
          (if pc = 0 then (m.unitBegin n 0).modPhy n fun x => { x with roundAt := m.now, roundTemp := t8 } else m.unitBegin n pc)) ∧
        (m.flag HPHY.STAT_UNIT n = false → ¬mayBegin → Completes (.retrainUnit n1 ls) s m) ∧
        (m.flag HPHY.STAT_UNIT n = true → low = [] →
          let fails (x : LaneIn) : Prop := eyesAt x.key.toNat x.res.toNat (m.get HPHY.FLOOR_EYE n) = false
          let mine (x : LaneIn) : Prop := laneKind x.key.toNat = 0 ∧ laneIdx x.key.toNat = pc ∧
            (isSpare x.key.toNat = false ∨ ∃ l ∈ p.lanes, bits l.2 40 2 = 2 ∧ laneSpare l.1 = x.key.toNat)
          ((∃ x ∈ ls, laneKind x.key.toNat = 1 ∧ fails x) → CompletesWith (.retrainUnit n1 ls) s (fun t =>
            t.flag HT.STAT_FAILED n = true ∧ t.flag HPHY.STAT_UNIT n = false)) ∧
          ((∀ x ∈ ls, laneKind x.key.toNat = 1 → ¬fails x) → CompletesWith (.retrainUnit n1 ls) s (fun t =>
            t.flag HPHY.STAT_UNIT n = false ∧ (t.pcSt n pc).hold = false ∧
              ((∃ x ∈ ls, mine x ∧ fails x) → t.get HPHY.RETRAIN_POS n = pc ∧ t.flag HPHY.RETRAIN_DUE n = true ∧
                ∀ x ∈ ls, mine x → (x.key.toNat ∈ (t.phy n).repair.get pc ↔ ∃ y ∈ ls, y.key = x.key ∧ mine y ∧ fails y)) ∧
              ((∀ x ∈ ls, mine x → ¬fails x) →
                (pc = 31 → t.get HPHY.RETRAIN_POS n = 0 ∧ t.flag HPHY.RETRAIN_DUE n = false ∧ (t.phy n).dueAt = 0) ∧
                (pc ≠ 31 → t.get HPHY.RETRAIN_POS n = (pc + 1) % 2 ^ 5 ∧ t.flag HPHY.RETRAIN_DUE n = true)))))) ∧
      (m.stackUp n = true → low ≠ [] →
        (m.flag HPHY.STAT_UNIT n = false → mayBegin → Completes (.repairUnit n1 ls) s (m.unitBegin n pc)) ∧
        (∀ k, m.flag HPHY.STAT_UNIT n = true → low = [k] → (∃ l ∈ p.lanes, bits l.2 40 2 = 2 ∧ laneSpare l.1 = laneSpare k) →
          CompletesWith (.repairUnit n1 ls) s (fun t => t.flag HT.STAT_FAILED n = true ∧ (t.phy n).repair.get pc = [])) ∧
        (∀ k, m.flag HPHY.STAT_UNIT n = true → low = [k] → ls = [] →
          (∀ l ∈ p.lanes, bits l.2 40 2 = 2 → laneSpare l.1 ≠ laneSpare k) → CompletesWith (.repairUnit n1 ls) s (fun t =>
            t.flag HPHY.STAT_UNIT n = false ∧ (t.get (evField .hphy) n).testBit HPHY.EV_REPAIR = true ∧
              t.get HPHY.CNT_REPAIR n = countUp (m.get HPHY.CNT_REPAIR n) 1 % 2 ^ 64 ∧ (t.phy n).repair.get pc = [] ∧
              (t.phy n).lanes.get k = laneRes (p.lanes.get k) 2 (laneNo (laneSpare k))))))) ∧
 (∀ (s : State) (a : BitVec 3) (n1 : BitVec 1) (mode : BitVec 2) (dur : BitVec 16) (errs : List (BitVec 13 × BitVec 32)) (out : Word),
    let n := n1.toNat
    s.m.cfgOpen .hphy n →
    let m := s.m.seen a.toNat
    let set := ((m.put HPHY.TEST_MODE n mode.toNat).put HPHY.TEST_DURATION n dur.toNat).put HPHY.TEST_GO n 1
    (errLanesOk errs = true → mode ≠ 3 → dur ≠ 0 →
      (m.stackIn n = true → Completes (.loopbackTest a n1 mode dur errs) s (set.put HPHY.TEST_STAT n 1)) ∧
      (m.stackIn n = false → mode = 0 → Completes (.loopbackTest a n1 mode dur errs) s (set.put HPHY.TEST_STAT n 0)) ∧
      (m.stackIn n = false → mode ≠ 0 → Completes (.loopbackTest a n1 mode dur errs) s ((set.put HPHY.TEST_STAT n 0).modPhy n fun p =>
        { p with errsFrom := 0, errs := errs.foldl (fun t e => t.set e.1.toNat e.2.toNat) [] }))) ∧
    (m.stackIn n = true → m.flag HPHY.T1500_WRITE n = true → Completes (.t1500Go a n1 out) s (m.put HPHY.T1500_STAT n 1)) ∧
    ((m.stackIn n = false ∨ m.flag HPHY.T1500_WRITE n = false) →
      Completes (.t1500Go a n1 out) s ((m.put HPHY.T1500_DATA n out.toNat).put HPHY.T1500_STAT n 0)))

/-- Flits: an uncorrectable codeword on a locked link asks for a replay, and a good one's flits wait to be taken; a flit with a bad CRC or
out of sequence asks for a replay, an idle one ends with its header, and the next in sequence is counted, its payload taken and
a NULL flit sent with its ACK (at once, and the NAK in a NULL flit: the model's choice, log entry 73); a NAK and an unanswered flit are
repeated after 2 µs; a partly filled flit is ended with PAD (R319, R322 to R324). -/
def Obligations.LinkFlits : Prop :=
  ∀ (s : State) (c5 : BitVec 5) (vc3 : BitVec 3) (ok : Bool) (hdr : BitVec 20) (f0 f1 f2 f3 f4 : BitVec 1024)
    (syms : List (BitVec 10)),
    let c := c5.toNat
    let m := s.m
    let z := m.zs c
    let st := m.get ZML.LINK_STATE c
    let cw := Instr.codewordReceive c5 ok hdr f0 f1 f2 f3 f4 syms
    (st ≠ 3 → st ≠ 4 → st ≠ 5 → Completes cw s m) ∧
    (st = 4 ∨ st = 5 → ok = false → z.locked = true → z.badRun < 7 →
      Completes cw s (((m.count ZML.CNT_FEC_UNCORR c).modZml c fun x => { x with badRun := x.badRun + 1 }).nak c)) ∧
    (st = 3 ∨ st = 4 ∨ st = 5 → ok = false → z.locked = false →
      Completes cw s ((m.count ZML.CNT_FEC_UNCORR c).modZml c fun x => { x with badRun := x.badRun + 1, cwRun := 0 })) ∧
    (st = 3 ∨ st = 4 ∨ st = 5 → ok = true → CompletesWith cw s (fun t =>
      (t.zs c).badRun = 0 ∧ (t.zs c).rxq = (if z.locked then z.rxq ++ [f0.toNat, f1.toNat, f2.toNat, f3.toNat, f4.toNat] else z.rxq) ∧
        t.get ZML.CNT_FEC_SYM c = countUp (m.get ZML.CNT_FEC_SYM c) syms.length % 2 ^ 64 ∧ (z.locked = true → (t.zs c).locked = true))) ∧
    (z.rxq = [] → Completes (.flitReceive c5) s m) ∧
    (∀ f rest, z.rxq = f :: rest →
      let m0 := m.modZml c fun x => { x with rxq := rest }
      let good := crc64 120 (f % 2 ^ 960) = f / 2 ^ 960
      let seq := f / 2 ^ 4 % 2 ^ 12
      let m1 := m0.takeHeader c (f % 2 ^ 64)
      let m2 := if f.testBit 29 then m1.replay c else m1
      (¬good → Completes (.flitReceive c5) s ((m0.count ZML.CNT_CRC_ERR c).nak c)) ∧
      (good → m2.get ZML.LINK_STATE c ≠ st → Completes (.flitReceive c5) s m2) ∧
      (good → m2.get ZML.LINK_STATE c = st →
        (f % 8 = 7 → Completes (.flitReceive c5) s m2) ∧
        (f % 8 ≠ 7 → seq ≠ (m2.zs c).rxSeq → Completes (.flitReceive c5) s (m2.nak c)) ∧
        (f % 8 ≠ 7 → seq = (m2.zs c).rxSeq →
          let m4 := ((m2.modZml c fun x => { x with
            rxSeq := (x.rxSeq + 1) % 4096, nakAt := none, freed := x.freed.upd (f % 8) (· + 1) }).count ZML.CNT_FLITS_RX c).takePayload c
              (f % 8) (f / 2 ^ 64 % 2 ^ 896) (f / 2 ^ 42 % 2 ^ 7)
          Completes (.flitReceive c5) s (if m4.get ZML.LINK_STATE c = st then m4.sendNull c else m4)))) ∧
    (∀ at_, z.nakAt = some at_ →
      (at_ + 38400 ≤ m.now → Completes (.nakRepeat c5) s
        (((m.modZml c fun x => { x with nakAt := some m.now, nakDue := true }).count ZML.CNT_NAK_TX c).sendNull c)) ∧
      (m.now < at_ + 38400 → Completes (.nakRepeat c5) s m)) ∧
    (z.nakAt = none → Completes (.nakRepeat c5) s m) ∧
    (z.held ≠ [] → z.ackAt + 38400 ≤ m.now → st = 4 ∨ st = 5 → Completes (.replayTimeout c5) s (m.replay c)) ∧
    ((z.held = [] ∨ m.now < z.ackAt + 38400) → Completes (.replayTimeout c5) s m) ∧
    (3 ≤ st → st ≤ 5 → 0 < (z.tx.get vc3.toNat).len → (z.tx.get vc3.toNat).len < 112 → 0 < z.credit.get vc3.toNat → z.held.length < 1024 →
      Completes (.padFlitTimeout c5 vc3) s (m.emitFlit c vc3.toNat (z.tx.get vc3.toNat).len)) ∧
    (((z.tx.get vc3.toNat).len = 0 ∨ 112 ≤ (z.tx.get vc3.toNat).len) → Completes (.padFlitTimeout c5 vc3) s m)

/-- A hub's answers: one without an outstanding command, or with a status or data that the command cannot have, is a protocol error; a
program answered DONE brings its durability, one answered ABORTED is restarted, one answered REFUSED waits for the next RELEASE and is
counted, one answered FAILED is tried again or lost; a RELEASE sends the refused ones again; a read line, the INDEX-th of its command, is classified and
delivered; STATUS gives the hub's temperature; a HOLD
that lasts 1 ms resets the hub (R328, R329, R335, R344, R348). -/
def Obligations.HubAnswers : Prop :=
  ∀ (s : State) (c5 : BitVec 5) (v : Nat) (m0 : Mach) (o : Outst),
    let c := c5.toNat
    let ctag := v / 2 ^ 4 % 2 ^ 12
    let st := v / 2 ^ 16 % 2 ^ 4
    let found := (m0.zs c).outs.find? fun x => x.ctag = ctag
    let done := m0.answered c ctag
    let line := BitVec.ofNat 2048 (v / 2 ^ 64)
    let tag := v / 2 ^ 2112 % 2 ^ 64
    (s.m.takeMsg c 3 = none → Completes (.hubRsp c5) s s.m) ∧
    (s.m.takeMsg c 3 = some (v, m0) →
      let q := o.req
      let stats := q.md.op = opCanaryRead ∧ q.md.gen = 1
      let sane := q.md.op = v % 16 ∧ (readsData q.md.op = false ∨ stats) ∧ statusOk o st = true
      (found = none → Completes (.hubRsp c5) s (m0.protocol c)) ∧
      (found = some o → ¬sane → Completes (.hubRsp c5) s (m0.protocol c)) ∧
      (found = some o → sane → o.drop = true → Completes (.hubRsp c5) s done) ∧
      (found = some o → sane → o.drop = false →
        (st = 1 → Completes (.hubRsp c5) s (done.programAborted c o)) ∧
        (st = 2 → CompletesWith (.hubRsp c5) s (fun t => (t.zs c).refused = (done.zs c).refused ++ [q] ∧
          t.get ZML.CNT_REFUSED c = countUp (done.get ZML.CNT_REFUSED c) 1 % 2 ^ 64)) ∧
        (q.md.op = opFormat → st ≠ 1 → st ≠ 2 → Completes (.hubRsp c5) s (done.formatBack c q.md.seg (st = 0))) ∧
        (q.md.op ≠ opFormat → st = 3 → Completes (.hubRsp c5) s (done.programFailed c q)) ∧
        (st = 0 →
          (stats → Completes (.hubRsp c5) s (done.canaryStat c q.md.pos (sx 8 (v / 2 ^ 32 % 2 ^ 8)))) ∧
          (q.md.op = opRelease → Completes (.hubRsp c5) s (if done.get ZML.LINK_STATE c = 4 then done.refusedGo c else done)) ∧
          (q.md.op = opWriteLine → o.abortBy = none → Completes (.hubRsp c5) s ((done.count ZML.CNT_LINES_WR c).programAck c q)) ∧
          (q.md.op = opWriteLine → o.abortBy ≠ none →
            Completes (.hubRsp c5) s (((done.count ZML.CNT_LINES_WR c).count ZML.CNT_ABORT_LATE c).programAck c q)) ∧
          (q.md.op = opSealWrite → o.abortBy = none → Completes (.hubRsp c5) s (done.programAck c q)) ∧
          (q.md.op ∉ [opFormat, opRelease, opWriteLine, opSealWrite] → ¬stats → Completes (.hubRsp c5) s done)))) ∧
    (s.m.takeMsg c 2 = none → Completes (.rdataReceive c5) s s.m) ∧
    (s.m.takeMsg c 2 = some (v, m0) →
      let q := o.req
      let sane := q.md.op = v % 16 ∧ readsData q.md.op = true ∧ (st = 0 ∨ st = 3 ∨ st = 4)
      let counted := m0.count ZML.CNT_LINES_RD c
      let m1 := if o.left ≤ 1 then (counted.answered c ctag).readEnded c q.id
        else counted.modZml c fun z => { z with outs := z.outs.map fun x => if x.ctag = ctag then { x with left := x.left - 1 } else x }
      let m2 := if st = 4 then m1.protocol c else m1
      let tables := q.md.op = opHubInfo ∨ q.md.op = opDriftTable
      let i := if q.md.op = opReadLines then v / 2 ^ 20 % 2 ^ 6 else 0
      let q1 : LineReq := { q with md := { q.md with pos := q.md.pos + i, slot := q.md.slot + i, nlines := 1 } }
      let f := m2.flipRead q1 line tag
      (found = none → Completes (.rdataReceive c5) s (m0.protocol c)) ∧
      (found = some o → ¬sane → Completes (.rdataReceive c5) s (m0.protocol c)) ∧
      (found = some o → sane → tables →
        Completes (.rdataReceive c5) s (m2.readBack c q (if st = 0 then 0 else 3) line tag)) ∧
      (found = some o → sane → ¬tables → Completes (.rdataReceive c5) s
        (f.2.2.readBack c q1 (if st = 0 then mediaClass c q1.md f.1 f.2.1 else 3) f.1 f.2.1))) ∧
    (s.m.takeMsg c 4 = none → Completes (.status c5) s s.m) ∧
    (s.m.takeMsg c 4 = some (v, m0) → v % 16 = 14 → CompletesWith (.status c5) s (fun t =>
      t = ((m0.put ZML.HUB_TEMP c (v / 2 ^ 24 % 2 ^ 8)).setFlag ZML.HUB_TEMP_HOLD c (v.testBit 16)).hubHold c (v.testBit 16))) ∧
    (∀ at_, (s.m.zs c).holdEvAt = some at_ →
      (s.m.get ZML.LINK_STATE c = 4 → s.m.flag ZML.STAT_HUB_HOLD c = true → at_ + 19200000 ≤ s.m.now →
        Completes (.hubHoldTimeout c5) s (s.m.toReset c)) ∧
      ((s.m.flag ZML.STAT_HUB_HOLD c = false ∨ s.m.now < at_ + 19200000) → Completes (.hubHoldTimeout c5) s s.m)) ∧
    ((s.m.zs c).holdEvAt = none → Completes (.hubHoldTimeout c5) s s.m)

/-- Sideband and link states: a good half-frame with READY of a present hub takes a link from DETECT to TRAIN, and the sixteenth bad one in
a row loses it; a link leaves OFF only when its channel is enabled and powered, and goes OFF when it is not; heartbeat and time mark go
out while the link is up (R334, R338, R339, R341). -/
def Obligations.SidebandAndLinkStates : Prop :=
  ∀ (s : State) (c5 : BitVec 5) (half : BitVec 30),
    let c := c5.toNat
    let m := s.m
    let st := m.get ZML.LINK_STATE c
    let sync := popCount half.toNat 30 % 2 = 0 ∧ half.toNat % 16 = 6
    let may := m.released = true ∧ m.flag CLOCK.STAT_PLL_LOCK = true ∧ m.mediaPowered c = true ∧ m.flag ZML.CTL_ENABLE c = true ∧
      m.mode ≠ mSafehold ∧ (m.asleep = false ∨ m.get POWER.STAT_PHASE = 3)
    let off := m.flag ZML.CTL_ENABLE c = false ∨ m.mediaPowered c = false ∨ m.mode = mSafehold
    (st = 0 → Completes (.sidebandFrame c5 half) s m) ∧
    (st = 1 → sync → half.toNat.testBit 4 = true → m.flag ZML.STAT_PRESENT c = true → CompletesWith (.sidebandFrame c5 half) s (fun t =>
      t.get ZML.LINK_STATE c = 3 ∧ (t.zs c).width = (m.zs c).width ∧ (t.zs c).fails = 0 ∧ t.get ZML.LINK_ATTEMPTS c = 0)) ∧
    (st = 4 → ¬sync → 15 ≤ (m.zs c).sbBad → CompletesWith (.sidebandFrame c5 half) s (fun t =>
      t.get ZML.LINK_STATE c = 6 ∧ t.get ZML.LINK_LOST_REASON c = 1 ∧ t.get ZML.CAPABILITY c = 0 ∧ t.flag ZML.STAT_HUB_READY c = false ∧
        (t.get (evField .zml) c).testBit ZML.EV_LOST = true)) ∧
    (st ≠ 0 → popCount half.toNat 30 % 2 = 1 → (m.zs c).sbBad < 15 → CompletesWith (.sidebandFrame c5 half) s (fun t =>
      t.get ZML.CNT_SB_ERR c = countUp (m.get ZML.CNT_SB_ERR c) 1 % 2 ^ 64 ∧ (t.zs c).sbBad = (m.zs c).sbBad + 1 ∧ (t.zs c).sbGood = 0 ∧
        t.get ZML.LINK_STATE c = st)) ∧
    (st = 0 ∨ st = 6 → Completes (.heartbeatToggle c5) s m) ∧
    (st ≠ 0 → st ≠ 6 → Completes (.heartbeatToggle c5) s (m.modZml c fun z => { z with hb := !z.hb })) ∧
    (m.linkServes c = true → (m.zs c).markAt ≠ m.get MAP.AGE_NOW → Completes (.timeMarkSend c5) s
      ((m.sendCmd c opTimeMark 0 0 0 .timeMark).modZml c fun z => { z with markAt := m.get MAP.AGE_NOW })) ∧
    ((m.linkServes c = false ∨ (m.zs c).markAt = m.get MAP.AGE_NOW) → Completes (.timeMarkSend c5) s m) ∧
    (st = 0 → may → CompletesWith (.linkDetect c5) s (fun t =>
      t.get ZML.LINK_STATE c = 1 ∧ t.get ZML.CAPABILITY c = 0 ∧ (t.zs c).sbGood = 0 ∧ (t.zs c).sbBad = 0 ∧ (t.zs c).stateAt = m.now)) ∧
    (st ≠ 0 → Completes (.linkDetect c5) s m) ∧
    (off → st ≠ 0 → CompletesWith (.linkOff c5) s (fun t =>
      t.get ZML.LINK_STATE c = 0 ∧ t.flag ZML.STAT_PRESENT c = false ∧
        (t.zs c).outs = (m.zs c).outs.map (fun o => { o with endAt := 0 }) ∧ (t.zs c).held = [])) ∧
    (¬off → Completes (.linkOff c5) s m)

/-- Training and what brings a link down: an attempt counts and loads its trim set; a failed step falls back, a hub that breaks the
contract loses the channel, an attempt that passes brings it up; a lane fault narrows the link, the third interval of 1 ms in a row with
too many errors being one; commands without a response, quiescence
and READY are timed (R341, R342, R346).
The commands of a channel: RETRAIN and WIDEN quiesce an ACTIVE link, WIDEN answering ALREADY_DONE at full width and the highest allowed
rate, and both are refused elsewhere; RESET_HUB resets at once or after quiescence, and is refused while the link is OFF. A command written while
CMD_STAT reads BUSY is ignored, and one that finds a trim application under way waits for its end (R341, R342, R348, R358; that RESET_HUB waits
too is the model's choice, log entry 73). -/
def Obligations.LinkLossAndChannelCommands : Prop :=
 (∀ (s : State) (c5 : BitVec 5) (step : BitVec 3) (faults : BitVec 8) (p1 p2 status : Word) (i0 i1 d0 d1 : Line) (cdr : Bool),
    let c := c5.toNat
    let m := s.m
    let z := m.zs c
    let st := m.get ZML.LINK_STATE c
    let train := Instr.linkTraining c5 step faults p1 p2 status i0 i1 d0 d1
    let begun := m.put ZML.LINK_ATTEMPTS c (satU 8 (m.get ZML.LINK_ATTEMPTS c + 1))
    let short := m.trimKnown = true ∧ m.trimHas c 0 = false
    let tried := ((if short then begun.event .zml c ZML.EV_TRIM_MISSING else begun).count ZML.CNT_TRAIN c).loadTrim c z.rate
    let sent := tried.trainSend c ⟨p1.toNat, p2.toNat, status.toNat, i0, i1, d0, d1⟩
    let lost := ((sent.takeInfo c i0).event .zml c ZML.EV_NONCONFORM).lose c 4
    let after (x : Mach) : Mach := x.trimDecide.trimSearch.ladderResume
    let kept (t : Mach) : Prop := (t.zs c).outs = z.outs.map fun o => { o with endAt := 0 }
    let old := ∃ o ∈ z.outs, o.sentAt + 19200 * m.get ZML.TIMEOUT c ≤ m.now
    let late := z.stateAt + 192000000 ≤ m.now
    (st ≠ 3 → Completes train s (after m)) ∧
    (st = 3 → m.trimHas c z.rate = true → m.get GLOBAL.STAT_BOOT_STEP ≠ 6 →
      (step ≠ 0 → Completes train s (after (tried.trainFail c (step = 2 ∨ step = 5) faults.toNat))) ∧
      (step = 0 → infoBad i0 = true → Completes train s (after lost) ∧ lost.get ZML.LINK_STATE c = 6 ∧
        lost.get ZML.LINK_LOST_REASON c = 4 ∧ (lost.get (evField .zml) c).testBit ZML.EV_NONCONFORM = true) ∧
      (step = 0 → infoBad i0 = false →
        Completes train s (after (sent.linkUp c ⟨p1.toNat, p2.toNat, status.toNat, i0, i1, d0, d1⟩ faults.toNat)))) ∧
    (st ≠ 4 → Completes (.laneFault c5 faults cdr) s m ∧ Completes (.commandTimeout c5) s m) ∧
    (st = 4 → z.width < 2 → CompletesWith (.laneFault c5 faults cdr) s (fun t =>
      t.get ZML.LINK_STATE c = 3 ∧ t.get ZML.LINK_WIDTH c = z.width + 1 ∧ t.get ZML.LINK_RATE c = m.nextRate c % 4 ∧
        (t.zs c).unplanned = true ∧ kept t ∧ (t.get (evField .zml) c).testBit ZML.EV_DEGRADE = true ∧
        t.get ZML.CNT_LINK_DOWN c = if cdr then countUp (m.get ZML.CNT_LINK_DOWN c) 1 % 2 ^ 64 else m.get ZML.CNT_LINK_DOWN c)) ∧
    (z.locked = false → Completes (.laneErrInterval c5) s m) ∧
    (let rx (l : Nat) : Bool := bitAt (m.get ZML.LINK_RX_LANES c) l
     let over_ (l : Nat) : Bool := rx l && decide (m.get ZML.LANE_ERR_MAX c < z.preErr.get l)
     z.locked = true → CompletesWith (.laneErrInterval c5) s (fun t =>
      (t.zs c).preErr = [] ∧ (∀ l < 4, rx l = true → (t.trim.eyes.get (4 * c + l)).errs = z.preErr.get l) ∧
        (st ≠ 4 → t = { m with zml := t.zml, trim := t.trim }) ∧
        (st = 4 → (∀ l < 4, over_ l = true → z.laneRuns.get l < 2) → t = { m with zml := t.zml, trim := t.trim } ∧
          ∀ l < 4, (t.zs c).laneRuns.get l = if over_ l then z.laneRuns.get l + 1 else 0) ∧
        (st = 4 → (∃ l < 4, over_ l = true ∧ 2 ≤ z.laneRuns.get l) → t.get ZML.LINK_STATE c = 3 ∧
          (t.get (evField .zml) c).testBit ZML.EV_DEGRADE = true))) ∧
    (st = 4 → old → Completes (.commandTimeout c5) s (((m.event .zml c ZML.EV_TIMEOUT).count ZML.CNT_TIMEOUT c).linkDown c)) ∧
    (st = 4 → ¬old → Completes (.commandTimeout c5) s m) ∧
    (st ≠ 5 → Completes (.quiesceDone c5) s m ∧ Completes (.quiesceTimeout c5) s m) ∧
    (st = 5 → z.outs = [] →
      (z.holdSent = true → Completes (.quiesceDone c5) s (m.quiesced c false)) ∧
      (z.holdSent = false →
        Completes (.quiesceDone c5) s ((m.sendCmd c opHold 0 0 0 .hold).modZml c fun x => { x with holdSent := true }))) ∧
    (st = 5 → z.outs ≠ [] → Completes (.quiesceDone c5) s m) ∧
    (st = 5 → z.stateAt + 1920000 ≤ m.now → Completes (.quiesceTimeout c5) s (m.quiesced c true)) ∧
    (st = 1 → m.flag ZML.STAT_PRESENT c = true → m.flag ZML.STAT_HUB_READY c = false → late → CompletesWith (.hubReadyTimeout c5) s (fun t =>
      t.get ZML.LINK_STATE c = 2 ∧ (t.zs c).rst = 0 ∧ kept t)) ∧
    (st = 2 → late → 4 ≤ z.rst → Completes (.hubReadyTimeout c5) s (m.lose c 2).trimDecide.trimSearch ∧
      (m.lose c 2).get ZML.LINK_STATE c = 6 ∧ (m.lose c 2).get ZML.LINK_LOST_REASON c = 2) ∧
    (¬late → Completes (.hubReadyTimeout c5) s m)) ∧
 (∀ (s : State) (a : BitVec 3) (c5 : BitVec 5), s.m.cfgOpen .zml c5.toNat →
    let c := c5.toNat
    let m := s.m.seen a.toNat
    let st := m.get ZML.LINK_STATE c
    let wide := (m.zs c).width = 0 ∧ m.get ZML.LINK_RATE c = m.get ZML.CTL_RATE_CAP c
    let quiesces (t : Mach) (reset : Bool) : Prop :=
      t.get ZML.LINK_STATE c = 5 ∧ t.get ZML.CMD_STAT c = 0 ∧ t.get ZML.CAPABILITY c = 0 ∧ (t.zs c).resetGiven = reset ∧
        (t.zs c).outs = (m.zs c).outs
    (m.get ZML.CMD_STAT c = 3 → ∀ x ∈ [Instr.zmlRetrain a c5, .zmlWiden a c5, .resetHub a c5], Completes x s (m.reject .zml c)) ∧
    (m.get ZML.CMD_STAT c ≠ 3 → st = 4 → m.applying c = true → Completes (.zmlRetrain a c5) s (m.afterApply c 1) ∧
      Completes (.zmlWiden a c5) s (m.afterApply c 2) ∧ Completes (.resetHub a c5) s (m.afterApply c 3)) ∧
    (m.get ZML.CMD_STAT c ≠ 3 → m.applying c = false →
    (st ≠ 4 → Completes (.zmlRetrain a c5) s (m.put ZML.CMD_STAT c 2) ∧ Completes (.zmlWiden a c5) s (m.put ZML.CMD_STAT c 2)) ∧
    (st = 4 → CompletesWith (.zmlRetrain a c5) s (fun t => quiesces t false ∧ (t.zs c).width = (m.zs c).width)) ∧
    (st = 4 → wide → Completes (.zmlWiden a c5) s (m.put ZML.CMD_STAT c 1)) ∧
    (st = 4 → ¬wide → CompletesWith (.zmlWiden a c5) s (fun t => quiesces t false ∧ (t.zs c).width = 0 ∧ (t.zs c).faulty = 0)) ∧
    (st = 0 → Completes (.resetHub a c5) s (m.put ZML.CMD_STAT c 2)) ∧
    (st = 2 → Completes (.resetHub a c5) s (m.put ZML.CMD_STAT c 1)) ∧
    (st = 4 → CompletesWith (.resetHub a c5) s (fun t => quiesces t true)) ∧
    (st = 5 → Completes (.resetHub a c5) s ((m.modZml c fun z => { z with resetGiven := true }).put ZML.CMD_STAT c 0)) ∧
    (st = 1 ∨ st = 3 ∨ st = 6 → CompletesWith (.resetHub a c5) s (fun t =>
      t.get ZML.LINK_STATE c = 2 ∧ t.get ZML.CMD_STAT c = 0 ∧
        (t.zs c).outs = (m.zs c).outs.map fun o => { o with endAt := 0 }))))

/-- Trim sets and eyes: a sample is the temperature of its quad's four channels; an ACTIVE channel is due when asked for or when its quad
has moved by 4 °C; the lowest due channel that can begins its application in the window, one that is under way ends 2.4 µs later; a scan
records the smallest figures of its lane's eyes, at most once in EYE_CTL.PERIOD, and an unlocked link has none (R354 to R357, R359). -/
def Obligations.TrimAndEyes : Prop :=
  ∀ (s : State) (a : BitVec 3) (c5 : BitVec 5) (quad : BitVec 3) (temp : BitVec 8) (lane : BitVec 2) (ws hs : List (List (BitVec 17))),
    let c := c5.toNat
    let m := s.m
    let scan := Instr.eyeScan c5 lane ws hs
    let key := 4 * c + lane.toNat
    let inside (l : List (BitVec 17)) : Nat := min 255 (l.filter fun x => x.toNat ≤ m.get ZML.EYE_MISMATCH).length
    let eyes (l : List (List (BitVec 17))) : List Nat := (l.take (if m.get ZML.LINK_RATE c = 2 then 1 else 3)).map inside
    let scanned := m.trim.scanAt.get key = 0 ∨ m.trim.scanAt.get key + 19200000 * m.get ZML.EYE_PERIOD ≤ m.now + 1
    let due (k : Nat) : Prop := m.flag ZML.TRIM_DUE k = true ∧ m.applyCan k = true
    (m.running = false → Completes (.trimTempSample quad temp) s m ∧ Completes (.trimApplication c5) s m ∧ Completes scan s m) ∧
    (m.running = true → CompletesWith (.trimTempSample quad temp) s (fun t => ∀ k < 4,
      t.get ZML.TRIM_TEMP_T (4 * quad.toNat + k) = temp.toNat ∧
        (m.get ZML.LINK_STATE (4 * quad.toNat + k) = 4 →
          4 ≤ (sx 8 temp.toNat - m.trimApplied (4 * quad.toNat + k)).natAbs → t.flag ZML.TRIM_DUE (4 * quad.toNat + k) = true))) ∧
    (m.cfgOpen .zml c →
      (m.get ZML.LINK_STATE c = 4 → CompletesWith (.trimApplyCmd a c5) s (fun t =>
        t.flag ZML.TRIM_DUE c = true ∧ t.trim.asked.get c = true)) ∧
      (m.get ZML.LINK_STATE c ≠ 4 → CompletesWith (.trimApplyCmd a c5) s (fun t =>
        t.flag ZML.TRIM_DUE c = m.flag ZML.TRIM_DUE c ∧ t.trim.asked.get c = true))) ∧
    (m.running = true → m.applying c = true →
      (m.trim.apps.get c + 46080 ≤ m.now + 1 → Completes (.trimApplication c5) s ((m.trimApply c).applyDone c)) ∧
      (m.now + 1 < m.trim.apps.get c + 46080 → Completes (.trimApplication c5) s m)) ∧
    (m.running = true → m.applying c = false →
      (due c → (m.get ALM.WIN_MASK).testBit 3 = true → (∀ k < c, ¬due k) → Completes (.trimApplication c5) s (m.trimBegin c)) ∧
      ((¬due c ∨ (m.get ALM.WIN_MASK).testBit 3 = false ∨ ∃ k < c, due k) →
        (m.trim.owed.get c = true → Completes (.trimApplication c5) s (m.floorApply c)) ∧
        (m.trim.owed.get c = false → Completes (.trimApplication c5) s m))) ∧
    ((m.get ZML.LINK_RX_LANES c).testBit lane.toNat = false ∨ (m.zs c).locked = false ∨ ¬scanned → Completes scan s m) ∧
    (m.running = true → (m.get ZML.LINK_RX_LANES c).testBit lane.toNat = true → (m.zs c).locked = true → scanned →
      ∀ w h, (eyes ws).min? = some w → (eyes hs).min? = some h → CompletesWith scan s (fun t =>
        let e := t.trim.eyes.get key
        let low := w < m.get ZML.FLOOR_WIDTH c ∨ h < m.get ZML.FLOOR_HEIGHT c
        e.width = w ∧ e.height = h ∧ (eyes hs)[e.worst]? = some h ∧ e.errs = (m.trim.eyes.get key).errs ∧
          (¬low → e.below = 0) ∧ (low → e.below = (m.trim.eyes.get key).below + 1) ∧ t.trim.scanAt.get key = m.now + 1))

/-- A decision of a stack's arbiter, or of a channel's in one direction: the slot granted before begins, the decision is made among the
eligible heads on the state before it, and the pointer moves on: by one at a stack, by the flits of the interval at a channel; a read granted at a channel aborts the programs
that stand in its way (R397). A
withdrawal without a mark and a restart whose hold has not ended change nothing (R391, R394, R395, R398). -/
def Obligations.ArbiterDecisions : Prop :=
  ∀ (s : State) (n1 : BitVec 1) (c5 : BitVec 5) (adv : BitVec 7) (a6 : BitVec 6) (rx : Bool),
    let decided (i : Instr) (m : Mach) (a : Nat) (rx : Bool) (k : Nat) : Prop :=
      let turn := m.sc.decisions.get (2 * a + b2n rx)
      let m0 := ((m.slotBegin a rx).modSc fun x => { x with decisions := x.decisions.set (2 * a + b2n rx) ((turn + 1) % 64) }).headsLease a rx
      let es := (m0.heads (2 * a + b2n rx)).filter (m.eligible a rx)
      (m.decide a rx (turn = 63) es = none → Completes i s (m0.stepPointers a rx k)) ∧
        ∀ row q, m.decide a rx (turn = 63) es = some (row, q) →
          Completes i s ((if rx then (m0.grant a rx row q es).abortFor (a - 2) q else m0.grant a rx row q es).stepPointers a rx k)
    (s.m.running = false → Completes (.rotaHDecision n1) s s.m ∧ Completes (.rotaMRxDecision c5 adv) s s.m) ∧
    (s.m.running = true → decided (.rotaHDecision n1) s.m n1.toNat false 1 ∧
      decided (.rotaMRxDecision c5 adv) s.m (2 + c5.toNat) true adv.toNat) ∧
    (s.m.kilnOffer.running = true → decided (.rotaMTxDecision c5 adv) s.m.kilnOffer (2 + c5.toNat) false adv.toNat) ∧
    (let k := 2 * (a6.toNat % 34) + b2n rx
     (s.m.rota.next.get k = none → Completes (.withdraw a6 rx) s s.m) ∧
     ∀ q, s.m.rota.next.get k = some q →
      (q.id ∉ s.m.rota.withdrawn → Completes (.withdraw a6 rx) s s.m) ∧
      (q.id ∈ s.m.rota.withdrawn → CompletesWith (.withdraw a6 rx) s (fun t =>
        t.rota.next.get k = none ∧ t.rota.dead.get k = true ∧ t.rota.withdrawn = s.m.rota.withdrawn.erase q.id))) ∧
    (let held := (s.m.rota.restarts.get c5.toNat).find? fun q => q.holdEnd.all (· ≤ s.m.now)
     (held = none → Completes (.restartHoldEnd c5) s s.m) ∧
     ∀ q, held = some q → CompletesWith (.restartHoldEnd c5) s (fun t =>
      t.rota.restarts.get c5.toNat = (s.m.rota.restarts.get c5.toNat).filter (fun x => x.id ≠ q.id) ∧
        t.scQueue (2 * (2 + c5.toNat)) q.rq = { q with holdEnd := none } :: s.m.scQueue (2 * (2 + c5.toNat)) q.rq))

/-- Latches: a read takes a free latch and answers 0, and else answers its owner; a release by another agent only sets NOT_HOLDER; a lease
that has run out breaks the latch at the end of its fabric cycle, or for another agent that reads it before; AGENT_RST breaks those of its agent (R409 to R411, R417).
Posts: only the holder's write fills an inbound post, and not while it is FULL; its owner withdraws it; an outbound post is emptied by
its agent's ACK with the right sequence; each is reported once when it stands too long, an inbound one at the end of the fabric cycle, so
that a withdrawal in it comes first (R412, R414, R415). -/
def Obligations.LatchesAndPosts : Prop :=
 (∀ (s : State) (a k : BitVec 3) (v : BitVec 8) (on : Bool),
    let l := s.m.post.latches.get k.toNat
    let out := s.m.outOfReset = true ∧ l.owner ≠ 0 ∧ l.owner ≠ 15 ∧ l.since + 19200 * s.m.get POST.LATCH_LEASE ≤ s.m.now
    (s.m.cfgOpen .post 0 →
      (l.owner ≠ 0 → (l.expiring = false ∨ l.owner = a.toNat + 1) → Completes (.latchRead a k) s { s.m with cfg := some ⟨a.toNat, BitVec.ofNat 64 l.owner, false⟩ }) ∧
      (l.owner = 0 → l.expiring = false → s.m.agentReset a.toNat = false → CompletesWith (.latchRead a k) s (fun t =>
        t.cfg = some ⟨a.toNat, 0, false⟩ ∧ t.post.latches.get k.toNat = ⟨a.toNat + 1, s.m.now, false⟩ ∧ t.regs = s.m.regs)) ∧
      (l.expiring = true → l.owner ≠ a.toNat + 1 → s.m.parishHeld = false → s.m.agentReset a.toNat = false →
        CompletesWith (.latchRead a k) s (fun t => t.cfg = some ⟨a.toNat, 0, false⟩ ∧
          t.post.latches.get k.toNat = ⟨a.toNat + 1, s.m.now, false⟩ ∧ (t.get POST.LATCH_BROKEN).testBit k.toNat = true)) ∧
      (v.toNat = 2 ^ k.toNat → l.owner = a.toNat + 1 → s.m.parishHeld = false → CompletesWith (.latchRel a v) s (fun t =>
        t.post.latches = s.m.post.latches.set k.toNat default ∧ t.regs = s.m.regs)) ∧
      (v.toNat = 2 ^ k.toNat → l.owner ≠ a.toNat + 1 → Completes (.latchRel a v) s
        ((s.m.seen a.toNat).event .post 0 POST.EV_NOT_HOLDER))) ∧
    (out → Completes (.latchLeaseExpire k) s (s.m.modPost fun p =>
      { p with latches := p.latches.set k.toNat { l with expiring := true } })) ∧
    (s.pending = [] → l.expiring = true → s.m.parishHeld = false → ∃ t, step s = .next { s with m := t } ∧
      t.post.latches.get k.toNat = default ∧ (t.get POST.LATCH_BROKEN).testBit k.toNat = true) ∧
    (¬out → Completes (.latchLeaseExpire k) s s.m) ∧
    ((on = false ∨ s.m.outOfReset = false) → Completes (.agentRst a on) s
      (s.m.modPost fun p => { p with agentRst := setBits p.agentRst a.toNat 1 (b2n on) })) ∧
    (on = true → s.m.outOfReset = true → CompletesWith (.agentRst a on) s (fun t =>
      t.post.outs.get a.toNat = default ∧ t.post.pwAddr.get a.toNat = none ∧ t.post.cancelStat.get a.toNat = 0 ∧
        (∀ h ∈ t.order.holds, h.agent ≠ a.toNat) ∧ ∀ j < 8, t.latchOwner j ≠ a.toNat + 1))) ∧
 (∀ (s : State) (a k : BitVec 3) (v : Word) (seq : BitVec 16),
    let n := k.toNat
    let i := s.m.post.ins.get n
    let o := s.m.post.outs.get n
    let waitIn := s.m.outOfReset = true ∧ i.full = true ∧ i.timedOut = false ∧ i.at_ + 19200 * s.m.get POST.TIMEOUT ≤ s.m.now
    let waitOut := s.m.outOfReset = true ∧ o.full = true ∧ o.timedOut = false ∧ o.at_ + 19200 * s.m.get POST.TIMEOUT ≤ s.m.now
    (s.m.cfgOpen .post 0 →
      let m := s.m.seen a.toNat
      let holds := s.m.latchOwner n = a.toNat + 1 ∧ (s.m.post.latches.get n).expiring = false
      (¬holds → Completes (.postNotice a k v) s (m.event .post 0 POST.EV_NOT_HOLDER)) ∧
      (holds → i.full = true → Completes (.postNotice a k v) s (m.event .post 0 POST.EV_PARAM_REJECT)) ∧
      (holds → i.full = false → CompletesWith (.postNotice a k v) s (fun t =>
        (t.inPost n).len = v.toNat % 2 ^ 32 ∧ (t.inPost n).seq = v.toNat / 2 ^ 32 % 2 ^ 16 ∧ (t.inPost n).full = v.toNat.testBit 63 ∧
          (t.inPost n).ptr = i.ptr ∧ (v.toNat.testBit 63 = true → (t.inPost n).owner = a.toNat + 1 ∧ (t.inPost n).at_ = s.m.now) ∧
          t.regs = s.m.regs)) ∧
      (i.owner ≠ a.toNat + 1 → CompletesWith (.withdrawPost a k) s (fun t =>
        t.post.cancelStat.get a.toNat = 2 ∧ t.post.ins = s.m.post.ins)) ∧
      (i.owner = a.toNat + 1 → i.full = true → CompletesWith (.withdrawPost a k) s (fun t =>
        (t.inPost n).full = false ∧ t.post.cancelStat.get a.toNat = 0 ∧
          t.get POST.CNT_WITHDRAW = countUp (s.m.get POST.CNT_WITHDRAW) 1 % 2 ^ 64)) ∧
      (i.owner = a.toNat + 1 → i.full = false → CompletesWith (.withdrawPost a k) s (fun t =>
        t.post.cancelStat.get a.toNat = 1 ∧ t.post.ins = s.m.post.ins ∧ t.regs = s.m.regs)) ∧
      (a = k → o.full = true → o.note.seq = seq.toNat → CompletesWith (.postOutAck a k seq) s (fun t =>
        (t.outPost n).full = false ∧ (t.outPost n).queue = o.queue ∧
          t.get POST.CNT_POSTS_OUT = countUp (s.m.get POST.CNT_POSTS_OUT) 1 % 2 ^ 64)) ∧
      (a ≠ k ∨ o.full = false ∨ o.note.seq ≠ seq.toNat → Completes (.postOutAck a k seq) s (m.event .post 0 POST.EV_NOT_HOLDER))) ∧
    (waitIn → Completes (.postInTimeout k) s (s.m.modIn n fun p => { p with due := true })) ∧
    (s.pending = [] → i.due = true → ∃ t, step s = .next { s with m := t } ∧ (t.inPost n).due = false ∧ (t.inPost n).full = i.full ∧
      (i.full = true → (t.inPost n).timedOut = true ∧ (t.get (evField .post) 0).testBit POST.EV_IN_TIMEOUT = true) ∧
      (i.full = false → (t.inPost n).timedOut = i.timedOut)) ∧
    (¬waitIn → Completes (.postInTimeout k) s s.m) ∧
    (waitOut → CompletesWith (.postOutTimeout k) s (fun t => (t.outPost n).timedOut = true ∧ (t.outPost n).full = true ∧
      (t.get (evField .post) 0).testBit POST.EV_OUT_TIMEOUT = true)) ∧
    (¬waitOut → Completes (.postOutTimeout k) s s.m))

/-- Collier's service: the window reads and writes the Parish in the agent's own area, eight bytes at a time; a service cycle takes the inbound posts, then
the cancels, then places the outbound notices; a cancel is answered from the command's own state, the links of a cancelled capture training anew; a silent Collier is restarted
(R406 to R408, R413, R415, R416, R421). -/
def Obligations.CollierService : Prop :=
  ∀ (s : State) (a : BitVec 3) (v : Word) (seq : BitVec 32) (us : BitVec 16) (c : Cmd),
    let works := s.m.collierUp = true ∧ s.m.takesPosts = true
    let silent := s.m.collier = 2 ∧ s.m.running = true ∧ s.m.post.servedAt + 19200000 * s.m.get COLLIER.WDOG ≤ s.m.now
    (s.m.cfgOpen .post 0 →
      let m := s.m.seen a.toNat
      let x := m.pwAddr a.toNat
      let m1 := m.modPost fun p => { p with pwAddr := p.pwAddr.set a.toNat (some ((x + 8) % 2 ^ 30 / 8 * 8)) }
      let mine := a.toNat * m.areaBytes ≤ x ∧ x + 8 ≤ (a.toNat + 1) * m.areaBytes
      let got := m1.parishGet x 8
      let found := s.m.post.cmds.find? fun y => y.agent = a.toNat && y.sequence = seq.toNat && !y.cancelled
      (mine → Completes (.pwDataRead a) s { got.2 with cfg := some ⟨a.toNat, BitVec.ofNat 64 got.1, false⟩ } ∧
        Completes (.pwDataWrite a v) s (m1.parishPut x 8 v.toNat)) ∧
      (¬mine → Completes (.pwDataRead a) s (m1.event .post 0 POST.EV_PW_RANGE) ∧
        Completes (.pwDataWrite a v) s (m1.event .post 0 POST.EV_PW_RANGE)) ∧
      (s.m.collierUp = false → Completes (.cancel a seq) s (m.modPost fun p =>
        { p with cancelStat := p.cancelStat.set a.toNat 3, cancels := p.cancels ++ [(a.toNat, seq.toNat)] })) ∧
      (s.m.collierUp = true →
        (found = none → Completes (.cancel a seq) s (m.setCancelStat a.toNat 1)) ∧
        (found = some c → m.pastCommit c = true → Completes (.cancel a seq) s (m.setCancelStat a.toNat 1)) ∧
        (found = some c → m.pastCommit c = false → abortable c.op = false → Completes (.cancel a seq) s (m.setCancelStat a.toNat 2)) ∧
        (found = some c → m.pastCommit c = false → (c.op = 10 ∨ (c.op = 11 ∧ c.stage ≠ 2) ∨ (c.op = 13 ∧ c.stage ≠ 1) ∨ (c.op = 17 ∧ m.err.gCmd ≠ some c.id)) →
          Completes (.cancel a seq) s (((m.dropFwProgs c.id).finish c 7 0).setCancelStat a.toNat 0)) ∧
        (found = some c → m.pastCommit c = false → c.op = 13 → c.stage = 1 → Completes (.cancel a seq) s
          ((((m.dropFwProgs c.id).captureOver c.arg).finish c 7 0).setCancelStat a.toNat 0)) ∧
        (found = some c → m.pastCommit c = false → c.op = 11 → c.stage = 2 → Completes (.cancel a seq) s
          ((((m.dropFwProgs c.id).selectorProg c.id (m.get COLLIER.FW_SLOT) false).2.finish c 7 0).setCancelStat a.toNat 0)) ∧
        (found = some c → m.pastCommit c = false → c.op = 17 → m.err.gCmd = some c.id → CompletesWith (.cancel a seq) s (fun t =>
          let ends := m.gleaning = true ∧ (m.gleanOver = false ∨ m.err.gFly ≠ [])
          (ends → t.post.cancelStat.get a.toNat = 0 ∧ t.err.gAbort = true) ∧
            (¬ends → t = m.setCancelStat a.toNat 1))))) ∧
    (¬works → Completes (.serviceCycle us) s s.m) ∧
    (works → s.m.post.ramBad = true → CompletesWith (.serviceCycle us) s (fun t =>
      t.get COLLIER.STAT_STATE = 4 ∧ t.get COLLIER.RESTART_CAUSE = 1 ∧ t.post.ramBad = false ∧ t.post.ins = s.m.post.ins)) ∧
    (works → s.m.post.ramBad = false →
      let m1 := s.m.takeAll
      let m2 := (m1.post.cancels.foldl (fun m c => m.cancelOne c.1 c.2) m1).modPost fun p => { p with cancels := [] }
      let m3 := m2.placeNotices
      CompletesWith (.serviceCycle us) s (fun t => t = { m3 with regs := t.regs, post := { m3.post with servedAt := s.m.now } } ∧
        t.get COLLIER.CNT_SERVICE = countUp (m3.get COLLIER.CNT_SERVICE) 1 % 2 ^ 64 ∧
        t.get COLLIER.SERVICE_MAX = max us.toNat (m3.get COLLIER.SERVICE_MAX) % 2 ^ 16)) ∧
    (silent → CompletesWith .collierWatchdog s (fun t =>
      t.get COLLIER.STAT_STATE = 4 ∧ t.get COLLIER.RESTART_CAUSE = 2 ∧ t.post.cancels = [] ∧ (∀ y ∈ t.post.cmds, y.restart = true) ∧
        (t.get (evField .collier) 0).testBit COLLIER.EV_WATCHDOG = true ∧ (t.get (evField .collier) 0).testBit COLLIER.EV_RESTART = true)) ∧
    (¬silent → Completes .collierWatchdog s s.m)

/-- The blocks that change a namespace: the oldest in turn is refused for the first reason that applies, or goes to its broadcast, and ends DONE after
it; NS_QUERY answers the descriptor; nothing moves while Collier does not work (R174 to R177, R201, R202, R419, R420). -/
def Obligations.NamespaceBlocks : Prop :=
  ∀ (s : State) (c : Cmd),
    let m := s.m
    let first (op : Nat) : Prop := m.blocksRun = true ∧ m.post.ramBad = false ∧ (m.post.cmds.find? fun x =>
      x.op = op && !x.restart && !x.cancelled && (x.stage = 2 || (x.stage = 0 && m.inTurn x && !m.nsBusy))) = some c
    let goes := m.modCmd c.id fun x => { x with stage := 1 }
    let d := m.nsDesc c.ns
    let badLen (prot : Nat) : Prop := c.size = 0 ∨ c.size % unitBytes prot ≠ 0 ∨ 2 ^ 52 ≤ c.p1.toNat
    (m.blocksRun = false → Completes .nsCreate s m ∧ Completes .nsDelete s m ∧ Completes .nsQuery s m ∧ Completes .nsResize s m ∧
      Completes .sessionPurge s m) ∧
    (first 1 →
      (c.stage = 2 → Completes .nsCreate s (m.finish c 2 0)) ∧
      (c.stage = 0 → d.exists_ = true → Completes .nsCreate s (m.finish c 4 2)) ∧
      (c.stage = 0 → d.exists_ = false → c.prot = 3 → Completes .nsCreate s (m.finish c 4 5)) ∧
      (c.stage = 0 → d.exists_ = false → c.prot ≠ 3 → badLen c.prot → Completes .nsCreate s (m.finish c 4 4)) ∧
      (c.stage = 0 → d.exists_ = false → c.prot ≠ 3 → ¬badLen c.prot → m.createFits c = false → Completes .nsCreate s (m.finish c 4 6)) ∧
      (c.stage = 0 → d.exists_ = false → c.prot ≠ 3 → ¬badLen c.prot → m.createFits c = true → Completes .nsCreate s goes)) ∧
    (first 2 →
      (c.stage = 2 → Completes .nsDelete s (m.finish c 2 0)) ∧
      (c.stage = 0 → d.exists_ = false → Completes .nsDelete s (m.finish c 4 3)) ∧
      (c.stage = 0 → d.exists_ = true → Completes .nsDelete s goes)) ∧
    (m.blocksRun = true → m.post.ramBad = false →
      (m.post.cmds.find? fun x => x.op = 3 && !x.restart && !x.cancelled && m.inTurn x) = some c →
        Completes .nsQuery s ((m.results c [m.nsWord c.ns 0, m.nsWord c.ns 1, m.nsWord c.ns 2, m.nsWord c.ns 3]).finish c 2 0)) ∧
    (first 4 →
      (c.stage = 2 → Completes .nsResize s ((((m.ht.dir.filter fun e =>
        e.2.valid && lineNs e.2.line = c.ns && d.size ≤ lineOff e.2.line).map (·.1)).foldl (fun m e => m.dirFreeEnt e) m).finish c 2 0)) ∧
      (c.stage = 0 → d.exists_ = false → Completes .nsResize s (m.finish c 4 3)) ∧
      (c.stage = 0 → d.exists_ = true → badLen d.prot → Completes .nsResize s (m.finish c 4 4)) ∧
      let shrinks := c.size ≤ d.size ∧ c.home = m.nsHome c.ns
      (c.stage = 0 → d.exists_ = true → ¬badLen d.prot → ¬shrinks → m.reserveOk c.ns d.prot (c.size / unitBytes d.prot) c.home = false →
        Completes .nsResize s (m.finish c 4 6)) ∧
      (c.stage = 0 → d.exists_ = true → ¬badLen d.prot →
        (shrinks ∨ m.reserveOk c.ns d.prot (c.size / unitBytes d.prot) c.home = true) → Completes .nsResize s goes)) ∧
    (first 5 →
      let all := bitAt c.p0.toNat 8
      (c.stage = 2 → Completes .sessionPurge s (m.finish c 2 0)) ∧
      (c.stage = 0 → all = false → d.exists_ = false → Completes .sessionPurge s (m.finish c 4 3)) ∧
      (c.stage = 0 → all = false → d.exists_ = true → d.ephemeral = false → Completes .sessionPurge s (m.finish c 4 11)) ∧
      (c.stage = 0 → (all = true ∨ (d.exists_ = true ∧ d.ephemeral = true)) → Completes .sessionPurge s goes))

/-- The blocks that order and query: CHECKPOINT waits for the root of a checkpoint begun after it; RANGE_HOLD is judged, holds, and completes when
the older writes have drained; RANGE_RELEASE ends a hold or is ALREADY_DONE; HEALTH, ERRLOG_READ, HUB_INFO, RETIRE_QUERY and SCRUB_REQUEST
answer or are refused (R114, R116, R196, R254, R258, R333, R422). -/
def Obligations.OrderAndQueryBlocks : Prop :=
  ∀ (s : State) (c : Cmd),
    let m := s.m
    let first (op : Nat) (can : Cmd → Bool) : Prop := m.blocksRun = true ∧ m.post.ramBad = false ∧
      (m.post.cmds.find? fun x => x.op = op && !x.restart && !x.cancelled && can x) = some c
    let g := m.get MAP.CKPT_GEN
    let idle : Bool := m.get MAP.CKPT_STATE = ckIdle
    let ch := c.p0.toNat % 32
    (m.blocksRun = false → Completes .checkpoint s m ∧ Completes .rangeHold s m ∧ Completes .rangeHoldDrainDone s m ∧
      Completes .rangeRelease s m ∧ Completes .health s m ∧ Completes .errlogRead s m ∧ Completes .hubInfo s m ∧
      Completes .retireQuery s m ∧ Completes .scrubRequest s m) ∧
    (first 6 (fun x => x.stage = 0 || x.arg ≤ g || idle) →
      (c.stage = 0 → Completes .checkpoint s (m.ckptStart.modCmd c.id fun x => { x with stage := 1, arg := if idle then g + 1 else g + 2 })) ∧
      (c.stage ≠ 0 → c.arg ≤ g → Completes .checkpoint s ((m.results c [g]).finish c 2 0)) ∧
      (c.stage ≠ 0 → g < c.arg → m.mapUp = true → m.mode ≠ mFlush → Completes .checkpoint s (m.ckptStart.modCmd c.id fun x =>
        { x with arg := g + 1 }))) ∧
    (first 7 (fun x => x.stage = 0 && m.inTurn x) →
      let a := c.p0.toNat % 2 ^ 60
      let ns := a / 2 ^ 52
      let off := a % 2 ^ 52
      let len := c.p1.toNat % 2 ^ 52
      let h := c.p2.toNat / 2 ^ 32 % 2 ^ 17
      let badRange := a % 256 ≠ 0 ∨ len = 0 ∨ len % 256 ≠ 0 ∨ 2 ^ 52 ≤ c.p1.toNat ∨ (m.nsDesc ns).size < off + len ∨
        h = 0 ∨ 100000 < h
      let overlap := (∃ x ∈ m.order.holds, meets a len (x.ns * 2 ^ 52 + x.off) x.len = true) ∨
        ∃ k < 32, m.strActive k = true ∧ meets a len (m.get STREAM.TARGET_ADDR k) (m.strLen k) = true
      ((m.nsDesc ns).exists_ = false → Completes .rangeHold s (m.finish c 4 3)) ∧
      ((m.nsDesc ns).exists_ = true → badRange → Completes .rangeHold s (m.finish c 4 4)) ∧
      ((m.nsDesc ns).exists_ = true → ¬badRange → overlap → Completes .rangeHold s (m.finish c 4 7)) ∧
      ((m.nsDesc ns).exists_ = true → ¬badRange → ¬overlap → 8 ≤ m.order.holds.length → Completes .rangeHold s (m.finish c 4 8)) ∧
      ((m.nsDesc ns).exists_ = true → ¬badRange → ¬overlap → m.order.holds.length < 8 → CompletesWith .rangeHold s (fun t =>
        t.order.holds = m.order.holds ++ [⟨m.holdId, c.p2.toNat % 16, ns, off, len, h, c.agent, c.id⟩] ∧ t.regs = m.regs ∧
          ∀ x ∈ t.post.cmds, x.id = c.id → x.stage = 1 ∧ x.committed = true ∧ x.arg = m.holdId ∧ ∀ p i, (p, i) ∈ x.waits ↔
            p < 16 ∧ p ≠ c.p2.toNat % 16 ∧ ∃ r ∈ (m.port p).reqs, r.id = i ∧ writesLines r.op = true ∧ r.op ≠ opAppend ∧ r.fail = none ∧
              r.phase ≠ .intake ∧ r.phase ≠ .ready ∧ r.ns = ns ∧ r.addr % 2 ^ 52 / 256 * 256 < off + len ∧
              off < (r.addr % 2 ^ 52 / 256 + r.nlines) * 256))) ∧
    (first 7 (fun x => x.stage = 1 && x.waits.all fun w => match m.req? w.1 w.2 with | some r => r.phase == .ready | none => true) →
      Completes .rangeHoldDrainDone s ((m.results c [c.arg]).finish c 2 0)) ∧
    (first 8 m.inTurn →
      let i := c.p0.toNat % 8
      ((∃ h ∈ m.order.holds, h.id = i) → Completes .rangeRelease s ((m.endHolds fun h => h.id = i).finish c 2 0) ∧
        (m.endHolds fun h => h.id = i).order.holds = m.order.holds.filter fun h => h.id ≠ i) ∧
      ((∀ h ∈ m.order.holds, h.id ≠ i) → Completes .rangeRelease s (m.finish c 3 0))) ∧
    (first 9 m.inTurn → Completes .health s ((m.results c m.healthWords).finish c 2 0)) ∧
    (first 10 m.inTurn →
      let n := c.p1.toNat
      let w := m.get ERR.RING_WR
      let i := max c.p0.toNat (w - 1024)
      let got := min (c.p0.toNat + n) w - i
      (n = 0 ∨ 1024 < n ∨ 2 ^ 32 ≤ c.p0.toNat → Completes .errlogRead s (m.finish c 4 4)) ∧
      (n ≠ 0 → n ≤ 1024 → c.p0.toNat < 2 ^ 32 → Completes .errlogRead s ((m.results c ([i, got] ++ (List.range got).flatMap fun j =>
        let e := m.err.ring.get ((i + j) % 1024)
        [e.w0, e.w1, e.w2, e.w3])).finish c 2 0))) ∧
    (first 15 (fun x => x.stage ≠ 1) →
      (c.stage = 2 → Completes .hubInfo s ((m.result c 0 256 c.line.toNat).finish c 2 0)) ∧
      (c.stage ≠ 2 → m.link ch ≠ 4 → Completes .hubInfo s (m.finish c 4 12)) ∧
      (c.stage ≠ 2 → m.link ch = 4 → CompletesWith .hubInfo s (fun t => ∀ x ∈ t.post.cmds, x.id = c.id → x.stage = 1))) ∧
    (first 16 m.inTurn →
      let bad := 32 ≤ c.p0.toNat ∨ 2 ^ 32 ≤ c.p1.toNat ∨ 2 ^ 16 ≤ c.p2.toNat
      let out := ((m.segsIn ch .retired).filter fun x => c.p1.toNat ≤ x).take c.p2.toNat
      (bad → Completes .retireQuery s (m.finish c 4 4)) ∧
      (¬bad → Completes .retireQuery s (((m.results c [m.spares ch, (m.segsIn ch .retired).length, b2n (m.chanRO ch) * 2 ^ 32]).result c 24
        (4 * out.length) (out.foldr (fun x a => x % 2 ^ 32 + 2 ^ 32 * a) 0)).finish c 2 0))) ∧
    (m.blocksRun = true → m.post.ramBad = false → (m.post.cmds.find? fun x => x.op = 17 && !x.restart && x.stage ≠ 1) = some c →
      let a := c.p0.toNat
      let n := c.p1.toNat
      let md := c.p2.toNat
      let d := m.nsDesc (a / 2 ^ 52 % 2 ^ 8)
      let bad := a % 256 ≠ 0 ∨ n = 0 ∨ n % 256 ≠ 0 ∨ d.size < a % 2 ^ 52 + n ∨ md % 4 = 3 ∨ md / 2 ^ 8 % 2 ^ 8 = 0 ∨ md / 2 ^ 16 % 4 = 0
      (c.stage = 2 → Completes .scrubRequest s ((m.result c 0 96 (c.line.toNat % 2 ^ 768)).finish c 2 0)) ∧
      (c.stage ≠ 0 → c.stage ≠ 2 → Completes .scrubRequest s ((m.result c 0 96 (c.line.toNat % 2 ^ 768)).finish c 7 0)) ∧
      (c.stage = 0 → m.gleaning = true → Completes .scrubRequest s (m.finish c 4 9)) ∧
      (c.stage = 0 → m.gleaning = false → d.exists_ = false → Completes .scrubRequest s (m.finish c 4 3)) ∧
      (c.stage = 0 → m.gleaning = false → d.exists_ = true → bad → Completes .scrubRequest s (m.finish c 4 4)) ∧
      (c.stage = 0 → m.gleaning = false → d.exists_ = true → ¬bad → CompletesWith .scrubRequest s (fun t =>
        t.err.gCmd = some c.id ∧ t.get GLN.START = a % 2 ^ 60 ∧ t.get GLN.LENGTH = n % 2 ^ 52 ∧
          ∀ x ∈ t.post.cmds, x.id = c.id → x.stage = 1)))

/-- The blocks of firmware and trim records, and Collier's boot: an image is checked before it is staged, the slot is marked not valid first and the
selector is its commit point; an activation goes step by step; a capture puts its sets into the record; a record that does not verify is not
used; Collier runs a valid image (R351 to R353, R404 to R406, R422, R423). -/
def Obligations.FirmwareAndTrimBlocks : Prop :=
  ∀ (s : State) (c : Cmd) (outcome : BitVec 2) (sets : List TrimIn) (a : BitVec 3),
    let m := s.m
    let first (op : Nat) (can : Cmd → Bool) : Prop := m.blocksRun = true ∧ m.post.ramBad = false ∧
      (m.post.cmds.find? fun x => x.op = op && !x.restart && !x.cancelled && can x) = some c
    let x := c.p0.toNat
    let len := c.p1.toNat
    let runs (m0 t : Mach) (version slot : Nat) (host : Bool) : Prop := ∃ m1 : Mach,
      m1 = { m0 with regs := m1.regs, post := { m0.post with servedAt := m0.now } } ∧ m1.get COLLIER.STAT_STATE = 2 ∧
      m1.get COLLIER.FW_VERSION = version % 2 ^ 32 ∧ m1.get COLLIER.FW_SLOT = slot % 2 ∧ m1.flag COLLIER.FW_HOST = host ∧
      (m1.get (evField .collier) 0).testBit COLLIER.EV_BOOTED = true ∧
      t = m1.trimSearch.afterRestart
    (m.blocksRun = false → Completes .fwStage s m ∧ Completes (.trimCapture sets) s m ∧ Completes .trimLoad s m) ∧
    (first 11 (fun y => y.stage = 0 || y.left = 0) →
      let r := if m.inArea c.agent x len && len ≤ 1048576 then m.parishGet x len else (0, m)
      let busy := r.2.activating = true ∨ r.2.staging = true
      let sel := m.selectorProg c.id (m.get COLLIER.FW_SLOT) true
      (c.stage = 0 → fwValid r.1 len = false → Completes .fwStage s (r.2.finish c 4 10)) ∧
      (c.stage = 0 → fwValid r.1 len = true → busy → Completes .fwStage s (r.2.finish c 4 9)) ∧
      (c.stage = 0 → fwValid r.1 len = true → ¬busy → m.link 0 ≠ 4 → m.link 16 ≠ 4 →
        Completes .fwStage s (r.2.finish c 4 12)) ∧
      (c.stage = 0 → fwValid r.1 len = true → ¬busy → (m.link 0 = 4 ∨ m.link 16 = 4) →
        CompletesWith .fwStage s (fun t => t.flag COLLIER.FW_STAGED_VALID = false ∧
          ∀ y ∈ t.post.cmds, y.id = c.id → y.stage = 1 ∧ y.arg = r.1 / 2 ^ 64 % 2 ^ 32)) ∧
      (c.stage = 1 → Completes .fwStage s (sel.2.modCmd c.id fun y => { y with stage := 2, left := sel.1 })) ∧
      (c.stage = 2 → ∃ m1 : Mach, Completes .fwStage s ((m1.results c [c.arg]).finish c 2 0) ∧
        OnlyFields m m1 [COLLIER.FW_STAGED_VERSION.key 0, COLLIER.FW_STAGED_VALID.key 0] ∧
        m1.get COLLIER.FW_STAGED_VERSION = c.arg % 2 ^ 32 ∧ m1.flag COLLIER.FW_STAGED_VALID = true)) ∧
    (m.collierUp = false → Completes (.fwActivate outcome) s m) ∧
    (m.collierUp = true → (m.post.cmds.find? fun y => y.op = 12 && !y.restart && (y.stage ≠ 3 || y.left = 0)) = some c →
      let can := m.flag COLLIER.FW_STAGED_VALID
      let v := m.get COLLIER.FW_STAGED_VERSION
      let other := 1 - m.get COLLIER.FW_SLOT
      let sel := m.selectorProg c.id other false
      (c.stage = 0 → can = false → Completes (.fwActivate outcome) s (m.finish c 4 10)) ∧
      (c.stage = 0 → can = true → m.activating = true ∨ m.staging = true → Completes (.fwActivate outcome) s (m.finish c 4 9)) ∧
      (c.stage = 0 → can = true → m.activating = false → m.staging = false → Completes (.fwActivate outcome) s
        (((m.put COLLIER.STAT_STATE 0 3).modFw fun _ => { (default : FwRead) with on := true, cands := [(0, other), (16, other)] }).modCmd
          c.id fun y => { y with stage := 1 })) ∧
      (c.stage = 1 →
        let ended := m.fwNext.2.modFw fun _ => default
        (m.fwNext.1 = none → Completes (.fwActivate outcome) s m.fwNext.2) ∧
        (m.fwNext.1 = some false → Completes (.fwActivate outcome) s (ended.activateEnd.finish c 4 10)) ∧
        (m.fwNext.1 = some true → Completes (.fwActivate outcome) s (ended.takeAll.modCmd c.id fun y => { y with stage := 2 }))) ∧
      (c.stage = 2 → outcome = 1 → Completes (.fwActivate outcome) s
        ((m.event .collier 0 COLLIER.EV_FW_REVERTED).activateEnd.finish c 8 15)) ∧
      (c.stage = 2 → outcome = 2 → CompletesWith (.fwActivate outcome) s (fun t => t.get COLLIER.STAT_STATE = 4 ∧
        t.get COLLIER.RESTART_CAUSE = 3 ∧ (t.get (evField .collier) 0).testBit COLLIER.EV_FW_REVERTED = true)) ∧
      (c.stage = 2 → outcome ≠ 1 → outcome ≠ 2 → Completes (.fwActivate outcome) s (sel.2.modCmd c.id fun y =>
        { y with stage := 3, left := sel.1, arg := other })) ∧
      (c.stage = 3 → ∃ m1 : Mach, Completes (.fwActivate outcome) s ((m1.results c [v]).finish c 2 0) ∧
        m1 = { m with regs := m1.regs, post := { m.post with servedAt := m.now } } ∧ m1.get COLLIER.STAT_STATE = 2 ∧
        m1.get COLLIER.FW_VERSION = v % 2 ^ 32 ∧ m1.get COLLIER.FW_SLOT = c.arg % 2 ∧ m1.flag COLLIER.FW_HOST = false ∧
        m1.flag COLLIER.FW_STAGED_VALID = false ∧ (m1.get (evField .collier) 0).testBit COLLIER.EV_FW_ACTIVATED = true)) ∧
    (m.fwNext.1 = some true → fwValid (imageBytes m.post.fw.img 0 m.post.fw.lines) m.post.fw.len = true) ∧
    (first 13 (fun y => y.stage = 0 || (y.stage = 1 && m.captureReady y.arg) || (y.stage = 2 && y.left = 0)) →
      let p := x % 4
      let chans := (List.range 32).filter fun ch => bitAt c.arg ch
      let mine := sets.filter fun y => chans.contains y.chan.toNat && m.link y.chan.toNat = 4
      let fails := m.captureFails chans mine
      let taken (img : Tab Line) : Prop :=
        (∀ k, 1 ≤ k → k ≤ 96 → img.get k = (mine.foldl (fun (t : Tab Line) y =>
          putSet t (setIndex y.rate.toNat p y.chan.toNat y.lane.toNat) y.set.toNat) m.trim.image).get k) ∧
        (∀ ch < 32, (img.get (100 + p)).getLsbD ch =
          if ch ∈ chans then decide (fails / 2 ^ (4 * ch) % 16 = 0) else (m.trim.image.get (100 + p)).getLsbD ch) ∧
        img.get 0 = m.trim.image.get 0
      let x1 := m.captureTake c p sets
      let words := [fails % 2 ^ 64, fails / 2 ^ 64]
      (c.stage = 0 → m.mode ≠ mBringup → Completes (.trimCapture sets) s (m.finish c 4 1)) ∧
      (c.stage = 0 → m.mode = mBringup → p = 3 → Completes (.trimCapture sets) s (m.finish c 4 4)) ∧
      (c.stage = 0 → m.mode = mBringup → p ≠ 3 → CompletesWith (.trimCapture sets) s (fun t =>
        (t.trim.image.get 0).toNat / 2 ^ (192 + 8 * p) % 256 = m.get ZML.TRIM_TEMP_T ((m.captures len).headD 0) % 2 ^ 8 ∧
          (∀ k ≠ 0, t.trim.image.get k = m.trim.image.get k) ∧
          (∀ ch ∈ m.captures len, 3 ≤ m.link ch → t.link ch = 3 ∧ t.get ZML.LINK_RATE ch = 2) ∧
          ∀ y ∈ t.post.cmds, y.id = c.id → y.stage = 1 ∧ ∀ ch < 32, bitAt y.arg ch = (m.captures len).contains ch)) ∧
      (c.stage = 1 → x1.1 = fails ∧ taken x1.2.trim.image ∧ ∀ ch ∈ chans, m.link ch = 4 → x1.2.link ch = 3) ∧
      (c.stage = 1 → bitAt x 2 = false → Completes (.trimCapture sets) s ((x1.2.results c words).finish c 2 0)) ∧
      (c.stage = 1 → bitAt x 2 = true → m.integ.trimSrc = 2 →
        let r := trimImage (m.get GLOBAL.CORE_VERSION) x1.2.trim.image
        let m2 := (x1.2.results c words).result c 16 24832 (recNum r)
        Completes (.trimCapture sets) s ((if recValid r then m2.useTrim r 3 else m2).finish c 2 0)) ∧
      (c.stage = 1 → bitAt x 2 = true → m.integ.trimSrc ≠ 2 → CompletesWith (.trimCapture sets) s (fun t => taken t.trim.image ∧
        ∀ y ∈ t.post.cmds, y.id = c.id → y.stage = 2 ∧ y.line = BitVec.ofNat 2048 fails)) ∧
      (c.stage = 2 →
        let r := trimImage (m.get GLOBAL.CORE_VERSION) m.trim.image
        let m2 := m.results c [c.line.toNat % 2 ^ 64, c.line.toNat / 2 ^ 64 % 2 ^ 64]
        Completes (.trimCapture sets) s ((if recValid r then m2.useTrim r 1 else m2).finish c 2 0))) ∧
    (first 14 (fun _ => true) →
      let r := m.parishGet x 24832
      (m.inArea c.agent x 24832 = false → Completes .trimLoad s (m.finish c 4 10)) ∧
      (m.inArea c.agent x 24832 = true → recValid (numRec r.1) = false → Completes .trimLoad s (r.2.finish c 4 10)) ∧
      (m.inArea c.agent x 24832 = true → recValid (numRec r.1) = true → Completes .trimLoad s ((r.2.useTrim (numRec r.1) 3).finish c 2 0))) ∧
    (m.cfgOpen .collier 0 →
      let m0 := m.seen a.toNat
      let x := m0.get COLLIER.BOOT_PTR
      let len := m0.get COLLIER.BOOT_LEN
      let r := if m0.inArea a.toNat x len && len ≤ 1048576 then m0.parishGet x len else (0, m0)
      let waits := m.collier = 1 ∧ m.get COLLIER.BOOT_SRC = 2 ∧ m.running = true ∧ m.parishUp = true
      (¬waits → Completes (.bootGo a) s m0) ∧
      (waits → fwValid r.1 len = false → Completes (.bootGo a) s (r.2.event .collier 0 COLLIER.EV_BOOT_FAIL)) ∧
      (waits → fwValid r.1 len = true → CompletesWith (.bootGo a) s (fun t => runs r.2 t (r.1 / 2 ^ 64 % 2 ^ 32) 0 true))) ∧
    (let hub := (m.collier = 4 ∨ (m.collier = 1 ∧ m.get COLLIER.BOOT_SRC = 1)) ∧ m.running = true ∧ bitAt (m.get POWER.PD_ON) 1 = true
     let boot := Instr.collierBoot
     let m1 := if m.post.fw.on then m else m.modFw fun _ => { (default : FwRead) with on := true, cands := [(0, 2), (16, 2)] }
     let y := m1.post.fw
     let r := m1.fwNext
     let version := (Line.word (y.img.get 0) 1).toNat % 2 ^ 32
     let started (version slot : Nat) (staged : Option Nat) : Prop := CompletesWith boot s (fun t => ∃ m0 : Mach,
       m0 = { m1 with regs := m0.regs, post := m0.post } ∧ m0.post.fw = default ∧ runs m0 t version slot false ∧
         m0.flag COLLIER.FW_STAGED_VALID = staged.isSome ∧ m0.get COLLIER.FW_STAGED_VERSION = staged.getD 0 % 2 ^ 32)
     (¬hub → Completes boot s m) ∧
     (hub → m.post.fw.on = false → m.chanLost 0 = false → m.linkServes 0 = false → Completes boot s m1) ∧
     (hub → y.stage ≠ 4 →
       (r.1 = none → Completes boot s r.2) ∧
       (r.1 = some false → Completes boot s
         (((r.2.modFw fun _ => default).put COLLIER.STAT_STATE 0 5).event .collier 0 COLLIER.EV_BOOT_FAIL).trimMissing) ∧
       ∀ ch slot rest, r.1 = some true → y.cands = (ch, slot) :: rest →
         (bitAt y.sel 1 = true → slot = y.sel % 2 → Completes boot s
           ((r.2.modFw fun z => { z with version := version, img := [] }).fwRead ch (2 - slot) 0 1 4)) ∧
         ((bitAt y.sel 1 = false ∨ slot ≠ y.sel % 2) → started version slot none)) ∧
     (hub → ∀ ch slot rest, y.stage = 4 → y.cands = (ch, slot) :: rest →
       let lost := m1.chanLost ch = true ∨ (y.left = 0 ∧ y.bad = true)
       (lost → started y.version slot none) ∧ (¬lost → y.left ≠ 0 → Completes boot s m1) ∧
         (¬lost → y.left = 0 → started y.version slot (some version))))

/-- Resets: PORST_N resets everything but what the package fixes and the levels at the pins; SRST_N keeps the CLOCK and POWER pages and
the drift clock; on release the start goes to step 2, or to step 3 with the PLL locked; ML_RESET retrains the ACTIVE links and resets
the hubs of the LOST ones (R428, R434, R438). -/
def Obligations.Resets : Prop :=
  ∀ (s : State) (a : BitVec 3),
    let m := s.m
    let kept (k : Nat) : Prop := k / 32768 = 1 ∨ k / 32768 = 2
    Completes .porstAssert s { Mach.reset with
      integ := m.integ, now := m.now, free := m.free, serial := m.serial, porstN := false, srstLow := m.srstLow,
      post := { (default : PostSt) with agentRst := m.post.agentRst },
      power := { (default : PowerSt) with modeAt := m.now, ref := min 1 m.power.ref, lossAt := m.power.lossAt } } ∧
    (m.porstN = false → Completes .srstAssert s { m with srstLow := true }) ∧
    (m.porstN = true → CompletesWith .srstAssert s (fun t =>
      t.porstN = true ∧ t.srstLow = true ∧ t.mode = mReset ∧ t.get GLOBAL.RESET_KIND = 2 ∧ t.get MAP.AGE_NOW = m.get MAP.AGE_NOW % 2 ^ 48 ∧
      (∀ f n, kept (f.key n) → f.key n ∉ [POWER.STAT_MODE.key 0, POWER.STAT_PHASE.key 0, POWER.STAT_HOST_FLUSH.key 0,
        POWER.STAT_VISITING.key 0, (POWER.RES m.mode).key 0] → t.get f n = m.get f n) ∧
      (∀ f n, ¬kept (f.key n) → f.key n ∉ [POWER.STAT_MODE.key 0, POWER.STAT_PHASE.key 0, POWER.STAT_HOST_FLUSH.key 0,
        POWER.STAT_VISITING.key 0, MAP.AGE_NOW.key 0, GLOBAL.RESET_KIND.key 0] → t.get f n = f.reset m.integ n) ∧
      t.ht = default ∧ t.ports = [] ∧ t.zml = [] ∧ t.sc = default ∧ t.kiln = default ∧ t.loom = default ∧ t.ns = [] ∧ t.trim = default)) ∧
    (m.porstN = true → Completes .porstRelease s m) ∧
    (m.porstN = false → CompletesWith .porstRelease s (fun t =>
      t = { m with porstN := true, regs := t.regs, power := { m.power with modeAt := m.now } } ∧
        t.get GLOBAL.STAT_BOOT_STEP = (if m.srstLow then m.get GLOBAL.STAT_BOOT_STEP else 2))) ∧
    ((m.srstLow = false ∨ m.porstN = false) → Completes .srstRelease s { m with srstLow := false }) ∧
    (m.srstLow = true → m.porstN = true → CompletesWith .srstRelease s (fun t =>
      t = { m with srstLow := false, regs := t.regs } ∧
        (m.flag CLOCK.STAT_PLL_LOCK = false → t.get GLOBAL.STAT_BOOT_STEP = 2 ∧ t.get POWER.PD_ON = m.get POWER.PD_ON) ∧
        (m.flag CLOCK.STAT_PLL_LOCK = true → t.get GLOBAL.STAT_BOOT_STEP = 3 ∧
          ∀ d < 17, (t.get POWER.PD_ON).testBit d = !(m.get POWER.PD_OFF).testBit d))) ∧
    (m.cfgOpen .global 0 →
      let m0 := m.seen a.toNat
      let m1 := (List.range 32).foldl (fun (m : Mach) c =>
        if m.flag ZML.CTL_ENABLE c = true ∧ m.link c = 4 then m.mlRetrain c
        else if m.flag ZML.CTL_ENABLE c = true ∧ m.link c = 6 then m.toReset c else m) m0
      (m.flag GLOBAL.ML_BUSY = true → Completes (.mlReset a) s (m0.setFlag GLOBAL.ML_MISSED 0 true)) ∧
      (m.flag GLOBAL.ML_BUSY = false → Completes (.mlReset a) s (m1.setFlag GLOBAL.ML_BUSY 0 m1.linksBusy)))

/-- The start sequence: the seal records are read once every channel is ACTIVE and decide the start kind; the map is replayed, or a fresh store
made; Trickle service begins; BRINGUP ends; FULL_WAIT is reported (R337, R428, R430 to R433). -/
def Obligations.StartSequence : Prop :=
  ∀ (s : State) (root : Bool) (x : MapIn),
    let m := s.m
    let b := m.get GLOBAL.STAT_BOOT_STEP
    let starting := m.mode = mBringup ∧ m.flag POWER.STAT_WARN = false
    let reading := starting ∧ 6 ≤ b ∧ b ≤ 9
    let m1 := m.sealRetry
    let ended := ∀ c ∈ m1.chansIn, ∀ i < 8, (m1.power.sealRd.get (8 * c + i)).stage = 2 ∨ (m1.power.sealRd.get (8 * c + i)).stage = 3
    let replay := starting ∧ b = 10 ∧ m.power.sealPhase = 0 ∧ (m.get GLOBAL.RESET_KIND = 1 → m.map.estDone = true)
    let kind := m.get GLOBAL.STAT_START_KIND
    let ready := m.mode = mBringup ∧ m.flag GLOBAL.STAT_SERVICE = true ∧ m.flag MAP.STAT_REPLAYING = false ∧
      m.flag MAP.STAT_WARM = true ∧ m.flag GLOBAL.BRINGUP_HOLD = false ∧ (m.get GLOBAL.RESET_KIND = 1 → m.map.estDone = true) ∧
      (m.power.fullOver = true ∨ ∀ c ∈ m.chansIn, m.belowFull c = false)
    let waited := m.mode = mBringup ∧ m.flag GLOBAL.STAT_SERVICE = true ∧ m.get GLOBAL.FULL_WAIT ≠ 0 ∧ m.power.fullOver = false ∧
      m.power.serviceAt + 19200000 * m.get GLOBAL.FULL_WAIT ≤ m.now
    (¬reading → Completes (.startKindDecide root) s m) ∧
    (reading → b ≠ 9 → (∃ c ∈ m.chansIn, m.link c ≠ 4) → Completes (.startKindDecide root) s m) ∧
    (reading → b ≠ 9 → (∀ c ∈ m.chansIn, m.link c = 4) → CompletesWith (.startKindDecide root) s (fun t =>
      t.get GLOBAL.STAT_BOOT_STEP = 9 ∧ ∀ c ∈ m.chansIn, ∀ i < 8, t.power.sealRd.get (8 * c + i) = ⟨1, 0, 0⟩)) ∧
    (reading → b = 9 → ¬ended → Completes (.startKindDecide root) s m1) ∧
    (reading → b = 9 → ended →
      let writes (g kind : Nat) (sealed_ : Bool) : Mach :=
        (((m1.put GLOBAL.STAT_START_KIND 0 kind).setFlag POWER.STAT_SEALED 0 sealed_).put GLOBAL.STAT_BOOT_STEP 0 10).sealBegin 1 (g + 1) 4
      (m1.sealBest = none → Completes (.startKindDecide root) s (writes 0 (if root then 3 else 1) false)) ∧
      ∀ g c i, m1.sealBest = some (g, c, i) → Completes (.startKindDecide root) s
        (if m1.sealWord c i 0 / 2 ^ 32 % 16 = 2 then writes g 2 true else writes g 3 false)) ∧
    (¬replay → Completes (.mapReplay x) s m) ∧
    (replay →
      let found := m.loadMap x
      let m0 := if kind = 1 then m.freshStore else if m.flag MAP.STAT_REPLAYING then m
        else if kind = 3 then found.1.foldl (fun (m : Mach) o => m.resyncRead o) found.2 else found.2
      let waits := ∃ y ∈ m0.resyncs, 0 < y.2.wait
      let resynced := (m0.resyncs.map (·.1)).foldl (fun (m : Mach) k => m.resyncStripe k) m0
      let back := x.streams.foldl (fun (m : Mach) y => if y.committed then m.streamBack y
        else if m0.get GLOBAL.STAT_START_KIND = 2 then m.streamSealed y else m.streamScan y) resynced.ephemeralEpochs
      let m2 := (if kind = 1 then m0 else back).showWarm
      (waits → Completes (.mapReplay x) s (m0.setFlag MAP.STAT_REPLAYING 0 true)) ∧
      (¬waits → CompletesWith (.mapReplay x) s (fun t => t = { m2 with regs := t.regs } ∧ t.get GLOBAL.STAT_BOOT_STEP = 11 ∧
        t.flag MAP.STAT_REPLAYING = false ∧ t.flag MAP.STAT_WARM = m2.flag MAP.STAT_WARM ∧
        (t.get (evField .map) 0).testBit MAP.EV_REPLAY_DONE = true))) ∧
    (¬(starting ∧ b = 11) → Completes .trickleServiceBegin s m) ∧
    (starting → b = 11 → ∃ m2 : Mach, Completes .trickleServiceBegin s m2.portLevels.warmUp ∧
      m2 = { m with regs := m2.regs, power := { m.power with serviceAt := m.now } } ∧ m2.get GLOBAL.STAT_BOOT_STEP = 12 ∧
      m2.flag GLOBAL.STAT_SERVICE = true ∧
      ∀ f n, f.key n ∉ [GLOBAL.STAT_BOOT_STEP.key 0, GLOBAL.STAT_SERVICE.key 0] → m2.get f n = m.get f n) ∧
    (¬ready → Completes .bringupExit s m) ∧
    (ready → Completes .bringupExit s ((m.toRun.put GLOBAL.STAT_BOOT_STEP 0 0).event .global 0 GLOBAL.EV_BRINGUP_DONE).portLevels) ∧
    (¬waited → Completes .fullWaitExpire s m) ∧
    (waited → CompletesWith .fullWaitExpire s (fun t => t = { m with regs := t.regs, power := { m.power with fullOver := true } } ∧
      ((∃ c ∈ m.chansIn, m.belowFull c = true) → (t.get (evField .global) 0).testBit GLOBAL.EV_FULL_WAIT = true) ∧
      ((∀ c ∈ m.chansIn, m.belowFull c = false) → t.regs = m.regs)))

/-- Modes, the supply and FLUSH: the conditions of DEGRADED choose between RUN and DEGRADED; a warning or a stop level enters FLUSH from a mode of
work; levels clear after WARN_CLEAR; the seal is written once all is durable; FLUSH_SEAL and RESUME as R460 says; an OPEN record comes
before a program (R441, R442, R456 to R460). -/
def Obligations.ModesAndSupply : Prop :=
  ∀ (s : State) (a : BitVec 3) (low low' : Bool) (mv : BitVec 10),
    let m := s.m
    let judged (rate : Bool) : Mach :=
      let w := m.degradeBits rate
      let m1 : Mach := { m with power := { m.power with lostCh := m.missing } }
      (if w &&& m.get POWER.DEGRADE_WHY = w then m1 else m1.event .power 0 POWER.EV_DEGRADED).put POWER.DEGRADE_WHY 0 w
    let judging := m.released = true ∧ m.outOfReset = true ∧ m.mode ≠ mSafehold
    let v := mv.toNat
    let mW : Mach := { m with power := { m.power with warnLow := low } }
    let mF : Mach := { m with power := { m.power with failLow := low } }
    let samples := m.porstN = true ∧ m.mode ≠ mSafehold
    (¬judging → Completes .degradedEnter s m) ∧
    (judging → m.mode = mRun → m.degradeBits m.rateCounts ≠ 0 → Completes .degradedEnter s
      ((judged m.rateCounts).setMode mDegraded).applyWalk.omitAll) ∧
    (judging → (m.mode ≠ mRun ∨ m.degradeBits m.rateCounts = 0) → Completes .degradedEnter s (judged m.rateCounts).omitAll) ∧
    (m.mode ≠ mDegraded → Completes .runRestore s m) ∧
    (m.mode = mDegraded → m.degradeBits true ≠ 0 → Completes .runRestore s (judged true)) ∧
    (m.mode = mDegraded → m.degradeBits true = 0 → Completes .runRestore s
      ((((judged true).setMode mRun).applyWalk).event .power 0 POWER.EV_RUN)) ∧
    (¬samples → Completes (.supplyWarning low mv) s mW ∧ Completes (.supplyStop low mv) s mF) ∧
    (samples →
      (v ≤ 690 → Completes (.supplyWarning low mv) s (mW.put POWER.VDD_NOW 0 v).stopOn) ∧
      (690 < v → (low = true ∨ v ≤ 712) → Completes (.supplyWarning low mv) s (mW.put POWER.VDD_NOW 0 v).warnOn) ∧
      (712 < v → low = false → Completes (.supplyWarning low mv) s (mW.put POWER.VDD_NOW 0 v)) ∧
      ((low = true ∨ v ≤ 690) → Completes (.supplyStop low mv) s (mF.put POWER.VDD_NOW 0 v).stopOn) ∧
      (low = false → 690 < v → v ≤ 712 → Completes (.supplyStop low mv) s (mF.put POWER.VDD_NOW 0 v).warnOn) ∧
      (low = false → 712 < v → Completes (.supplyStop low mv) s (mF.put POWER.VDD_NOW 0 v))) ∧
    (m.flag POWER.STAT_WARN = false → m.mode = mRun ∨ m.mode = mDegraded ∨ (m.mode = mBringup ∧ m.flag GLOBAL.STAT_SERVICE = true) →
      m.warnOn = ({ m with power := { m.power with warnClr := 0 } }.setFlag POWER.STAT_WARN 0 true).enterFlush m.mode) ∧
    (¬samples → Completes (.supplyClear low low' mv) s { m with power := { m.power with warnLow := low, failLow := low' } }) ∧
    (samples →
      let held (since : Nat) : Prop := since ≠ 0 ∧ since - 1 + 19200 * m.get POWER.WARN_CLEAR ≤ m.now
      let stopOk := low' = false ∧ 713 ≤ v
      let warnOk := low = false ∧ 728 ≤ v
      ∃ m1 : Mach, Completes (.supplyClear low low' mv) s m1.leaveAlone ∧
        m1 = { m with regs := m1.regs, power := { m.power with
          warnLow := low, failLow := low', stopClr := m1.power.stopClr, warnClr := m1.power.warnClr } } ∧
        m1.get POWER.VDD_NOW = v ∧
        (¬stopOk → m1.power.stopClr = 0) ∧ (stopOk → m1.power.stopClr = if m.power.stopClr = 0 then m.now + 1 else m.power.stopClr) ∧
        (¬warnOk → m1.power.warnClr = 0) ∧ (warnOk → m1.power.warnClr = if m.power.warnClr = 0 then m.now + 1 else m.power.warnClr) ∧
        (m1.flag POWER.STAT_STOPPED = true ↔ m.flag POWER.STAT_STOPPED = true ∧ ¬(stopOk ∧ held m.power.stopClr)) ∧
        (m1.flag POWER.STAT_WARN = true ↔ m.flag POWER.STAT_WARN = true ∧
          ¬(warnOk ∧ held m.power.warnClr ∧ m1.flag POWER.STAT_STOPPED = false))) ∧
    (m.mayLeave = false → m.leaveAlone = m) ∧
    (m.mayLeave = true →
      let m1 := (m.backToWork.event .power 0 POWER.EV_RESUMED).portLevels
      m.leaveAlone = { m1 with power := { m1.power with leftAt := m.now + 1 } }) ∧
    (let m1 := m.sealSettle
     (m1.mode ≠ mFlush → Completes .flushCompleteSeal s m1) ∧
     (m1.mode = mFlush → m1.mayLeave = true → Completes .flushCompleteSeal s m1.leaveAlone) ∧
     (m1.mode = mFlush → m1.mayLeave = false → (m1.flag POWER.STAT_SEALED = true ∨ m1.power.sealPhase ≠ 0) → Completes .flushCompleteSeal s m1) ∧
     (m1.mode = mFlush → m1.mayLeave = false → m1.flag POWER.STAT_SEALED = false → m1.power.sealPhase = 0 →
       let m2 := ((List.range 32).filter m1.strActive).foldl (fun (m : Mach) k => m.idxFlush k true 3) m1
       (m2.drained = false → Completes .flushCompleteSeal s m2) ∧
       (m2.drained = true → m2.deltaDry = false → Completes .flushCompleteSeal s m2.deltaFlush) ∧
       (m2.drained = true → m2.deltaDry = true → Completes .flushCompleteSeal s (m2.sealBegin 2 (m2.power.sealGen + 1) 1)))) ∧
    (let open_ := ((m.mapUp = true ∧ m.mode ≠ mFlush) ∨ (m.asleep = true ∧ m.get POWER.STAT_PHASE = 1 ∧ m.power.step < 2)) ∧
       m.flag POWER.STAT_SEALED = true ∧ m.power.sealPhase = 0 ∧ m.programWaits = true
     (open_ → Completes .openRecordWrite s (m.sealBegin 1 (m.power.sealGen + 1) 3)) ∧ (¬open_ → Completes .openRecordWrite s m)) ∧
    (m.outOfReset = true → m.mode ≠ mSafehold →
      let m0 := m.seen a.toNat
      let work := m.mode = mRun ∨ m.mode = mDegraded
      (work → Completes (.flushSeal a) s (((m0.enterFlush m.mode).setFlag POWER.STAT_HOST_FLUSH 0 true).powerStat 0 0)) ∧
      (m.mode = mFlush → Completes (.flushSeal a) s ((m0.setFlag POWER.STAT_HOST_FLUSH 0 true).powerStat 1 0)) ∧
      (¬work → m.mode ≠ mFlush → Completes (.flushSeal a) s (m0.powerStat 2 1)) ∧
      (m.mode ≠ mFlush → m.power.leftAt = m.now + 1 → Completes (.resume a) s (m0.powerStat 1 0)) ∧
      (((m.mode ≠ mFlush ∧ m.power.leftAt ≠ m.now + 1) ∨ (m.mode = mFlush ∧ m.flag POWER.STAT_WARN = true)) →
        Completes (.resume a) s (m0.powerStat 2 1)) ∧
      (m.mode = mFlush → m.flag POWER.STAT_WARN = false → Completes (.resume a) s
        ((m0.setFlag POWER.STAT_HOST_FLUSH 0 false).powerStat 0 0).leaveFlush))

/-- Sleep: an entry is commanded, or chosen after IDLE_TIME of idleness; it goes step by step and is abandoned at its abort points; sources wake
the Core, whose exit restores banks and stacks; SMOULDER visits channel by channel (R448 to R454, R462). -/
def Obligations.SleepAndWake : Prop :=
  ∀ (s : State) (a : BitVec 3) (bad : BitVec 42) (sh : Word) (hub quad : BitVec 8),
    let m := s.m
    let ph := m.get POWER.STAT_PHASE
    let step (m : Mach) (k : Nat) : Mach := { m with power := { m.power with step := k } }
    let st := m.power.step
    let warn := m.flag POWER.STAT_WARN
    let entering := m.asleep = true ∧ ph = 1
    (m.outOfReset = true → m.mode ≠ mSafehold →
      let m0 := m.seen a.toNat
      let work := m.mode = mRun ∨ m.mode = mDegraded
      (¬work → Completes (.sleepEmber a) s (m0.powerStat 2 1) ∧ Completes (.sleepSmoulder a) s (m0.powerStat 2 1)) ∧
      (work → m.blocksBusy = true → Completes (.sleepEmber a) s (m0.powerStat 2 2) ∧ Completes (.sleepSmoulder a) s (m0.powerStat 2 2)) ∧
      (work → m.blocksBusy = false → Completes (.sleepEmber a) s ((m0.sleepBegin mEmber).powerStat 0 0) ∧
        Completes (.sleepSmoulder a) s ((m0.sleepBegin mSmoulder).powerStat 0 0)) ∧
      ((m.asleep = false ∨ ph = 3) → Completes (.wake a) s (m0.powerStat 1 0)) ∧
      (m.asleep = true → ph ≠ 3 → Completes (.wake a) s ((m0.wake 1).powerStat 0 0))) ∧
    (entering →
      let m := m.levelWakes
      (st = 0 ∨ st = 1 → m.privileged = true → Completes .sleepChoice s (m.entryAbort 1)) ∧
      (st = 0 ∨ st = 1 → m.privileged = false → warn = true → Completes .sleepChoice s m.entryFlush) ∧
      (st = 0 → m.privileged = false → warn = false → m.parked = false → Completes .sleepChoice s m) ∧
      (st = 0 → m.privileged = false → warn = false → m.parked = true → Completes .sleepChoice s (step m.flushBegin 1)) ∧
      (st = 1 → m.privileged = false → warn = false →
        let dry := m.flag POWER.STAT_SEALED = true ∧ m.drained = true ∧ m.deltaDry = true ∧ m.programWaits = false
        (dry → Completes .sleepChoice s (step m 2)) ∧
        (¬dry → m.power.sealPhase ≠ 0 → Completes .sleepChoice s m) ∧
        (¬dry → m.power.sealPhase = 0 → let m1 := m.sealWhenDry 2
          Completes .sleepChoice s (if m1.power.sealPhase = 2 || m1.flag POWER.STAT_SEALED then step m1 2 else m1))) ∧
      (st = 2 →
        let sealed_ := m.flag POWER.STAT_SEALED = true ∧ m.power.sealPhase = 0
        (¬sealed_ → Completes .sleepChoice s m) ∧
        (sealed_ → m.privileged = true → Completes .sleepChoice s (m.entryAbort 2)) ∧
        (sealed_ → m.privileged = false → warn = true → Completes .sleepChoice s m.entryFlush) ∧
        let still := ∀ n ∈ m.kept, m.hearthStill n = true
        (sealed_ → m.privileged = false → warn = false → ¬still → Completes .sleepChoice s m) ∧
        (sealed_ → m.privileged = false → warn = false → still → Completes .sleepChoice s
          (step (m.kept.foldl (fun (m : Mach) n => m.sreBegin n) m) 3))) ∧
      let down := ∀ n ∈ m.kept, m.flag HT.STAT_SELF_REFRESH n = true
      (st = 3 → ¬down → Completes .sleepChoice s (m.kept.foldl (fun (m : Mach) n =>
        if m.sreReady n then m.setFlag HT.STAT_SELF_REFRESH n true else m) m)) ∧
      (st = 3 → down → m.privileged = true → Completes .sleepChoice s (m.entryAbort 3)) ∧
      (st = 3 → down → m.privileged = false → (∀ c < 32, m.link c = 4 → m.applying c = false) → CompletesWith .sleepChoice s (fun t => t.power.step = 4 ∧
        ∀ c < 32, (m.link c = 4 → t.link c = 5) ∧ (m.link c = 5 → t.link c = 5 ∧ (t.zs c).quiesceOff = true) ∧ (m.link c = 6 → t.link c = 6))) ∧
      (st = 4 → (∀ c < 32, m.link c = 0 ∨ m.link c = 6) → Completes .sleepChoice s (step m 5)) ∧
      (st = 4 → (∃ c < 32, m.link c ≠ 0 ∧ m.link c ≠ 6) → Completes .sleepChoice s m) ∧
      (st = 5 → Completes .sleepChoice s (step m 6)) ∧
      (6 ≤ st → Completes .sleepChoice s ((((step m 7).put POWER.PD_ON 0 0).put POWER.STAT_PHASE 0 2).count POWER.CNT_SLEEP).portLevels)) ∧
    (¬entering →
      let p := m.power
      (m.sleepIdle = false → Completes .sleepChoice s { m with power := { p with idleAt := 0, chosen := false } }) ∧
      (m.sleepIdle = true → p.idleAt = 0 → Completes .sleepChoice s { m with power := { p with idleAt := m.now + 1, chosen := false } }) ∧
      (m.sleepIdle = true → p.idleAt ≠ 0 → p.chosen = false → p.idleAt - 1 + 19200 * m.get POWER.IDLE_TIME ≤ m.now →
        Completes .sleepChoice s m.choose) ∧
      (m.sleepIdle = true → p.idleAt ≠ 0 → (p.chosen = true ∨ m.now < p.idleAt - 1 + 19200 * m.get POWER.IDLE_TIME) →
        Completes .sleepChoice s m)) ∧
    (let m0 := m.levelWakes
     let leaving := m0.asleep = true ∧ m0.get POWER.STAT_PHASE = 2 ∧ m0.power.wakes ≠ 0
     let exiting (k : Nat) := m0.get POWER.STAT_PHASE = 3 ∧ m0.mode ≠ mSafehold ∧ m0.power.step = k
     let m1 := step ((m0.put POWER.STAT_PHASE 0 3).powerUp.wakeBanks bad.toNat) 11
     let trained := ∀ n ∈ m0.inService, (m0.phy n).want = 0
     let filled := ∀ n ∈ m0.inService, (m0.phy n).fill = false
     (leaving → Completes (.wakeSource bad) s (if m1.flag POWER.STAT_WARN then m1.warned else m1)) ∧
     (exiting 11 → trained → Completes (.wakeSource bad) s (step (m0.wakeStacks bad.toNat) 12)) ∧
     (exiting 12 → filled → Completes (.wakeSource bad) s m0.wakeDone) ∧
     (¬leaving → ¬(exiting 11 ∧ trained) → ¬(exiting 12 ∧ filled) → Completes (.wakeSource bad) s m0)) ∧
    (let due := m.asleep = true ∧ m.power.preAt ≠ 0 ∧ m.power.preAt - 1 ≤ m.now
     (due → CompletesWith .preEventWake s (fun t => t.power.preAt = 0 ∧ t.power.wakes = m.power.wakes ||| 4)) ∧
     (¬due → Completes .preEventWake s m)) ∧
    (let due := m.mode = mSmoulder ∧ ph = 2 ∧ m.power.wakes = 0 ∧ m.power.inSvc ≠ [] ∧
       m.power.visitAt + 19200000000 * m.get POWER.SMOULDER_INT ≤ m.now
     (¬due → Completes (.smoulderVisit sh hub quad) s m) ∧
     (due → CompletesWith (.smoulderVisit sh hub quad) s (fun t =>
       let c := m.power.inSvc.getD (m.power.visitIdx % m.power.inSvc.length) 0
       t.get POWER.VISIT_CHANNEL = c % 32 ∧ t.get POWER.VISIT_HUB_TEMP = hub.toNat ∧ t.get POWER.VISIT_QUAD_TEMP = quad.toNat ∧
         t.get ZML.HUB_TEMP c = hub.toNat ∧ t.get POWER.CNT_VISIT = countUp (m.get POWER.CNT_VISIT) 1 % 2 ^ 64 ∧
         t.power.visitAt = m.now ∧ t.power.visitIdx = (m.power.visitIdx + 1) % m.power.inSvc.length ∧
         (t.power.wakes = 0 ∨ (t.power.wakes = 2 ^ 6 ∧ t.get POWER.WAKE_SOURCE = 6 ∧ t.get POWER.WAKE_CHANNEL = c % 32)))))

/-- Power domains and clocks: PD_CTL switches off only what R445 allows; a held transfer switches its domain on; gates close on idle
blocks and open for transfers; the reference is lost, counted stable and locked to, and SAFEHOLD is entered and left with it (R444 to R446,
R463, R467, R468, R470 to R475). -/
def Obligations.DomainsAndClocks : Prop :=
  ∀ (s : State) (a : BitVec 3) (v : BitVec 17) (d5 : BitVec 5) (d6 : BitVec 6) (us : BitVec 8) (safe : BitVec 32) (ps : BitVec 16),
    let m := s.m
    let d := d6.toNat
    let clocked := m.outOfReset = true ∧ m.flag CLOCK.STAT_PLL_LOCK = true ∧ m.mode ≠ mSafehold
    let known := 1 ≤ d ∧ d ≤ 40
    (m.outOfReset = true → m.mode ≠ mSafehold → CompletesWith (.pdCtlWrite a v) s (fun t =>
      t = { m.seen a.toNat with regs := t.regs } ∧ ∀ k < 17,
        let was := (m.get POWER.PD_OFF).testBit k
        let wants := v.getLsbD k
        (t.get POWER.PD_OFF).testBit k = (wants && (was || m.mayPowerOff k)) ∧
        (wants = true → was = false → m.mayPowerOff k = true → (t.get POWER.PD_ON).testBit k = false) ∧
        (wants = true → was = false → m.mayPowerOff k = false → (t.get (evField .power) 0).testBit POWER.EV_PARAM_REJECT = true ∧
          (t.get POWER.PD_ON).testBit k = (m.get POWER.PD_ON).testBit k) ∧
        (wants = false → was = true → (t.get POWER.PD_ON).testBit k =
          if m.asleep && m.get POWER.STAT_PHASE = 2 then (m.get POWER.PD_ON).testBit k else true) ∧
        (wants = was → (t.get POWER.PD_ON).testBit k = (m.get POWER.PD_ON).testBit k))) ∧
    (let held := d5.toNat < 17 ∧ m.outOfReset = true ∧ m.flag CLOCK.STAT_PLL_LOCK = true ∧
       ¬(m.asleep = true ∧ m.get POWER.STAT_PHASE = 2) ∧ (m.get POWER.PD_ON).testBit d5.toNat = false
     (¬held → Completes (.domainHeldTransfer d5) s m) ∧
     (held → CompletesWith (.domainHeldTransfer d5) s (fun t => OnlyFields m t [POWER.PD_ON.key 0, POWER.PD_OFF.key 0] ∧ ∀ k < 17,
       (t.get POWER.PD_ON).testBit k = ((m.get POWER.PD_ON).testBit k || decide (k = d5.toNat)) ∧
       (t.get POWER.PD_OFF).testBit k = ((m.get POWER.PD_OFF).testBit k && decide (k ≠ d5.toNat))))) ∧
    (let on := clocked ∧ known ∧ (m.get CLOCK.GATE_EN).testBit (d - 1) = true ∧ (m.get CLOCK.GATED).testBit (d - 1) = false
     let q := m.power.quiet
     let setQ (m : Mach) (x : Nat) : Mach := { m with power := { m.power with quiet := q.set d x } }
     (¬on → Completes (.clockGateClose d6) s m) ∧
     (on → m.domainIdle d = false → Completes (.clockGateClose d6) s (setQ m 0)) ∧
     (on → m.domainIdle d = true → q.get d = 0 → Completes (.clockGateClose d6) s (setQ m (m.now + 1))) ∧
     (on → m.domainIdle d = true → q.get d ≠ 0 →
       let cycles := m.now / 8 - (q.get d - 1) / 8
       (cycles < m.get CLOCK.GATE_IDLE → Completes (.clockGateClose d6) s m) ∧
       (m.get CLOCK.GATE_IDLE ≤ cycles → CompletesWith (.clockGateClose d6) s (fun t =>
         t = { setQ m 0 with regs := t.regs } ∧ ∀ k < 40, (t.get CLOCK.GATED).testBit k =
           ((m.get CLOCK.GATED).testBit k || decide (k = d - 1)))))) ∧
    (¬(clocked ∧ known) → Completes (.clockGateWake d6) s m) ∧
    (clocked → known → CompletesWith (.clockGateWake d6) s (fun t =>
      t = { m with regs := t.regs, power := { m.power with quiet := m.power.quiet.set d 0 } } ∧
        (∀ k < 40, (t.get CLOCK.GATED).testBit k = ((m.get CLOCK.GATED).testBit k && decide (k ≠ d - 1))) ∧
        ((m.get CLOCK.GATED).testBit (d - 1) = true → t.get CLOCK.CNT_GATE_WAKE = countUp (m.get CLOCK.CNT_GATE_WAKE) 1 % 2 ^ 64))) ∧
    (let can := m.porstN = true ∧ m.power.ref ≠ 1 ∧ known
     (¬can → Completes (.switchForced d6) s m) ∧
     (can → CompletesWith (.switchForced d6) s (fun t => t = { m with regs := t.regs } ∧ t.get CLOCK.SWITCH_DOMAIN = d ∧
       t.get CLOCK.CNT_FORCED_SWITCH = countUp (m.get CLOCK.CNT_FORCED_SWITCH) 1 % 2 ^ 64 ∧
       (t.get (evField .clock) 0).testBit CLOCK.EV_SWITCH_FORCED = true))) ∧
    (let lost := (m.unlock.event .clock 0 CLOCK.EV_REF_LOST).count CLOCK.CNT_REF_LOSS
     (m.porstN = false → Completes .refLoss s { m with power := { m.power with ref := 1 } }) ∧
     (m.porstN = true → m.power.ref = 1 → Completes .refLoss s m) ∧
     (m.porstN = true → m.power.ref ≠ 1 →
       (m.mode = mSafehold → Completes .refLoss s lost) ∧ (m.mode = mReset → Completes .refLoss s lost.startAgain) ∧
       (m.mode ≠ mSafehold → m.mode ≠ mReset → Completes .refLoss s lost.enterSafehold))) ∧
    (¬(m.porstN = true ∧ m.power.ref = 1) → Completes .refStable s m) ∧
    (m.porstN = true → m.power.ref = 1 → CompletesWith .refStable s (fun t =>
      t = { m with regs := t.regs, power := { m.power with ref := 2 } } ∧ t.flag CLOCK.STAT_REF_OK = true ∧
        (t.get (evField .clock) 0).testBit CLOCK.EV_REF_BACK = true)) ∧
    ((m.porstN = false ∨ m.power.ref ≠ 0) → Completes (.refCalibrate ps) s m) ∧
    (m.porstN = true → m.power.ref = 0 → Completes (.refCalibrate ps) s (m.put CLOCK.REF_PERIOD 0 ps.toNat)) ∧
    (let locks := m.porstN = true ∧ m.power.ref ≠ 1 ∧ m.flag CLOCK.STAT_PLL_LOCK = false
     let m1 := m.locked us.toNat
     (¬locks → Completes (.pllLock us safe) s m) ∧
     (locks → m.mode = mSafehold → Completes (.pllLock us safe) s (m1.leaveSafehold safe.toNat)) ∧
     (locks → m.mode ≠ mSafehold → CompletesWith (.pllLock us safe) s (fun t =>
       t = { m with regs := t.regs, power := { m.power with ref := 0 } } ∧ t.flag CLOCK.STAT_PLL_LOCK = true ∧
         t.flag CLOCK.STAT_BYPASS = false ∧ t.get CLOCK.LOCK_TIME = us.toNat ∧
         t.get GLOBAL.STAT_BOOT_STEP = (if m.outOfReset && m.get GLOBAL.STAT_BOOT_STEP = 2 then 3 else m.get GLOBAL.STAT_BOOT_STEP))))

/-- Every queue of well-formed commands is served to its end: as many steps as commands wait, each of which answers a next state, and then
none waits. No command of the table is left without an effect (the queue is the model's choice, log entry 1). -/
def Obligations.WellFormedQueuesAreServed : Prop :=
  ∀ s : State, (∀ c ∈ s.pending, c.wf = true) → ∃ t : State, Sys2Proof.core.run s.pending.length s = .next t ∧ t.pending = []

/-- A step takes the command at the front, in order, and adds none; a queue of well-formed commands stays one; no step faults; and a
step refuses only a command whose operands name a lane that no stack has (the queue is the model's choice, log entry 1). -/
def Obligations.CommandsAreTakenInOrder : Prop :=
  (∀ s t : State, step s = .next t → t.pending = s.pending.tail ∧ ((∀ c ∈ s.pending, c.wf = true) → ∀ c ∈ t.pending, c.wf = true)) ∧
    (∀ (s : State) (f : Fault), step s ≠ .fault f) ∧
    ∀ (s : State) (r : Refusal), step s = .refused r → r = .illFormed ∧ ∃ c rest, s.pending = c :: rest ∧ c.wf = false

/-- A command whose operands name a lane that no stack has is refused and changes nothing; with lanes of the stack it completes (R302). -/
def Obligations.UnknownLanesAreRefused : Prop :=
  ∀ (s : State) (a : BitVec 3) (n : BitVec 1) (kill ok need : Bool) (b r : BitVec 4) (bin mode : BitVec 2) (imt : BitVec 8)
    (mmt dur : BitVec 16) (ls : List LaneIn) (errs : List (BitVec 13 × BitVec 32)),
    let stops (c : Instr) : Prop := exec c s = .refused .illFormed
    let known (k : Nat) : Prop := (k / 4096 % 2 = 0 ∧ k / 64 % 64 < 32 ∧ k % 64 < 36) ∨ (k / 4096 % 2 = 1 ∧ k / 64 % 64 < 16 ∧ k % 64 < 19)
    ((∃ x ∈ ls, ¬known x.key.toNat) → stops (.fullTraining n kill b r bin need imt mmt ls) ∧ stops (.resumeTraining n ok ls) ∧
      stops (.retrainUnit n ls) ∧ stops (.repairUnit n ls)) ∧
    ((∃ x ∈ errs, ¬known x.1.toNat) → stops (.loopbackTest a n mode dur errs))

/-- At reset every register reads its reset value, CORE_VERSION 0x0003_0002 among them; the Core is in RESET with PORST_N asserted; nothing waits;
and the tables are canonical (R1, R434, R478). -/
def Obligations.ResetHoldsResetValues : Prop :=
  (∀ (f : Field) (n : Nat), State.reset.m.get f n = f.reset Integration.defaults n) ∧
    State.reset.m.get GLOBAL.CORE_VERSION = 0x00030002 ∧ State.reset.m.mode = mReset ∧ State.reset.m.porstN = false ∧
    State.reset.pending = [] ∧ State.reset.safe = true

/-- Registers are apart: a field reads back what was last written to it, cut to its width; no other field changes; two fields share a place only
if they are one place of one page's register; a page number names its page (R477, R483). -/
def Obligations.RegistersAreApart : Prop :=
  (∀ (m : Mach) (f : Field) (n v : Nat), (m.put f n v).get f n = v % 2 ^ f.w ∧ m.put f n v = { m with regs := (m.put f n v).regs } ∧
    ∀ (g : Field) (k : Nat), g.key k ≠ f.key n → (m.put f n v).get g k = m.get g k) ∧
  (∀ (f g : Field) (n k : Nat), f.off < 4096 → g.off < 4096 → f.lo < 64 → g.lo < 64 → n < f.page.count → k < g.page.count →
    f.key n = g.key k → f.page = g.page ∧ n = k ∧ f.off / 8 = g.off / 8 ∧ f.lo = g.lo) ∧
  ∀ (p : Page) (n : Nat), n < p.count → Page.ofNumber (p.number n) = some (p, n)

/-- The tables of registers and Hearth lines keep their canonical form under these commands (the form is the model's own). -/
def Obligations.TablesStayCanonical : Prop :=
  ∀ (s : State) (a k : BitVec 3) (v : Word) (v8 : BitVec 8) (seq : BitVec 16) (v17 : BitVec 17) (d5 : BitVec 5) (d6 : BitVec 6) (ps : BitVec 16)
    (mv : BitVec 10), s.safe = true →
    let keeps (c : Instr) : Prop := ∀ t, exec c s = .next t → t.safe = true
    keeps .tbAliveToggle ∧ keeps .timebaseLost ∧ keeps .guaranteedPortionEnd ∧ keeps (.entRead a) ∧ keeps (.entClear a) ∧
      keeps (.entWrite a) ∧ keeps (.logPop a) ∧ keeps (.loomReserveWrite a mv) ∧ keeps (.latchRead a k) ∧ keeps (.latchRel a v8) ∧
      keeps (.latchLeaseExpire k) ∧ keeps (.postNotice a k v) ∧ keeps (.withdrawPost a k) ∧ keeps (.postOutAck a k seq) ∧
      keeps (.postInTimeout k) ∧ keeps (.postOutTimeout k) ∧ keeps (.glnGo a) ∧ keeps (.glnAbort a) ∧ keeps (.pdCtlWrite a v17) ∧
      keeps (.domainHeldTransfer d5) ∧ keeps (.clockGateClose d6) ∧ keeps (.clockGateWake d6) ∧ keeps (.switchForced d6) ∧
      keeps .refStable ∧ keeps (.refCalibrate ps) ∧ keeps .fullWaitExpire ∧ keeps .porstAssert ∧ keeps .srstAssert ∧
      keeps .porstRelease ∧ keeps .srstRelease ∧ keeps .preEventWake ∧ keeps .collierWatchdog

/-- In a NONE unit, line l lies at line position l of segment SEG, bits [54:28] of the entry, on channel CHAN, its bits [59:55] (R183). -/
def Obligations.NoneUnitPlacement : Prop :=
  ∀ e l : Nat, e / 2 ^ 60 % 16 = 1 → copiesOf e l = [(e / 2 ^ 55 % 32, e / 2 ^ 28 % 2 ^ 27, l)]

/-- A command that reaches an entry which has fired: CLEAR answers ALREADY_DONE and changes nothing else, and WRITE stores the new entry with
status DONE, the fire log keeping the old one's record (R47). -/
def Obligations.CommandsOnFiredEntries : Prop :=
  ∀ (s : State) (a : BitVec 3), s.m.cfgOpen .alm 0 → s.m.get ALM.ENT_STAT ≠ 3 → s.m.inReserve (s.m.get ALM.ENT_SEL) = false →
    (s.m.alm.sched.get (s.m.get ALM.ENT_SEL)).kind = .free →
    CompletesWith (.entClear a) s (fun t => t.get ALM.ENT_STAT = 1 ∧ t.alm = s.m.alm ∧
      OnlyFields (s.m.seen a.toNat) t [ALM.ENT_STAT.key 0, ALM.ENT_STAT_VALID.key 0]) ∧
    (EntKind.ofCode (s.m.get ALM.ENT_CTL) ≠ .free → EntKind.ofCode (s.m.get ALM.ENT_CTL) ≠ .playDue →
      CompletesWith (.entWrite a) s (fun t => t.get ALM.ENT_STAT = 0 ∧ t.alm.log = s.m.alm.log ∧
        (t.alm.sched.get (s.m.get ALM.ENT_SEL)).kind = EntKind.ofCode (s.m.get ALM.ENT_CTL) ∧
        (t.alm.sched.get (s.m.get ALM.ENT_SEL)).tick = BitVec.ofNat 64 (s.m.get ALM.ENT_TICK) ∧
        (t.alm.sched.get (s.m.get ALM.ENT_SEL)).arg = BitVec.ofNat 64 (s.m.get ALM.ENT_ARG)))

/-- In a bundle, stripe s holds its parity line at position 15 - (s mod 16) of its group and data line d at position p + 1 + d mod 16, each
of the sixteen lines on a channel of its own; line l of the unit is data line l mod 15 of stripe l / 15 (R185). -/
def Obligations.BundlePlacement : Prop :=
  (∀ g s d : Nat, d < 15 → bundleChan g s 15 = 16 * g + (15 - s % 16) ∧ bundleChan g s d = 16 * g + ((15 - s % 16) + 1 + d) % 16) ∧
    (∀ g s c d : Nat, c < 16 → d < 16 → bundleChan g s c = bundleChan g s d → c = d) ∧
    (∀ g s c : Nat, 16 * g ≤ c → c < 16 * g + 16 → ∃ d < 16, bundleChan g s d = c) ∧
    ∀ e l : Nat, e / 2 ^ 60 % 16 = 3 → copiesOf e l = [(bundleChan (e / 2 ^ 55 % 2) (l / 15) (l % 15), e / 2 ^ 28 % 2 ^ 27, l / 15)]

end
end

