-- ==== Sys2Proof/Laws/Exec.lean ====
section
/-! SUPPORT. What the dispatcher does with each command: one direct call of its meaning. -/
namespace Sys2Proof.Machine

variable (s : State)

@[simp] theorem exec_cfgWrite (a : BitVec 3) (addr : BitVec 24) (full : Bool) (v : Word) : exec (.cfgWrite a addr full v) s = execCfgWrite a addr full v s := rfl
@[simp] theorem exec_rcRead (a : BitVec 3) (addr : BitVec 24) (full : Bool) : exec (.rcRead a addr full) s = execRcRead a addr full s := rfl
@[simp] theorem exec_eventClearWrite (a : BitVec 3) (pg : BitVec 12) (v : Word) : exec (.eventClearWrite a pg v) s = execEventClearWrite a pg v s := rfl
@[simp] theorem exec_eventSet (a : BitVec 3) (pg : BitVec 12) (v : Word) : exec (.eventSet a pg v) s = execEventSet a pg v s := rfl
@[simp] theorem exec_timebaseTick (adv : BitVec 3) : exec (.timebaseTick adv) s = execTimebaseTick adv s := rfl
@[simp] theorem exec_tbLoad (v : Tick) (adv : BitVec 3) : exec (.tbLoad v adv) s = execTbLoad v adv s := rfl
@[simp] theorem exec_tbAliveToggle : exec (.tbAliveToggle) s = execTbAliveToggle s := rfl
@[simp] theorem exec_timebaseLost : exec (.timebaseLost) s = execTimebaseLost s := rfl
@[simp] theorem exec_almEntryFire : exec (.almEntryFire) s = execAlmEntryFire s := rfl
@[simp] theorem exec_entWrite (a : BitVec 3) : exec (.entWrite a) s = execEntWrite a s := rfl
@[simp] theorem exec_entClear (a : BitVec 3) : exec (.entClear a) s = execEntClear a s := rfl
@[simp] theorem exec_entRead (a : BitVec 3) : exec (.entRead a) s = execEntRead a s := rfl
@[simp] theorem exec_logPop (a : BitVec 3) : exec (.logPop a) s = execLogPop a s := rfl
@[simp] theorem exec_loomReserveWrite (a : BitVec 3) (v : BitVec 10) : exec (.loomReserveWrite a v) s = execLoomReserveWrite a v s := rfl
@[simp] theorem exec_guaranteedPortionEnd : exec (.guaranteedPortionEnd) s = execGuaranteedPortionEnd s := rfl
@[simp] theorem exec_periodEnd : exec (.periodEnd) s = execPeriodEnd s := rfl
@[simp] theorem exec_reqAccept (port : BitVec 4) (op : BitVec 5) (tag : BitVec 12) (oid : BitVec 6) (addr : BitVec 60) (len : BitVec 6) (cls : BitVec 3) (attr : BitVec 8) : exec (.reqAccept port op tag oid addr len cls attr) s = execReqAccept port op tag oid addr len cls attr s := rfl
@[simp] theorem exec_read (port : BitVec 4) (tag : BitVec 12) (k : BitVec 4) : exec (.read port tag k) s = execRead port tag k s := rfl
@[simp] theorem exec_write (port : BitVec 4) (tag : BitVec 12) (k : BitVec 4) : exec (.write port tag k) s = execWrite port tag k s := rfl
@[simp] theorem exec_writeMasked (port : BitVec 4) (tag : BitVec 12) (k : BitVec 4) : exec (.writeMasked port tag k) s = execWriteMasked port tag k s := rfl
@[simp] theorem exec_fence (port : BitVec 4) (tag : BitVec 12) : exec (.fence port tag) s = execFence port tag s := rfl
@[simp] theorem exec_persist (port : BitVec 4) (tag : BitVec 12) : exec (.persist port tag) s = execPersist port tag s := rfl
@[simp] theorem exec_persistNs (port : BitVec 4) (tag : BitVec 12) : exec (.persistNs port tag) s = execPersistNs port tag s := rfl
@[simp] theorem exec_append (port : BitVec 4) (tag : BitVec 12) : exec (.append port tag) s = execAppend port tag s := rfl
@[simp] theorem exec_clearPoison (port : BitVec 4) (tag : BitVec 12) (k : BitVec 4) : exec (.clearPoison port tag k) s = execClearPoison port tag k s := rfl
@[simp] theorem exec_prefetch (port : BitVec 4) (tag : BitVec 12) (k : BitVec 4) : exec (.prefetch port tag k) s = execPrefetch port tag k s := rfl
@[simp] theorem exec_zero (port : BitVec 4) (tag : BitVec 12) (k : BitVec 4) : exec (.zero port tag k) s = execZero port tag k s := rfl
@[simp] theorem exec_wdatBeat (port : BitVec 4) (data : Beat) (be : ByteEn) (last : Bool) : exec (.wdatBeat port data be last) s = execWdatBeat port data be last s := rfl
@[simp] theorem exec_intakePresent (port : BitVec 4) : exec (.intakePresent port) s = execIntakePresent port s := rfl
@[simp] theorem exec_portMeterHoldRelease (p : BitVec 4) : exec (.portMeterHoldRelease p) s = execPortMeterHoldRelease p s := rfl
@[simp] theorem exec_classMeterHoldRelease (c : BitVec 3) : exec (.classMeterHoldRelease c) s = execClassMeterHoldRelease c s := rfl
@[simp] theorem exec_shaperRelease (c : BitVec 3) : exec (.shaperRelease c) s = execShaperRelease c s := rfl
@[simp] theorem exec_rspBeat (port : BitVec 4) (tag : BitVec 12) : exec (.rspBeat port tag) s = execRspBeat port tag s := rfl
@[simp] theorem exec_plyPush (port : BitVec 4) : exec (.plyPush port) s = execPlyPush port s := rfl
@[simp] theorem exec_plyCredit (port : BitVec 4) : exec (.plyCredit port) s = execPlyCredit port s := rfl
@[simp] theorem exec_urgChange (port : BitVec 4) (v : BitVec 2) : exec (.urgChange port v) s = execUrgChange port v s := rfl
@[simp] theorem exec_urgFallExpire (port : BitVec 4) : exec (.urgFallExpire port) s = execUrgFallExpire port s := rfl
@[simp] theorem exec_pclkSelWrite (a : BitVec 3) (port : BitVec 4) (v : BitVec 2) : exec (.pclkSelWrite a port v) s = execPclkSelWrite a port v s := rfl
@[simp] theorem exec_portEnableWrite (a : BitVec 3) (port : BitVec 4) (en : BitVec 1) : exec (.portEnableWrite a port en) s = execPortEnableWrite a port en s := rfl
@[simp] theorem exec_gfenceGo (a : BitVec 3) : exec (.gfenceGo a) s = execGfenceGo a s := rfl
@[simp] theorem exec_gfenceDone : exec (.gfenceDone) s = execGfenceDone s := rfl
@[simp] theorem exec_persistComplete (port : BitVec 4) (tag : BitVec 12) : exec (.persistComplete port tag) s = execPersistComplete port tag s := rfl
@[simp] theorem exec_nsBroadcast : exec (.nsBroadcast) s = execNsBroadcast s := rfl
@[simp] theorem exec_heldTimeout (port : BitVec 4) (tag : BitVec 12) : exec (.heldTimeout port tag) s = execHeldTimeout port tag s := rfl
@[simp] theorem exec_rangeHoldDrainDone : exec (.rangeHoldDrainDone) s = execRangeHoldDrainDone s := rfl
@[simp] theorem exec_streamStart (a : BitVec 3) (k : BitVec 5) : exec (.streamStart a k) s = execStreamStart a k s := rfl
@[simp] theorem exec_streamStop (a : BitVec 3) (k : BitVec 5) : exec (.streamStop a k) s = execStreamStop a k s := rfl
@[simp] theorem exec_streamArm (a : BitVec 3) (k : BitVec 5) : exec (.streamArm a k) s = execStreamArm a k s := rfl
@[simp] theorem exec_streamDisarm (a : BitVec 3) (k : BitVec 5) : exec (.streamDisarm a k) s = execStreamDisarm a k s := rfl
@[simp] theorem exec_streamRelease (a : BitVec 3) (k : BitVec 5) : exec (.streamRelease a k) s = execStreamRelease a k s := rfl
@[simp] theorem exec_trigEdge (levels : BitVec 8) : exec (.trigEdge levels) s = execTrigEdge levels s := rfl
@[simp] theorem exec_spillSlotMove (k : BitVec 5) : exec (.spillSlotMove k) s = execSpillSlotMove k s := rfl
@[simp] theorem exec_spillDrain (k : BitVec 5) : exec (.spillDrain k) s = execSpillDrain k s := rfl
@[simp] theorem exec_spillExit (k : BitVec 5) : exec (.spillExit k) s = execSpillExit k s := rfl
@[simp] theorem exec_padTimeout (k : BitVec 5) : exec (.padTimeout k) s = execPadTimeout k s := rfl
@[simp] theorem exec_runaheadMap (k : BitVec 5) : exec (.runaheadMap k) s = execRunaheadMap k s := rfl
@[simp] theorem exec_tailAdvance (k : BitVec 5) : exec (.tailAdvance k) s = execTailAdvance k s := rfl
@[simp] theorem exec_commitRecordWrite (k : BitVec 5) : exec (.commitRecordWrite k) s = execCommitRecordWrite k s := rfl
@[simp] theorem exec_streamCommitted (k : BitVec 5) : exec (.streamCommitted k) s = execStreamCommitted k s := rfl
@[simp] theorem exec_seqLoad (a : BitVec 3) (k : BitVec 4) : exec (.seqLoad a k) s = execSeqLoad a k s := rfl
@[simp] theorem exec_listLoadDone (k : BitVec 4) : exec (.listLoadDone k) s = execListLoadDone k s := rfl
@[simp] theorem exec_seqStart (a : BitVec 3) (k : BitVec 4) : exec (.seqStart a k) s = execSeqStart a k s := rfl
@[simp] theorem exec_seqStop (a : BitVec 3) (k : BitVec 4) : exec (.seqStop a k) s = execSeqStop a k s := rfl
@[simp] theorem exec_seqUnload (a : BitVec 3) (k : BitVec 4) : exec (.seqUnload a k) s = execSeqUnload a k s := rfl
@[simp] theorem exec_predClear (a : BitVec 3) (k : BitVec 4) : exec (.predClear a k) s = execPredClear a k s := rfl
@[simp] theorem exec_loomWalk (k : BitVec 4) : exec (.loomWalk k) s = execLoomWalk k s := rfl
@[simp] theorem exec_loomDueIssue (k : BitVec 4) : exec (.loomDueIssue k) s = execLoomDueIssue k s := rfl
@[simp] theorem exec_branchResolve (k : BitVec 4) (cond : BitVec 16) : exec (.branchResolve k cond) s = execBranchResolve k cond s := rfl
@[simp] theorem exec_listDone (k : BitVec 4) : exec (.listDone k) s = execListDone k s := rfl
@[simp] theorem exec_listRestore (k : BitVec 4) : exec (.listRestore k) s = execListRestore k s := rfl
@[simp] theorem exec_stripeUpdate : exec (.stripeUpdate) s = execStripeUpdate s := rfl
@[simp] theorem exec_woodshedFormat (c : BitVec 5) : exec (.woodshedFormat c) s = execWoodshedFormat c s := rfl
@[simp] theorem exec_deltaLineTimeout : exec (.deltaLineTimeout) s = execDeltaLineTimeout s := rfl
@[simp] theorem exec_ckptGo (a : BitVec 3) : exec (.ckptGo a) s = execCkptGo a s := rfl
@[simp] theorem exec_ckptIntervalExpire : exec (.ckptIntervalExpire) s = execCkptIntervalExpire s := rfl
@[simp] theorem exec_ckptDone : exec (.ckptDone) s = execCkptDone s := rfl
@[simp] theorem exec_reclaimVisit : exec (.reclaimVisit) s = execReclaimVisit s := rfl
@[simp] theorem exec_rotShiftStart : exec (.rotShiftStart) s = execRotShiftStart s := rfl
@[simp] theorem exec_rotMove : exec (.rotMove) s = execRotMove s := rfl
@[simp] theorem exec_migrateCopy : exec (.migrateCopy) s = execMigrateCopy s := rfl
@[simp] theorem exec_migrateSwitch : exec (.migrateSwitch) s = execMigrateSwitch s := rfl
@[simp] theorem exec_driftClockTick : exec (.driftClockTick) s = execDriftClockTick s := rfl
@[simp] theorem exec_rewriteLine : exec (.rewriteLine) s = execRewriteLine s := rfl
@[simp] theorem exec_canaryProgram (c : BitVec 5) (k : BitVec 3) : exec (.canaryProgram c k) s = execCanaryProgram c k s := rfl
@[simp] theorem exec_canarySample : exec (.canarySample) s = execCanarySample s := rfl
@[simp] theorem exec_ageEstimate (store : BitVec 48) : exec (.ageEstimate store) s = execAgeEstimate store s := rfl
@[simp] theorem exec_rdataReceive (c : BitVec 5) : exec (.rdataReceive c) s = execRdataReceive c s := rfl
@[simp] theorem exec_hearthLineReturn (n : BitVec 1) (xd : Line) (xt xm : BitVec 32) : exec (.hearthLineReturn n xd xt xm) s = execHearthLineReturn n xd xt xm s := rfl
@[simp] theorem exec_flipArm (a : BitVec 3) (v : BitVec 28) : exec (.flipArm a v) s = execFlipArm a v s := rfl
@[simp] theorem exec_glnGo (a : BitVec 3) : exec (.glnGo a) s = execGlnGo a s := rfl
@[simp] theorem exec_glnAbort (a : BitVec 3) : exec (.glnAbort a) s = execGlnAbort a s := rfl
@[simp] theorem exec_gleanerVisit : exec (.gleanerVisit) s = execGleanerVisit s := rfl
@[simp] theorem exec_gleanerPassEnd : exec (.gleanerPassEnd) s = execGleanerPassEnd s := rfl
@[simp] theorem exec_hearthCommandIssue (n : BitVec 1) (pc : BitVec 5) : exec (.hearthCommandIssue n pc) s = execHearthCommandIssue n pc s := rfl
@[simp] theorem exec_hearthQavgUpdate (n : BitVec 1) : exec (.hearthQavgUpdate n) s = execHearthQavgUpdate n s := rfl
@[simp] theorem exec_refreshDue (n : BitVec 1) (pc : BitVec 5) : exec (.refreshDue n pc) s = execRefreshDue n pc s := rfl
@[simp] theorem exec_hearthTempRead (n : BitVec 1) (temp : BitVec 8) : exec (.hearthTempRead n temp) s = execHearthTempRead n temp s := rfl
@[simp] theorem exec_powerDownEntry (n : BitVec 1) (pc : BitVec 5) : exec (.powerDownEntry n pc) s = execPowerDownEntry n pc s := rfl
@[simp] theorem exec_hearthFill (n : BitVec 1) (k : BitVec 29) : exec (.hearthFill n k) s = execHearthFill n k s := rfl
@[simp] theorem exec_hearthFillDone (n : BitVec 1) : exec (.hearthFillDone n) s = execHearthFillDone n s := rfl
@[simp] theorem exec_writebackStart : exec (.writebackStart) s = execWritebackStart s := rfl
@[simp] theorem exec_writebackDone (e : BitVec 18) : exec (.writebackDone e) s = execWritebackDone e s := rfl
@[simp] theorem exec_sweepLine : exec (.sweepLine) s = execSweepLine s := rfl
@[simp] theorem exec_layoutApply (a : BitVec 3) : exec (.layoutApply a) s = execLayoutApply a s := rfl
@[simp] theorem exec_timingApply (a : BitVec 3) (n : BitVec 1) : exec (.timingApply a n) s = execTimingApply a n s := rfl
@[simp] theorem exec_stackFail (n : BitVec 1) (errs : BitVec 8) : exec (.stackFail n errs) s = execStackFail n errs s := rfl
@[simp] theorem exec_fullTraining (n : BitVec 1) (kill : Bool) (b r : BitVec 4) (bin : BitVec 2) (need : Bool) (imt : BitVec 8) (mmt : BitVec 16) (ls : List LaneIn) : exec (.fullTraining n kill b r bin need imt mmt ls) s = execFullTraining n kill b r bin need imt mmt ls s := rfl
@[simp] theorem exec_resumeTraining (n : BitVec 1) (ok : Bool) (ls : List LaneIn) : exec (.resumeTraining n ok ls) s = execResumeTraining n ok ls s := rfl
@[simp] theorem exec_retrainRoundDue (n : BitVec 1) : exec (.retrainRoundDue n) s = execRetrainRoundDue n s := rfl
@[simp] theorem exec_retrainUnit (n : BitVec 1) (ls : List LaneIn) : exec (.retrainUnit n ls) s = execRetrainUnit n ls s := rfl
@[simp] theorem exec_repairUnit (n : BitVec 1) (ls : List LaneIn) : exec (.repairUnit n ls) s = execRepairUnit n ls s := rfl
@[simp] theorem exec_retrainOverdue (n : BitVec 1) : exec (.retrainOverdue n) s = execRetrainOverdue n s := rfl
@[simp] theorem exec_loopbackTest (a : BitVec 3) (n : BitVec 1) (mode : BitVec 2) (dur : BitVec 16) (errs : List (BitVec 13 × BitVec 32)) : exec (.loopbackTest a n mode dur errs) s = execLoopbackTest a n mode dur errs s := rfl
@[simp] theorem exec_t1500Go (a : BitVec 3) (n : BitVec 1) (out : Word) : exec (.t1500Go a n out) s = execT1500Go a n out s := rfl
@[simp] theorem exec_codewordReceive (c : BitVec 5) (ok : Bool) (hdr : BitVec 20) (f0 f1 f2 f3 f4 : BitVec 1024) (corr : List (BitVec 10)) : exec (.codewordReceive c ok hdr f0 f1 f2 f3 f4 corr) s = execCodewordReceive c ok hdr f0 f1 f2 f3 f4 corr s := rfl
@[simp] theorem exec_flitReceive (c : BitVec 5) : exec (.flitReceive c) s = execFlitReceive c s := rfl
@[simp] theorem exec_nakRepeat (c : BitVec 5) : exec (.nakRepeat c) s = execNakRepeat c s := rfl
@[simp] theorem exec_replayTimeout (c : BitVec 5) : exec (.replayTimeout c) s = execReplayTimeout c s := rfl
@[simp] theorem exec_padFlitTimeout (c : BitVec 5) (vc : BitVec 3) : exec (.padFlitTimeout c vc) s = execPadFlitTimeout c vc s := rfl
@[simp] theorem exec_hubRsp (c : BitVec 5) : exec (.hubRsp c) s = execHubRsp c s := rfl
@[simp] theorem exec_status (c : BitVec 5) : exec (.status c) s = execStatus c s := rfl
@[simp] theorem exec_hubHoldTimeout (c : BitVec 5) : exec (.hubHoldTimeout c) s = execHubHoldTimeout c s := rfl
@[simp] theorem exec_sidebandFrame (c : BitVec 5) (half : BitVec 30) : exec (.sidebandFrame c half) s = execSidebandFrame c half s := rfl
@[simp] theorem exec_heartbeatToggle (c : BitVec 5) : exec (.heartbeatToggle c) s = execHeartbeatToggle c s := rfl
@[simp] theorem exec_timeMarkSend (c : BitVec 5) : exec (.timeMarkSend c) s = execTimeMarkSend c s := rfl
@[simp] theorem exec_linkDetect (c : BitVec 5) : exec (.linkDetect c) s = execLinkDetect c s := rfl
@[simp] theorem exec_linkOff (c : BitVec 5) : exec (.linkOff c) s = execLinkOff c s := rfl
@[simp] theorem exec_linkTraining (c : BitVec 5) (step : BitVec 3) (faults : BitVec 8) (params1 params2 status : Word) (info0 info1 drift0 drift1 : Line) : exec (.linkTraining c step faults params1 params2 status info0 info1 drift0 drift1) s = execLinkTraining c step faults params1 params2 status info0 info1 drift0 drift1 s := rfl
@[simp] theorem exec_laneFault (c : BitVec 5) (faults : BitVec 8) (cdr : Bool) : exec (.laneFault c faults cdr) s = execLaneFault c faults cdr s := rfl
@[simp] theorem exec_laneErrInterval (c : BitVec 5) : exec (.laneErrInterval c) s = execLaneErrInterval c s := rfl
@[simp] theorem exec_commandTimeout (c : BitVec 5) : exec (.commandTimeout c) s = execCommandTimeout c s := rfl
@[simp] theorem exec_quiesceDone (c : BitVec 5) : exec (.quiesceDone c) s = execQuiesceDone c s := rfl
@[simp] theorem exec_quiesceTimeout (c : BitVec 5) : exec (.quiesceTimeout c) s = execQuiesceTimeout c s := rfl
@[simp] theorem exec_hubReadyTimeout (c : BitVec 5) : exec (.hubReadyTimeout c) s = execHubReadyTimeout c s := rfl
@[simp] theorem exec_zmlRetrain (a : BitVec 3) (c : BitVec 5) : exec (.zmlRetrain a c) s = execZmlRetrain a c s := rfl
@[simp] theorem exec_zmlWiden (a : BitVec 3) (c : BitVec 5) : exec (.zmlWiden a c) s = execZmlWiden a c s := rfl
@[simp] theorem exec_resetHub (a : BitVec 3) (c : BitVec 5) : exec (.resetHub a c) s = execResetHub a c s := rfl
@[simp] theorem exec_trimTempSample (quad : BitVec 3) (temp : BitVec 8) : exec (.trimTempSample quad temp) s = execTrimTempSample quad temp s := rfl
@[simp] theorem exec_trimApplyCmd (a : BitVec 3) (c : BitVec 5) : exec (.trimApplyCmd a c) s = execTrimApplyCmd a c s := rfl
@[simp] theorem exec_trimApplication (c : BitVec 5) : exec (.trimApplication c) s = execTrimApplication c s := rfl
@[simp] theorem exec_eyeScan (c : BitVec 5) (lane : BitVec 2) (widths heights : List (List (BitVec 17))) : exec (.eyeScan c lane widths heights) s = execEyeScan c lane widths heights s := rfl
@[simp] theorem exec_feedbackUpdate : exec (.feedbackUpdate) s = execFeedbackUpdate s := rfl
@[simp] theorem exec_debtClear (a : BitVec 3) (c : BitVec 3) : exec (.debtClear a c) s = execDebtClear a c s := rfl
@[simp] theorem exec_commit (a : BitVec 3) : exec (.commit a) s = execCommit a s := rfl
@[simp] theorem exec_shortfallWalk : exec (.shortfallWalk) s = execShortfallWalk s := rfl
@[simp] theorem exec_trainOutage100us (c : BitVec 5) : exec (.trainOutage100us c) s = execTrainOutage100us c s := rfl
@[simp] theorem exec_shortBytesAccrue : exec (.shortBytesAccrue) s = execShortBytesAccrue s := rfl
@[simp] theorem exec_sampleTick : exec (.sampleTick) s = execSampleTick s := rfl
@[simp] theorem exec_sampSelWrite (a : BitVec 3) (k : BitVec 2) (v : BitVec 17) : exec (.sampSelWrite a k v) s = execSampSelWrite a k v s := rfl
@[simp] theorem exec_rotaHDecision (n : BitVec 1) : exec (.rotaHDecision n) s = execRotaHDecision n s := rfl
@[simp] theorem exec_rotaMTxDecision (c : BitVec 5) (adv : BitVec 7) : exec (.rotaMTxDecision c adv) s = execRotaMTxDecision c adv s := rfl
@[simp] theorem exec_rotaMRxDecision (c : BitVec 5) (adv : BitVec 7) : exec (.rotaMRxDecision c adv) s = execRotaMRxDecision c adv s := rfl
@[simp] theorem exec_withdraw (a : BitVec 6) (rx : Bool) : exec (.withdraw a rx) s = execWithdraw a rx s := rfl
@[simp] theorem exec_restartHoldEnd (c : BitVec 5) : exec (.restartHoldEnd c) s = execRestartHoldEnd c s := rfl
@[simp] theorem exec_latchRead (a k : BitVec 3) : exec (.latchRead a k) s = execLatchRead a k s := rfl
@[simp] theorem exec_latchRel (a : BitVec 3) (v : BitVec 8) : exec (.latchRel a v) s = execLatchRel a v s := rfl
@[simp] theorem exec_latchLeaseExpire (k : BitVec 3) : exec (.latchLeaseExpire k) s = execLatchLeaseExpire k s := rfl
@[simp] theorem exec_postNotice (a k : BitVec 3) (v : Word) : exec (.postNotice a k v) s = execPostNotice a k v s := rfl
@[simp] theorem exec_serviceCycle (us : BitVec 16) : exec (.serviceCycle us) s = execServiceCycle us s := rfl
@[simp] theorem exec_postInTimeout (k : BitVec 3) : exec (.postInTimeout k) s = execPostInTimeout k s := rfl
@[simp] theorem exec_withdrawPost (a k : BitVec 3) : exec (.withdrawPost a k) s = execWithdrawPost a k s := rfl
@[simp] theorem exec_postOutAck (a k : BitVec 3) (seq : BitVec 16) : exec (.postOutAck a k seq) s = execPostOutAck a k seq s := rfl
@[simp] theorem exec_postOutTimeout (k : BitVec 3) : exec (.postOutTimeout k) s = execPostOutTimeout k s := rfl
@[simp] theorem exec_pwDataRead (a : BitVec 3) : exec (.pwDataRead a) s = execPwDataRead a s := rfl
@[simp] theorem exec_pwDataWrite (a : BitVec 3) (v : Word) : exec (.pwDataWrite a v) s = execPwDataWrite a v s := rfl
@[simp] theorem exec_cancel (a : BitVec 3) (seq : BitVec 32) : exec (.cancel a seq) s = execCancel a seq s := rfl
@[simp] theorem exec_nsCreate : exec (.nsCreate) s = execNsCreate s := rfl
@[simp] theorem exec_nsDelete : exec (.nsDelete) s = execNsDelete s := rfl
@[simp] theorem exec_nsQuery : exec (.nsQuery) s = execNsQuery s := rfl
@[simp] theorem exec_nsResize : exec (.nsResize) s = execNsResize s := rfl
@[simp] theorem exec_sessionPurge : exec (.sessionPurge) s = execSessionPurge s := rfl
@[simp] theorem exec_checkpoint : exec (.checkpoint) s = execCheckpoint s := rfl
@[simp] theorem exec_rangeHold : exec (.rangeHold) s = execRangeHold s := rfl
@[simp] theorem exec_rangeRelease : exec (.rangeRelease) s = execRangeRelease s := rfl
@[simp] theorem exec_health : exec (.health) s = execHealth s := rfl
@[simp] theorem exec_errlogRead : exec (.errlogRead) s = execErrlogRead s := rfl
@[simp] theorem exec_fwStage : exec (.fwStage) s = execFwStage s := rfl
@[simp] theorem exec_fwActivate (outcome : BitVec 2) : exec (.fwActivate outcome) s = execFwActivate outcome s := rfl
@[simp] theorem exec_trimCapture (sets : List TrimIn) : exec (.trimCapture sets) s = execTrimCapture sets s := rfl
@[simp] theorem exec_trimLoad : exec (.trimLoad) s = execTrimLoad s := rfl
@[simp] theorem exec_hubInfo : exec (.hubInfo) s = execHubInfo s := rfl
@[simp] theorem exec_retireQuery : exec (.retireQuery) s = execRetireQuery s := rfl
@[simp] theorem exec_scrubRequest : exec (.scrubRequest) s = execScrubRequest s := rfl
@[simp] theorem exec_bootGo (a : BitVec 3) : exec (.bootGo a) s = execBootGo a s := rfl
@[simp] theorem exec_collierBoot : exec .collierBoot s = execCollierBoot s := rfl
@[simp] theorem exec_collierWatchdog : exec (.collierWatchdog) s = execCollierWatchdog s := rfl
@[simp] theorem exec_agentRst (n : BitVec 3) (on : Bool) : exec (.agentRst n on) s = execAgentRst n on s := rfl
@[simp] theorem exec_porstAssert : exec (.porstAssert) s = execPorstAssert s := rfl
@[simp] theorem exec_srstAssert : exec (.srstAssert) s = execSrstAssert s := rfl
@[simp] theorem exec_porstRelease : exec (.porstRelease) s = execPorstRelease s := rfl
@[simp] theorem exec_srstRelease : exec (.srstRelease) s = execSrstRelease s := rfl
@[simp] theorem exec_startKindDecide (root : Bool) : exec (.startKindDecide root) s = execStartKindDecide root s := rfl
@[simp] theorem exec_mapReplay (x : MapIn) : exec (.mapReplay x) s = execMapReplay x s := rfl
@[simp] theorem exec_trickleServiceBegin : exec (.trickleServiceBegin) s = execTrickleServiceBegin s := rfl
@[simp] theorem exec_bringupExit : exec (.bringupExit) s = execBringupExit s := rfl
@[simp] theorem exec_fullWaitExpire : exec (.fullWaitExpire) s = execFullWaitExpire s := rfl
@[simp] theorem exec_mlReset (a : BitVec 3) : exec (.mlReset a) s = execMlReset a s := rfl
@[simp] theorem exec_degradedEnter : exec (.degradedEnter) s = execDegradedEnter s := rfl
@[simp] theorem exec_runRestore : exec (.runRestore) s = execRunRestore s := rfl
@[simp] theorem exec_supplyWarning (low : Bool) (mv : BitVec 10) : exec (.supplyWarning low mv) s = execSupplyWarning low mv s := rfl
@[simp] theorem exec_supplyStop (low : Bool) (mv : BitVec 10) : exec (.supplyStop low mv) s = execSupplyStop low mv s := rfl
@[simp] theorem exec_supplyClear (warnLow failLow : Bool) (mv : BitVec 10) : exec (.supplyClear warnLow failLow mv) s = execSupplyClear warnLow failLow mv s := rfl
@[simp] theorem exec_flushCompleteSeal : exec (.flushCompleteSeal) s = execFlushCompleteSeal s := rfl
@[simp] theorem exec_openRecordWrite : exec (.openRecordWrite) s = execOpenRecordWrite s := rfl
@[simp] theorem exec_sleepEmber (a : BitVec 3) : exec (.sleepEmber a) s = execSleepEmber a s := rfl
@[simp] theorem exec_sleepSmoulder (a : BitVec 3) : exec (.sleepSmoulder a) s = execSleepSmoulder a s := rfl
@[simp] theorem exec_wake (a : BitVec 3) : exec (.wake a) s = execWake a s := rfl
@[simp] theorem exec_flushSeal (a : BitVec 3) : exec (.flushSeal a) s = execFlushSeal a s := rfl
@[simp] theorem exec_resume (a : BitVec 3) : exec (.resume a) s = execResume a s := rfl
@[simp] theorem exec_sleepChoice : exec (.sleepChoice) s = execSleepChoice s := rfl
@[simp] theorem exec_wakeSource (bad : BitVec 42) : exec (.wakeSource bad) s = execWakeSource bad s := rfl
@[simp] theorem exec_preEventWake : exec (.preEventWake) s = execPreEventWake s := rfl
@[simp] theorem exec_smoulderVisit (shifts : Word) (hubTemp quadTemp : BitVec 8) : exec (.smoulderVisit shifts hubTemp quadTemp) s = execSmoulderVisit shifts hubTemp quadTemp s := rfl
@[simp] theorem exec_pdCtlWrite (a : BitVec 3) (v : BitVec 17) : exec (.pdCtlWrite a v) s = execPdCtlWrite a v s := rfl
@[simp] theorem exec_domainHeldTransfer (d : BitVec 5) : exec (.domainHeldTransfer d) s = execDomainHeldTransfer d s := rfl
@[simp] theorem exec_sleepCfgWrite (a : BitVec 3) (addr : BitVec 24) (v : Word) : exec (.sleepCfgWrite a addr v) s = execSleepCfgWrite a addr v s := rfl
@[simp] theorem exec_refLoss : exec (.refLoss) s = execRefLoss s := rfl
@[simp] theorem exec_refStable : exec (.refStable) s = execRefStable s := rfl
@[simp] theorem exec_pllLock (us : BitVec 8) (safe : BitVec 32) : exec (.pllLock us safe) s = execPllLock us safe s := rfl
@[simp] theorem exec_refCalibrate (ps : BitVec 16) : exec (.refCalibrate ps) s = execRefCalibrate ps s := rfl
@[simp] theorem exec_clockGateClose (d : BitVec 6) : exec (.clockGateClose d) s = execClockGateClose d s := rfl
@[simp] theorem exec_clockGateWake (d : BitVec 6) : exec (.clockGateWake d) s = execClockGateWake d s := rfl
@[simp] theorem exec_switchForced (d : BitVec 6) : exec (.switchForced d) s = execSwitchForced d s := rfl

/-- A meaning whose operands must be well formed completes, or refuses operands that are not. -/
theorem answerIf_cases (ok : Bool) (f : Mach → Mach) :
    (∃ m', answerIf ok s f = .next { s with m := m' }) ∨ (ok = false ∧ answerIf ok s f = .refused .illFormed) := by
  cases ok
  · exact .inr ⟨rfl, rfl⟩
  · exact .inl ⟨_, rfl⟩

set_option maxRecDepth 4000 in
/-- What a command can answer: a next state with the queue as it was, or, with ill-formed operands only, a refusal. -/
theorem exec_outcome (c : Instr) :
    (∃ m', exec c s = .next { s with m := m' }) ∨ (c.wf = false ∧ exec c s = .refused .illFormed) := by
  cases c
  case fullTraining => exact answerIf_cases _ _ _
  case resumeTraining => exact answerIf_cases _ _ _
  case retrainUnit => exact answerIf_cases _ _ _
  case repairUnit => exact answerIf_cases _ _ _
  case loopbackTest => exact answerIf_cases _ _ _
  all_goals exact .inl ⟨_, rfl⟩

end Sys2Proof.Machine
end

