-- ==== Sys2Proof/Laws/Tab.lean ====
section
/-! SUPPORT. The laws of tables: a read after a write, and that every operation keeps the canonical form. -/
namespace Sys2Proof.Machine

variable {α : Type} [Inhabited α] [DecidableEq α]

omit [DecidableEq α] in
@[simp] theorem Tab.get_nil (k : Nat) : Tab.get ([] : Tab α) k = default := rfl

omit [DecidableEq α] in
theorem Tab.get_erase_same (t : Tab α) (k : Nat) : (Tab.erase k t).get k = default := by
  induction t with
  | nil => rfl
  | cons e t ih =>
    obtain ⟨j, w⟩ := e
    by_cases h : k = j
    · simp [Tab.erase, h, ← ih]
    · simp [Tab.erase, Tab.get, h, ih]

omit [DecidableEq α] in
theorem Tab.get_erase_ne (t : Tab α) {i k : Nat} (h : i ≠ k) : (Tab.erase k t).get i = t.get i := by
  induction t with
  | nil => rfl
  | cons e t ih =>
    obtain ⟨j, w⟩ := e
    by_cases hk : k = j
    · subst hk; simp [Tab.erase, Tab.get, h, ih]
    · simp only [Tab.erase, hk, if_false, Tab.get, ih]

omit [DecidableEq α] in
theorem Tab.get_insert_same (t : Tab α) (k : Nat) (v : α) : (Tab.insert k v t).get k = v := by
  induction t with
  | nil => simp [Tab.insert, Tab.get]
  | cons e t ih =>
    obtain ⟨j, w⟩ := e
    unfold Tab.insert
    split
    · simp [Tab.get]
    · split
      · simp [Tab.get]
      · simp [Tab.get, *]

omit [DecidableEq α] in
theorem Tab.get_insert_ne (t : Tab α) {i k : Nat} (h : i ≠ k) (v : α) : (Tab.insert k v t).get i = t.get i := by
  induction t with
  | nil => simp [Tab.insert, Tab.get, h]
  | cons e t ih =>
    obtain ⟨j, w⟩ := e
    unfold Tab.insert
    split
    · simp [Tab.get, h]
    · split
      · next hk => subst hk; simp [Tab.get, h]
      · simp [Tab.get, ih]

/-- A read of the entry just written gives the value written. -/
@[simp] theorem Tab.get_set_same (t : Tab α) (k : Nat) (v : α) : (t.set k v).get k = v := by
  unfold Tab.set
  split
  · next h => rw [Tab.get_erase_same, h]
  · exact Tab.get_insert_same t k v

/-- A write leaves every other entry alone. -/
theorem Tab.get_set_ne (t : Tab α) {i k : Nat} (h : i ≠ k) (v : α) : (t.set k v).get i = t.get i := by
  unfold Tab.set
  split
  · exact Tab.get_erase_ne t h
  · exact Tab.get_insert_ne t h v

/-- A read after a write, by whether the entry is the one written. -/
theorem Tab.get_set (t : Tab α) (i k : Nat) (v : α) : (t.set k v).get i = if i = k then v else t.get i := by
  split
  · next h => subst h; exact Tab.get_set_same t i v
  · next h => exact Tab.get_set_ne t h v

@[simp] theorem Tab.get_upd_same (t : Tab α) (k : Nat) (f : α → α) : (t.upd k f).get k = f (t.get k) :=
  Tab.get_set_same t k _

theorem Tab.get_upd_ne (t : Tab α) {i k : Nat} (h : i ≠ k) (f : α → α) : (t.upd k f).get i = t.get i :=
  Tab.get_set_ne t h _

/-! ### The canonical form -/

omit [Inhabited α] [DecidableEq α] in
theorem Tab.above_mono {t : Tab α} {m n : Nat} (h : m ≤ n) (ht : Tab.above n t = true) : Tab.above m t = true := by
  induction t with
  | nil => rfl
  | cons e t ih => simp only [Tab.above, Bool.and_eq_true, decide_eq_true_eq] at ht ⊢; exact ⟨by omega, ih ht.2⟩

omit [Inhabited α] [DecidableEq α] in
theorem Tab.above_erase {t : Tab α} {n k : Nat} (h : Tab.above n t = true) : Tab.above n (Tab.erase k t) = true := by
  induction t with
  | nil => rfl
  | cons e t ih =>
    simp only [Tab.above, Bool.and_eq_true] at h
    unfold Tab.erase
    split
    · exact ih h.2
    · simp only [Tab.above, Bool.and_eq_true]; exact ⟨h.1, ih h.2⟩

omit [Inhabited α] [DecidableEq α] in
theorem Tab.above_insert {t : Tab α} {n k : Nat} {v : α} (hk : n ≤ k) (h : Tab.above n t = true) :
    Tab.above n (Tab.insert k v t) = true := by
  induction t with
  | nil => simp [Tab.insert, Tab.above, hk]
  | cons e t ih =>
    simp only [Tab.above, Bool.and_eq_true] at h
    unfold Tab.insert
    split
    · simp [Tab.above, hk, h.2]; simpa using h.1
    · split
      · simp [Tab.above, hk, h.2]
      · simp only [Tab.above, Bool.and_eq_true]; exact ⟨h.1, ih h.2⟩

theorem Tab.wf_erase {t : Tab α} {k : Nat} (h : t.wf = true) : Tab.wf (Tab.erase k t) = true := by
  induction t with
  | nil => rfl
  | cons e t ih =>
    simp only [Tab.wf, Bool.and_eq_true] at h
    unfold Tab.erase
    split
    · exact ih h.2
    · simp only [Tab.wf, Bool.and_eq_true]; exact ⟨⟨h.1.1, Tab.above_erase h.1.2⟩, ih h.2⟩

theorem Tab.wf_insert {t : Tab α} {k : Nat} {v : α} (hv : v ≠ default) (h : t.wf = true) : Tab.wf (Tab.insert k v t) = true := by
  induction t with
  | nil => simp [Tab.insert, Tab.wf, Tab.above, hv]
  | cons e t ih =>
    obtain ⟨j, w⟩ := e
    simp only [Tab.wf, Bool.and_eq_true, decide_eq_true_eq] at h
    unfold Tab.insert
    split
    · next hj =>
      simp only [Tab.wf, Tab.above, Bool.and_eq_true, decide_eq_true_eq]
      exact ⟨⟨hv, by omega, Tab.above_mono (by omega) h.1.2⟩, h⟩
    · split
      · next hj => subst hj; simp only [Tab.wf, Bool.and_eq_true, decide_eq_true_eq]; exact ⟨⟨hv, h.1.2⟩, h.2⟩
      · simp only [Tab.wf, Bool.and_eq_true, decide_eq_true_eq]
        exact ⟨⟨h.1.1, Tab.above_insert (by omega) h.1.2⟩, ih h.2⟩

/-- Writing one entry keeps the canonical form. -/
@[simp] theorem Tab.wf_set {t : Tab α} {k : Nat} {v : α} (h : t.wf = true) : (t.set k v).wf = true := by
  unfold Tab.set
  split
  · exact Tab.wf_erase h
  · next hv => exact Tab.wf_insert hv h

@[simp] theorem Tab.wf_upd {t : Tab α} {k : Nat} {f : α → α} (h : t.wf = true) : (t.upd k f).wf = true := Tab.wf_set h

omit [Inhabited α] [DecidableEq α] in
theorem Tab.above_filter {t : Tab α} {n : Nat} {p : Nat × α → Bool} (h : Tab.above n t = true) :
    Tab.above n (t.filter p) = true := by
  induction t with
  | nil => rfl
  | cons e t ih =>
    simp only [Tab.above, Bool.and_eq_true] at h
    rw [List.filter_cons]
    split
    · simp only [Tab.above, Bool.and_eq_true]; exact ⟨h.1, ih h.2⟩
    · exact ih h.2

/-- Dropping entries keeps the canonical form. -/
@[simp] theorem Tab.wf_filter {t : Tab α} {p : Nat × α → Bool} (h : t.wf = true) : Tab.wf (t.filter p) = true := by
  induction t with
  | nil => rfl
  | cons e t ih =>
    simp only [Tab.wf, Bool.and_eq_true] at h
    rw [List.filter_cons]
    split
    · simp only [Tab.wf, Bool.and_eq_true]; exact ⟨⟨h.1.1, Tab.above_filter h.1.2⟩, ih h.2⟩
    · exact ih h.2

omit [Inhabited α] [DecidableEq α] in
theorem Tab.above_map {t : Tab α} {n : Nat} {f : Nat → α → α} (h : Tab.above n t = true) :
    Tab.above n (t.map fun e => (e.1, f e.1 e.2)) = true := by
  induction t with
  | nil => rfl
  | cons e t ih =>
    simp only [Tab.above, Bool.and_eq_true, List.map_cons] at h ⊢; exact ⟨h.1, ih h.2⟩

/-- Changing every entry by `mapv` keeps the canonical form. -/
@[simp] theorem Tab.wf_mapv {t : Tab α} {f : Nat → α → α} (h : t.wf = true) : (t.mapv f).wf = true := by
  unfold Tab.mapv
  induction t with
  | nil => rfl
  | cons e t ih =>
    simp only [Tab.wf, Bool.and_eq_true] at h
    rw [List.map_cons, List.filter_cons]
    split
    · next hv =>
      simp only [Tab.wf, Bool.and_eq_true]
      exact ⟨⟨hv, Tab.above_filter (Tab.above_map h.1.2)⟩, ih h.2⟩
    · exact ih h.2

end Sys2Proof.Machine
end

