-- ==== Sys2Proof/Laws/State.lean ====
section
/-! SUPPORT. The laws of the register file and of the shared operations over it: what each reads back and what it leaves alone. -/
namespace Sys2Proof.Machine

variable (m : Mach) (f g : Field) (n k : Nat) (v : Nat)

/-! ### The register file -/

theorem Mach.put_integ_reset : f.reset (m.put g k v).integ n = f.reset m.integ n := rfl

/-- A read after a write, by whether the field is the one written. -/
theorem Mach.get_put : (m.put f n v).get g k = if g.key k = f.key n then Nat.xor (Nat.xor (v % 2 ^ f.w) (f.reset m.integ n))
    (g.reset m.integ k) else m.get g k := by
  unfold Mach.get Mach.put
  rw [Tab.get_set]
  split <;> rfl

theorem Nat.xor_xor_cancel (a b : Nat) : Nat.xor (Nat.xor a b) b = a := by
  show (a ^^^ b) ^^^ b = a
  rw [Nat.xor_assoc, Nat.xor_self, Nat.xor_zero]

/-- A field just written reads as the value written, cut to its width. -/
@[simp] theorem Mach.get_put_same : (m.put f n v).get f n = v % 2 ^ f.w := by
  rw [Mach.get_put, if_pos rfl, Nat.xor_xor_cancel]

/-- A write leaves every other field alone. -/
theorem Mach.get_put_ne {f g : Field} {n k : Nat} (h : g.key k ≠ f.key n) : (m.put f n v).get g k = m.get g k := by
  rw [Mach.get_put, if_neg h]

/-- Writing a field keeps the register table canonical. -/
@[simp] theorem Mach.put_wf (h : m.regs.wf = true) : (m.put f n v).regs.wf = true := Tab.wf_set h

/-- A flag just written reads as written. -/
@[simp] theorem Mach.flag_setFlag_same (b : Bool) (h : 0 < f.w) : (m.setFlag f n b).flag f n = b := by
  have h2 : 1 % 2 ^ f.w = 1 := Nat.mod_eq_of_lt (Nat.one_lt_two_pow h.ne')
  cases b <;> simp [Mach.flag, Mach.setFlag, b2n, h2]

theorem Mach.flag_put_ne {f g : Field} {n k : Nat} (h : g.key k ≠ f.key n) : (m.put f n v).flag g k = m.flag g k := by
  unfold Mach.flag; rw [Mach.get_put_ne m v h]

theorem Mach.get_setFlag_ne {f g : Field} {n k : Nat} (b : Bool) (h : g.key k ≠ f.key n) : (m.setFlag f n b).get g k = m.get g k :=
  Mach.get_put_ne m _ h

theorem Mach.get_count_ne {f g : Field} {n k : Nat} (j : Nat) (h : g.key k ≠ f.key n) : (m.count f n j).get g k = m.get g k :=
  Mach.get_put_ne m _ h

/-! ### What writing a field leaves alone -/

@[simp] theorem Mach.put_integ : (m.put f n v).integ = m.integ := rfl
@[simp] theorem Mach.put_now : (m.put f n v).now = m.now := rfl
@[simp] theorem Mach.put_free : (m.put f n v).free = m.free := rfl
@[simp] theorem Mach.put_serial : (m.put f n v).serial = m.serial := rfl
@[simp] theorem Mach.put_porstN : (m.put f n v).porstN = m.porstN := rfl
@[simp] theorem Mach.put_srstLow : (m.put f n v).srstLow = m.srstLow := rfl
@[simp] theorem Mach.put_cfg : (m.put f n v).cfg = m.cfg := rfl
@[simp] theorem Mach.put_power : (m.put f n v).power = m.power := rfl
@[simp] theorem Mach.put_alm : (m.put f n v).alm = m.alm := rfl
@[simp] theorem Mach.put_ports : (m.put f n v).ports = m.ports := rfl
@[simp] theorem Mach.put_reeve : (m.put f n v).reeve = m.reeve := rfl
@[simp] theorem Mach.put_sc : (m.put f n v).sc = m.sc := rfl
@[simp] theorem Mach.put_rota : (m.put f n v).rota = m.rota := rfl
@[simp] theorem Mach.put_ns : (m.put f n v).ns = m.ns := rfl
@[simp] theorem Mach.put_order : (m.put f n v).order = m.order := rfl
@[simp] theorem Mach.put_ht : (m.put f n v).ht = m.ht := rfl
@[simp] theorem Mach.put_map : (m.put f n v).map = m.map := rfl
@[simp] theorem Mach.put_err : (m.put f n v).err = m.err := rfl
@[simp] theorem Mach.put_zml : (m.put f n v).zml = m.zml := rfl
@[simp] theorem Mach.put_trim : (m.put f n v).trim = m.trim := rfl
@[simp] theorem Mach.put_kiln : (m.put f n v).kiln = m.kiln := rfl
@[simp] theorem Mach.put_loom : (m.put f n v).loom = m.loom := rfl
@[simp] theorem Mach.put_post : (m.put f n v).post = m.post := rfl

@[simp] theorem Mach.setFlag_integ (b : Bool) : (m.setFlag f n b).integ = m.integ := rfl
@[simp] theorem Mach.setFlag_now (b : Bool) : (m.setFlag f n b).now = m.now := rfl
@[simp] theorem Mach.setFlag_free (b : Bool) : (m.setFlag f n b).free = m.free := rfl
@[simp] theorem Mach.setFlag_serial (b : Bool) : (m.setFlag f n b).serial = m.serial := rfl
@[simp] theorem Mach.setFlag_porstN (b : Bool) : (m.setFlag f n b).porstN = m.porstN := rfl
@[simp] theorem Mach.setFlag_srstLow (b : Bool) : (m.setFlag f n b).srstLow = m.srstLow := rfl
@[simp] theorem Mach.setFlag_cfg (b : Bool) : (m.setFlag f n b).cfg = m.cfg := rfl
@[simp] theorem Mach.setFlag_power (b : Bool) : (m.setFlag f n b).power = m.power := rfl
@[simp] theorem Mach.setFlag_alm (b : Bool) : (m.setFlag f n b).alm = m.alm := rfl
@[simp] theorem Mach.setFlag_ports (b : Bool) : (m.setFlag f n b).ports = m.ports := rfl
@[simp] theorem Mach.setFlag_reeve (b : Bool) : (m.setFlag f n b).reeve = m.reeve := rfl
@[simp] theorem Mach.setFlag_sc (b : Bool) : (m.setFlag f n b).sc = m.sc := rfl
@[simp] theorem Mach.setFlag_rota (b : Bool) : (m.setFlag f n b).rota = m.rota := rfl
@[simp] theorem Mach.setFlag_ns (b : Bool) : (m.setFlag f n b).ns = m.ns := rfl
@[simp] theorem Mach.setFlag_order (b : Bool) : (m.setFlag f n b).order = m.order := rfl
@[simp] theorem Mach.setFlag_ht (b : Bool) : (m.setFlag f n b).ht = m.ht := rfl
@[simp] theorem Mach.setFlag_map (b : Bool) : (m.setFlag f n b).map = m.map := rfl
@[simp] theorem Mach.setFlag_err (b : Bool) : (m.setFlag f n b).err = m.err := rfl
@[simp] theorem Mach.setFlag_zml (b : Bool) : (m.setFlag f n b).zml = m.zml := rfl
@[simp] theorem Mach.setFlag_trim (b : Bool) : (m.setFlag f n b).trim = m.trim := rfl
@[simp] theorem Mach.setFlag_kiln (b : Bool) : (m.setFlag f n b).kiln = m.kiln := rfl
@[simp] theorem Mach.setFlag_loom (b : Bool) : (m.setFlag f n b).loom = m.loom := rfl
@[simp] theorem Mach.setFlag_post (b : Bool) : (m.setFlag f n b).post = m.post := rfl

@[simp] theorem Mach.count_integ : (m.count f n k).integ = m.integ := rfl
@[simp] theorem Mach.count_now : (m.count f n k).now = m.now := rfl
@[simp] theorem Mach.count_free : (m.count f n k).free = m.free := rfl
@[simp] theorem Mach.count_serial : (m.count f n k).serial = m.serial := rfl
@[simp] theorem Mach.count_porstN : (m.count f n k).porstN = m.porstN := rfl
@[simp] theorem Mach.count_srstLow : (m.count f n k).srstLow = m.srstLow := rfl
@[simp] theorem Mach.count_cfg : (m.count f n k).cfg = m.cfg := rfl
@[simp] theorem Mach.count_power : (m.count f n k).power = m.power := rfl
@[simp] theorem Mach.count_alm : (m.count f n k).alm = m.alm := rfl
@[simp] theorem Mach.count_ports : (m.count f n k).ports = m.ports := rfl
@[simp] theorem Mach.count_reeve : (m.count f n k).reeve = m.reeve := rfl
@[simp] theorem Mach.count_sc : (m.count f n k).sc = m.sc := rfl
@[simp] theorem Mach.count_rota : (m.count f n k).rota = m.rota := rfl
@[simp] theorem Mach.count_ns : (m.count f n k).ns = m.ns := rfl
@[simp] theorem Mach.count_order : (m.count f n k).order = m.order := rfl
@[simp] theorem Mach.count_ht : (m.count f n k).ht = m.ht := rfl
@[simp] theorem Mach.count_map : (m.count f n k).map = m.map := rfl
@[simp] theorem Mach.count_err : (m.count f n k).err = m.err := rfl
@[simp] theorem Mach.count_zml : (m.count f n k).zml = m.zml := rfl
@[simp] theorem Mach.count_trim : (m.count f n k).trim = m.trim := rfl
@[simp] theorem Mach.count_kiln : (m.count f n k).kiln = m.kiln := rfl
@[simp] theorem Mach.count_loom : (m.count f n k).loom = m.loom := rfl
@[simp] theorem Mach.count_post : (m.count f n k).post = m.post := rfl

/-! ### Events -/

/-- Judging an estimated time changes registers only (R43). -/
theorem Mach.judgeEst_regsOnly : m.judgeEst = { m with regs := m.judgeEst.regs } := by unfold Mach.judgeEst; split <;> rfl

/-- Setting EVENT bits changes registers only (R481). -/
theorem Mach.events_regsOnly (p : Page) : m.events p n v = { m with regs := (m.events p n v).regs } := by
  unfold Mach.events
  split
  · rfl
  · split
    · rfl
    · rw [Mach.judgeEst_regsOnly]; rfl

@[simp] theorem Mach.events_integ (p : Page) : (m.events p n v).integ = m.integ := by rw [Mach.events_regsOnly]
@[simp] theorem Mach.events_now (p : Page) : (m.events p n v).now = m.now := by rw [Mach.events_regsOnly]
@[simp] theorem Mach.events_free (p : Page) : (m.events p n v).free = m.free := by rw [Mach.events_regsOnly]
@[simp] theorem Mach.events_serial (p : Page) : (m.events p n v).serial = m.serial := by rw [Mach.events_regsOnly]
@[simp] theorem Mach.events_porstN (p : Page) : (m.events p n v).porstN = m.porstN := by rw [Mach.events_regsOnly]
@[simp] theorem Mach.events_srstLow (p : Page) : (m.events p n v).srstLow = m.srstLow := by rw [Mach.events_regsOnly]
@[simp] theorem Mach.events_cfg (p : Page) : (m.events p n v).cfg = m.cfg := by rw [Mach.events_regsOnly]
@[simp] theorem Mach.events_power (p : Page) : (m.events p n v).power = m.power := by rw [Mach.events_regsOnly]
@[simp] theorem Mach.events_alm (p : Page) : (m.events p n v).alm = m.alm := by rw [Mach.events_regsOnly]
@[simp] theorem Mach.events_ports (p : Page) : (m.events p n v).ports = m.ports := by rw [Mach.events_regsOnly]
@[simp] theorem Mach.events_reeve (p : Page) : (m.events p n v).reeve = m.reeve := by rw [Mach.events_regsOnly]
@[simp] theorem Mach.events_sc (p : Page) : (m.events p n v).sc = m.sc := by rw [Mach.events_regsOnly]
@[simp] theorem Mach.events_rota (p : Page) : (m.events p n v).rota = m.rota := by rw [Mach.events_regsOnly]
@[simp] theorem Mach.events_ns (p : Page) : (m.events p n v).ns = m.ns := by rw [Mach.events_regsOnly]
@[simp] theorem Mach.events_order (p : Page) : (m.events p n v).order = m.order := by rw [Mach.events_regsOnly]
@[simp] theorem Mach.events_ht (p : Page) : (m.events p n v).ht = m.ht := by rw [Mach.events_regsOnly]
@[simp] theorem Mach.events_map (p : Page) : (m.events p n v).map = m.map := by rw [Mach.events_regsOnly]
@[simp] theorem Mach.events_err (p : Page) : (m.events p n v).err = m.err := by rw [Mach.events_regsOnly]
@[simp] theorem Mach.events_zml (p : Page) : (m.events p n v).zml = m.zml := by rw [Mach.events_regsOnly]
@[simp] theorem Mach.events_trim (p : Page) : (m.events p n v).trim = m.trim := by rw [Mach.events_regsOnly]
@[simp] theorem Mach.events_kiln (p : Page) : (m.events p n v).kiln = m.kiln := by rw [Mach.events_regsOnly]
@[simp] theorem Mach.events_loom (p : Page) : (m.events p n v).loom = m.loom := by rw [Mach.events_regsOnly]
@[simp] theorem Mach.events_post (p : Page) : (m.events p n v).post = m.post := by rw [Mach.events_regsOnly]

@[simp] theorem Mach.event_integ (p : Page) : (m.event p n v).integ = m.integ := Mach.events_integ m n _ p
@[simp] theorem Mach.event_now (p : Page) : (m.event p n v).now = m.now := Mach.events_now m n _ p
@[simp] theorem Mach.event_free (p : Page) : (m.event p n v).free = m.free := Mach.events_free m n _ p
@[simp] theorem Mach.event_serial (p : Page) : (m.event p n v).serial = m.serial := Mach.events_serial m n _ p
@[simp] theorem Mach.event_porstN (p : Page) : (m.event p n v).porstN = m.porstN := Mach.events_porstN m n _ p
@[simp] theorem Mach.event_srstLow (p : Page) : (m.event p n v).srstLow = m.srstLow := Mach.events_srstLow m n _ p
@[simp] theorem Mach.event_cfg (p : Page) : (m.event p n v).cfg = m.cfg := Mach.events_cfg m n _ p
@[simp] theorem Mach.event_power (p : Page) : (m.event p n v).power = m.power := Mach.events_power m n _ p
@[simp] theorem Mach.event_alm (p : Page) : (m.event p n v).alm = m.alm := Mach.events_alm m n _ p
@[simp] theorem Mach.event_ports (p : Page) : (m.event p n v).ports = m.ports := Mach.events_ports m n _ p
@[simp] theorem Mach.event_reeve (p : Page) : (m.event p n v).reeve = m.reeve := Mach.events_reeve m n _ p
@[simp] theorem Mach.event_sc (p : Page) : (m.event p n v).sc = m.sc := Mach.events_sc m n _ p
@[simp] theorem Mach.event_rota (p : Page) : (m.event p n v).rota = m.rota := Mach.events_rota m n _ p
@[simp] theorem Mach.event_ns (p : Page) : (m.event p n v).ns = m.ns := Mach.events_ns m n _ p
@[simp] theorem Mach.event_order (p : Page) : (m.event p n v).order = m.order := Mach.events_order m n _ p
@[simp] theorem Mach.event_ht (p : Page) : (m.event p n v).ht = m.ht := Mach.events_ht m n _ p
@[simp] theorem Mach.event_map (p : Page) : (m.event p n v).map = m.map := Mach.events_map m n _ p
@[simp] theorem Mach.event_err (p : Page) : (m.event p n v).err = m.err := Mach.events_err m n _ p
@[simp] theorem Mach.event_zml (p : Page) : (m.event p n v).zml = m.zml := Mach.events_zml m n _ p
@[simp] theorem Mach.event_trim (p : Page) : (m.event p n v).trim = m.trim := Mach.events_trim m n _ p
@[simp] theorem Mach.event_kiln (p : Page) : (m.event p n v).kiln = m.kiln := Mach.events_kiln m n _ p
@[simp] theorem Mach.event_loom (p : Page) : (m.event p n v).loom = m.loom := Mach.events_loom m n _ p
@[simp] theorem Mach.event_post (p : Page) : (m.event p n v).post = m.post := Mach.events_post m n _ p

theorem Mach.judgeEst_get_ne {g : Field} {k : Nat} (h : g.key k ≠ ALM.CNT_EST.key 0) : m.judgeEst.get g k = m.get g k := by
  unfold Mach.judgeEst
  split
  · exact Mach.get_count_ne m 1 h
  · rfl

/-- Setting EVENT bits leaves every field alone but the page's EVENT, EVENT_FIRST and EVENT_TIME, and CNT_EST (R43, R481). -/
theorem Mach.events_get_ne {g : Field} {k n v : Nat} {p : Page} (h0 : g.key k ≠ (evField p).key n) (h1 : g.key k ≠ (evFirstBit p).key n)
    (h2 : g.key k ≠ (evFirstEst p).key n) (h3 : g.key k ≠ (evFirstValid p).key n) (h4 : g.key k ≠ (evTime p).key n)
    (h5 : g.key k ≠ ALM.CNT_EST.key 0) : (m.events p n v).get g k = m.get g k := by
  unfold Mach.events
  split
  · rfl
  · dsimp only
    split
    · exact Mach.get_put_ne _ _ h0
    · rw [Mach.judgeEst_get_ne _ h5, Mach.get_put_ne _ _ h4, Mach.get_setFlag_ne _ _ h3, Mach.get_setFlag_ne _ _ h2,
        Mach.get_put_ne _ _ h1, Mach.get_put_ne _ _ h0]

@[simp] theorem Mach.judgeEst_wf (h : m.regs.wf = true) : m.judgeEst.regs.wf = true := by
  unfold Mach.judgeEst
  split
  · exact Mach.put_wf m _ _ _ h
  · exact h

/-- Setting EVENT bits keeps the register table canonical. -/
@[simp] theorem Mach.events_wf (p : Page) (h : m.regs.wf = true) : (m.events p n v).regs.wf = true := by
  unfold Mach.events
  split
  · exact h
  · dsimp only
    split
    · exact Mach.put_wf m _ _ _ h
    · apply Mach.judgeEst_wf
      repeat (first | apply Mach.put_wf | exact h)

end Sys2Proof.Machine
end

