-- ==== Sys2Proof/Laws/Ops.lean ====
section
/-! SUPPORT. One law for each shared operation: what it can do, said once. -/
namespace Sys2Proof.Machine

/-- A page whose block acts at once takes the access at once (R446, R455, R468). -/
theorem Mach.viaCfg_open {m : Mach} {p : Page} {n : Nat} (h : m.cfgOpen p n) (a off data : Nat) (act : Mach → Mach) (w : Bool) :
    m.viaCfg a p n off data act w = act (m.seen a) := by
  obtain ⟨h1, h2, h3, h4, h5, h6, h7⟩ := h
  have e4 : ({ m with cfg := some ⟨a, 0, false⟩ } : Mach).absentPage p n = false := h4
  have k5 : (m.mode == mSafehold) = false := by simpa using h2
  unfold Mach.viaCfg
  simp only [h1, h3, h4, h5, k5, Bool.not_true, Bool.false_or, Bool.false_and, Bool.false_eq_true, if_false]
  have hd : ∀ d, p.domain n = some d → (m.seen a).wakeDomain d = m.seen a := by
    intro d hd
    have g1 : (m.seen a).get POWER.PD_OFF = m.get POWER.PD_OFF := rfl
    have g2 : (m.seen a).get POWER.PD_ON = m.get POWER.PD_ON := rfl
    simp [Mach.wakeDomain, g1, g2, h6 d hd]
  have hc : ∀ d, p.clockDomain n = some d → (m.seen a).wakeClock d = m.seen a := by
    intro d hd
    have g1 : (m.seen a).get CLOCK.GATED = m.get CLOCK.GATED := rfl
    simp [Mach.wakeClock, g1, h7 d hd]
  change act _ = act (m.seen a)
  congr 1
  show (match p.clockDomain n with
    | some d => (match p.domain n with | some d => (m.seen a).wakeDomain d | none => m.seen a).wakeClock d
    | none => match p.domain n with | some d => (m.seen a).wakeDomain d | none => m.seen a) = m.seen a
  have e : (match p.domain n with | some d => (m.seen a).wakeDomain d | none => m.seen a) = m.seen a := by
    cases hp : p.domain n with
    | none => rfl
    | some d => exact hd d hp
  rw [e]
  cases hp : p.clockDomain n with
  | none => rfl
  | some d => exact hc d hp

/-- The answer to an access is not a register. -/
@[simp] theorem Mach.seen_get (m : Mach) (a : Nat) (f : Field) (n : Nat) : (m.seen a).get f n = m.get f n := rfl

@[simp] theorem Mach.seen_flag (m : Mach) (a : Nat) (f : Field) (n : Nat) : (m.seen a).flag f n = m.flag f n := rfl

/-- No access changes anything while a reset is asserted (R437). -/
theorem Mach.viaCfg_inReset {m : Mach} (h : m.outOfReset = false) (a : Nat) (p : Page) (n off data : Nat) (act : Mach → Mach) (w : Bool) :
    m.viaCfg a p n off data act w = m := by
  simp [Mach.viaCfg, h]

/-- No access changes anything in SAFEHOLD (R437). -/
theorem Mach.viaCfg_safehold {m : Mach} (h : m.mode = mSafehold) (a : Nat) (p : Page) (n off data : Nat) (act : Mach → Mach) (w : Bool) :
    m.viaCfg a p n off data act w = m := by
  simp [Mach.viaCfg, h]

/-- Setting EVENT bits of a page changes the fields of its event group and CNT_EST, and nothing else. -/
theorem Mach.events_onlyFields (m : Mach) (p : Page) (n v : Nat) : OnlyFields m (m.events p n v) (eventKeys p n) := by
  refine ⟨Mach.events_regsOnly m n v p, fun g k h => ?_⟩
  simp only [eventKeys, List.mem_cons, List.not_mem_nil, not_or, or_false] at h
  exact Mach.events_get_ne m h.1 h.2.1 h.2.2.1 h.2.2.2.1 h.2.2.2.2.1 h.2.2.2.2.2

/-- Writing a field changes that field only. -/
theorem Mach.put_onlyFields (m : Mach) (f : Field) (n v : Nat) : OnlyFields m (m.put f n v) [f.key n] :=
  ⟨rfl, fun g k h => Mach.get_put_ne m v (by simpa using h)⟩

/-- Two changes of registers in a row are a change of registers. -/
theorem OnlyFields.trans {a b c : Mach} {k l : List Nat} (h : OnlyFields a b k) (g : OnlyFields b c l) : OnlyFields a c (k ++ l) := by
  refine ⟨?_, fun f n hn => ?_⟩
  · rw [g.1, h.1]
  · rw [List.mem_append, not_or] at hn
    rw [g.2 f n hn.2, h.2 f n hn.1]

end Sys2Proof.Machine
end

