-- ==== Sys2Proof/Laws/PerInstr.lean ====
section
/-! SUPPORT. What makes a command well formed, command by command: every lane that its operands name is a lane of an HBM stack. -/
namespace Sys2Proof.Laws

/-- The keys of the lanes that a command's operands name. -/
def Lanes.named : Instr → List Nat
  | .fullTraining _ _ _ _ _ _ _ _ ls => ls.map fun x => x.key.toNat
  | .resumeTraining _ _ ls => ls.map fun x => x.key.toNat
  | .retrainUnit _ ls => ls.map fun x => x.key.toNat
  | .repairUnit _ ls => ls.map fun x => x.key.toNat
  | .loopbackTest _ _ _ _ errs => errs.map fun x => x.1.toNat
  | _ => []

/-- A command is well formed exactly when a stack has every lane that it names (R302). -/
def Lanes.Statement (i : Instr) : Prop := i.wf = (Lanes.named i).all laneOk

theorem Lanes.cfgWrite (a : BitVec 3) (addr : BitVec 24) (full : Bool) (v : Word) : Lanes.Statement (.cfgWrite a addr full v) := rfl
theorem Lanes.rcRead (a : BitVec 3) (addr : BitVec 24) (full : Bool) : Lanes.Statement (.rcRead a addr full) := rfl
theorem Lanes.eventClearWrite (a : BitVec 3) (pg : BitVec 12) (v : Word) : Lanes.Statement (.eventClearWrite a pg v) := rfl
theorem Lanes.eventSet (a : BitVec 3) (pg : BitVec 12) (v : Word) : Lanes.Statement (.eventSet a pg v) := rfl
theorem Lanes.timebaseTick (adv : BitVec 3) : Lanes.Statement (.timebaseTick adv) := rfl
theorem Lanes.tbLoad (v : Tick) (adv : BitVec 3) : Lanes.Statement (.tbLoad v adv) := rfl
theorem Lanes.tbAliveToggle : Lanes.Statement (.tbAliveToggle) := rfl
theorem Lanes.timebaseLost : Lanes.Statement (.timebaseLost) := rfl
theorem Lanes.almEntryFire : Lanes.Statement (.almEntryFire) := rfl
theorem Lanes.entWrite (a : BitVec 3) : Lanes.Statement (.entWrite a) := rfl
theorem Lanes.entClear (a : BitVec 3) : Lanes.Statement (.entClear a) := rfl
theorem Lanes.entRead (a : BitVec 3) : Lanes.Statement (.entRead a) := rfl
theorem Lanes.logPop (a : BitVec 3) : Lanes.Statement (.logPop a) := rfl
theorem Lanes.loomReserveWrite (a : BitVec 3) (v : BitVec 10) : Lanes.Statement (.loomReserveWrite a v) := rfl
theorem Lanes.guaranteedPortionEnd : Lanes.Statement (.guaranteedPortionEnd) := rfl
theorem Lanes.periodEnd : Lanes.Statement (.periodEnd) := rfl
theorem Lanes.reqAccept (port : BitVec 4) (op : BitVec 5) (tag : BitVec 12) (oid : BitVec 6) (addr : BitVec 60) (len : BitVec 6) (cls : BitVec 3) (attr : BitVec 8) : Lanes.Statement (.reqAccept port op tag oid addr len cls attr) := rfl
theorem Lanes.read (port : BitVec 4) (tag : BitVec 12) (k : BitVec 4) : Lanes.Statement (.read port tag k) := rfl
theorem Lanes.write (port : BitVec 4) (tag : BitVec 12) (k : BitVec 4) : Lanes.Statement (.write port tag k) := rfl
theorem Lanes.writeMasked (port : BitVec 4) (tag : BitVec 12) (k : BitVec 4) : Lanes.Statement (.writeMasked port tag k) := rfl
theorem Lanes.fence (port : BitVec 4) (tag : BitVec 12) : Lanes.Statement (.fence port tag) := rfl
theorem Lanes.persist (port : BitVec 4) (tag : BitVec 12) : Lanes.Statement (.persist port tag) := rfl
theorem Lanes.persistNs (port : BitVec 4) (tag : BitVec 12) : Lanes.Statement (.persistNs port tag) := rfl
theorem Lanes.append (port : BitVec 4) (tag : BitVec 12) : Lanes.Statement (.append port tag) := rfl
theorem Lanes.clearPoison (port : BitVec 4) (tag : BitVec 12) (k : BitVec 4) : Lanes.Statement (.clearPoison port tag k) := rfl
theorem Lanes.prefetch (port : BitVec 4) (tag : BitVec 12) (k : BitVec 4) : Lanes.Statement (.prefetch port tag k) := rfl
theorem Lanes.zero (port : BitVec 4) (tag : BitVec 12) (k : BitVec 4) : Lanes.Statement (.zero port tag k) := rfl
theorem Lanes.wdatBeat (port : BitVec 4) (data : Beat) (be : ByteEn) (last : Bool) : Lanes.Statement (.wdatBeat port data be last) := rfl
theorem Lanes.intakePresent (port : BitVec 4) : Lanes.Statement (.intakePresent port) := rfl
theorem Lanes.portMeterHoldRelease (p : BitVec 4) : Lanes.Statement (.portMeterHoldRelease p) := rfl
theorem Lanes.classMeterHoldRelease (c : BitVec 3) : Lanes.Statement (.classMeterHoldRelease c) := rfl
theorem Lanes.shaperRelease (c : BitVec 3) : Lanes.Statement (.shaperRelease c) := rfl
theorem Lanes.rspBeat (port : BitVec 4) (tag : BitVec 12) : Lanes.Statement (.rspBeat port tag) := rfl
theorem Lanes.plyPush (port : BitVec 4) : Lanes.Statement (.plyPush port) := rfl
theorem Lanes.plyCredit (port : BitVec 4) : Lanes.Statement (.plyCredit port) := rfl
theorem Lanes.urgChange (port : BitVec 4) (v : BitVec 2) : Lanes.Statement (.urgChange port v) := rfl
theorem Lanes.urgFallExpire (port : BitVec 4) : Lanes.Statement (.urgFallExpire port) := rfl
theorem Lanes.pclkSelWrite (a : BitVec 3) (port : BitVec 4) (v : BitVec 2) : Lanes.Statement (.pclkSelWrite a port v) := rfl
theorem Lanes.portEnableWrite (a : BitVec 3) (port : BitVec 4) (en : BitVec 1) : Lanes.Statement (.portEnableWrite a port en) := rfl
theorem Lanes.gfenceGo (a : BitVec 3) : Lanes.Statement (.gfenceGo a) := rfl
theorem Lanes.gfenceDone : Lanes.Statement (.gfenceDone) := rfl
theorem Lanes.persistComplete (port : BitVec 4) (tag : BitVec 12) : Lanes.Statement (.persistComplete port tag) := rfl
theorem Lanes.nsBroadcast : Lanes.Statement (.nsBroadcast) := rfl
theorem Lanes.heldTimeout (port : BitVec 4) (tag : BitVec 12) : Lanes.Statement (.heldTimeout port tag) := rfl
theorem Lanes.rangeHoldDrainDone : Lanes.Statement (.rangeHoldDrainDone) := rfl
theorem Lanes.streamStart (a : BitVec 3) (k : BitVec 5) : Lanes.Statement (.streamStart a k) := rfl
theorem Lanes.streamStop (a : BitVec 3) (k : BitVec 5) : Lanes.Statement (.streamStop a k) := rfl
theorem Lanes.streamArm (a : BitVec 3) (k : BitVec 5) : Lanes.Statement (.streamArm a k) := rfl
theorem Lanes.streamDisarm (a : BitVec 3) (k : BitVec 5) : Lanes.Statement (.streamDisarm a k) := rfl
theorem Lanes.streamRelease (a : BitVec 3) (k : BitVec 5) : Lanes.Statement (.streamRelease a k) := rfl
theorem Lanes.trigEdge (levels : BitVec 8) : Lanes.Statement (.trigEdge levels) := rfl
theorem Lanes.spillSlotMove (k : BitVec 5) : Lanes.Statement (.spillSlotMove k) := rfl
theorem Lanes.spillDrain (k : BitVec 5) : Lanes.Statement (.spillDrain k) := rfl
theorem Lanes.spillExit (k : BitVec 5) : Lanes.Statement (.spillExit k) := rfl
theorem Lanes.padTimeout (k : BitVec 5) : Lanes.Statement (.padTimeout k) := rfl
theorem Lanes.runaheadMap (k : BitVec 5) : Lanes.Statement (.runaheadMap k) := rfl
theorem Lanes.tailAdvance (k : BitVec 5) : Lanes.Statement (.tailAdvance k) := rfl
theorem Lanes.commitRecordWrite (k : BitVec 5) : Lanes.Statement (.commitRecordWrite k) := rfl
theorem Lanes.streamCommitted (k : BitVec 5) : Lanes.Statement (.streamCommitted k) := rfl
theorem Lanes.seqLoad (a : BitVec 3) (k : BitVec 4) : Lanes.Statement (.seqLoad a k) := rfl
theorem Lanes.listLoadDone (k : BitVec 4) : Lanes.Statement (.listLoadDone k) := rfl
theorem Lanes.seqStart (a : BitVec 3) (k : BitVec 4) : Lanes.Statement (.seqStart a k) := rfl
theorem Lanes.seqStop (a : BitVec 3) (k : BitVec 4) : Lanes.Statement (.seqStop a k) := rfl
theorem Lanes.seqUnload (a : BitVec 3) (k : BitVec 4) : Lanes.Statement (.seqUnload a k) := rfl
theorem Lanes.predClear (a : BitVec 3) (k : BitVec 4) : Lanes.Statement (.predClear a k) := rfl
theorem Lanes.loomWalk (k : BitVec 4) : Lanes.Statement (.loomWalk k) := rfl
theorem Lanes.loomDueIssue (k : BitVec 4) : Lanes.Statement (.loomDueIssue k) := rfl
theorem Lanes.branchResolve (k : BitVec 4) (cond : BitVec 16) : Lanes.Statement (.branchResolve k cond) := rfl
theorem Lanes.listDone (k : BitVec 4) : Lanes.Statement (.listDone k) := rfl
theorem Lanes.listRestore (k : BitVec 4) : Lanes.Statement (.listRestore k) := rfl
theorem Lanes.stripeUpdate : Lanes.Statement (.stripeUpdate) := rfl
theorem Lanes.woodshedFormat (c : BitVec 5) : Lanes.Statement (.woodshedFormat c) := rfl
theorem Lanes.deltaLineTimeout : Lanes.Statement (.deltaLineTimeout) := rfl
theorem Lanes.ckptGo (a : BitVec 3) : Lanes.Statement (.ckptGo a) := rfl
theorem Lanes.ckptIntervalExpire : Lanes.Statement (.ckptIntervalExpire) := rfl
theorem Lanes.ckptDone : Lanes.Statement (.ckptDone) := rfl
theorem Lanes.reclaimVisit : Lanes.Statement (.reclaimVisit) := rfl
theorem Lanes.rotShiftStart : Lanes.Statement (.rotShiftStart) := rfl
theorem Lanes.rotMove : Lanes.Statement (.rotMove) := rfl
theorem Lanes.migrateCopy : Lanes.Statement (.migrateCopy) := rfl
theorem Lanes.migrateSwitch : Lanes.Statement (.migrateSwitch) := rfl
theorem Lanes.driftClockTick : Lanes.Statement (.driftClockTick) := rfl
theorem Lanes.rewriteLine : Lanes.Statement (.rewriteLine) := rfl
theorem Lanes.canaryProgram (c : BitVec 5) (k : BitVec 3) : Lanes.Statement (.canaryProgram c k) := rfl
theorem Lanes.canarySample : Lanes.Statement (.canarySample) := rfl
theorem Lanes.ageEstimate (store : BitVec 48) : Lanes.Statement (.ageEstimate store) := rfl
theorem Lanes.rdataReceive (c : BitVec 5) : Lanes.Statement (.rdataReceive c) := rfl
theorem Lanes.hearthLineReturn (n : BitVec 1) (xd : Line) (xt xm : BitVec 32) : Lanes.Statement (.hearthLineReturn n xd xt xm) := rfl
theorem Lanes.flipArm (a : BitVec 3) (v : BitVec 28) : Lanes.Statement (.flipArm a v) := rfl
theorem Lanes.glnGo (a : BitVec 3) : Lanes.Statement (.glnGo a) := rfl
theorem Lanes.glnAbort (a : BitVec 3) : Lanes.Statement (.glnAbort a) := rfl
theorem Lanes.gleanerVisit : Lanes.Statement (.gleanerVisit) := rfl
theorem Lanes.gleanerPassEnd : Lanes.Statement (.gleanerPassEnd) := rfl
theorem Lanes.hearthCommandIssue (n : BitVec 1) (pc : BitVec 5) : Lanes.Statement (.hearthCommandIssue n pc) := rfl
theorem Lanes.hearthQavgUpdate (n : BitVec 1) : Lanes.Statement (.hearthQavgUpdate n) := rfl
theorem Lanes.refreshDue (n : BitVec 1) (pc : BitVec 5) : Lanes.Statement (.refreshDue n pc) := rfl
theorem Lanes.hearthTempRead (n : BitVec 1) (temp : BitVec 8) : Lanes.Statement (.hearthTempRead n temp) := rfl
theorem Lanes.powerDownEntry (n : BitVec 1) (pc : BitVec 5) : Lanes.Statement (.powerDownEntry n pc) := rfl
theorem Lanes.hearthFill (n : BitVec 1) (k : BitVec 29) : Lanes.Statement (.hearthFill n k) := rfl
theorem Lanes.hearthFillDone (n : BitVec 1) : Lanes.Statement (.hearthFillDone n) := rfl
theorem Lanes.writebackStart : Lanes.Statement (.writebackStart) := rfl
theorem Lanes.writebackDone (e : BitVec 18) : Lanes.Statement (.writebackDone e) := rfl
theorem Lanes.sweepLine : Lanes.Statement (.sweepLine) := rfl
theorem Lanes.layoutApply (a : BitVec 3) : Lanes.Statement (.layoutApply a) := rfl
theorem Lanes.timingApply (a : BitVec 3) (n : BitVec 1) : Lanes.Statement (.timingApply a n) := rfl
theorem Lanes.stackFail (n : BitVec 1) (errs : BitVec 8) : Lanes.Statement (.stackFail n errs) := rfl
theorem Lanes.fullTraining (n : BitVec 1) (kill : Bool) (b r : BitVec 4) (bin : BitVec 2) (need : Bool) (imt : BitVec 8) (mmt : BitVec 16) (ls : List LaneIn) : Lanes.Statement (.fullTraining n kill b r bin need imt mmt ls) := by simp [Lanes.Statement, Lanes.named, Instr.wf, lanesOk, Function.comp_def]
theorem Lanes.resumeTraining (n : BitVec 1) (ok : Bool) (ls : List LaneIn) : Lanes.Statement (.resumeTraining n ok ls) := by simp [Lanes.Statement, Lanes.named, Instr.wf, lanesOk, Function.comp_def]
theorem Lanes.retrainRoundDue (n : BitVec 1) : Lanes.Statement (.retrainRoundDue n) := rfl
theorem Lanes.retrainUnit (n : BitVec 1) (ls : List LaneIn) : Lanes.Statement (.retrainUnit n ls) := by simp [Lanes.Statement, Lanes.named, Instr.wf, lanesOk, Function.comp_def]
theorem Lanes.repairUnit (n : BitVec 1) (ls : List LaneIn) : Lanes.Statement (.repairUnit n ls) := by simp [Lanes.Statement, Lanes.named, Instr.wf, lanesOk, Function.comp_def]
theorem Lanes.retrainOverdue (n : BitVec 1) : Lanes.Statement (.retrainOverdue n) := rfl
theorem Lanes.loopbackTest (a : BitVec 3) (n : BitVec 1) (mode : BitVec 2) (dur : BitVec 16) (errs : List (BitVec 13 × BitVec 32)) : Lanes.Statement (.loopbackTest a n mode dur errs) := by simp [Lanes.Statement, Lanes.named, Instr.wf, errLanesOk, Function.comp_def]
theorem Lanes.t1500Go (a : BitVec 3) (n : BitVec 1) (out : Word) : Lanes.Statement (.t1500Go a n out) := rfl
theorem Lanes.codewordReceive (c : BitVec 5) (ok : Bool) (hdr : BitVec 20) (f0 f1 f2 f3 f4 : BitVec 1024) (corr : List (BitVec 10)) : Lanes.Statement (.codewordReceive c ok hdr f0 f1 f2 f3 f4 corr) := rfl
theorem Lanes.flitReceive (c : BitVec 5) : Lanes.Statement (.flitReceive c) := rfl
theorem Lanes.nakRepeat (c : BitVec 5) : Lanes.Statement (.nakRepeat c) := rfl
theorem Lanes.replayTimeout (c : BitVec 5) : Lanes.Statement (.replayTimeout c) := rfl
theorem Lanes.padFlitTimeout (c : BitVec 5) (vc : BitVec 3) : Lanes.Statement (.padFlitTimeout c vc) := rfl
theorem Lanes.hubRsp (c : BitVec 5) : Lanes.Statement (.hubRsp c) := rfl
theorem Lanes.status (c : BitVec 5) : Lanes.Statement (.status c) := rfl
theorem Lanes.hubHoldTimeout (c : BitVec 5) : Lanes.Statement (.hubHoldTimeout c) := rfl
theorem Lanes.sidebandFrame (c : BitVec 5) (half : BitVec 30) : Lanes.Statement (.sidebandFrame c half) := rfl
theorem Lanes.heartbeatToggle (c : BitVec 5) : Lanes.Statement (.heartbeatToggle c) := rfl
theorem Lanes.timeMarkSend (c : BitVec 5) : Lanes.Statement (.timeMarkSend c) := rfl
theorem Lanes.linkDetect (c : BitVec 5) : Lanes.Statement (.linkDetect c) := rfl
theorem Lanes.linkOff (c : BitVec 5) : Lanes.Statement (.linkOff c) := rfl
theorem Lanes.linkTraining (c : BitVec 5) (step : BitVec 3) (faults : BitVec 8) (params1 params2 status : Word) (info0 info1 drift0 drift1 : Line) : Lanes.Statement (.linkTraining c step faults params1 params2 status info0 info1 drift0 drift1) := rfl
theorem Lanes.laneFault (c : BitVec 5) (faults : BitVec 8) (cdr : Bool) : Lanes.Statement (.laneFault c faults cdr) := rfl
theorem Lanes.laneErrInterval (c : BitVec 5) : Lanes.Statement (.laneErrInterval c) := rfl
theorem Lanes.commandTimeout (c : BitVec 5) : Lanes.Statement (.commandTimeout c) := rfl
theorem Lanes.quiesceDone (c : BitVec 5) : Lanes.Statement (.quiesceDone c) := rfl
theorem Lanes.quiesceTimeout (c : BitVec 5) : Lanes.Statement (.quiesceTimeout c) := rfl
theorem Lanes.hubReadyTimeout (c : BitVec 5) : Lanes.Statement (.hubReadyTimeout c) := rfl
theorem Lanes.zmlRetrain (a : BitVec 3) (c : BitVec 5) : Lanes.Statement (.zmlRetrain a c) := rfl
theorem Lanes.zmlWiden (a : BitVec 3) (c : BitVec 5) : Lanes.Statement (.zmlWiden a c) := rfl
theorem Lanes.resetHub (a : BitVec 3) (c : BitVec 5) : Lanes.Statement (.resetHub a c) := rfl
theorem Lanes.trimTempSample (quad : BitVec 3) (temp : BitVec 8) : Lanes.Statement (.trimTempSample quad temp) := rfl
theorem Lanes.trimApplyCmd (a : BitVec 3) (c : BitVec 5) : Lanes.Statement (.trimApplyCmd a c) := rfl
theorem Lanes.trimApplication (c : BitVec 5) : Lanes.Statement (.trimApplication c) := rfl
theorem Lanes.eyeScan (c : BitVec 5) (lane : BitVec 2) (widths heights : List (List (BitVec 17))) : Lanes.Statement (.eyeScan c lane widths heights) := rfl
theorem Lanes.feedbackUpdate : Lanes.Statement (.feedbackUpdate) := rfl
theorem Lanes.debtClear (a : BitVec 3) (c : BitVec 3) : Lanes.Statement (.debtClear a c) := rfl
theorem Lanes.commit (a : BitVec 3) : Lanes.Statement (.commit a) := rfl
theorem Lanes.shortfallWalk : Lanes.Statement (.shortfallWalk) := rfl
theorem Lanes.trainOutage100us (c : BitVec 5) : Lanes.Statement (.trainOutage100us c) := rfl
theorem Lanes.shortBytesAccrue : Lanes.Statement (.shortBytesAccrue) := rfl
theorem Lanes.sampleTick : Lanes.Statement (.sampleTick) := rfl
theorem Lanes.sampSelWrite (a : BitVec 3) (k : BitVec 2) (v : BitVec 17) : Lanes.Statement (.sampSelWrite a k v) := rfl
theorem Lanes.rotaHDecision (n : BitVec 1) : Lanes.Statement (.rotaHDecision n) := rfl
theorem Lanes.rotaMTxDecision (c : BitVec 5) (adv : BitVec 7) : Lanes.Statement (.rotaMTxDecision c adv) := rfl
theorem Lanes.rotaMRxDecision (c : BitVec 5) (adv : BitVec 7) : Lanes.Statement (.rotaMRxDecision c adv) := rfl
theorem Lanes.withdraw (a : BitVec 6) (rx : Bool) : Lanes.Statement (.withdraw a rx) := rfl
theorem Lanes.restartHoldEnd (c : BitVec 5) : Lanes.Statement (.restartHoldEnd c) := rfl
theorem Lanes.latchRead (a k : BitVec 3) : Lanes.Statement (.latchRead a k) := rfl
theorem Lanes.latchRel (a : BitVec 3) (v : BitVec 8) : Lanes.Statement (.latchRel a v) := rfl
theorem Lanes.latchLeaseExpire (k : BitVec 3) : Lanes.Statement (.latchLeaseExpire k) := rfl
theorem Lanes.postNotice (a k : BitVec 3) (v : Word) : Lanes.Statement (.postNotice a k v) := rfl
theorem Lanes.serviceCycle (us : BitVec 16) : Lanes.Statement (.serviceCycle us) := rfl
theorem Lanes.postInTimeout (k : BitVec 3) : Lanes.Statement (.postInTimeout k) := rfl
theorem Lanes.withdrawPost (a k : BitVec 3) : Lanes.Statement (.withdrawPost a k) := rfl
theorem Lanes.postOutAck (a k : BitVec 3) (seq : BitVec 16) : Lanes.Statement (.postOutAck a k seq) := rfl
theorem Lanes.postOutTimeout (k : BitVec 3) : Lanes.Statement (.postOutTimeout k) := rfl
theorem Lanes.pwDataRead (a : BitVec 3) : Lanes.Statement (.pwDataRead a) := rfl
theorem Lanes.pwDataWrite (a : BitVec 3) (v : Word) : Lanes.Statement (.pwDataWrite a v) := rfl
theorem Lanes.cancel (a : BitVec 3) (seq : BitVec 32) : Lanes.Statement (.cancel a seq) := rfl
theorem Lanes.nsCreate : Lanes.Statement (.nsCreate) := rfl
theorem Lanes.nsDelete : Lanes.Statement (.nsDelete) := rfl
theorem Lanes.nsQuery : Lanes.Statement (.nsQuery) := rfl
theorem Lanes.nsResize : Lanes.Statement (.nsResize) := rfl
theorem Lanes.sessionPurge : Lanes.Statement (.sessionPurge) := rfl
theorem Lanes.checkpoint : Lanes.Statement (.checkpoint) := rfl
theorem Lanes.rangeHold : Lanes.Statement (.rangeHold) := rfl
theorem Lanes.rangeRelease : Lanes.Statement (.rangeRelease) := rfl
theorem Lanes.health : Lanes.Statement (.health) := rfl
theorem Lanes.errlogRead : Lanes.Statement (.errlogRead) := rfl
theorem Lanes.fwStage : Lanes.Statement (.fwStage) := rfl
theorem Lanes.fwActivate (outcome : BitVec 2) : Lanes.Statement (.fwActivate outcome) := rfl
theorem Lanes.trimCapture (sets : List TrimIn) : Lanes.Statement (.trimCapture sets) := rfl
theorem Lanes.trimLoad : Lanes.Statement (.trimLoad) := rfl
theorem Lanes.hubInfo : Lanes.Statement (.hubInfo) := rfl
theorem Lanes.retireQuery : Lanes.Statement (.retireQuery) := rfl
theorem Lanes.scrubRequest : Lanes.Statement (.scrubRequest) := rfl
theorem Lanes.bootGo (a : BitVec 3) : Lanes.Statement (.bootGo a) := rfl
theorem Lanes.collierBoot : Lanes.Statement .collierBoot := rfl
theorem Lanes.collierWatchdog : Lanes.Statement (.collierWatchdog) := rfl
theorem Lanes.agentRst (n : BitVec 3) (on : Bool) : Lanes.Statement (.agentRst n on) := rfl
theorem Lanes.porstAssert : Lanes.Statement (.porstAssert) := rfl
theorem Lanes.srstAssert : Lanes.Statement (.srstAssert) := rfl
theorem Lanes.porstRelease : Lanes.Statement (.porstRelease) := rfl
theorem Lanes.srstRelease : Lanes.Statement (.srstRelease) := rfl
theorem Lanes.startKindDecide (root : Bool) : Lanes.Statement (.startKindDecide root) := rfl
theorem Lanes.mapReplay (x : MapIn) : Lanes.Statement (.mapReplay x) := rfl
theorem Lanes.trickleServiceBegin : Lanes.Statement (.trickleServiceBegin) := rfl
theorem Lanes.bringupExit : Lanes.Statement (.bringupExit) := rfl
theorem Lanes.fullWaitExpire : Lanes.Statement (.fullWaitExpire) := rfl
theorem Lanes.mlReset (a : BitVec 3) : Lanes.Statement (.mlReset a) := rfl
theorem Lanes.degradedEnter : Lanes.Statement (.degradedEnter) := rfl
theorem Lanes.runRestore : Lanes.Statement (.runRestore) := rfl
theorem Lanes.supplyWarning (low : Bool) (mv : BitVec 10) : Lanes.Statement (.supplyWarning low mv) := rfl
theorem Lanes.supplyStop (low : Bool) (mv : BitVec 10) : Lanes.Statement (.supplyStop low mv) := rfl
theorem Lanes.supplyClear (warnLow failLow : Bool) (mv : BitVec 10) : Lanes.Statement (.supplyClear warnLow failLow mv) := rfl
theorem Lanes.flushCompleteSeal : Lanes.Statement (.flushCompleteSeal) := rfl
theorem Lanes.openRecordWrite : Lanes.Statement (.openRecordWrite) := rfl
theorem Lanes.sleepEmber (a : BitVec 3) : Lanes.Statement (.sleepEmber a) := rfl
theorem Lanes.sleepSmoulder (a : BitVec 3) : Lanes.Statement (.sleepSmoulder a) := rfl
theorem Lanes.wake (a : BitVec 3) : Lanes.Statement (.wake a) := rfl
theorem Lanes.flushSeal (a : BitVec 3) : Lanes.Statement (.flushSeal a) := rfl
theorem Lanes.resume (a : BitVec 3) : Lanes.Statement (.resume a) := rfl
theorem Lanes.sleepChoice : Lanes.Statement (.sleepChoice) := rfl
theorem Lanes.wakeSource (bad : BitVec 42) : Lanes.Statement (.wakeSource bad) := rfl
theorem Lanes.preEventWake : Lanes.Statement (.preEventWake) := rfl
theorem Lanes.smoulderVisit (shifts : Word) (hubTemp quadTemp : BitVec 8) : Lanes.Statement (.smoulderVisit shifts hubTemp quadTemp) := rfl
theorem Lanes.pdCtlWrite (a : BitVec 3) (v : BitVec 17) : Lanes.Statement (.pdCtlWrite a v) := rfl
theorem Lanes.domainHeldTransfer (d : BitVec 5) : Lanes.Statement (.domainHeldTransfer d) := rfl
theorem Lanes.sleepCfgWrite (a : BitVec 3) (addr : BitVec 24) (v : Word) : Lanes.Statement (.sleepCfgWrite a addr v) := rfl
theorem Lanes.refLoss : Lanes.Statement (.refLoss) := rfl
theorem Lanes.refStable : Lanes.Statement (.refStable) := rfl
theorem Lanes.pllLock (us : BitVec 8) (safe : BitVec 32) : Lanes.Statement (.pllLock us safe) := rfl
theorem Lanes.refCalibrate (ps : BitVec 16) : Lanes.Statement (.refCalibrate ps) := rfl
theorem Lanes.clockGateClose (d : BitVec 6) : Lanes.Statement (.clockGateClose d) := rfl
theorem Lanes.clockGateWake (d : BitVec 6) : Lanes.Statement (.clockGateWake d) := rfl
theorem Lanes.switchForced (d : BitVec 6) : Lanes.Statement (.switchForced d) := rfl

end Sys2Proof.Laws
end

