-- ==== Sys2Proof/Tests/Slice0.lean ====
section
/-! SUPPORT. Tests: ill-formed commands are refused, and for each statement with hypotheses a state that meets them, at the boundary of
each clause where it has one. -/
namespace Sys2Proof.Tests
open Sys2Proof.Machine

-- One theorem at a time: a kernel evaluation waits for the kernel, and every theorem that waits would hold a thread.
set_option Elab.async false

/-- A lane report by its key: data lane 64 × pseudo-channel + lane, command and address lane 4096 + 64 × channel + lane (R302). -/
def lane (k : Nat) : LaneIn := { (default : LaneIn) with key := BitVec.ofNat 13 k }

/-! Well-formedness: the last lane of each kind is one, the next is not. -/

theorem test_wf_last_lanes : (Instr.fullTraining 0 false 4 14 1 false 0 0 [lane (64 * 31 + 35), lane (4096 + 64 * 15 + 18)]).wf = true := by decide
theorem test_ill_full_training : (Instr.fullTraining 0 false 4 14 1 false 0 0 [lane (64 * 32)]).wf = false := by decide
theorem test_ill_resume_training : (Instr.resumeTraining 0 true [lane (64 * 31 + 36)]).wf = false := by decide
theorem test_ill_retrain_unit : (Instr.retrainUnit 0 [lane (4096 + 64 * 16)]).wf = false := by decide
theorem test_ill_repair_unit : (Instr.repairUnit 0 [lane (4096 + 19)]).wf = false := by decide
theorem test_ill_loopback : (Instr.loopbackTest 0 0 0 0 [(BitVec.ofNat 13 36, 0)]).wf = false := by decide
theorem test_ill_is_refused : exec (.retrainUnit 0 [lane 36]) State.reset = .refused .illFormed := rfl

/-! ### Small states -/

/-- Register fields written one after the other: field, instance, value. -/
def puts (m : Mach) (l : List (Field × Nat × Nat)) : Mach := l.foldl (fun m x => m.put x.1 x.2.1 x.2.2) m

/-- The Core out of reset with no step of its start made, and some fields written. -/
def raw (l : List (Field × Nat × Nat)) : Mach := puts { State.reset.m with porstN := true } l

/-- A Core in RUN with every power domain on, the PLL locked and trace time valid, both stacks in service and Collier running. -/
def core (l : List (Field × Nat × Nat)) : Mach :=
  puts (raw [(GLOBAL.STAT_RELEASED, 0, 1), (GLOBAL.STAT_SERVICE, 0, 1), (POWER.STAT_MODE, 0, mRun), (POWER.PD_ON, 0, 2 ^ 17 - 1),
    (CLOCK.STAT_PLL_LOCK, 0, 1), (ALM.STAT_TB_VALID, 0, 1), (HT.STAT_IN_SERVICE, 0, 1), (HT.STAT_IN_SERVICE, 1, 1),
    (COLLIER.STAT_STATE, 0, 2)]) l

/-- The same with a map store of 2^20 segments on a hub and stacks of 4 GiB. -/
def store (l : List (Field × Nat × Nat)) : Mach :=
  let m := core l
  { m with map := { m.map with segS := 2 ^ 20 }, ht := { m.ht with geomB := 4, geomR := 13 } }

/-- Whether a page acts on an access at once. -/
def opens (m : Mach) (p : Page) (n : Nat) : Bool :=
  m.outOfReset && m.mode != mSafehold && m.released && !m.absentPage p n && !m.asleep &&
    (match p.domain n with | some d => !bitAt (m.get POWER.PD_OFF) d && bitAt (m.get POWER.PD_ON) d | none => true) &&
    (match p.clockDomain n with | some d => !bitAt (m.get CLOCK.GATED) (d - 1) | none => true)

theorem cfgOpen_of_opens {m : Mach} {p : Page} {n : Nat} (h : opens m p n = true) : m.cfgOpen p n := by
  simp only [opens, Bool.and_eq_true, bne_iff_ne, ne_eq, Bool.not_eq_true'] at h
  obtain ⟨⟨⟨⟨⟨⟨h1, h2⟩, h3⟩, h4⟩, h5⟩, h6⟩, h7⟩ := h
  refine ⟨h1, h2, h3, h4, h5, ?_, ?_⟩
  · intro d hd; rw [hd] at h6; simpa using h6
  · intro d hd; rw [hd] at h7; simpa using h7

/-- A request of an op code with a tag, at a line, with one line of it at a phase. -/
def req (op tag line : Nat) (ph : Phase) (lp : LPhase) : Req :=
  { (default : Req) with op := op, tag := tag, addr := 256 * line, phase := ph, closed := true, lines := [{ (default : LineSt) with phase := lp }] }

/-- A machine with these requests at port `n`. -/
def withReqs (m : Mach) (n : Nat) (l : List Req) : Mach := { m with ports := m.ports.set n { m.ports.get n with reqs := l } }

/-- A machine with a command that Collier has accepted. -/
def withCmd (m : Mach) (c : Cmd) : Mach := { m with post := { m.post with cmds := [c] } }

/-- A command of an op code at a stage. -/
def cmd (op stage : Nat) : Cmd := { (default : Cmd) with op := op, stage := stage }

/-! ### The pages -/

theorem witness_open_pages : (core []).cfgOpen .global 0 ∧ (core []).cfgOpen .port 15 ∧ (core []).cfgOpen .stream 31 ∧ (core []).cfgOpen .seq 15 ∧
    (core []).cfgOpen .reeve 0 ∧ (core []).cfgOpen .map 0 ∧ (core []).cfgOpen .err 0 ∧ (core []).cfgOpen .gln 0 ∧ (core []).cfgOpen .ht 1 ∧
    (core []).cfgOpen .hphy 1 ∧ (core []).cfgOpen .zml 31 ∧ (core []).cfgOpen .post 0 ∧ (core []).cfgOpen .collier 0 ∧ (core []).cfgOpen .alm 0 := by
  refine ⟨?_, ?_, ?_, ?_, ?_, ?_, ?_, ?_, ?_, ?_, ?_, ?_, ?_, ?_⟩ <;> exact cfgOpen_of_opens (by decide)

theorem witness_step_runs_front : (⟨core [], [.tbAliveToggle]⟩ : State).pending = .tbAliveToggle :: [] := rfl

theorem witness_cfg_writes : Page.ofNumber (Page.number .port 3) = some (.port, 3) ∧
    (core [(evField .port, 3, 1)]).get (evField .port) 3 = 1 := by decide

theorem witness_counter_read : cfgPlace (0x1000 * Page.number .zml 31 + 0x800) = some (.zml, 31, 0x800) ∧
    fieldsAt .zml 31 0x800 = [Field.counter .zml 0x800] := by decide

theorem witness_cfg_limits : State.reset.m.outOfReset = false ∧ (core [(POWER.STAT_MODE, 0, mSafehold)]).mode = mSafehold ∧
    (core []).outOfReset = true ∧ Page.ofNumber 4095 = none ∧ Page.domain .port 15 = some 16 ∧ (core [(POWER.STAT_MODE, 0, mEmber)]).asleep = true ∧
    (core []).absentPage .port 15 = false := by decide

/-! ### Trace time -/

theorem witness_trace_time : (core []).almRuns = true ∧ (core []).estimated = false ∧ (core [(ALM.STAT_ESTIMATED, 0, 1)]).estimated = true ∧
    (let m : Mach := { core [] with now := 384001 }; 19200 * m.get ALM.TB_LOSS_TIME < m.now - m.alm.aliveAt) := by decide

theorem witness_loads : (core []).flag ALM.STAT_TB_VALID = true ∧ (raw [(GLOBAL.STAT_RELEASED, 0, 1)]).flag ALM.STAT_TB_VALID = false ∧
    (4 : Tick) = (core []).tb + (4 : BitVec 3).setWidth 64 ∧ (5 : Tick) ≠ (core []).tb + (4 : BitVec 3).setWidth 64 := by decide

/-- The schedule with one entry, at an index, in a Core with some fields written. -/
def planned (l : List (Field × Nat × Nat)) (i : Nat) (e : Entry) : Mach :=
  let m := core l
  { m with alm := { m.alm with sched := m.alm.sched.set i e } }

theorem witness_entries : (core []).get ALM.ENT_STAT ≠ 3 ∧ 1024 - (core []).get ALM.LOOM_RESERVE ≤ 768 ∧
    (core [(ALM.ENT_SEL, 0, 768)]).inReserve 768 = true ∧ (core [(ALM.ENT_SEL, 0, 767)]).inReserve 767 = false ∧
    EntKind.ofCode 1 ≠ .free ∧ ((planned [] 767 ⟨.wake, 0, 0, false, false⟩).alm.sched.get 767).kind ≠ .free := by decide

theorem witness_periods : (core [(ALM.STAT_IN_GUAR, 0, 1)]).flag ALM.STAT_IN_GUAR = true ∧
    (((core [(ALM.TB_NOW, 0, 8192)]).tb - (0 + BitVec.ofNat 64 8192)).toNat < 2 ^ 63) := by decide

theorem witness_fire : (planned [(ALM.TB_NOW, 0, 9)] 3 ⟨.windowClose, 9, 1, false, true⟩).nextToFire = some (3, ⟨.windowClose, 9, 1, false, true⟩) ∧
    (planned [(ALM.TB_NOW, 0, 9)] 3 ⟨.period, 9, 256, false, false⟩).boundaryReached = false ∧
    (planned [(ALM.TB_NOW, 0, 9)] 3 ⟨.period, 9, 256, false, false⟩).periodElapsed = 9 ∧
    (planned [(STREAM.STAT_STATE, 31, 1)] 3 ⟨.arm, 0, 31, false, false⟩).get STREAM.STAT_STATE 31 = 1 ∧
    (planned [(ALM.TB_NOW, 0, 8)] 3 ⟨.wake, 9, 0, false, false⟩).nextToFire = none := by decide

theorem witness_fired_entry : (core []).inReserve ((core []).get ALM.ENT_SEL) = false ∧
    ((core []).alm.sched.get ((core []).get ALM.ENT_SEL)).kind = .free ∧
    EntKind.ofCode ((core [(ALM.ENT_CTL, 0, 1)]).get ALM.ENT_CTL) ≠ .playDue := by decide

/-! ### Ports -/

/-- A port that is ready with its clock running. -/
def ready (n : Nat) : Mach := core [(PORT.CTL_ENABLE, n, 1), (PORT.STAT_READY, n, 1), (PORT.STAT_PCLK_RUN, n, 1), (PORT.PLY_CRED_NOW, n, 1)]

theorem witness_accept : (ready 15).flag PORT.STAT_READY 15 = true ∧ (ready 15).flag PORT.STAT_PCLK_RUN 15 = true ∧
    (∃ r ∈ ((withReqs (ready 15) 15 [req opRead 7 0 .intake .hearth]).port 15).reqs, r.tag = 7) ∧
    (ready 15).get PORT.INTAKE_LEVEL 15 < 512 ∧ ((ready 15).port 15).reqs.length < 4096 ∧ ((ready 15).port 15).tagStall = none := by decide

/-- A write with beats missing. -/
def openWrite : Req := { req opWrite 1 0 .intake .hearth with closed := false, len := 1 }

theorem witness_beats : ((withReqs (ready 0) 0 [openWrite]).port 0).reqs.find? (fun r => writeBearing r.op && !r.closed) = some openWrite ∧
    ((ready 0).port 0).reqs.find? (fun r => writeBearing r.op && !r.closed) = none ∧
    (let r := { req opRead 1 0 .ready .done with len := 0 }
     r.beatReady 0 = true ∧ (withReqs (ready 0) 0 [r]).rspTurn 0 r = true ∧ 0 + 1 = r.rspBeats) := by decide

theorem witness_credit_urgency : (ready 2).get PORT.STAT_URG_EFF 2 < 3 ∧ ¬((ready 2).get PORT.PLY_CRED_NOW 2 < ((ready 2).port 2).credits) ∧
    0 < (core [(PORT.STAT_URG_EFF, 2, 1)]).get PORT.STAT_URG_EFF 2 ∧ (core []).flag PORT.CTL_ENABLE 2 = false ∧ ((core []).port 2).reqs = [] ∧
    (ready 2).flag PORT.CTL_ENABLE 2 = true ∧
    (let m := core [(POWER.STAT_MODE, 0, mEmber)]
     m.asleep = true ∧ m.flag PORT.STAT_READY 2 = false ∧ m.flag PORT.STAT_PCLK_RUN 2 = false ∧ (m.port 2).urg ≠ 3 ∧
       (m.port 2).urg3At = 0) := by decide

theorem witness_present : (let r := req opFence 0 0 .intake .hearth
    let m := withReqs (ready 1) 1 [r]
    m.fabricUp = true ∧ m.heldRange 1 r = none ∧ m.presentChoice 1 ([r].filter (m.presentable 1 [r])) = some r ∧ ordering r.op = true) ∧
   (let r := req opRead 0 0 .intake .hearth
    let m := puts (withReqs (ready 1) 1 [r]) [(REEVE.PM_ENABLE 1, 0, 0), (REEVE.CL_METER_EN 0, 0, 0)]
    m.presentChoice 1 ([r].filter (m.presentable 1 [r])) = some r ∧ ordering r.op = false ∧ m.flag (REEVE.PM_ENABLE 1) = false ∧
      m.flag (REEVE.CL_METER_EN 0) = false) := by decide

/-- A class shaper with a credit and the request of port 1 at its head. -/
def shaping (credit : Int) : Mach :=
  let m := puts (withReqs (ready 1) 1 [req opRead 0 0 .shaper .hearth]) [(REEVE.CL_SHAPE_EN 7, 0, 1), (REEVE.CL_RATE 7, 0, 1)]
  { m with reeve := { m.reeve with shapers := m.reeve.shapers.set 7 { (default : Shaper) with credit := credit, fifo := [(1, 0)] } } }

theorem witness_shapers : ((shaping (-1)).shaper 7).fifo = [(1, 0)] ∧ ((shaping (-1)).shaper 7).credit < 0 ∧ 0 ≤ ((shaping 0).shaper 7).credit ∧
    (shaping 0).req? 1 0 = some (req opRead 0 0 .shaper .hearth) ∧ (shaping 0).flag (REEVE.CL_SHAPE_EN 7) = true ∧
    (shaping 0).get (REEVE.CL_RATE 7) ≠ 0 := by decide

/-! ### Regulation -/

theorem witness_shortfall : (core [(POWER.STAT_MODE, 0, mBringup)]).fabricUp = true ∧ (core []).mode ≠ mBringup ∧ bits 33 0 6 < 34 ∧
    (let m : Mach := { core [(ZML.LINK_STATE, 31, 3)] with now := 1920000 }; m.link 31 = 3 ∧ (m.zs 31).stateAt + 1920000 ≤ m.now) ∧
    (let m := core []; let m : Mach := { m with reeve := { m.reeve with short := m.reeve.short.set 19 1 } }; m.reeve.short.get 19 ≠ 0) ∧
    (core [(REEVE.SAMP_ENABLE 3, 0, 1)]).flag (REEVE.SAMP_ENABLE 3) = true ∧ (core [(REEVE.SAMP_ENABLE 3, 0, 1)]).get (REEVE.SAMP_POS 3) < 16 ∧
    (core []).get REEVE.SAMPLE_CYCLES ≤ fabricCycles 0 (2 ^ 40) ∧ fabricCycles 0 0 < (core []).get REEVE.SAMPLE_CYCLES := by
  decide +kernel

/-! ### Client operations -/

/-- A request of port 15 on line 0 of a namespace, its one line at a phase. -/
def client (op : Nat) (lp : LPhase) : Mach := withReqs (store []) 15 [req op 9 0 .lines lp]

/-- A read of port 15 whose line Hearth holds dirty. -/
def dirtyHit : Mach :=
  let m := client opRead .served
  { m with ht := { m.ht with dir := [(16 * lineBucket 0, { (default : DirEnt) with valid := true })] } }

theorem witness_reads : (let r := req opRead 9 0 .lines .served
    (dirtyHit.port 15).reqs = [r] ∧ dirtyHit.lineFree 15 r 0 = true ∧ dirtyHit.behindMark r.id = false ∧ r.line 0 = 0 ∧
      ((dirtyHit.port 15).reqs.find? fun x => x.tag = 9 && x.op = opRead) = some r) ∧
    (dirtyHit.coherent 0 15 0 true false 0).1.isSome = true ∧
    (let r := req opPrefetch 9 0 .lines .served
     let m := withReqs dirtyHit 15 [r]
     m.lineFree 15 r 0 = true ∧ ((m.port 15).reqs.find? fun x => x.tag = 9 && x.op = opPrefetch) = some r ∧
       (m.coherent 0 15 0 false false 0).1.isSome = true) := by decide +kernel

/-- A whole-line write. -/
def whole (op : Nat) (lp : LPhase) : Req := { req op 9 0 .lines lp with len := 3, beats := List.replicate 4 ⟨1, 2 ^ 64 - 1⟩ }

theorem witness_writes : (whole opWrite .served).wholeLine 0 = true ∧ (whole opWriteMasked .served).wholeLine 0 = true ∧
    (req opZero 9 0 .lines .served).wholeLine 0 = true ∧
    (withReqs (store []) 15 [whole opWrite .served]).lineFree 15 (whole opWrite .served) 0 = true ∧
    (store []).dirAny 0 = none ∧ (store [(POWER.HOLDUP_BYTES, 0, 256)]).dirtyRoom = true ∧
    (store [(POWER.HOLDUP_BYTES, 0, 255)]).dirtyRoom = false ∧ ((store []).dirFree (lineBucket 0)).isSome = true ∧
    (let r := { whole opWriteMasked .dirWait with beats := [⟨1, 1⟩, ⟨1, 0⟩, ⟨1, 0⟩, ⟨1, 0⟩] }; r.wholeLine 0 = false ∧ r.emptyLine 0 = false) ∧
    (let r := { whole opWriteMasked .dirWait with beats := List.replicate 4 ⟨1, 0⟩ }; r.wholeLine 0 = false ∧
      r.emptyLine 0 = true) := by decide +kernel

theorem witness_fences : (let f := { req opFence 3 0 .order .hearth with id := 2 }
    let m := withReqs (store []) 15 [f]
    ((m.port 15).reqs.find? fun x => x.tag = 3 && x.op = opFence && x.phase == .order) = some f ∧
      ∀ x ∈ (m.port 15).reqs, f.id ≤ x.id ∨ x.took = true) ∧
    (let f := { req opFence 3 0 .order .hearth with id := 2 }
     let w := { req opWrite 4 0 .lines .media with id := 1 }
     let m := withReqs (store []) 15 [w, f]
     ¬∀ x ∈ (m.port 15).reqs, f.id ≤ x.id ∨ x.took = true) ∧
    (let p := { req opPersist 3 0 .order .hearth with id := 2 }
     let m := withReqs (store []) 15 [p]
     m.coveredStr 15 p = [] ∧ m.coveredWrites 15 p = [] ∧ p.coverLines = [] ∧ p.coverStr = []) ∧
    (core []).flag GLOBAL.GFENCE_BUSY = false ∧ (core [(GLOBAL.GFENCE_BUSY, 0, 1)]).flag GLOBAL.GFENCE_BUSY = true := by decide +kernel

/-- A persist of port 15 after a beat of it fed into stream 31, which runs. -/
def persisting : Mach :=
  let m := withReqs (store [(STREAM.STAT_STATE, 31, 1), (STREAM.NEXT_OFFSET, 31, 64)]) 15 [{ req opPersist 3 0 .order .hearth with id := 2 }]
  { m with ports := m.ports.set 15 { m.ports.get 15 with fed := [(31, 1, 0, 64)] } }

theorem witness_persist_pads : persisting.coveredStr 15 { req opPersist 3 0 .order .hearth with id := 2 } = [(31, 64)] ∧
    persisting.get STREAM.STAT_STATE 31 = 1 ∧ persisting.openFrom 31 < 64 := by decide +kernel

theorem witness_held : (let h : Hold := ⟨7, 0, 0, 0, 256, 1, 0, 0⟩
    let r := { req opWrite 3 0 .intake .hearth with stall := some 0 }
    let m0 := withReqs (ready 15) 15 [r]
    let m : Mach := { m0 with order := { m0.order with holds := [h] }, now := 19200 }
    m.heldRange 15 r = some h ∧ r.stall = some 0 ∧ 0 + 19200 * h.time ≤ m.now ∧ m.releasing h = false) := by decide +kernel

/-! ### Streams -/

theorem witness_streams : (core []).startCheck 31 ≠ none ∧ (core [(STREAM.STAT_STATE, 31, 1)]).get STREAM.STAT_STATE 31 = 1 ∧
    (core [(STREAM.STAT_STATE, 31, 3)]).get STREAM.STAT_STATE 31 = 3 ∧
    (core [(STREAM.STAT_STATE, 31, 1), (STREAM.STAT_ARMED, 31, 1)]).flag STREAM.STAT_ARMED 31 = true ∧
    (core [(STREAM.STAT_STATE, 31, 1), (STREAM.STAT_TRIGGERED, 31, 1)]).flag STREAM.STAT_TRIGGERED 31 = true ∧
    (core [(STREAM.CMD_RESULT, 31, 3)]).get STREAM.CMD_RESULT 31 = 3 ∧ (core []).get STREAM.CMD_RESULT 31 ≠ 3 := by decide +kernel

/-- A NONE namespace of one unit and the registers of stream 0 over it, with staging. -/
def capture (l : List (Field × Nat × Nat)) : Mach :=
  let m := store ([(STREAM.TARGET_ADDR, 0, 2 ^ 52), (STREAM.TARGET_LEN, 0, 2 ^ 20), (STREAM.STG_SIZE, 0, 1), (STREAM.SRC_PORTS, 0, 1),
    (STREAM.MODE_IDX_ENABLE, 0, 0)] ++ l)
  { m with ns := [(1, { (default : NsDesc) with size := 2 ^ 20, exists_ := true, writePorts := 1, readPorts := 1 })] }

theorem witness_start : (capture []).startCheck 0 = none := by decide +kernel

theorem witness_commit : (let m := (capture [(STREAM.STAT_STATE, 0, 2)]).idxFlush 0 true 3
    m.fabricUp = true ∧ m.get STREAM.STAT_STATE 0 = 2 ∧ m.get STREAM.TAIL 0 = m.get STREAM.END_OFFSET 0 ∧ m.spilled 0 = [] ∧ m.idxDurable 0 = true ∧
      (m.str 0).commit = 0) := by decide +kernel

/-- The stream running with an APPEND of one beat that waits for it, its first unit mapped. -/
def appending (state : Nat) : Mach :=
  let r := { req opAppend 5 0 .kiln .hearth with beats := [⟨1, 2 ^ 64 - 1⟩], stream := some 0 }
  let m := withReqs (capture [(STREAM.STAT_STATE, 0, state), (STREAM.RUNAHEAD, 0, 1)]) 0 [r]
  { m with kiln := { m.kiln with streams := m.kiln.streams.set 0 { (default : StrSt) with mapped := 1 } } }

theorem witness_append : (let m := appending 1
    m.strMapped 0 64 = true ∧ m.holdupBlocked 0 (max 1 (m.newSlots 0 64)) = false ∧ m.stgRoom 0 (m.newSlots 0 64) = true ∧ 64 ≤ m.strLen 0 ∧ m.behindMark 0 = false ∧
      m.flag STREAM.STAT_TRIGGERED 0 = false ∧ (m.str 0).idxBuf.length < 28) ∧ (appending 2).get STREAM.STAT_STATE 0 ≠ 1 := by decide +kernel

theorem witness_trigger : (let m := capture [(STREAM.STAT_STATE, 0, 1), (STREAM.TRIG_ENABLE, 0, 1), (STREAM.STAT_ARMED, 0, 1), (STREAM.TRIG_SRC, 0, 7)]
    m.flag STREAM.TRIG_ENABLE 0 = true ∧ m.flag STREAM.TRIG_FALLING 0 = false ∧ (m.str 0).armedEnd ≠ some m.now ∧
      bitAt m.kiln.trig (m.get STREAM.TRIG_SRC 0) = false ∧ bitAt 128 (m.get STREAM.TRIG_SRC 0) = true) := by decide +kernel

/-- The stream with slots, spilling. -/
def staged (l : List (Field × Nat × Nat)) (x : Slot) : Mach :=
  let m := capture ([(STREAM.STAT_STATE, 0, 1), (STREAM.STAT_SPILLING, 0, 1), (POWER.HOLDUP_BYTES, 0, 2 ^ 30), (STREAM.QUOTA, 0, 2 ^ 20)] ++ l)
  { m with kiln := { m.kiln with streams := m.kiln.streams.set 0 { (default : StrSt) with slots := [x], used := 1 } } }

/-- A slot of 256 bytes that is full and closed. -/
def fullSlot : Slot := { (default : Slot) with filled := 256, closed := true }

theorem witness_spill : (let m := staged [] fullSlot
    ((m.str 0).slots.find? fun y => y.spill.isNone && !y.issued) = some fullSlot ∧ m.issuable 0 fullSlot = false ∧ m.slotFull 0 fullSlot = true ∧
      m.spillBlocked 0 = false ∧ m.ringBlocked 0 = false ∧ m.undurable + m.dirtyBytes ≤ m.get POWER.HOLDUP_BYTES ∧
      (m.spillFree (m.slotLines 0)).isSome = true) ∧
    (let m := staged [] { fullSlot with issued := true }; m.spilled 0 = [] ∧
      256 * m.stgFill 0 < m.get STREAM.SPILL_ON 0 * m.stgCap 0) := by decide +kernel

theorem witness_drain : (let x := { fullSlot with spill := some 0 }
    let m := staged [(ZML.LINK_STATE, 0, 4)] x
    let m : Mach := { m with map := { m.map with root := [(2 ^ 14, ⟨0, 0, false, true⟩)], l1 := [(2 ^ 23, ⟨0, 0, false, true⟩)], ents := [(2 ^ 32, eMake 1 0 5 false)] } }
    ((m.str 0).slots.find? fun y => y.spill.isNone && !y.issued) = none ∧ ((m.spilled 0).find? fun y => !y.issued && y.reading = 0) = some x ∧
      m.issuable 0 x = true) := by decide +kernel

theorem witness_pad : (let x := { (default : Slot) with filled := 64 }
    let m : Mach := { staged [(STREAM.PAD_TIMEOUT, 0, 1), (STREAM.NEXT_OFFSET, 0, 64)] x with now := 19200 }
    m.pingpong 0 = false ∧ m.get STREAM.PAD_TIMEOUT 0 ≠ 0 ∧ ((m.str 0).slots.find? fun y => y.staged && !m.slotFull 0 y) = some x ∧
      x.since + 19200 * m.get STREAM.PAD_TIMEOUT 0 ≤ m.now ∧ m.get STREAM.NEXT_OFFSET 0 % m.span 0 ≠ 0) := by decide +kernel

theorem witness_runahead : (let m := capture [(STREAM.STAT_STATE, 0, 1), (STREAM.RUNAHEAD, 0, 1), (MAP.DELTA_SIZE, 0, 2 ^ 20)]
    (m.str 0).mapped < min (m.strUnits 0) (0 + m.get STREAM.RUNAHEAD 0) ∧ m.ent (m.strUnit 0 0) = 0 ∧ m.deltaFull = false ∧
      m.strPlace 0 0 = none) ∧
    (let m0 := capture [(STREAM.STAT_STATE, 0, 1), (STREAM.RUNAHEAD, 0, 1), (MAP.DELTA_SIZE, 0, 2 ^ 20)]
     ((m0.setSeg 0 900 .woodshed).strPlace 0 0).isSome = true) := by decide +kernel

theorem witness_tail : (let x := { fullSlot with issued := true }
    let m := (staged [] x).kilnOffer
    (m.str 0).slots = [x] ∧ m.strActive 0 = true ∧ x.done = true ∧ 0 ≤ m.get STREAM.TAIL 0 ∧ m.located (m.unitOf (m.slotLine 0 0 0)).1 = true) := by
  decide +kernel

/-! ### Admission, namespaces -/

/-- A Core just released, with registers set. -/
def bare (l : Tab Nat) : Mach :=
  { State.reset.m with porstN := true, regs := [(GLOBAL.STAT_RELEASED.key 0, 1), (POWER.PD_ON.key 0, 2 ^ 17 - 1)] ++ l }

/-- Every class of kind 1. -/
def kind1 : Tab Nat := (List.range 8).map fun c => ((REEVE.CL_KIND c).key 0, 1)

theorem witness_commit_checks : (bare []).cfgOpen .reeve 0 ∧ (∀ c < 8, (bare kind1).kindShadow c = 1) ∧
    (let m := bare ([((REEVE.CL_RANK 3).key 0, 3 ^^^ 2)] ++ kind1)
     m.get (REEVE.CL_RANK 3) = m.get (REEVE.CL_RANK 2) ∧
     rankClash (rankedOwners (m.get REEVE.RANK_KILN_OUT) (m.get REEVE.RANK_LOOM_DUE) (fun c => m.get (REEVE.CL_RANK c))
       fun c => m.kindShadow c = 1) = true) ∧
    (let m := bare kind1
     rankClash (rankedOwners (m.get REEVE.RANK_KILN_OUT) (m.get REEVE.RANK_LOOM_DUE) (fun c => m.get (REEVE.CL_RANK c))
       fun c => m.kindShadow c = 1) = false) := by
  refine ⟨cfgOpen_of_opens (by decide +kernel), ?_⟩
  and_intros <;> decide +kernel

/-- With no capability shown the slots of a tier-direction claim nothing. -/
theorem bare_slotX (x : Nat) : (bare []).slotX x = 0 := by
  have hc : ∀ a < 34, (bare []).capability a = 0 := by decide +kernel
  have hz : ∀ a ∈ tierArbs x, (bare []).capability a * (256 / arbSize a) *
      ((List.range (arbSize a)).filter fun k => ownerIn x ((bare []).slotShadow a k)).length = 0 := by
    intro a ha
    have : a < 34 := by
      unfold tierArbs at ha
      split at ha <;> simp at ha <;> omega
    simp [hc a this]
  unfold Mach.slotX
  rw [List.map_congr_left hz]
  generalize tierArbs x = l
  induction l with
  | nil => rfl
  | cons a l ih => rw [List.map_cons, List.sum_cons, ih]

theorem witness_commit_sums : ∀ x < 3, (bare []).slotX x + 256 * (bare []).cirX x ≤ 256 * ((bare []).capX x * (bare []).get REEVE.ADMIT_PCT / 100) := by
  simp only [bare_slotX]
  decide +kernel

theorem witness_commit_slots :
    ∀ b < 34, ((List.range (arbSize b)).filter fun k => (bare []).slotShadow b k % 32 ≠ 31).length ≤ if b < 2 then 252 else 126 := by
  decide +kernel
theorem witness_commit_over : (let m := bare [((REEVE.CL_KIND 0).key 0, 1), ((REEVE.CL_CIR 0).key 0, 1)]
    256 * (m.capX 0 * m.get REEVE.ADMIT_PCT / 100) < m.slotX 0 + 256 * m.cirX 0) ∧ (bare []).get REEVE.COMMIT_RESULT ≠ 2 ∧
    (bare [(REEVE.COMMIT_RESULT.key 0, 2)]).get REEVE.COMMIT_RESULT = 2 := by decide +kernel

theorem witness_ns_change : (let m := withCmd (store [(MAP.DELTA_SIZE, 0, 2 ^ 20)]) { cmd 4 1 with p0 := 1, p1 := 2 ^ 20 }
    (m.post.cmds.find? fun x => x.stage = 1 && (x.op = 1 || x.op = 2 || x.op = 4 || x.op = 5)).isSome = true ∧ m.mapUp = true ∧
      m.deltaFull = false ∧ m.epochWaits 1 = false ∧ m.growWaits { cmd 4 1 with p0 := 1, p1 := 2 ^ 20 } = false ∧
      bitAt (cmd 5 1).p0.toNat 8 = false) := by decide +kernel

/-! ### Lists -/

/-- A list at sequencer 15 in a state, its entries given, its copy in Hearth. -/
def listed (state : Nat) (es : List (Nat × Nat)) (l : List (Field × Nat × Nat)) : Mach :=
  let m := store ([(SEQ.STAT_STATE, 15, state), (SEQ.LIST_LEN, 15, es.length), (SEQ.LIST_ADDR, 15, 2 ^ 52)] ++ l)
  let line : Line := BitVec.ofNat 2048 (es.foldr (fun e n => e.1 + 2 ^ 64 * e.2 + 2 ^ 128 * n) 0)
  ({ m with ns := [(1, { (default : NsDesc) with size := 2 ^ 20, exists_ := true, readPorts := 1 })],
            loom := { m.loom with seqs := [(15, { (default : SeqSt) with img := [(0, line)], imgSt := [(0, 1)], reading := 2 })] } } : Mach).imageStore 15

/-- A PLAY of one line of namespace 1 and an advance of 7 ticks. -/
def play : Nat × Nat := (1 + 2 ^ 8 * 2 ^ 44, 1 + 7 * 2 ^ 24)

theorem witness_lists : (listed 2 [play, (0, 0)] []).cfgOpen .seq 15 ∧ (listed 2 [play, (0, 0)] []).get SEQ.CMD_RESULT 15 ≠ 3 ∧
    (listed 2 [play, (0, 0)] []).seqEntry 15 0 = some play ∧ (listed 2 [play, (0, 0)] []).seqEntry 15 1 = some (0, 0) ∧
    (listed 2 [play, (0, 0)] []).seqEntry 15 16 = none ∧ ((listed 2 [play, (0, 0)] []).seq 15).lost = false ∧
    ((listed 2 [play, (0, 0)] [(SEQ.PORT, 15, 0), (PORT.CTL_ENABLE, 0, 1)]).seqCheck 15).isNone = true ∧
      (listed 2 [play, (0, 0)] [(SEQ.PORT, 15, 1)]).seqCheck 15 = some (4, 0) ∧
    (listed 2 [play, (0, 0)] [(SEQ.CMD_RESULT, 15, 3)]).get SEQ.CMD_RESULT 15 = 3 ∧
    ((listed 0 [play] []).nsDesc 1).exists_ = true ∧ (listed 3 [play] []).get SEQ.STAT_STATE 15 = 3 := by
  refine ⟨cfgOpen_of_opens (by decide +kernel), ?_⟩
  and_intros <;> decide +kernel

/-- The same with its image just read, its check value in LIST_CRC. -/
def imaged (state : Nat) (es : List (Nat × Nat)) (status crc : Nat) : Mach :=
  let m := listed state es [(SEQ.LIST_CRC, 15, crc)]
  let line : Line := BitVec.ofNat 2048 (es.foldr (fun e n => e.1 + 2 ^ 64 * e.2 + 2 ^ 128 * n) 0)
  { m with loom := { m.loom with seqs := [(15, { (default : SeqSt) with img := [(0, line)], imgSt := [(0, status + 1)], reading := 2, lost := true })] } }

theorem witness_image : (imaged 1 [play, (0, 0)] 0 0).imageHere 15 = true ∧ (imaged 1 [play, (0, 0)] 0 0).imageBad 15 = none ∧
    (imaged 1 [play, (0, 0)] stPoison 0).imageBad 15 = some 0 ∧ entryBad 2 0 play.1 play.2 = false ∧ entryBad 2 1 6 0 = true ∧
    (imaged 1 [play, (0, 0)] 0 0).imageEntry 15 0 = play ∧ ((imaged 2 [] 0 ((imaged 2 [] 0 0).imageCrc 15)).seq 15).lost = true ∧
    (imaged 2 [] 0 ((imaged 2 [] 0 0).imageCrc 15)).imageCrc 15 = (imaged 2 [] 0 ((imaged 2 [] 0 0).imageCrc 15)).get SEQ.LIST_CRC 15 ∧
    ((listed 4 [play] []).seq 15).queue = [] ∧ (listed 4 [play] []).seqReads 15 = false := by
  and_intros <;> decide +kernel

/-- One of each kind of entry: END, PLAY, LOOP to 0, BRANCH to 0 on condition 3 and an unconditional one, WAIT by 1 and until 9, MARK with a
PLY beat and an empty one. -/
def kinds : List (Nat × Nat) :=
  [(0, 0), play, (2 + 2 * 2 ^ 32, 0), (3 + 2 ^ 16 * 3, 0), (3 + 2 ^ 23, 0), (4, 1), (4 + 16, 9), (5 + 16, 5), (5, 0)]

theorem witness_walk : (listed 3 kinds []).fabricUp = true ∧ (listed 3 kinds []).asleep = false ∧
    (∀ i < 9, (listed 3 kinds []).seqEntry 15 i = some (kinds.getD i (0, 0))) ∧
    (∀ i < 9, i ≠ 3 → (listed 3 kinds []).walkHold 15 default (kinds.getD i (0, 0)).1 = 0) ∧
    (listed 3 kinds []).walkHold 15 { (default : SeqSt) with t := 2 ^ 62 } 0 = 1 ∧
    (listed 3 kinds [(ALM.LOOM_RESERVE, 0, 0)]).walkHold 15 default 1 = 4 ∧
    tickBefore (BitVec.ofNat 64 9) 0 = false ∧ kinds.map (fun e => iKind e.1) = [0, 1, 2, 3, 3, 4, 4, 5, 5] := by
  and_intros <;> decide +kernel

theorem witness_branch : (let b : LBranch := { (default : LBranch) with cond := 3, sense := true }
    [b].find? (fun x => x.out.isNone && decide (((core []).tb - x.sample).toNat < 2 ^ 63)) = some b ∧ bitAt 8 b.cond = b.sense ∧
    bitAt 7 b.cond ≠ b.sense) ∧
    tickBefore (core []).tb (sampleTick64 9 0) = true ∧ (core []).tb ≠ sampleTick64 9 0 := by
  and_intros <;> decide +kernel

/-- List 15 with one entry to deliver to port 0. -/
def delivering (e : LEnt) (l : List (Field × Nat × Nat)) : Mach :=
  let m := core ([(SEQ.STAT_STATE, 15, 3), (SEQ.PORT, 15, 0), (PORT.CTL_ENABLE, 0, 1), (PORT.STAT_READY, 0, 1), (PORT.STAT_PCLK_RUN, 0, 1), (PORT.PLY_CRED_NOW, 0, 1)] ++ l)
  { m with loom := { m.loom with seqs := [(15, { (default : SeqSt) with queue := [e] })] } }

theorem witness_delivery : (let e := { (default : LEnt) with mark := true, ply := true }
    let m := delivering e []
    m.fabricUp = true ∧ m.flag PORT.STAT_READY 0 = true ∧ m.flag PORT.STAT_PCLK_RUN 0 = true ∧ 0 < m.get PORT.PLY_CRED_NOW 0 ∧
      ((List.range 16).find? fun j => (m.get SEQ.STAT_STATE j = 3 || m.get SEQ.STAT_STATE j = 4) && m.get SEQ.PORT j = 0) = some 15 ∧
      (m.seq 15).pushNext = some e) ∧
    (let e := { (default : LEnt) with lines := 2, ph := [(0, 3)], beat := 3 }
     let m := delivering e []
     (m.seq 15).pushNext = some e ∧ m.pushValue 15 e 0 = (some (stUnwritten, 0, none), m)) ∧
    (let m := delivering { (default : LEnt) with lines := 1 } [(SEQ.STAT_STATE, 15, 4), (PORT.PLY_CRED_NOW, 0, 0)]
     ¬0 < m.get PORT.PLY_CRED_NOW 0 ∧ (m.seq 15).pushNext.map (·.begun) = some false) ∧
    ((List.range 16).find?
      fun j => ((core []).get SEQ.STAT_STATE j = 3 || (core []).get SEQ.STAT_STATE j = 4) && (core []).get SEQ.PORT j = 0) = none ∧
    (delivering default []).flag PORT.CTL_ENABLE 0 = true := by
  and_intros <;> decide +kernel

/-! ### The map, wear and the Gleaner -/

/-- The store with a namespace 1 of one NONE unit at channel 0, segment 5, maintenance windows open and room in the delta log. -/
def mapped (l : List (Field × Nat × Nat)) : Mach :=
  let m := store ([(ALM.WIN_MASK, 0, 2 ^ 16 - 1), (MAP.DELTA_SIZE, 0, 2 ^ 20), (ZML.LINK_STATE, 0, 4), (ZML.HUB_SEGMENTS, 0, 2 ^ 20)] ++ l)
  { m with
    ns := [(1, { (default : NsDesc) with size := 2 ^ 20, exists_ := true, writePorts := 1, readPorts := 1 })],
    map := { m.map with root := [(2 ^ 14, ⟨0, 0, false, true⟩)], l1 := [(2 ^ 23, ⟨0, 0, false, true⟩)],
                        ents := [(2 ^ 32, eMake 1 0 5 false)] } }

/-- The same with a dirty line of the unit, a second old, and a writeback of it. -/
def dirty (d : DirEnt) (w : WbSt) : Mach :=
  let m := mapped []
  let e := 16 * lineBucket (2 ^ 44)
  { m with now := 19200000000, ht := { m.ht with dir := [(e, { d with line := 2 ^ 44, valid := true })], wbs := [(e, w)] } }

theorem witness_writeback : (let e := 16 * lineBucket (2 ^ 44)
    let m := dirty default default
    m.fabricUp = true ∧ m.stacksIn ≠ 0 ∧ m.wbDue.find? m.wbCan = some e ∧ m.wbDrops e = false ∧
      (dirty { (default : DirEnt) with wb := true } default).wbDue = [] ∧
      ((dirty { (default : DirEnt) with wb := true } default).dirEnt e).wb = true ∧
      ((dirty { (default : DirEnt) with wb := true } default).ht.wbs.get e).left = 0 ∧
      ((dirty { (default : DirEnt) with wb := true } default).ht.wbs.get e).reading = false ∧
      ((dirty { (default : DirEnt) with wb := true, lost := true } default).dirEnt e).lost = true) ∧
    (let e := 16 * lineBucket (2 ^ 44)
     let m := { dirty default default with ns := [] }
     m.wbDue.find? m.wbCan = some e ∧ m.wbDrops e = true) ∧
    (let m := dirty { (default : DirEnt) with wb := true } { (default : WbSt) with delta := some 5 }
     m.deltaDurable 5 = false ∧ m.persistWants (2 ^ 44) = false) ∧
    (dirty default default).map.stripes = [] := by
  and_intros <;> decide +kernel

theorem witness_map_log : (mapped []).cfgOpen .map 0 ∧ (mapped []).mapUp = true ∧ (mapped [(POWER.STAT_MODE, 0, mFlush)]).mode = mFlush ∧
    (mapped [(MAP.CKPT_STATE, 0, 2)]).get MAP.CKPT_STATE ≠ 0 ∧ (mapped []).get MAP.CKPT_STATE = 0 ∧
    (let m : Mach := { mapped [(MAP.CKPT_INTERVAL, 0, 1)] with now := 19200000000 }
     m.get MAP.CKPT_INTERVAL ≠ 0 ∧ m.map.ckptAt + 19200000000 * m.get MAP.CKPT_INTERVAL ≤ m.now) ∧
    (mapped [(MAP.CKPT_INTERVAL, 0, 0)]).get MAP.CKPT_INTERVAL = 0 ∧
    ((mapped [(MAP.CKPT_STATE, 0, 3)]).map.ckpt.root = 0 ∧ (mapped [(MAP.CKPT_STATE, 0, 3)]).flag MAP.CKPT_PENDING = false) ∧
    (let m := mapped []; let m : Mach := { m with now := 38400, map := { m.map with delta := { m.map.delta with cur := [(0, 0)] } } }
     m.map.delta.cur ≠ [] ∧ m.map.delta.curAt + 38400 ≤ m.now) := by
  refine ⟨cfgOpen_of_opens (by decide +kernel), ?_⟩
  and_intros <;> decide +kernel

theorem witness_format : (mapped []).mayWork = true ∧ (mapped []).link 0 = 4 ∧ (mapped []).link 31 ≠ 4 ∧ (mapped []).rowsNeeded = false ∧
    (mapped []).woodshed 0 + ((mapped []).segsIn 0 .formatting).length < (mapped []).get MAP.WOODSHED_TARGET ∧ (mapped []).formatting 0 < 4 ∧ (mapped []).linkServes 0 = true ∧ (mapped []).linkServes 31 = false ∧ (mapped []).inGuar = false ∧
    (mapped []).segBusy 0 4 = false ∧
    ((mapped []).pickFormat 0).isSome = true ∧ (mapped []).chanRO 0 = false ∧ ((mapped []).zs 0).outs.length = 0 ∧
    (mapped []).leaseOk 0 4 4097 = false ∧
    (let m := mapped []; ({ m with map := { m.map with wearD := [(segKey 0 4, 49)] } } : Mach).leaseOk 0 4 4097 = true) := by
  and_intros <;> decide +kernel

/-- The unit's namespace with a root word of an older epoch to reclaim. -/
def reclaiming (ents : Tab Nat) (l : List (Field × Nat × Nat)) : Mach :=
  let m := mapped l
  { m with map := { m.map with ents := ents, reclaim := [(1, 0, 0, 2 ^ 18 - 1)] } }

theorem witness_reclaim : (mapped [(ALM.STAT_IN_GUAR, 0, 1)]).flag ALM.STAT_IN_GUAR = true ∧
    (core []).mapUp = false ∧ (mapped []).flag ALM.STAT_IN_GUAR = false ∧ (mapped []).deltaFull = false ∧
    (mapped [(MAP.DELTA_FILL, 0, 2 ^ 60)]).deltaFull = true ∧
    ((reclaiming [] []).freeOrphans).map.reclaim = [(1, 0, 0, 2 ^ 18 - 1)] ∧ ((mapped []).freeOrphans).map.reclaim = [] ∧
    (((reclaiming [] []).freeOrphans).reclaimRoot 1 0 0 (2 ^ 18 - 1)).unitsBelow 1 0 0 (2 ^ 18 - 1) = [] := by
  and_intros <;> decide +kernel

theorem witness_drift : (mapped []).porstN = true ∧ (raw []).mapUp = false ∧ (mapped []).deltaHigh = false ∧
    (mapped [(MAP.DELTA_FILL, 0, 2 ^ 60)]).deltaHigh = true ∧
    (∀ uk ∈ (mapped []).map.ents.keys, ageCatch 32 (eAge ((mapped []).ent uk)) (max (mapped []).map.promoAt ((mapped []).map.promoUk.get uk)) 1 = eAge ((mapped []).ent uk)) ∧
    ((mapped []).map.canaries.get 7).at_ = 0 ∧ ((mapped []).map.ests.get 7).stage = 0 ∧ (mapped []).get ZML.LINK_RATE 0 = 0 ∧
    (mapped []).canaryWaits 0 7 = false ∧ (mapped [(POWER.STAT_MODE, 0, mBringup)]).mode ≠ mRun ∧
    (let m := mapped [(MAP.AGE_NOW, 0, 2 ^ 20)]
     (m.get MAP.CANARY_INTERVAL * 2 ^ 3 ≤ m.get MAP.AGE_NOW - (1 - 1))) := by
  and_intros <;> decide +kernel

/-- The start's estimate: every channel lost, and one that reads its canaries. -/
def estimating (state : Nat) (kind : Nat := 1) : Mach :=
  puts (raw [(GLOBAL.STAT_RELEASED, 0, 1), (POWER.STAT_MODE, 0, mBringup), (POWER.PD_ON, 0, 1), (GLOBAL.STAT_START_KIND, 0, kind)]) ((List.range 32).map
    fun c => (ZML.LINK_STATE, c, if c = 0 then state else 6))

theorem witness_estimate : (estimating 6).running = true ∧ (estimating 6).mode = mBringup ∧ (estimating 6).map.estDone = false ∧
    (∀ d < 32, (estimating 6).canSettled d = true) ∧ (∀ d < 32, (estimating 6).link d ≠ 4) ∧ (estimating 3).canSettled 0 = false ∧
    (estimating 6).get GLOBAL.STAT_START_KIND = 1 ∧ (estimating 6 0).get GLOBAL.STAT_START_KIND = 0 ∧
    (estimating 6 0).map.ests = [] := by
  and_intros <;> decide +kernel

/-- The unit's rotation after some moves. -/
def rotating (r : RotSt) (l : List (Field × Nat × Nat)) : Mach :=
  let m := mapped l
  { m with map := { m.map with rots := [(2 ^ 32, r)] } }

theorem witness_rotation : (mapped []).window 1 = true ∧ (mapped [(ALM.WIN_MASK, 0, 0)]).window 1 = false ∧
    (let m := mapped []; let m : Mach := { m with map := { m.map with rotDue := [2 ^ 32] } }
     m.map.rotDue.find? (fun u => m.ent u ≠ 0 && m.unitFree u && !m.unitRO u) = some (2 ^ 32)) ∧
    (rotating { (default : RotSt) with stage := 1, acked := 4096 } []).map.rots.find? (fun p => (p.2.stage = 0 && (mapped []).deltaDurable (p.2.delta - 1)) || (p.2.stage = 1 &&
      (p.2.acked = 4097 || !(rotating { (default : RotSt) with stage := 1, acked := 4096 } []).rotRests p.1))) =
      some (2 ^ 32, { (default : RotSt) with stage := 1, acked := 4096 }) ∧
    ((rotating { (default : RotSt) with stage := 1, acked := 4097 } []).map.rots.get (2 ^ 32)).acked = 4097 ∧
    (mapped []).rebuildWaits (2 ^ 32) (unitChans ((mapped []).ent (2 ^ 32))) = false ∧ unitChans ((mapped []).ent (2 ^ 32)) = [0] ∧
    (let m := mapped []; (({ m with map := { m.map with l1 := [] } } : Mach).lookup (2 ^ 32)).1 = true) ∧
    (let m := mapped []; (({ m with map := { m.map with sramBad := [rootLineKey (2 ^ 32)] } } : Mach).lookup (2 ^ 32)).1 = false) := by
  and_intros <;> decide +kernel

/-- The unit's migration to segment 9 of its channel. -/
def migrating (x : MigSt) : Mach :=
  let m := mapped []
  { m with map := { m.map with migs := [(2 ^ 32, { x with segNew := 9 })] } }

theorem witness_migration : (migrating default).map.migs.find? (fun p => p.2.next < unitCopies ((migrating default).ent p.1) || !p.2.marked.isEmpty) =
      some (2 ^ 32, { (default : MigSt) with segNew := 9 }) ∧
    (let m := (migrating { (default : MigSt) with next := 4096 }).freeOld
     m.map.migs.find? (fun p =>
       let e := m.ent p.1
       unitCopies e ≤ p.2.next && p.2.flight = 0 && p.2.marked.isEmpty && e ≠ 0 && !(m.map.stripes.any fun z => z.2.uk = p.1) &&
         !((unitChans e).any fun c => m.outOn c (eSeg e) true)) = some (2 ^ 32, { (default : MigSt) with next := 4096, segNew := 9 })) ∧
    (mapped []).map.migs = [] ∧ eKind ((mapped []).ent (2 ^ 32)) = 1 ∧
    (let m := mapped []; let m : Mach := { m with map := { m.map with rws := [(2 ^ 32, { (default : RwSt) with next := 4097 })] } }
     m.map.rws.find? (fun p => unitCopies (m.ent p.1) ≤ p.2.next - 1 && p.2.flight = 0) = some (2 ^ 32, { (default : RwSt) with next := 4097 })) ∧
    (let m := mapped []; let m : Mach := { m with map := { m.map with rwDue := [2 ^ 32] } }
     m.rwPick = some (2 ^ 32) ∧ m.window 0 = true ∧ m.map.rws = [] ∧ m.takesPosts = true) := by
  and_intros <;> decide +kernel

/-- A pass of the Gleaner over the namespace's first line. -/
def gleaning (l : List (Field × Nat × Nat)) : Mach :=
  mapped ([(GLN.RESULT_STATE, 0, 1), (GLN.START, 0, 2 ^ 52), (GLN.LENGTH, 0, 256), (GLN.PROGRESS, 0, 2 ^ 52)] ++ l)

theorem witness_gleaner : (gleaning []).cfgOpen .gln 0 ∧ (gleaning []).get GLN.RESULT_STATE = 1 ∧ (gleaning []).window 2 = true ∧
    (gleaning [(ALM.WIN_MASK, 0, 0)]).window 2 = false ∧ (gleaning []).flag GLN.MODE_ANYTIME = false ∧
    (gleaning []).get GLN.PROGRESS < (gleaning []).get GLN.START + (gleaning []).get GLN.LENGTH ∧
    (gleaning []).gleanLines < (gleaning []).get GLN.MODE_DEPTH ∧ (gleaning []).err.gAbort = false ∧ (gleaning []).err.gFly = [] ∧
    (let m := gleaning [(GLN.PROGRESS, 0, 2 ^ 52 + 256)]; m.get GLN.START + m.get GLN.LENGTH ≤ m.get GLN.PROGRESS) ∧
    (gleaning [(GLN.RESULT_STATE, 0, 2)]).gleanCheck = none ∧ (gleaning [(GLN.RESULT_STATE, 0, 2), (GLN.LENGTH, 0, 255)]).gleanCheck = some 1 ∧
    (gleaning [(POWER.STAT_MODE, 0, mFlush)]).mode ≠ mRun ∧
    (let m := gleaning []; ({ m with err := { m.err with gAbort := true } } : Mach).err.gAbort = true) ∧
    (let m := gleaning []
     let m : Mach := { m with map := { m.map with l1 := [] } }
     (m.showGlean.lookup (m.unitOf (m.get GLN.PROGRESS / 256)).1).1 = true) ∧
    (let m := gleaning []
     let m : Mach := { m with map := { m.map with sramBad := [rootLineKey (2 ^ 32)] } }
     (m.showGlean.lookup (m.unitOf (m.get GLN.PROGRESS / 256)).1).1 = false) := by
  refine ⟨cfgOpen_of_opens (by decide +kernel), ?_⟩
  and_intros <;> decide +kernel

/-! The last tag word of a mask is its word 32, and read injection needs a match (bits 7, 15, 14 and 16 to 18 of FLIP_CTL). -/
theorem witness_flip : ∀ v ∈ [2 ^ 7 + 32, 2 ^ 15 + 2 ^ 14 + 2 ^ 16 + 32 * 2 ^ 8, 2 ^ 27 + 2 * 2 ^ 24],
    v % 2 ^ 6 ≤ 32 ∧ v / 2 ^ 8 % 2 ^ 6 ≤ 32 ∧ v / 2 ^ 24 % 2 ^ 2 ≠ 3 ∧ (v.testBit 15 = true → 0 < v / 2 ^ 16 % 2 ^ 3 → v.testBit 14 = true) := by
  decide

/-! ### Hearth -/

/-- Stack 1's last pseudo-channel with requests, a bank and a time. -/
def queued (q : List LineReq) (b : BankSt) (l : List (Field × Nat × Nat)) : Mach :=
  let m := store l
  { m with now := 2 ^ 40, ht := { m.ht with pcs := [(pcKey 1 31, { (default : PcSt) with queue := q, banks := [(0, b)], writeMode := q.any (·.write) })] } }

/-- A read and a write of row 7 of bank 0. -/
def hread : LineReq := { (default : LineReq) with id := 1, row := 7, since := 2 ^ 40 }
def hwrite : LineReq := { hread with write := true }

theorem witness_pseudo_channel : (queued [hread] default []).stackUp 1 = true ∧ ((queued [hread] default []).pcSt 1 31).hold = false ∧
    (queued [hread] default []).writeModeNext 1 ((queued [hread] default []).pcSt 1 31) = ((queued [hread] default []).pcSt 1 31).writeMode ∧
    (queued [hread] default []).pcChoice 1 ((queued [hread] default []).pcSt 1 31) = some hread ∧
    ((queued [hread] default []).pcSt 1 31).nextCmd hread = 1 ∧
      (queued [hread] default []).cmdReady 1 ((queued [hread] default []).pcSt 1 31) hread = true ∧
    (let b := { (default : BankSt) with row := 8 }
     let m := queued [hread] b []
     (m.pcSt 1 31).nextCmd hread = 0 ∧ m.pcChoice 1 (m.pcSt 1 31) = some hread ∧ m.cmdReady 1 (m.pcSt 1 31) hread = true) ∧
    (let b := { (default : BankSt) with row := 8 }
     let m := queued [hwrite] b []
     m.writeModeNext 1 (m.pcSt 1 31) = true ∧ (m.pcSt 1 31).nextCmd hwrite = 0 ∧ m.pcChoice 1 (m.pcSt 1 31) = some hwrite ∧
       m.cmdReady 1 (m.pcSt 1 31) hwrite = true) ∧
    (let b := { (default : BankSt) with row := 9 }
     let m := queued [hread] b []
     (m.pcSt 1 31).nextCmd hread = 2 ∧ m.pcChoice 1 (m.pcSt 1 31) = some hread ∧ m.cmdReady 1 (m.pcSt 1 31) hread = true) ∧
    (let b := { (default : BankSt) with raa := 4 }
     let m := queued [hread] b [(HT.RFM_ENABLE, 1, 1), (HT.RFM_RAAIMT, 1, 4)]
     m.rfmBank 1 31 = some 0 ∧ (m.pcSt 1 31).pd = false ∧ (m.pcSt 1 31).blocked ≤ m.ck) ∧ (queued [hread] default []).rfmBank 1 31 = none ∧
    (let b := { (default : BankSt) with act := some (2 ^ 40), blocked := 2 ^ 40 }
     let m := queued [{ hread with since := 0 }] b []
     m.pcChoice 1 (m.pcSt 1 31) = some { hread with since := 0 } ∧ m.cmdReady 1 (m.pcSt 1 31) { hread with since := 0 } = false) ∧
    (let m := queued [hread] default []
     let held : Mach := m.modPc 1 31 fun x => { x with hold := true }
     let down : Mach := m.modPc 1 31 fun x => { x with pd := true }
     let late : Mach := m.modPc 1 31 fun x => { x with blocked := m.ck + 1 }
     (held.pcSt 1 31).hold = true ∧ (down.pcSt 1 31).pd = true ∧ late.ck < (late.pcSt 1 31).blocked) := by
  and_intros <;> decide +kernel

theorem witness_refresh : (queued [] default []).stackIn 1 = true ∧ (queued [] default []).flag HT.STAT_SELF_REFRESH 1 = false ∧
    ((queued [] default []).phy 1).want = 0 ∧ ((queued [hread] default []).pcSt 1 31).postponed < (queued [hread] default []).get HT.REF_POSTPONE 1 ∧
    (queued [hread] default [(HT.REF_POSTPONE, 1, 0)]).get HT.REF_POSTPONE 1 ≤ ((queued [hread] default []).pcSt 1 31).postponed ∧
    0 < (queued [] default [(HT.PWR_PD_IDLE, 1, 1)]).get HT.PWR_PD_IDLE 1 ∧
    max ((queued [] default [(HT.PWR_PD_IDLE, 1, 1)]).get HT.PWR_PD_IDLE 1) ((queued [] default []).tim 1 23) ≤
      (queued [] default []).ck - ((queued [] default []).pcSt 1 31).idleAt ∧
    (let m := queued [hread] default []; ((m.modPc 1 31 fun x => { x with hold := true }).pcSt 1 31).hold = true) := by
  and_intros <;> decide +kernel

theorem witness_layout : (store []).cfgOpen .ht 1 ∧ (store []).cfgOpen .ht 0 ∧ (store [(KILN.ACTIVE, 0, 1)]).get KILN.ACTIVE ≠ 0 ∧
    (let m := store [(HT.LAYOUT_MAP, 0, 64), (HT.LAYOUT_SPILL, 0, 64), (HT.LAYOUT_LOOM, 0, 64)]
     m.get KILN.ACTIVE = 0 ∧ m.get KILN.SPILL_LEVEL = 0 ∧ m.get LOOM.ACTIVE = 0 ∧ m.mapBase / 4096 + 3 * 64 + 1024 ≤ m.stackMiB) ∧
    (store [(HT.LAYOUT_MAP, 0, 63)]).get HT.LAYOUT_MAP % 64 ≠ 0 ∧ (store [(HT.LAYOUT_MAP, 0, 4096)]).stackMiB < 4096 + 1024 := by
  refine ⟨cfgOpen_of_opens (by decide +kernel), cfgOpen_of_opens (by decide +kernel), ?_⟩
  and_intros <;> decide +kernel

theorem witness_sweep : (store []).running = true ∧ (store []).stacksIn = 2 ∧ (store []).ht.sweep + 1 < (store []).homeSlots ∧
    ((store []).cell ((store []).spread (store []).homeBase 0)).cls ≠ 3 ∧
      (store [(HT.STAT_IN_SERVICE, 0, 0), (HT.STAT_IN_SERVICE, 1, 0)]).stacksIn = 0 ∧
    (let m := store []
     let m : Mach := { m with ht := { m.ht with cells := [(cellKey (m.spread m.homeBase 0), { (default : HLine) with st := 1 })] } }
     (m.cell (m.spread m.homeBase 0)).st = 1 ∧ (m.nsDesc 0).exists_ = false) := by
  and_intros <;> decide +kernel

/-- A Hearth read on its way back from stack 1. -/
def returning (j : Job) : Mach :=
  let m := store []
  { m with ht := { m.ht with flights := [⟨{ hread with job := j }, 1⟩] } }

theorem witness_hearth_return : (returning (.client 15 0 0)).ht.flights.find? (fun f => f.stack = 1) = some ⟨{ hread with job := .client 15 0 0 }, 1⟩ ∧
    (returning (.mapLine 0)).ht.flights.find? (fun f => f.stack = 1) = some ⟨{ hread with job := .mapLine 0 }, 1⟩ ∧
    (store []).ht.flights.find? (fun f => f.stack = 1) = none := by
  and_intros <;> decide +kernel

theorem witness_parity : (store []).stackIn 1 = true ∧ (store []).mode ≠ mSafehold ∧
    ((List.replicate 15 (store []).now ++ (store []).ht.parity.get 1).filter fun x => (store []).now < x + 19200000).take 16 = List.replicate 15 0 ∧
    (((List.replicate 16 (store []).now ++ (store []).ht.parity.get 1).filter fun x => (store []).now < x + 19200000).take 16).length = 16 := by
  and_intros <;> decide +kernel

/-! TEMP_TRIP, HOT and THROTTLE of R299 at reset. -/
theorem witness_temperature : (store []).flag HT.STAT_SELF_REFRESH 1 = false ∧
    (store []).get HT.REF_TEMP_HOT 1 < (store []).get HT.REF_TEMP_THROTTLE 1 ∧
    (store []).get HT.REF_TEMP_THROTTLE 1 < (store []).get HT.REF_TEMP_TRIP 1 ∧
      sx 8 ((store []).get HT.REF_TEMP_TRIP 1) = (store []).get HT.REF_TEMP_TRIP 1 := by
  and_intros <;> decide +kernel

/-- A fill of stack 0 at a step of the start. -/
def filling (step : Nat) (p : PhySt) (l : List (Field × Nat × Nat)) : Mach :=
  let m := store ([(GLOBAL.STAT_BOOT_STEP, 0, step)] ++ l)
  { m with ht := { m.ht with phy := [(0, p)] } }

theorem witness_fill : (filling 0 { (default : PhySt) with fill := true } []).mayFill 0 = true ∧
    (filling 4 { (default : PhySt) with fill := true } []).get GLOBAL.STAT_BOOT_STEP = 4 ∧ (filling 0 default []).mayFill 0 = false ∧
    (let m := filling 0 { (default : PhySt) with fill := true } [(HT.STAT_FILLING, 0, 1)]
     let m := puts m [(HT.FILL_PROG, 0, m.stackLines)]
     m.flag HT.STAT_FILLING 0 = true ∧ m.get HT.FILL_PROG 0 = m.stackLines ∧ (m.phy 0).lostFill = false) ∧
    (let m := filling 5 default []
     m.get GLOBAL.STAT_BOOT_STEP = 5 ∧ (∀ j ∈ m.inService, (m.phy j).fill = false) ∧ m.flag POWER.STAT_WARN = false) ∧
    (filling 4 { (default : PhySt) with fill := true } [(POWER.STAT_MODE, 0, mBringup)]).mayFill 0 = true := by
  and_intros <;> decide +kernel

theorem witness_training : lanesOk [lane (64 * 31 + 35)] = true ∧ (core []).get GLOBAL.STAT_BOOT_STEP ≠ 3 ∧
    (∀ p ∈ [(1, 0), (1, 1), (1, 3), (1, 6), (2, 0), (2, 2), (2, 3)],
      ((filling 0 { (default : PhySt) with want := p.1, step := p.2 } []).phy 0).want = p.1) ∧
    (core []).flag CLOCK.STAT_PLL_LOCK = true ∧ (core []).outOfReset = true ∧
    0 < (core [(HPHY.TRAIN_ATTEMPTS, 0, 1)]).get HPHY.TRAIN_ATTEMPTS 0 ∧
    (core [(HPHY.TRAIN_ATTEMPTS, 0, 1)]).get HPHY.TRAIN_ATTEMPTS 0 ≤ (core []).get HPHY.RETRY 0 ∧
    ((filling 0 { (default : PhySt) with want := 1, step := 6 } []).phy 0).recorded = [] ∧ (filling 3 default []).get GLOBAL.STAT_BOOT_STEP = 3 ∧
    (∀ k < 2, ((core []).phy k).lostAfter = false) ∧ (filling 0 { (default : PhySt) with want := 2 } []).srxOver 0 = true ∧
    (let m := { filling 0 { (default : PhySt) with want := 2, srxAt := 1 } [] with now := 0 }; m.srxOver 0 = false) ∧
    1 < (core []).integ.stackCount ∧ eyesAt 35 (2 ^ 48 - 1) ((core []).get HPHY.FLOOR_EYE 0) = true := by
  and_intros <;> decide +kernel

/-- Stack 0 with a round due, at a pseudo-channel whose unit may run, with lanes to repair. -/
def retraining (pc : Nat) (low : List Nat) (l : List (Field × Nat × Nat)) : Mach :=
  filling 0 { (default : PhySt) with repair := [(pc, low)], dueAt := 1 }
    ([(HPHY.RETRAIN_DUE, 0, 1), (HPHY.RETRAIN_POS, 0, pc), (HPHY.CTL_RETRAIN_EN, 0, 1), (ALM.WIN_MASK, 0, 16)] ++ l)

theorem witness_retraining : (retraining 31 [] []).stackUp 0 = true ∧ (retraining 31 [] []).flag HPHY.RETRAIN_DUE 0 = true ∧
    (retraining 31 [] []).window 4 = true ∧ (retraining 31 [] []).flag HPHY.CTL_RETRAIN_EN 0 = true ∧ (retraining 31 [] []).unitBlocked 0 31 = false ∧
    (retraining 31 [5] []).get HPHY.RETRAIN_POS 0 = 31 ∧ ((retraining 31 [5] []).phy 0).repair.get 31 = [5] ∧
    (retraining 31 [5] [(HPHY.STAT_UNIT, 0, 1)]).flag HPHY.STAT_UNIT 0 = true ∧ eyesAt 5 0 ((core []).get HPHY.FLOOR_EYE 0) = false ∧
    (let m := { retraining 31 [] [] with now := 19200000 * 2 ^ 16 }
     ((m.phy 0).dueAt - 1 + 19200000 * m.get HPHY.RETRAIN_LIMIT 0 ≤ m.now ∧ (m.phy 0).overdue = false ∧
       (m.phy 0).roundAt + 19200000 * m.get HPHY.RETRAIN_PERIOD 0 ≤ m.now)) := by
  and_intros <;> decide +kernel

theorem witness_phy_tests : (core []).cfgOpen .hphy 0 ∧ errLanesOk [(BitVec.ofNat 13 35, 1)] = true ∧ (core []).stackIn 0 = true ∧
    (core [(HT.STAT_IN_SERVICE, 0, 0)]).stackIn 0 = false ∧ (core [(HPHY.T1500_WRITE, 0, 1)]).flag HPHY.T1500_WRITE 0 = true ∧
    (core []).flag HPHY.T1500_WRITE 0 = false := by
  refine ⟨cfgOpen_of_opens (by decide +kernel), ?_⟩
  and_intros <;> decide +kernel

/-! ### Media links -/

/-- Channel 31 in a link state with a link record. -/
def linked (st : Nat) (z : ZmlSt) (l : List (Field × Nat × Nat)) : Mach :=
  let m := core ([(ZML.LINK_STATE, 31, st), (ZML.LINK_RX_LANES, 31, 15)] ++ l)
  { m with zml := [(31, z)] }

/-- A flit with a good CRC: a payload, a sequence number and a header type. -/
def flit (vc seq : Nat) : Nat := vc + 2 ^ 4 * seq + 2 ^ 960 * crc64 120 (vc + 2 ^ 4 * seq)

theorem witness_flits : (linked 4 { (default : ZmlSt) with locked := true, badRun := 6 } []).get ZML.LINK_STATE 31 = 4 ∧
    crc64 120 (flit 7 0 % 2 ^ 960) = flit 7 0 / 2 ^ 960 ∧ flit 7 0 % 8 = 7 ∧ crc64 120 (flit 2 0 % 2 ^ 960) = flit 2 0 / 2 ^ 960 ∧ flit 2 0 % 8 ≠ 7 ∧
    (flit 2 4095 / 2 ^ 4 % 2 ^ 12 = 4095) ∧ (flit 2 0).testBit 29 = false ∧ crc64 120 (1 % 2 ^ 960) ≠ 1 / 2 ^ 960 ∧
    (let m := linked 4 { (default : ZmlSt) with rxq := [flit 2 0] } []
     let m0 := m.modZml 31 fun x => { x with rxq := [] }
     (m0.takeHeader 31 (flit 2 0 % 2 ^ 64)).get ZML.LINK_STATE 31 = 4 ∧ ((m0.takeHeader 31 (flit 2 0 % 2 ^ 64)).zs 31).rxSeq = 0) ∧
    (let m := { linked 4 { (default : ZmlSt) with nakAt := some 0, held := [default] } [] with now := 38400 }
     (m.zs 31).nakAt = some 0 ∧ 0 + 38400 ≤ m.now ∧ (m.zs 31).ackAt + 38400 ≤ m.now) ∧
    (let m := linked 3 { (default : ZmlSt) with tx := [(3, { (default : VcTx) with len := 111 })], credit := [(3, 1)] } []
     ((m.zs 31).tx.get 3).len = 111 ∧ 0 < (m.zs 31).credit.get 3 ∧ (m.zs 31).held.length < 1024) := by
  and_intros <;> decide +kernel

/-- Channel 31 with an answer of a virtual channel waiting and a command outstanding. -/
def answered (vc v : Nat) (o : Outst) : Mach := linked 4 { (default : ZmlSt) with inbox := [(vc, v)], outs := [o] } []

/-- An outstanding command of an operation with CTAG 5. -/
def outst (op : Nat) (abortBy : Option Nat) : Outst :=
  { (default : Outst) with req := { (default : LineReq) with md := { (default : Media) with op := op } }, ctag := 5, abortBy := abortBy, left := 1 }

theorem witness_answers : (answered 3 (opWriteLine + 5 * 2 ^ 4) (outst opWriteLine none)).takeMsg 31 3 =
      some (opWriteLine + 5 * 2 ^ 4, (answered 3 (opWriteLine + 5 * 2 ^ 4) (outst opWriteLine none)).modZml 31 fun z => { z with inbox := [] }) ∧
    (opWriteLine + 5 * 2 ^ 4) % 16 = opWriteLine ∧ (opWriteLine + 5 * 2 ^ 4) / 2 ^ 4 % 2 ^ 12 = 5 ∧
    (∀ st ∈ [0, 2, 3], statusOk (outst opWriteLine none) st = true) ∧ statusOk (outst opWriteLine (some 1)) 1 = true ∧
    statusOk (outst opFormat none) 3 = true ∧ statusOk (outst opRelease none) 0 = true ∧ statusOk (outst opWriteLine none) 4 = false ∧
    readsData opWriteLine = false ∧ readsData opReadLine = true ∧ readsData opHubInfo = true ∧ opReadLine ≠ opHubInfo ∧
    ((answered 2 (opReadLine + 5 * 2 ^ 4) (outst opReadLine none)).zs 31).outs.find? (fun x => x.ctag = 5) = some (outst opReadLine none) ∧
    ((answered 2 (opReadLine + 5 * 2 ^ 4) (outst opReadLine none)).takeMsg 31 2).isSome = true ∧ (core []).takeMsg 31 2 = none ∧
    ((answered 4 14 default).takeMsg 31 4).isSome = true ∧ (core []).takeMsg 31 4 = none ∧
    (let m := { linked 4 { (default : ZmlSt) with holdEvAt := some 0 } [(ZML.STAT_HUB_HOLD, 31, 1)] with now := 19200000 }
     (m.zs 31).holdEvAt = some 0 ∧ m.flag ZML.STAT_HUB_HOLD 31 = true ∧ 0 + 19200000 ≤ m.now) := by
  and_intros <;> decide +kernel

theorem witness_sideband : (popCount 6 30 % 2 = 0 ∧ 6 % 16 = 6 ∧ (6 : Nat).testBit 4 = false) ∧ (popCount 0x36 30 % 2 = 0 ∧ 0x36 % 16 = 6 ∧
    (0x36 : Nat).testBit 4 = true) ∧
    popCount 7 30 % 2 = 1 ∧ (linked 1 default [(ZML.STAT_PRESENT, 31, 1)]).flag ZML.STAT_PRESENT 31 = true ∧
    ((linked 4 { (default : ZmlSt) with sbBad := 15 } []).zs 31).sbBad = 15 ∧
      ((linked 4 { (default : ZmlSt) with sbBad := 14 } []).zs 31).sbBad < 15 ∧
    (let m := linked 0 default [(ZML.CTL_ENABLE, 31, 1)]
     m.released = true ∧ m.flag CLOCK.STAT_PLL_LOCK = true ∧ m.mediaPowered 31 = true ∧ m.flag ZML.CTL_ENABLE 31 = true ∧ m.mode ≠ mSafehold ∧
     m.asleep = false) ∧
    (linked 4 default [(ZML.CTL_ENABLE, 31, 0)]).flag ZML.CTL_ENABLE 31 = false ∧ ((linked 4 default [(MAP.AGE_NOW, 0, 1)]).zs 31).markAt ≠ 1 := by
  and_intros <;> decide +kernel

theorem witness_link_training : (linked 3 { (default : ZmlSt) with rate := 2 } []).trimHas 31 2 = true ∧
    (linked 3 default []).get GLOBAL.STAT_BOOT_STEP ≠ 6 ∧
    infoBad 0 = true ∧ infoBad (Line.ofWords [2 ^ 48, 0, 0, 2 ^ 10]) = false ∧
    ((linked 4 { (default : ZmlSt) with width := 1 } []).zs 31).width < 2 ∧
    (∀ l < 4, ((linked 4 { (default : ZmlSt) with laneRuns := [(0, 1), (3, 1)] } []).zs 31).laneRuns.get l < 2) ∧
    (let m := linked 4 { (default : ZmlSt) with locked := true, laneRuns := [(3, 2)], preErr := [(3, 2 ^ 40)] } []
     (m.zs 31).locked = true ∧ 2 ≤ (m.zs 31).laneRuns.get 3 ∧ bitAt (m.get ZML.LINK_RX_LANES 31) 3 = true ∧
       m.get ZML.LANE_ERR_MAX 31 < (m.zs 31).preErr.get 3) ∧
    (let m := { linked 4 { (default : ZmlSt) with outs := [outst opReadLine none] } [(ZML.TIMEOUT, 31, 1)] with now := 19200 }
     ∃ o ∈ (m.zs 31).outs, o.sentAt + 19200 * m.get ZML.TIMEOUT 31 ≤ m.now) ∧
    ((linked 5 { (default : ZmlSt) with holdSent := true } []).zs 31).outs = [] ∧
    (let m := { linked 1 default [(ZML.STAT_PRESENT, 31, 1)] with now := 192000000 }
     m.flag ZML.STAT_PRESENT 31 = true ∧ m.flag ZML.STAT_HUB_READY 31 = false ∧ (m.zs 31).stateAt + 192000000 ≤ m.now) ∧
    ((linked 2 { (default : ZmlSt) with rst := 4 } []).zs 31).rst = 4 := by
  and_intros <;> decide +kernel

/-- Channel 31 with a trim application of its own since time 0. -/
def applying (now : Nat) : Mach :=
  let m := linked 4 default []
  { m with trim := { m.trim with apps := [(31, 1)] }, now := now }

theorem witness_channel_commands : (∀ st < 7, opens (linked st default []) .zml 31 = true ∧ (linked st default []).get ZML.LINK_STATE 31 = st) ∧
    ((linked 4 default []).zs 31).width = 0 ∧ (linked 4 default []).get ZML.LINK_RATE 31 = (linked 4 default []).get ZML.CTL_RATE_CAP 31 ∧
    (linked 4 default [(ZML.CMD_STAT, 31, 3)]).get ZML.CMD_STAT 31 = 3 ∧ (linked 4 default []).get ZML.CMD_STAT 31 ≠ 3 ∧
    (linked 4 default []).applying 31 = false ∧ (applying 0).applying 31 = true := by
  and_intros <;> decide +kernel

theorem witness_trim : (linked 4 default []).running = true ∧ State.reset.m.running = false ∧ (linked 4 default []).maint = true ∧
    (linked 4 default [(ZML.TRIM_DUE, 31, 1)]).flag ZML.TRIM_DUE 31 = true ∧ (linked 4 default []).recomputing 31 = false ∧
    ((linked 4 default [(ALM.WIN_MASK, 0, 8)]).get ALM.WIN_MASK).testBit 3 = true ∧ (∀ k < 31, (linked 4 default []).get ZML.LINK_STATE k ≠ 4) ∧
    4 ≤ (sx 8 4 - (linked 4 default []).trimApplied 31).natAbs ∧ ((linked 4 default []).get ZML.LINK_RX_LANES 31).testBit 3 = true ∧
    ((linked 4 { (default : ZmlSt) with locked := true } []).zs 31).locked = true ∧ (linked 4 default []).get ZML.FLOOR_WIDTH 31 ≤ 255 ∧
    (applying 46080).trim.apps.get 31 + 46080 ≤ (applying 46080).now + 1 ∧ (applying 46079).now + 1 < (applying 46079).trim.apps.get 31 + 46080 ∧
    (let m := linked 4 default [(ZML.TRIM_DUE, 31, 1), (ZML.TRIM_REC_VALID, 0, 1)]
     let m : Mach := { m with trim := { m.trim with rec_ := [(0, Line.ofWords [0, 0, BitVec.ofNat 64 (2 ^ 31)])] } }
     m.applyCan 31 = true) ∧
    (let m := linked 4 default []; ({ m with trim := { m.trim with owed := [(31, true)] } } : Mach).trim.owed.get 31 = true) ∧
    (linked 4 default []).trim.scanAt.get (4 * 31 + 3) = 0 ∧ [min 255 ([(0 : Nat), 1].filter (· ≤ 1)).length].min? = some 2 := by
  and_intros <;> decide +kernel

/-! ### Arbiters -/

theorem witness_arbiters : (core []).running = true ∧ (core []).kilnOffer.running = true ∧
    (core []).decide 0 false false [] = none ∧ ((core []).decide 0 false false [hread]).isSome = true ∧
      ((core []).decide 33 true true [hread]).isSome = true ∧
    (let m := core []; let m : Mach := { m with rota := { m.rota with next := [(67, hread)], withdrawn := [1] } }
     m.rota.next.get 67 = some hread ∧ hread.id ∈ m.rota.withdrawn) ∧
    (let m := core []; let m : Mach := { m with rota := { m.rota with restarts := [(31, [{ hread with holdEnd := some 0 }])] } }
     (m.rota.restarts.get 31).find? (fun q => q.holdEnd.all (· ≤ m.now)) = some { hread with holdEnd := some 0 }) := by
  and_intros <;> decide +kernel

/-! ### Images and records that verify -/

theorem crcBitsR_lt {p : Nat} (hp : p < 2 ^ 32) : ∀ n v r, r < 2 ^ 32 → crcBitsR p n v r < 2 ^ 32
  | 0, _, _, h => h
  | n + 1, v, r, h => by
    refine crcBitsR_lt hp n _ _ ?_
    unfold crcStepR
    split
    · exact Nat.xor_lt_two_pow (by omega) hp
    · omega

theorem crc32c_lt (n v : Nat) : crc32c n v < 2 ^ 32 :=
  Nat.xor_lt_two_pow (crcBitsR_lt (by decide) _ _ _ (by decide)) (by decide)

/-- The header of the shortest image, of 4,096 bytes, the rest of it zeros, with a check value (R404). -/
def image (c : Nat) : Nat := 0xC0111E20 + 2 ^ 128 * 4096 + 2 ^ 192 * c + 2 ^ 320 * 3

theorem image_valid (c : Nat) (h : c < 2 ^ 32) (hc : crc32c 4032 0 = c) : fwValid (image c) 4096 = true := by
  have e0 : bits (image c) 0 64 = 0xC0111E20 := by unfold bits image; omega
  have e2 : bits (image c) 128 64 = 4096 := by unfold bits image; omega
  have e3 : bits (image c) 192 64 = c := by unfold bits image; omega
  have e4 : bits (image c) 256 64 = 0 := by unfold bits image; omega
  have e5 : bits (image c) 320 64 = 3 := by unfold bits image; omega
  have e : image c / 2 ^ 512 = 0 := by unfold image; omega
  have hb : bits c 0 32 = c := by unfold bits; omega
  unfold fwValid
  simp only [Nat.reduceMul, e0, e2, e3, e4, e5, e, Nat.zero_mod, Nat.reduceSub, hc, hb]
  decide

theorem witness_fw_image : fwValid (image (crc32c 4032 0)) 4096 = true := image_valid _ (crc32c_lt _ _) rfl

/-- A trim record of no measured sets at 0, 20 and 40 °C, with a check value (R351). -/
def record (c : Nat) : Tab Line := [(0, BitVec.ofNat 2048 (0x7A1B3E0D + 2 ^ 32 + 2 ^ 192 * (20 * 2 ^ 8 + 40 * 2 ^ 16) + 2 ^ 256 * c))]

theorem record_sets (c : Nat) : imageBytes (record c) 1 96 = 0 := by
  unfold imageBytes
  generalize List.range 96 = l
  generalize 2 ^ 2048 = p
  induction l with
  | nil => rfl
  | cons i l ih =>
    have : (record c).get (1 + i) = default := by simp [record, Tab.get]
    rw [List.foldr_cons, ih, this, Nat.mul_zero]
    rfl

theorem record_valid (c : Nat) (h : c < 2 ^ 32) (hc : crc32c (256 * 96) 0 = c) : recValid (record c) = true := by
  have hr : (record c).get 0 = BitVec.ofNat 2048 (0x7A1B3E0D + 2 ^ 32 + 2 ^ 192 * (20 * 2 ^ 8 + 40 * 2 ^ 16) + 2 ^ 256 * c) := rfl
  have w0 : (Line.word ((record c).get 0) 0).toNat = 0x7A1B3E0D + 2 ^ 32 := by
    rw [hr, Line.word, BitVec.extractLsb'_toNat, BitVec.toNat_ofNat, Nat.shiftRight_eq_div_pow]; omega
  have w3 : (Line.word ((record c).get 0) 3).toNat = 20 * 2 ^ 8 + 40 * 2 ^ 16 := by
    rw [hr, Line.word, BitVec.extractLsb'_toNat, BitVec.toNat_ofNat, Nat.shiftRight_eq_div_pow]; omega
  have w4 : (Line.word ((record c).get 0) 4).toNat = c := by
    rw [hr, Line.word, BitVec.extractLsb'_toNat, BitVec.toNat_ofNat, Nat.shiftRight_eq_div_pow]; omega
  have hb : bits c 0 32 = c := by unfold bits; omega
  simp only [recValid, recTemp, w0, w3, w4, record_sets, hc, hb]
  simp only [decide_true, Bool.and_true]
  decide

theorem witness_trim_record : recValid (record (crc32c (256 * 96) 0)) = true := record_valid _ (crc32c_lt _ _) rfl

/-! ### Posts and blocks -/

/-- Post 7 with a latch owner, an inbound and an outbound post. -/
def posts (owner : Nat) (i : InPost) (o : OutPost) : Mach :=
  let m := core []
  { m with post := { m.post with latches := [(7, ⟨owner, 0, false⟩)], ins := [(7, i)], outs := [(7, o)] } }

theorem witness_latches : (posts 0 default default).cfgOpen .post 0 ∧ ((posts 0 default default).post.latches.get 7).owner = 0 ∧
    (posts 0 default default).agentReset 7 = false ∧ ((posts 8 default default).post.latches.get 7).owner = 7 + 1 ∧
    (posts 8 default default).parishHeld = false ∧ (2 : Nat) ^ 7 = 128 ∧
    (let m := { posts 8 default default with now := 19200 * 2 ^ 16 }
     ((m.post.latches.get 7).since + 19200 * m.get POST.LATCH_LEASE ≤ m.now ∧ (m.post.latches.get 7).owner ≠ 15)) ∧
    (let m := posts 8 default default
     let m : Mach := { m with post := { m.post with latches := [(7, ⟨8, 0, true⟩)] } }
     (m.post.latches.get 7).expiring = true ∧ (m.post.latches.get 7).owner ≠ 6 + 1 ∧ m.parishHeld = false ∧ m.agentReset 6 = false) := by
  refine ⟨cfgOpen_of_opens (by decide +kernel), ?_⟩
  and_intros <;> decide +kernel

theorem witness_posts : (posts 8 { (default : InPost) with full := true, owner := 8 } default).latchOwner 7 = 7 + 1 ∧
    (posts 8 { (default : InPost) with full := true, owner := 8 } default).inPost 7 = { (default : InPost) with full := true, owner := 8 } ∧
    (posts 8 { (default : InPost) with owner := 8 } default).inPost 7 = { (default : InPost) with owner := 8 } ∧
    (posts 8 default { (default : OutPost) with full := true, note := ⟨0, 0, 5⟩ }).outPost 7 = { (default : OutPost) with full := true, note := ⟨0, 0, 5⟩ } ∧
    (core []).get POST.TIMEOUT < 2 ^ 17 ∧
    (let m := { posts 8 { (default : InPost) with full := true, owner := 8 } { (default : OutPost) with full := true } with now := 19200 * 2 ^ 17 }
     m.outOfReset = true ∧ (m.post.ins.get 7).full = true ∧ (m.post.ins.get 7).timedOut = false ∧
       (m.post.ins.get 7).at_ + 19200 * m.get POST.TIMEOUT ≤ m.now ∧ (m.post.outs.get 7).timedOut = false ∧
       (m.post.outs.get 7).at_ + 19200 * m.get POST.TIMEOUT ≤ m.now) ∧
    ((posts 8 { (default : InPost) with full := true, due := true } default).post.ins.get 7).due = true := by
  and_intros <;> decide +kernel

/-- A Core whose Collier works, in a mode, with one accepted command of agent 7. -/
def serving (c : Cmd) (l : List (Field × Nat × Nat)) : Mach := withCmd (mapped l) { c with agent := 7, sequence := 5, id := 1 }

theorem witness_collier : (serving (cmd 10 0) []).collierUp = true ∧ (serving (cmd 10 0) []).takesPosts = true ∧
    ((serving (cmd 10 0) []).post.cmds.find? fun y => y.agent = 7 && y.sequence = 5 && !y.cancelled).isSome = true ∧ abortable 10 = true ∧
      abortable 1 = false ∧
    (let m := serving (cmd 10 0) []
     7 * m.areaBytes ≤ m.pwAddr 7 ∧ m.pwAddr 7 + 8 ≤ (7 + 1) * m.areaBytes) ∧ (core [(COLLIER.STAT_STATE, 0, 4)]).collierUp = false ∧
    (let m := { core [] with now := 19200000 * 2 ^ 16 }; m.collier = 2 ∧ m.running = true ∧ m.post.servedAt + 19200000 * m.get COLLIER.WDOG ≤ m.now) ∧
    (serving (cmd 10 0) []).post.ramBad = false ∧ (mapped []).gleaning = false ∧ (gleaning []).gleaning = true ∧ (gleaning []).gleanOver = false ∧
    (∀ x ∈ [(10, 0), (11, 0), (11, 2), (13, 0), (13, 1), (17, 1)], (serving (cmd x.1 x.2) []).pastCommit (cmd x.1 x.2) = false ∧
      abortable x.1 = true) ∧
    (serving (cmd 17 2) []).pastCommit (cmd 17 2) = true ∧
    (let m := serving (cmd 17 1) []; ({ m with err := { m.err with gCmd := some 1 } } : Mach).err.gCmd = some 1) := by
  and_intros <;> decide +kernel

/-! A command at the front of its operation, and the namespaces that it meets: 1 exists with 2^20 bytes, 2 does not. -/
theorem witness_ns_blocks : (∀ op ∈ [1, 2, 4, 5], ∀ st ∈ [0, 2], (serving (cmd op st) []).blocksRun = true ∧
      ((serving (cmd op st) []).post.cmds.find? fun x => x.op = op && !x.restart && !x.cancelled &&
        (x.stage = 2 || (x.stage = 0 && (serving (cmd op st) []).inTurn x && !(serving (cmd op st) []).nsBusy))).isSome = true) ∧
    ((mapped []).nsDesc 1).exists_ = true ∧ ((mapped []).nsDesc 2).exists_ = false ∧ ((mapped []).nsDesc 1).ephemeral = false ∧
    ({ cmd 1 0 with p0 := 2 + 3 * 2 ^ 8 } : Cmd).prot = 3 ∧ ({ cmd 1 0 with p0 := 2, p1 := 2 ^ 20 } : Cmd).size % unitBytes 0 = 0 ∧
    (let c := { cmd 1 0 with p0 := 2, p1 := 2 ^ 20 }
     (serving c [(ZML.HUB_SEGMENTS, 0, 0)]).createFits c = false ∧ (serving c []).createFits c = true) ∧
    (let c := { cmd 4 0 with p0 := 1, p1 := 2 ^ 20 }
     (serving c [(ZML.HUB_SEGMENTS, 1, 2 ^ 20)]).reserveOk 1 0 2 0 = true ∧ (serving c []).reserveOk 1 0 2 0 = false) ∧
    (let c := { cmd 4 0 with p0 := 1 + 2 ^ 16, p1 := 2 ^ 20 }
     c.size ≤ ((serving c []).nsDesc 1).size ∧ c.home = (serving c []).nsHome 1) ∧
    ((mapped []).nsDesc 1).size < ({ cmd 4 0 with p0 := 1, p1 := 2 ^ 21 } : Cmd).size ∧
    bitAt (cmd 5 0).p0.toNat 8 = false ∧ bitAt ({ cmd 5 0 with p0 := 256 } : Cmd).p0.toNat 8 = true ∧
    (core [(COLLIER.STAT_STATE, 0, 3)]).post.cmds.length = 0 ∧ (core [(COLLIER.STAT_STATE, 0, 1)]).blocksRun = false := by
  and_intros <;> decide +kernel

/-- The namespace with a hold on it, or eight holds elsewhere. -/
def holding (l : List Hold) : Mach := let m := serving (cmd 7 0) []; { m with order := { m.order with holds := l } }

theorem witness_order_blocks : (∀ x ∈ [(6, 0), (6, 1), (7, 0), (7, 1), (8, 0), (9, 0), (10, 0), (15, 0), (15, 2), (16, 0), (17, 0), (17, 2), (17, 3)],
      (serving (cmd x.1 x.2) []).blocksRun = true ∧
        ((serving (cmd x.1 x.2) []).post.cmds.find? fun y => y.op = x.1 && !y.restart && !y.cancelled).isSome = true ∧
        (serving (cmd x.1 x.2) []).inTurn (cmd x.1 x.2) = true) ∧
    (mapped []).get MAP.CKPT_STATE = ckIdle ∧ (mapped [(MAP.CKPT_GEN, 0, 1)]).get MAP.CKPT_GEN = 1 ∧
    meets (2 ^ 52) 256 (2 ^ 52) 256 = true ∧ meets (2 ^ 52) 256 (2 ^ 52 + 256) 256 = false ∧ (holding []).holdId = 0 ∧
    (holding (List.replicate 8 ⟨0, 0, 2, 0, 256, 1, 0, 0⟩)).order.holds.length = 8 ∧
      (∃ h ∈ (holding [⟨7, 0, 1, 0, 256, 1, 0, 0⟩]).order.holds, h.id = 7) ∧
    (∀ k < 32, (holding []).strActive k = false) ∧ (mapped []).link 0 = 4 ∧ (mapped []).link 31 ≠ 4 ∧ (mapped []).segsIn 0 .retired = [] := by
  and_intros <;> decide +kernel

theorem witness_fw_blocks : (∀ x ∈ [(11, 0), (11, 1), (11, 2), (13, 0), (13, 1), (13, 2), (14, 0)],
      (serving (cmd x.1 x.2) []).blocksRun = true ∧
        ((serving (cmd x.1 x.2) []).post.cmds.find? fun y => y.op = x.1 && !y.restart && !y.cancelled).isSome = true) ∧
    (∀ st < 4, (serving (cmd 12 st) []).collierUp = true ∧
      ((serving (cmd 12 st) []).post.cmds.find? fun y => y.op = 12 && !y.restart && (y.stage ≠ 3 || y.left = 0)).isSome = true) ∧
    (serving (cmd 12 0) []).activating = false ∧ (serving (cmd 12 1) []).activating = true ∧ (serving (cmd 11 1) []).staging = true ∧
    (mapped [(COLLIER.FW_STAGED_VALID, 0, 1)]).flag COLLIER.FW_STAGED_VALID = true ∧ fwValid 0 4096 = false ∧ recValid [] = false ∧
    (mapped []).inArea 7 (7 * (mapped []).areaBytes) 24832 = true ∧ (mapped []).inArea 7 0 24832 = false ∧
    (mapped []).integ.trimSrc ≠ 2 ∧ (mapped [(POWER.STAT_MODE, 0, mBringup)]).mode = mBringup ∧
    (mapped []).captureReady 1 = true ∧ (mapped [(ZML.LINK_STATE, 0, 3)]).captureReady 1 = false ∧
    (mapped []).captures 1 = [0] ∧ (serving (cmd 12 1) []).fwNext.1 = some false ∧
    (let m := (serving (cmd 12 1) []).modFw fun x => { x with on := true, cands := [(0, 1)] }; m.fwNext.1 = none) := by
  and_intros <;> decide +kernel

/-- The lines of an image after the header's are zero. -/
theorem image_bytes (c : Nat) (h : c < 2 ^ 32) : imageBytes [(0, BitVec.ofNat 2048 (image c))] 0 16 = image c := by
  have tail : ∀ p n k, 0 < k → (List.range' k n).foldr (fun i a => ((Tab.get [(0, BitVec.ofNat 2048 (image c))] (0 + i) : Line)).toNat +
      p * a) 0 = 0 := by
    intro p n
    induction n with
    | zero => intro k _; rfl
    | succ n ih =>
      intro k hk
      rw [List.range'_succ, List.foldr_cons, ih (k + 1) (by omega), Nat.mul_zero, Nat.add_zero, Nat.zero_add]
      have : Tab.get [(0, BitVec.ofNat 2048 (image c))] k = (default : Line) := by
        simp only [Tab.get, if_neg (show ¬k = 0 by omega)]
      rw [this]
      rfl
  have lt : image c < 2 ^ 2048 := Nat.lt_of_lt_of_le (m := 2 ^ 400) (by unfold image; omega) (Nat.pow_le_pow_right (by decide) (by decide))
  unfold imageBytes
  rw [List.range_eq_range', List.range'_succ, List.foldr_cons, tail _ 15 1 (by decide), Nat.mul_zero, Nat.add_zero, Nat.zero_add]
  show (BitVec.ofNat 2048 (image c)).toNat = image c
  rw [BitVec.toNat_ofNat, Nat.mod_eq_of_lt lt]

/-- An image of which the last line has come, at the first place that is looked at. -/
def imageRead (c : Nat) : Mach :=
  (serving (cmd 12 1) []).modFw fun x => { x with on := true, cands := [(0, 1)], stage := 3, img := [(0, BitVec.ofNat 2048 (image c))] }

theorem image_read_len (c : Nat) : (imageRead c).post.fw.len = 4096 := by
  show bits (Line.word (BitVec.ofNat 2048 (image c)) 2).toNat 0 21 = 4096
  have : (Line.word (BitVec.ofNat 2048 (image c)) 2).toNat % 2 ^ 21 = 4096 := by
    rw [Line.word, BitVec.extractLsb'_toNat, BitVec.toNat_ofNat, Nat.shiftRight_eq_div_pow]; unfold image; omega
  unfold bits; omega

theorem modFw_chanLost (m : Mach) (f : FwRead → FwRead) (c : Nat) : (m.modFw f).chanLost c = m.chanLost c := rfl

theorem image_read_valid (c : Nat) (h : c < 2 ^ 32) (hv : fwValid (image c) 4096 = true) : (imageRead c).fwNext.1 = some true := by
  have len := image_read_len c
  have lines : (imageRead c).post.fw.lines = 16 := by unfold FwRead.lines; rw [len]
  have valid : fwValid (imageBytes (imageRead c).post.fw.img 0 (imageRead c).post.fw.lines) (imageRead c).post.fw.len = true := by
    rw [len, lines]
    show fwValid (imageBytes [(0, BitVec.ofNat 2048 (image c))] 0 16) 4096 = true
    rw [image_bytes c h]
    exact hv
  have here : (imageRead c).chanLost 0 = false := by
    unfold imageRead
    rw [modFw_chanLost]
    decide +kernel
  have cands : (imageRead c).post.fw.cands = [(0, 1)] := rfl
  have stage : (imageRead c).post.fw.stage = 3 := rfl
  have left : (imageRead c).post.fw.left = 0 := rfl
  have bad : (imageRead c).post.fw.bad = false := rfl
  unfold Mach.fwNext
  simp only [cands, here, stage, left, bad, valid, Bool.false_eq_true, if_false, if_true, ne_eq, not_true_eq_false, Nat.succ_ne_zero,
    Nat.reduceEqDiff]

theorem witness_image_read : (imageRead (crc32c 4032 0)).fwNext.1 = some true := image_read_valid _ (crc32c_lt _ _) witness_fw_image

theorem witness_collier_boot : (core [(COLLIER.STAT_STATE, 0, 4)]).collier = 4 ∧ (core []).running = true ∧
    bitAt ((core []).get POWER.PD_ON) 1 = true ∧
    (mapped []).link 0 = 4 ∧ (mapped []).chanLost 0 = false ∧ (core [(ZML.LINK_STATE, 0, 6), (ZML.LINK_STATE, 16, 6)]).chanLost 16 = true ∧
    (core []).link 0 ≠ 4 ∧ (core [(COLLIER.STAT_STATE, 0, 1), (COLLIER.BOOT_SRC, 0, 2)]).get COLLIER.BOOT_SRC = 2 ∧
    (core []).parishUp = true ∧ (core []).cfgOpen .collier 0 := by
  and_intros <;> first | exact cfgOpen_of_opens (by decide +kernel) | decide +kernel

/-! ### Resets, the start, modes, sleep, clocks -/

theorem witness_resets : State.reset.m.porstN = false ∧ (core []).porstN = true ∧ ({ core [] with srstLow := true } : Mach).srstLow = true ∧
    (core []).flag CLOCK.STAT_PLL_LOCK = true ∧ (raw []).flag CLOCK.STAT_PLL_LOCK = false ∧
      (core [(GLOBAL.ML_BUSY, 0, 1)]).flag GLOBAL.ML_BUSY = true ∧
    (core []).flag GLOBAL.ML_BUSY = false := by
  and_intros <;> decide +kernel

/-- The start at a step, every channel but channel 0 switched off. -/
def booting (step : Nat) (l : List (Field × Nat × Nat)) : Mach :=
  let m := core ([(POWER.STAT_MODE, 0, mBringup), (GLOBAL.STAT_BOOT_STEP, 0, step), (GLOBAL.RESET_KIND, 0, 2)] ++
    (List.range 31).map (fun c => (ZML.CTL_ENABLE, c + 1, 0)) ++ l)
  { m with integ := { m.integ with channels := 1 } }

theorem witness_start_sequence : (∀ b ∈ [6, 9], (booting b []).mode = mBringup ∧ (booting b []).flag POWER.STAT_WARN = false ∧
      (booting b []).get GLOBAL.STAT_BOOT_STEP = b) ∧
    (∃ c ∈ (booting 8 []).chansIn, (booting 8 []).link c ≠ 4) ∧
    (∀ c ∈ (booting 8 [(ZML.LINK_STATE, 0, 4)]).chansIn, (booting 8 [(ZML.LINK_STATE, 0, 4)]).link c = 4) ∧
    (booting 9 [(ZML.CTL_ENABLE, 0, 0)]).sealBest = none ∧ (booting 10 []).power.sealPhase = 0 ∧ (booting 10 []).get GLOBAL.RESET_KIND ≠ 1 ∧
    (let m := booting 12 [(MAP.STAT_WARM, 0, 1), (ZML.CTL_ENABLE, 0, 0)]
     m.flag GLOBAL.STAT_SERVICE = true ∧ m.flag MAP.STAT_REPLAYING = false ∧ m.flag MAP.STAT_WARM = true ∧ m.flag GLOBAL.BRINGUP_HOLD = false ∧
       (∀ c ∈ m.chansIn, m.belowFull c = false)) ∧
    (let m := { booting 12 [(GLOBAL.FULL_WAIT, 0, 1)] with now := 19200000 }
     m.get GLOBAL.FULL_WAIT ≠ 0 ∧ m.power.fullOver = false ∧ m.power.serviceAt + 19200000 * m.get GLOBAL.FULL_WAIT ≤ m.now) ∧
    (let m := booting 10 [(MAP.STAT_REPLAYING, 0, 1), (GLOBAL.STAT_START_KIND, 0, 3)]
     let m : Mach := { m with map := { m.map with stripes := [(1, { (default : Stripe) with stage := 9, wait := 1 })] } }
     m.flag MAP.STAT_REPLAYING = true ∧ m.get GLOBAL.STAT_START_KIND ≠ 1 ∧ ∃ y ∈ m.resyncs, 0 < y.2.wait) ∧
    (booting 10 [(MAP.STAT_REPLAYING, 0, 1), (GLOBAL.STAT_START_KIND, 0, 3)]).resyncs = [] := by
  and_intros <;> decide +kernel

theorem witness_modes : (core []).released = true ∧ (core []).outOfReset = true ∧ (core []).mode = mRun ∧ (core []).degradeBits true = 0 ∧
    (core [(HT.STAT_FAILED, 0, 1)]).degradeBits true ≠ 0 ∧ (core [(POWER.STAT_MODE, 0, mDegraded)]).mode = mDegraded ∧
    (core []).flag POWER.STAT_WARN = false ∧ (core [(POWER.STAT_MODE, 0, mFlush)]).sealSettle.mode = mFlush ∧
    (core [(POWER.STAT_MODE, 0, mFlush)]).sealSettle.mayLeave = true ∧
      (core [(POWER.STAT_MODE, 0, mFlush), (POWER.STAT_WARN, 0, 1)]).sealSettle.mayLeave = false ∧
    (core [(POWER.STAT_MODE, 0, mFlush)]).drained = true ∧ (core [(POWER.STAT_MODE, 0, mFlush)]).deltaDry = true ∧
    (let m := mapped [(POWER.STAT_SEALED, 0, 1)]
     let m : Mach := { m with rota := { m.rota with restarts := [(0, [{ hread with md := { (default : Media) with op := opWriteLine } }])] } }
     m.flag POWER.STAT_SEALED = true ∧ m.power.sealPhase = 0 ∧ m.programWaits = true ∧ m.mapUp = true) ∧
    (let m := core []; ({ m with power := { m.power with leftAt := 1 } } : Mach).power.leftAt = m.now + 1) ∧
    (core []).power.leftAt ≠ (core []).now + 1 := by
  and_intros <;> decide +kernel

/-- The Core asleep in EMBER at a phase and a step. -/
def sleeping (phase step wakes : Nat) : Mach :=
  let m := core [(POWER.STAT_MODE, 0, mEmber), (POWER.STAT_PHASE, 0, phase)]
  { m with power := { m.power with step := step, wakes := wakes } }

theorem witness_sleep : (core []).blocksBusy = false ∧ (withCmd (core []) (cmd 9 0)).blocksBusy = true ∧ (core []).asleep = false ∧
    (∀ st < 8, (sleeping 1 st 0).asleep = true ∧ (sleeping 1 st 0).get POWER.STAT_PHASE = 1 ∧ (sleeping 1 st 0).power.step = st) ∧
    (sleeping 1 0 0).privileged = false ∧ (sleeping 1 0 8).privileged = true ∧ (sleeping 1 0 0).parked = true ∧
    (sleeping 1 0 0).drained = true ∧ (sleeping 1 0 0).deltaDry = true ∧ (sleeping 1 0 0).programWaits = false ∧
    (let m := sleeping 1 2 0
     let m : Mach := { m with power := { m.power with retain := 2 ^ 40 } }
     m.kept = [0] ∧ (∀ n ∈ m.kept, m.hearthStill n = true) ∧ m.sreReady 0 = true ∧ m.flag HT.STAT_SELF_REFRESH 0 = false) ∧
    (sleeping 1 3 0).kept = [] ∧ (∀ c < 32, (sleeping 1 3 0).applying c = false) ∧
    (core [(POWER.SLEEP_EN, 0, 1)]).sleepIdle = true ∧ (core []).sleepIdle = false := by
  and_intros <;> decide +kernel

theorem witness_wake : (sleeping 2 7 2).asleep = true ∧ (sleeping 2 7 2).listWakes = false ∧ (sleeping 2 7 2).power.wakes ≠ 0 ∧
    (sleeping 3 11 2).get POWER.STAT_PHASE = 3 ∧ (∀ n ∈ (sleeping 3 11 2).inService, ((sleeping 3 11 2).phy n).want = 0) ∧
    (∀ n ∈ (sleeping 3 12 2).inService, ((sleeping 3 12 2).phy n).fill = false) ∧
    (let m := sleeping 2 7 0; let m : Mach := { m with power := { m.power with preAt := 1 } }; m.power.preAt ≠ 0 ∧ m.power.preAt - 1 ≤ m.now) ∧
    (let m := core [(POWER.STAT_MODE, 0, mSmoulder), (POWER.STAT_PHASE, 0, 2)]
     let m : Mach := { m with power := { m.power with inSvc := [31] }, now := 19200000000 * 2 ^ 20 }
     m.mode = mSmoulder ∧ m.power.wakes = 0 ∧ m.power.inSvc ≠ [] ∧ m.power.visitAt + 19200000000 * m.get POWER.SMOULDER_INT ≤ m.now) := by
  and_intros <;> decide +kernel

theorem witness_domains : (core []).mayPowerOff 16 = true ∧ (core []).mayPowerOff 0 = false ∧ (core [(HT.STAT_FAILED, 1, 1)]).mayPowerOff 4 = true ∧
    (core [(POWER.PD_ON, 0, 1)]).outOfReset = true ∧ ((core [(POWER.PD_ON, 0, 1)]).get POWER.PD_ON).testBit 16 = false ∧
    (let m := core [(CLOCK.GATE_EN, 0, 2 ^ 40 - 1)]
     (m.get CLOCK.GATE_EN).testBit 39 = true ∧ (m.get CLOCK.GATED).testBit 39 = false) ∧
    (core []).domainIdle 8 = true ∧ (gleaning []).domainIdle 8 = false ∧
    (let m := { core [] with now := 8 * 2 ^ 20 }
     let m : Mach := { m with power := { m.power with quiet := [(8, 1)] } }
     m.power.quiet.get 8 ≠ 0 ∧ m.get CLOCK.GATE_IDLE ≤ m.now / 8 - (m.power.quiet.get 8 - 1) / 8) ∧
    (core []).power.ref = 0 ∧ (let m := core []; ({ m with power := { m.power with ref := 1 } } : Mach).power.ref = 1) ∧
    (core [(POWER.STAT_MODE, 0, mSafehold)]).mode = mSafehold ∧ (core [(POWER.STAT_MODE, 0, mReset)]).mode = mReset := by
  and_intros <;> decide +kernel

/-! ### The queue, the registers, placement -/

theorem witness_queues : (∀ c ∈ [Instr.tbAliveToggle, .retrainUnit 0 [lane (64 * 31 + 35)]], c.wf = true) ∧
    (⟨core [], [.tbAliveToggle]⟩ : State).pending.length = 1 ∧
    ¬(((lane (64 * 32)).key.toNat / 4096 % 2 = 0 ∧ (lane (64 * 32)).key.toNat / 64 % 64 < 32 ∧ (lane (64 * 32)).key.toNat % 64 < 36) ∨
      ((lane (64 * 32)).key.toNat / 4096 % 2 = 1 ∧ (lane (64 * 32)).key.toNat / 64 % 64 < 16 ∧ (lane (64 * 32)).key.toNat % 64 < 19)) := by decide

theorem witness_apart : (GLOBAL.CORE_VERSION).off < 4096 ∧ (ZML.CAPABILITY).lo < 64 ∧ 31 < (ZML.CAPABILITY).page.count ∧
    (ZML.CAPABILITY).key 31 ≠ (ZML.CAPABILITY).key 30 ∧ 15 < Page.count .port := by decide

theorem witness_canonical : State.reset.safe = true ∧ (⟨core [], []⟩ : State).safe = true := by decide +kernel

theorem witness_units : eMake 1 31 5 false / 2 ^ 60 % 16 = 1 ∧ eMake 3 1 5 false / 2 ^ 60 % 16 = 3 ∧ (14 : Nat) < 15 ∧ 16 * 1 ≤ 31 ∧
    31 < 16 * 1 + 16 := by decide

end Sys2Proof.Tests
end

section
/-! SUPPORT. A CFG access to a page that acts at once: where it arrives, and what a write to the page header and a read of a counter come to. -/
namespace Sys2Proof.Machine

/-! ### The access arrives (R9, R429, R446, R455, R468, R480) -/

/-- A whole, aligned access to a page of the window is passed to that page while the Core is out of reset and not in SAFEHOLD. -/
theorem cfgAccess_inPage {m : Mach} {addr : Nat} {p : Page} {n off : Nat} (hr : m.outOfReset = true) (hs : m.mode ≠ mSafehold)
    (ha : addr % 8 = 0) (hp : cfgPlace addr = some (p, n, off)) (a : Nat) (act : Page → Nat → Nat → Mach → Mach) :
    cfgAccess a addr true act m = act p n off m := by
  simp [cfgAccess, hr, hs, ha, hp]

theorem cfgWriteAt_open {m : Mach} {addr : Nat} {p : Page} {n off : Nat} (ho : m.cfgOpen p n) (ha : addr % 8 = 0)
    (hp : cfgPlace addr = some (p, n, off)) (a v : Nat) :
    cfgWriteAt a addr true v m = topWrite a p n off v (m.seen a) := by
  obtain ⟨hreset, hsafe, -⟩ := id ho
  rw [cfgWriteAt, cfgAccess_inPage hreset hsafe ha hp, Mach.viaCfg_open ho]

theorem cfgReadAt_open {m : Mach} {addr : Nat} {p : Page} {n off : Nat} (ho : m.cfgOpen p n) (ha : addr % 8 = 0)
    (hp : cfgPlace addr = some (p, n, off)) (a : Nat) :
    cfgReadAt a addr true m = cfgRead a p n off (m.seen a) := by
  obtain ⟨hreset, hsafe, -, habsent, -⟩ := id ho
  rw [cfgReadAt, cfgAccess_inPage hreset hsafe ha hp, Mach.viaCfg_open ho]
  simp [habsent]

theorem cfgPlace_page {pg off : Nat} {p : Page} {n : Nat} (h : Page.ofNumber pg = some (p, n)) (hoff : off < 4096) :
    cfgPlace (4096 * pg + off) = some (p, n, off) := by
  have hdiv : (4096 * pg + off) / 4096 = pg := by omega
  have hmod : (4096 * pg + off) % 4096 = off := by omega
  simp [cfgPlace, hdiv, hmod, h]

/-- The registers of the page header start no sequence (R478). -/
theorem topWrite_header {off : Nat} (h : off < 0x100) (a : Nat) (p : Page) (n v : Nat) (m : Mach) :
    topWrite a p n off v m = cfgWrite a p n off v m := by
  unfold topWrite
  split
  case h_4 => rfl
  all_goals omega

/-- A write to a register of the header of an open page reaches that register. -/
theorem pageWrite_header {m : Mach} {pg off : Nat} {p : Page} {n : Nat} (h : Page.ofNumber pg = some (p, n)) (ho : m.cfgOpen p n)
    (h8 : off % 8 = 0) (hoff : off < 0x100) (a v : Nat) : pageWrite a pg off v m = cfgWrite a p n off v (m.seen a) := by
  rw [pageWrite, cfgWriteAt_open ho (by omega) (cfgPlace_page h (by omega)), topWrite_header hoff]

/-! ### What Reeve keeps for the cycle (R366, R383) -/

/-- Neither the page header nor the counters are among the registers of which Reeve keeps the old value. -/
theorem Mach.keepOld_outside {off : Nat} (h : off < 0x100 ∨ 0x740 ≤ off) (m : Mach) : m.keepOld off = m := by
  refine if_neg ?_
  simp only [Bool.or_eq_true, Bool.and_eq_true, decide_eq_true_eq]
  omega

/-! ### The page header (R478, R481, R482) -/

theorem cfgWrite_event (a : Nat) (p : Page) (n v : Nat) (m : Mach) :
    cfgWrite a p n 0x020 v m = eventClear p n v (m.settlePage p n 0x020) := by
  simp [cfgWrite, Mach.keepOld_outside]

theorem cfgWrite_eventEn (a : Nat) (p : Page) (n v : Nat) (m : Mach) :
    cfgWrite a p n 0x028 v m = (m.settlePage p n 0x028).put (evEnField p) n (v &&& p.eventMask n) := by
  simp [cfgWrite, Mach.keepOld_outside]

theorem cfgWrite_eventSet (a : Nat) (p : Page) (n v : Nat) (m : Mach) :
    cfgWrite a p n 0x030 v m = (m.settlePage p n 0x030).events p n (v &&& p.eventMask n) := by
  simp [cfgWrite, Mach.keepOld_outside, eventSet]

theorem fieldsAt_scratch : fieldsAt .global 0 0x150 = [GLOBAL.SCRATCH] := by decide

theorem cfgWrite_scratch (a v : Nat) (m : Mach) : cfgWrite a .global 0 0x150 v m = m.put GLOBAL.SCRATCH 0 (bits v 0 64) := by
  simp only [cfgWrite, Mach.settlePage, Mach.writeOwn, Mach.writeOther, Mach.writeFields, fieldsAt_scratch]
  rfl

/-! ### Counters (R11, R12, R477) -/

theorem Mach.viewPost_counter {off : Nat} (h : 0x800 ≤ off) (m : Mach) (a : Nat) : m.viewPost a off = none := by
  unfold Mach.viewPost
  split
  case h_7 => exact if_pos (by simp only [Bool.or_eq_true, decide_eq_true_eq]; omega)
  all_goals omega

theorem Mach.viewMap_counter {off : Nat} (h : 0x800 ≤ off) (m : Mach) : m.viewMap off = none := by
  unfold Mach.viewMap
  dsimp only
  split
  case h_15 => rfl
  all_goals omega

theorem Mach.viewRota_counter {off : Nat} (h : 0x800 ≤ off) (m : Mach) (p : Page) (n : Nat) : m.viewRota p n off = none := by
  unfold Mach.viewRota
  dsimp only
  split
  case h_3 => rfl
  all_goals omega

/-- Of the registers at or above 0x800, where the counters lie, none has its value computed at the read. -/
theorem Mach.view_counter {off : Nat} (h : 0x800 ≤ off) (m : Mach) (a : Nat) (p : Page) (n : Nat) : m.view a p n off = none := by
  unfold Mach.view
  split
  case h_1 =>
    unfold Mach.viewGlobal
    split
    case h_4 => rfl
    all_goals omega
  case h_2 =>
    unfold Mach.viewPower
    split
    case h_3 => rfl
    all_goals omega
  case h_3 => exact m.viewPost_counter h a
  case h_4 => exact if_neg (by omega)
  case h_5 => exact m.viewMap_counter h
  case h_6 =>
    split
    · exact if_neg (by omega)
    · rfl
  case h_7 =>
    unfold Mach.viewHphy
    dsimp only
    split
    case h_3 => rfl
    all_goals omega
  case h_8 => exact m.viewRota_counter h _ n
  case h_9 => exact m.viewRota_counter h _ n
  case h_10 =>
    unfold Mach.viewZml
    split
    case h_3 => rfl
    all_goals omega
  case h_11 => rfl

theorem Mach.fieldsWord_counter {p : Page} {n off : Nat} (hf : fieldsAt p n off = [Field.counter p off]) (m : Mach) :
    m.fieldsWord p n off = m.get (Field.counter p off) n := by
  simp [Mach.fieldsWord, hf, Field.counter]

theorem Mach.regWord_counter {p : Page} {n off : Nat} (h : 0x800 ≤ off) (hf : fieldsAt p n off = [Field.counter p off]) (m : Mach) (a : Nat) :
    m.regWord a p n off = m.get (Field.counter p off) n := by
  unfold Mach.regWord
  split
  case h_7 => rw [Mach.view_counter h, Mach.fieldsWord_counter hf]
  all_goals omega

theorem Mach.clearRc_counter {p : Page} {n off : Nat} (hf : fieldsAt p n off = [Field.counter p off]) (m : Mach) :
    m.clearRc p n off = m.put (Field.counter p off) n 0 := by
  simp [Mach.clearRc, hf, Field.counter]

/-- A read of a counter brings the page up to now, answers the counter's value and clears it. -/
theorem cfgRead_counter {p : Page} {n off : Nat} (h : 0x800 ≤ off) (hf : fieldsAt p n off = [Field.counter p off]) (a : Nat) (m : Mach) :
    cfgRead a p n off m = ({ m.settlePage p n off with
      cfg := some ⟨a, BitVec.ofNat 64 ((m.settlePage p n off).get (Field.counter p off) n), false⟩ } : Mach).put (Field.counter p off) n 0 := by
  have hlatch : ¬ off < 0x140 := by omega
  have hwindow : off ≠ 0x170 := by omega
  have hkept : 0x740 ≤ off := by omega
  simp only [cfgRead, hlatch, hwindow, decide_false, Bool.and_false, Bool.false_eq_true, if_false, Mach.keepOld_outside (.inr hkept),
    ite_self, Mach.regWord_counter h hf, Mach.clearRc_counter hf]
  rfl

end Sys2Proof.Machine
end

section
/-! SUPPORT. The statements on plain CFG accesses and on the state at reset (chapter "Scope", R1, R9, R11, R12). -/
namespace Sys2Proof.Laws
open Sys2Proof.Machine

theorem completes_cfgWrite_open {s : State} {addr : BitVec 24} {p : Page} {n off : Nat} (ho : s.m.cfgOpen p n) (ha : addr.toNat % 8 = 0)
    (hp : cfgPlace addr.toNat = some (p, n, off)) (a : BitVec 3) (v : Word) :
    Completes (.cfgWrite a addr true v) s (topWrite a.toNat p n off v.toNat (s.m.seen a.toNat)) := by
  rw [Completes, exec_cfgWrite, execCfgWrite, answer, cfgWriteAt_open ho ha hp]

theorem completes_rcRead_open {s : State} {addr : BitVec 24} {p : Page} {n off : Nat} (ho : s.m.cfgOpen p n) (ha : addr.toNat % 8 = 0)
    (hp : cfgPlace addr.toNat = some (p, n, off)) (a : BitVec 3) :
    Completes (.rcRead a addr true) s (cfgRead a.toNat p n off (s.m.seen a.toNat)) := by
  rw [Completes, exec_rcRead, execRcRead, answer, cfgReadAt_open ho ha hp]

section
variable {s : State} {pg : BitVec 12} {p : Page} {n : Nat} (hp : Page.ofNumber pg.toNat = some (p, n)) (ho : s.m.cfgOpen p n)
  (a : BitVec 3) (v : Word)
include hp ho

theorem completes_eventSet_open : Completes (.eventSet a pg v) s
    (((s.m.seen a.toNat).settlePage p n 0x030).events p n (v.toNat &&& p.eventMask n)) := by
  rw [Completes, exec_eventSet, execEventSet, answer, pageWrite_header hp ho (by decide) (by decide), cfgWrite_eventSet]

theorem completes_eventClearWrite_open : Completes (.eventClearWrite a pg v) s
    (eventClear p n v.toNat ((s.m.seen a.toNat).settlePage p n 0x020)) := by
  rw [Completes, exec_eventClearWrite, execEventClearWrite, answer, pageWrite_header hp ho (by decide) (by decide), cfgWrite_event]

theorem completes_eventEnWrite_open : Completes (.cfgWrite a (pg ++ (0x028 : BitVec 12)) true v) s
    (((s.m.seen a.toNat).settlePage p n 0x028).put (evEnField p) n (v.toNat &&& p.eventMask n)) := by
  have haddr : (pg ++ (0x028 : BitVec 12)).toNat = 4096 * pg.toNat + 0x028 := by
    rw [BitVec.toNat_append, ← Nat.shiftLeft_add_eq_or_of_lt (by decide), Nat.shiftLeft_eq]
    simp [Nat.mul_comm]
  have hw := completes_cfgWrite_open (addr := pg ++ (0x028 : BitVec 12)) ho (by rw [haddr]; omega)
    (by rw [haddr]; exact cfgPlace_page hp (by decide)) a v
  rwa [topWrite_header (by decide), cfgWrite_eventEn] at hw
end

theorem completes_scratchWrite_open {s : State} (ho : s.m.cfgOpen .global 0) (a : BitVec 3) (v : Word) :
    Completes (.cfgWrite a 0x150 true v) s ((s.m.seen a.toNat).put GLOBAL.SCRATCH 0 v.toNat) := by
  have hw := completes_cfgWrite_open (addr := 0x150) (off := 0x150) ho (by decide) (by decide) a v
  have hbits : bits v.toNat 0 64 = v.toNat := by simp [bits, Nat.mod_eq_of_lt v.isLt]
  have htop : topWrite a.toNat .global 0 0x150 v.toNat = cfgWrite a.toNat .global 0 0x150 v.toNat := rfl
  rwa [htop, cfgWrite_scratch, hbits] at hw

/-- A cleared EVENT register has its bits gone, and VALID with the last of them (R481). -/
theorem eventClear_eq (p : Page) (n v : Nat) (m : Mach) :
    let left := m.get (evField p) n - (m.get (evField p) n &&& v)
    (left = 0 → eventClear p n v m = (m.put (evField p) n 0).setFlag (evFirstValid p) n false) ∧
      (left ≠ 0 → eventClear p n v m = m.put (evField p) n left) := by
  unfold eventClear
  exact ⟨fun h => by simp [h], fun h => by simp [h]⟩

/-- EVENT_EN reads back the defined bits of the word written: a word has 64 bits, so the field cuts none off. -/
theorem get_put_eventEn (m : Mach) (p : Page) (n : Nat) (v : Word) (mask : Nat) :
    (m.put (evEnField p) n (v.toNat &&& mask)).get (evEnField p) n = v.toNat &&& mask := by
  rw [Mach.get_put_same]
  exact Nat.mod_eq_of_lt (lt_of_le_of_lt Nat.and_le_left v.isLt)

/-- Settles O2: each write arrives at an open page, the page is brought up to now, and the register does what its own law says. That EVENT_EN
keeps the defined bits only is the model's choice (log entry 20). -/
theorem cfgWritesReachTheirRegister : Obligations.CfgWritesReachTheirRegister := by
  intro s a v pg p n
  refine ⟨fun ho => completes_scratchWrite_open ho a v, fun hp ho => ⟨?eventEn, ?eventSet, ?eventClear⟩⟩
  case eventEn => exact ⟨_, completes_eventEnWrite_open hp ho a v, get_put_eventEn _ p n v _, Mach.put_onlyFields _ _ n _⟩
  case eventSet => exact completes_eventSet_open hp ho a v
  case eventClear =>
    have hclear := completes_eventClearWrite_open hp ho a v
    obtain ⟨hnone, hsome⟩ := eventClear_eq p n v.toNat ((s.m.seen a.toNat).settlePage p n 0x020)
    exact ⟨fun h => hnone h ▸ hclear, fun h => hsome h ▸ hclear⟩

/-- Settles O3: the read answers the counter as it stands once the page is brought up to now, and clears that one field. -/
theorem counterReadAnswersAndClears : Obligations.CounterReadAnswersAndClears := by
  intro s a addr p n off h8 hp hoff hf ho
  have hread := completes_rcRead_open ho h8 hp a
  rw [cfgRead_counter hoff hf] at hread
  exact ⟨_, hread, rfl, Mach.get_put_same _ _ n 0, Mach.put_onlyFields _ _ n 0⟩

/-- At reset the register table lists nothing, so every field reads its reset value (R434). -/
theorem get_reset (f : Field) (n : Nat) : State.reset.m.get f n = f.reset Integration.defaults n := Nat.zero_xor _

/-- Settles O55: registers are held as differences from their reset values, and at reset there are none. The reset values themselves
rest on log entries 5 and 6: the integration's defaults, and the 6.4 Gb/s column in the timing registers. -/
theorem resetHoldsResetValues : Obligations.ResetHoldsResetValues :=
  ⟨get_reset, get_reset GLOBAL.CORE_VERSION 0, get_reset POWER.STAT_MODE 0, rfl, rfl, rfl⟩

end Sys2Proof.Laws
end

section
/-! SUPPORT. What completing comes to, and frames of the shared operations: which fields an operation may change when the blocks' own state
changes too, what setting EVENT bits leaves in EVENT, and that fields of different pages lie apart. -/
namespace Sys2Proof.Machine

/-- A command whose answer is the machine after `f` completes with what `f` comes to. -/
theorem completes_of_answer {c : Instr} {s : State} {f : Mach → Mach} {t : Mach} (hc : exec c s = answer s f) (h : f s.m = t) :
    Completes c s t := by
  rw [Completes, hc, answer, h]

/-! ### Only registers change -/

theorem Mach.setFlag_onlyFields (m : Mach) (f : Field) (n : Nat) (b : Bool) : OnlyFields m (m.setFlag f n b) [f.key n] :=
  Mach.put_onlyFields m f n _

theorem Mach.count_onlyFields (m : Mach) (f : Field) (n k : Nat) : OnlyFields m (m.count f n k) [f.key n] :=
  Mach.put_onlyFields m f n _

theorem OnlyFields.mono {m t : Mach} {ks ls : List Nat} (h : OnlyFields m t ks) (hs : ks ⊆ ls) : OnlyFields m t ls :=
  ⟨h.1, fun f n hn => h.2 f n fun hk => hn (hs hk)⟩

/-- Setting an EVENT bit leaves every field outside the page's event group alone. -/
theorem Mach.event_get_ne (m : Mach) {p : Page} {n : Nat} (b : Nat) {g : Field} {k : Nat} (h : g.key k ∉ eventKeys p n) :
    (m.event p n b).get g k = m.get g k := (m.events_onlyFields p n _).2 g k h

/-! ### Some fields are kept, whatever the blocks do -/

/-- Two steps that keep the same fields keep them together. -/
theorem FieldsKept.trans {a b c : Mach} {ks : List Nat} (h : FieldsKept a b ks) (g : FieldsKept b c ks) : FieldsKept a c ks :=
  ⟨g.1.trans h.1, fun f n hn => (g.2 f n hn).trans (h.2 f n hn)⟩

theorem FieldsKept.refl (m : Mach) (ks : List Nat) : FieldsKept m m ks := ⟨rfl, fun _ _ _ => rfl⟩

theorem FieldsKept.mono {m t : Mach} {ks ls : List Nat} (h : FieldsKept m t ks) (hs : ks ⊆ ls) : FieldsKept m t ls :=
  ⟨h.1, fun f n hn => h.2 f n fun hk => hn (hs hk)⟩

theorem OnlyFields.kept {m t : Mach} {ks ls : List Nat} (h : OnlyFields m t ks) (hs : ks ⊆ ls) : FieldsKept m t ls :=
  FieldsKept.mono ⟨by rw [h.1], h.2⟩ hs

section
variable {a b : Mach} {ks : List Nat} (h : FieldsKept a b ks)
include h

theorem FieldsKept.put {f : Field} {n : Nat} (hk : f.key n ∈ ks) (v : Nat) : FieldsKept a (b.put f n v) ks :=
  h.trans ((Mach.put_onlyFields b f n v).kept (by simpa using hk))

theorem FieldsKept.setFlag {f : Field} {n : Nat} (hk : f.key n ∈ ks) (v : Bool) : FieldsKept a (b.setFlag f n v) ks := h.put hk _

theorem FieldsKept.count {f : Field} {n : Nat} (hk : f.key n ∈ ks) (k : Nat) : FieldsKept a (b.count f n k) ks := h.put hk _

theorem FieldsKept.event {p : Page} {n : Nat} (hk : eventKeys p n ⊆ ks) (v : Nat) : FieldsKept a (b.event p n v) ks :=
  h.trans ((b.events_onlyFields p n _).kept hk)

/-- A change of the Almanac's own state changes no field. -/
theorem FieldsKept.modAlm (f : AlmSt → AlmSt) : FieldsKept a (b.modAlm f) ks := h.trans ⟨rfl, fun _ _ _ => rfl⟩
end

@[simp] theorem Mach.modAlm_get (m : Mach) (f : AlmSt → AlmSt) (g : Field) (n : Nat) : (m.modAlm f).get g n = m.get g n := rfl

@[simp] theorem Mach.modAlm_alm (m : Mach) (f : AlmSt → AlmSt) : (m.modAlm f).alm = f m.alm := rfl

/-! ### EVENT bits (R481) -/

theorem lowestBit_two_pow {b : Nat} (h : b < 64) : lowestBit (2 ^ b) 64 = some b := by
  have hbit : ∀ k, (2 ^ b).testBit k = decide (b = k) := fun k => Nat.testBit_two_pow
  simp only [lowestBit, hbit]
  rw [List.find?_range_eq_some]
  refine ⟨by simp, List.mem_range.2 h, fun j hj => ?_⟩
  simp; omega

/-- Of the fields that setting EVENT bits changes, only EVENT has the place of EVENT. -/
theorem evField_key_ne (p : Page) (n : Nat) : (evField p).key n ≠ (evFirstBit p).key n ∧ (evField p).key n ≠ (evFirstEst p).key n ∧
    (evField p).key n ≠ (evFirstValid p).key n ∧ (evField p).key n ≠ (evTime p).key n ∧ (evField p).key n ≠ ALM.CNT_EST.key 0 := by
  simp only [Field.key, evField, evFirstBit, evFirstEst, evFirstValid, evTime, ALM.CNT_EST, Field.counter, Page.number]
  omega

/-- Setting EVENT bits adds them to EVENT. -/
theorem Mach.events_get_event (m : Mach) (p : Page) (n : Nat) {v b : Nat} (h : lowestBit v 64 = some b) :
    (m.events p n v).get (evField p) n = (m.get (evField p) n ||| v) % 2 ^ 64 := by
  obtain ⟨hBit, hEst, hValid, hTime, hCnt⟩ := evField_key_ne p n
  have hput : (m.put (evField p) n (m.get (evField p) n ||| v)).get (evField p) n = (m.get (evField p) n ||| v) % 2 ^ 64 :=
    Mach.get_put_same _ _ _ _
  simp only [Mach.events, h]
  split
  · exact hput
  · rw [Mach.judgeEst_get_ne _ hCnt, Mach.get_put_ne _ _ hTime, Mach.get_setFlag_ne _ _ hValid, Mach.get_setFlag_ne _ _ hEst,
      Mach.get_put_ne _ _ hBit, hput]

/-- An EVENT bit just set reads 1. -/
theorem Mach.event_testBit_same (m : Mach) (p : Page) (n : Nat) {b : Nat} (h : b < 64) :
    ((m.event p n b).get (evField p) n).testBit b = true := by
  rw [Mach.event, Mach.events_get_event m p n (lowestBit_two_pow h), Nat.testBit_mod_two_pow, Nat.testBit_or, Nat.testBit_two_pow_self]
  simp [h]

/-- An EVENT bit that reads 1 stays when another is set. -/
theorem Mach.event_testBit_of_set (m : Mach) (p : Page) (n : Nat) {b c : Nat} (hb : b < 64) (hc : c < 64)
    (h : (m.get (evField p) n).testBit c = true) : ((m.event p n b).get (evField p) n).testBit c = true := by
  rw [Mach.event, Mach.events_get_event m p n (lowestBit_two_pow hb), Nat.testBit_mod_two_pow, Nat.testBit_or, h]
  simp [hc]

/-! ### Fields of different pages -/

/-- A key names the page number. -/
theorem Field.key_div {f : Field} (hoff : f.off < 4096) (hlo : f.lo < 64) (n : Nat) : f.key n / 32768 = f.page.number n := by
  simp only [Field.key]
  omega

/-- A field of one page is none of the fields listed of another. -/
theorem Field.key_notMem_of_page {f : Field} {n k : Nat} {ks : List Nat} (hoff : f.off < 4096) (hlo : f.lo < 64)
    (hks : ∀ q ∈ ks, q / 32768 = k) (hne : f.page.number n ≠ k) : f.key n ∉ ks :=
  fun hmem => hne ((Field.key_div hoff hlo n).symm.trans (hks _ hmem))

end Sys2Proof.Machine
end

section
/-! SUPPORT. Trace time and the commands on schedule entries and the fire log: what each meaning comes to, case by case (chapter "Trace time
and the Almanac", R35 to R37, R42, R44, R46 to R49, R58, R61). -/
namespace Sys2Proof.Machine

/-! ### Trace time moves on (R35, R42, R53) -/

/-- Trace time is a tick: adding to it adds modulo 2^64. -/
theorem Mach.tb_add_toNat (m : Mach) (k : Nat) : (m.tb + BitVec.ofNat 64 k).toNat = (m.get ALM.TB_NOW + k) % 2 ^ 64 := by
  simp [Mach.tb]

theorem timebaseTick_eq {m : Mach} (h : m.almRuns = true) (adv : Nat) :
    timebaseTick adv m = (m.advanceTb (m.tickStep adv).1).modAlm fun a => { a with frac := (m.tickStep adv).2 } := by
  simp [timebaseTick, h]

theorem Mach.tickStep_eq (m : Mach) (adv : Nat) :
    m.tickStep adv = (if m.estimated then (m.alm.frac + m.get ALM.NOMINAL_RATE) / 800000000 else adv,
      if m.estimated then (m.alm.frac + m.get ALM.NOMINAL_RATE) % 800000000 else m.alm.frac) := by
  unfold Mach.tickStep
  split <;> rfl

/-! ### TB_ALIVE and its loss (R36, R42, R44) -/

theorem tbAliveToggle_known {m : Mach} (h : m.almRuns = true) (he : m.estimated = false) :
    tbAliveToggle m = m.modAlm fun a => { a with alive := !a.alive, aliveAt := m.now } := by
  simp [tbAliveToggle, h, he]

theorem tbAliveToggle_estimated {m : Mach} (h : m.almRuns = true) (he : m.estimated = true) :
    tbAliveToggle m = (m.modAlm fun a => { a with alive := !a.alive, aliveAt := m.now, backSeen := true }).event .alm 0
      ALM.EV_TIMEBASE_BACK := by
  simp [tbAliveToggle, h, he, Mach.modAlm]

theorem timebaseLost_known {m : Mach} (h : m.almRuns = true) (hl : usec (m.get ALM.TB_LOSS_TIME) < m.now - m.alm.aliveAt)
    (he : m.estimated = false) :
    timebaseLost m = ((m.modAlm fun a => { a with frac := 0, backSeen := false }).event .alm 0 ALM.EV_TIMEBASE_LOST).setFlag
      ALM.STAT_ESTIMATED 0 true := by
  simp [timebaseLost, h, hl, he, Mach.modAlm]

theorem timebaseLost_silent {m : Mach} (he : m.estimated = true) (hb : m.alm.backSeen = false) : timebaseLost m = m := by
  simp [timebaseLost, he, hb]

/-! ### Frames of the Almanac's shared operations -/

theorem Mach.entStat_onlyFields (m : Mach) (k : Nat) : OnlyFields m (m.entStat k) [ALM.ENT_STAT.key 0, ALM.ENT_STAT_VALID.key 0] :=
  (Mach.put_onlyFields m _ 0 _).trans (Mach.setFlag_onlyFields _ _ 0 _)

theorem Mach.entStat_get (m : Mach) (k : Nat) : (m.entStat k).get ALM.ENT_STAT = k % 4 := by
  rw [Mach.entStat, Mach.get_setFlag_ne _ _ (by decide), Mach.get_put_same]
  rfl

theorem Mach.showNext_onlyFields (m : Mach) : OnlyFields m m.showNext [ALM.NEXT_TICK.key 0, ALM.NEXT_KIND.key 0] := by
  unfold Mach.showNext
  split
  all_goals exact (Mach.put_onlyFields m _ 0 _).trans (Mach.put_onlyFields _ _ 0 _)

@[simp] theorem Mach.showNext_alm (m : Mach) : m.showNext.alm = m.alm := by rw [m.showNext_onlyFields.1]

/-- The fields in which the oldest fire record shows. -/
def logKeys : List Nat :=
  [ALM.LOG_TICK, ALM.LOG_INDEX, ALM.LOG_KIND, ALM.LOG_SKEWED, ALM.LOG_PAST, ALM.LOG_ESTIMATED, ALM.LOG_WAKE_TAG,
    ALM.LOG_DELAY].map fun f => f.key 0

theorem Mach.showLog_kept (m : Mach) : FieldsKept m m.showLog logKeys :=
  ((((((((FieldsKept.refl m logKeys).put (by decide) _).put (by decide) _).put (by decide) _).setFlag (by decide) _).setFlag
    (by decide) _).setFlag (by decide) _).put (by decide) _).put (by decide) _

@[simp] theorem Mach.showLog_alm (m : Mach) : m.showLog.alm = m.alm := by simp [Mach.showLog]

theorem Mach.showLog_logTick (m : Mach) : m.showLog.get ALM.LOG_TICK = (m.alm.log.headD default).tick.toNat := by
  unfold Mach.showLog
  dsimp only
  rw [Mach.get_put_ne _ _ (by decide), Mach.get_put_ne _ _ (by decide), Mach.get_setFlag_ne _ _ (by decide),
    Mach.get_setFlag_ne _ _ (by decide), Mach.get_setFlag_ne _ _ (by decide), Mach.get_put_ne _ _ (by decide),
    Mach.get_put_ne _ _ (by decide), Mach.get_put_same]
  exact Nat.mod_eq_of_lt (BitVec.isLt _)

theorem Mach.showLog_logIndex (m : Mach) : m.showLog.get ALM.LOG_INDEX = (m.alm.log.headD default).index % 1024 := by
  unfold Mach.showLog
  dsimp only
  rw [Mach.get_put_ne _ _ (by decide), Mach.get_put_ne _ _ (by decide), Mach.get_setFlag_ne _ _ (by decide),
    Mach.get_setFlag_ne _ _ (by decide), Mach.get_setFlag_ne _ _ (by decide), Mach.get_put_ne _ _ (by decide), Mach.get_put_same]
  rfl

theorem Mach.showLoomFull_onlyFields (m : Mach) (w : Bool) : OnlyFields m (m.showLoomFull w) [ALM.STAT_LOOM_FULL.key 0] :=
  Mach.setFlag_onlyFields m _ 0 _

/-! ### The commands on the entry at ENT_SEL (R46 to R48, R58) -/

/-- The entry that ENT_CTL, ENT_TICK and ENT_ARG describe (R46), with the mark of an entry in the past. -/
def Mach.entAsked (m : Mach) (past : Bool) : Entry :=
  ⟨EntKind.ofCode (m.get ALM.ENT_CTL), BitVec.ofNat 64 (m.get ALM.ENT_TICK), BitVec.ofNat 64 (m.get ALM.ENT_ARG), past, false⟩

section
variable {m : Mach} (h3 : m.get ALM.ENT_STAT ≠ 3)
include h3

theorem entClear_reserved (hr : m.inReserve (m.get ALM.ENT_SEL) = true) :
    entClear m = (m.entStat 2).event .alm 0 ALM.EV_ENT_DENIED := by
  simp [entClear, h3, hr]

theorem entClear_free (hr : m.inReserve (m.get ALM.ENT_SEL) = false) (hf : (m.entry (m.get ALM.ENT_SEL)).kind = .free) :
    entClear m = m.entStat 1 := by
  simp [entClear, h3, hr, hf]

theorem entClear_used (hr : m.inReserve (m.get ALM.ENT_SEL) = false) (hf : (m.entry (m.get ALM.ENT_SEL)).kind ≠ .free) :
    entClear m = ((m.setEntry (m.get ALM.ENT_SEL) default).entStat 0).showNext := by
  simp [entClear, h3, hr, hf]

theorem entWrite_denied (hk : EntKind.ofCode (m.get ALM.ENT_CTL) ≠ .free)
    (hd : m.inReserve (m.get ALM.ENT_SEL) = true ∨ EntKind.ofCode (m.get ALM.ENT_CTL) = .playDue) :
    entWrite m = (m.entStat 2).event .alm 0 ALM.EV_ENT_DENIED := by
  simp [entWrite, h3, hk, hd]

/-- A write that is taken stores the entry with the mark of R46, shows DONE, and sets ENT_PAST when its tick is reached. -/
theorem entWrite_stored (hk : EntKind.ofCode (m.get ALM.ENT_CTL) ≠ .free) (hp : EntKind.ofCode (m.get ALM.ENT_CTL) ≠ .playDue)
    (hr : m.inReserve (m.get ALM.ENT_SEL) = false) {past : Bool}
    (hpast : (m.flag ALM.STAT_TB_VALID && reached m.tb (BitVec.ofNat 64 (m.get ALM.ENT_TICK))) = past) :
    let m1 := (m.setEntry (m.get ALM.ENT_SEL) (m.entAsked past)).entStat 0
    entWrite m = (if past then m1.event .alm 0 ALM.EV_ENT_PAST else m1).showNext := by
  subst hpast
  simp [entWrite, Mach.entAsked, h3, hk, hp, hr]

/-- A write that is taken answers DONE, leaves the fire log and stores the entry asked for. -/
theorem entWrite_stored_done (hk : EntKind.ofCode (m.get ALM.ENT_CTL) ≠ .free) (hp : EntKind.ofCode (m.get ALM.ENT_CTL) ≠ .playDue)
    (hr : m.inReserve (m.get ALM.ENT_SEL) = false) :
    (entWrite m).get ALM.ENT_STAT = 0 ∧ (entWrite m).alm.log = m.alm.log ∧
      ∃ past, (entWrite m).alm.sched.get (m.get ALM.ENT_SEL) = m.entAsked past := by
  rw [entWrite_stored h3 hk hp hr rfl, Mach.showNext_alm, (Mach.showNext_onlyFields _).2 _ 0 (by decide)]
  split
  · rw [Mach.event_alm, Mach.event_get_ne _ _ (by decide), Mach.entStat_get]
    exact ⟨rfl, rfl, _, Tab.get_set_same _ _ _⟩
  · rw [Mach.entStat_get]
    exact ⟨rfl, rfl, _, Tab.get_set_same _ _ _⟩

theorem entRead_eq :
    let e := m.entry (m.get ALM.ENT_SEL)
    entRead m = ((((m.put ALM.ENT_TICK 0 e.tick.toNat).put ALM.ENT_CTL 0 e.kind.code).put ALM.ENT_ARG 0 e.arg.toNat).entStat 0).put
      ALM.ENT_STAT_VALID 0 (if e.kind = .free then 0 else 1) := by
  intro e
  have hvalid : b2n (e.kind != .free) = if e.kind = .free then 0 else 1 := by
    by_cases hf : e.kind = .free <;> simp [b2n, hf]
  rw [← hvalid]
  exact if_neg h3
end

/-! ### LOOM_RESERVE (R48) -/

theorem Mach.inReserve_iff (m : Mach) (i : Nat) : m.inReserve i = true ↔ 1024 - m.get ALM.LOOM_RESERVE ≤ i := decide_eq_true_iff

theorem Mach.inReserve_eq_false (m : Mach) (i : Nat) : m.inReserve i = false ↔ ¬ 1024 - m.get ALM.LOOM_RESERVE ≤ i :=
  decide_eq_false_iff_not

/-- Every index that a change of LOOM_RESERVE from `old` to `v` moves is FREE (R48). -/
def Mach.movedFree (m : Mach) (v old : Nat) : Prop :=
  ∀ i, 1024 - max v old ≤ i → i < 1024 - max v old + (max v old - min v old) → (m.alm.sched.get i).kind = .free

/-- The check of the moved indices, counted from the lowest of them. -/
theorem Mach.movedFree_iff (m : Mach) (v old : Nat) :
    ((List.range (max v old - min v old)).all fun k => (m.entry (1024 - max v old + k)).kind == .free) = true ↔ m.movedFree v old := by
  simp only [List.all_eq_true, List.mem_range, beq_iff_eq, Mach.movedFree, Mach.entry]
  refine ⟨fun h i hlo hhi => ?_, fun h k hk => h _ (Nat.le_add_right _ k) (by omega)⟩
  have hi := h (i - (1024 - max v old)) (by omega)
  rwa [Nat.add_sub_cancel' hlo] at hi

theorem loomReserveWrite_taken {m : Mach} {v : Nat} (hv : v ≤ 512) (hf : m.movedFree v (m.get ALM.LOOM_RESERVE)) :
    loomReserveWrite v m = (m.put ALM.LOOM_RESERVE 0 v).showLoomFull false := by
  simp only [loomReserveWrite, (m.movedFree_iff _ _).2 hf, hv, decide_true, Bool.and_self, if_true]

theorem loomReserveWrite_rejected {m : Mach} {v : Nat} (h : 512 < v ∨ ¬ m.movedFree v (m.get ALM.LOOM_RESERVE)) :
    loomReserveWrite v m = m.event .alm 0 ALM.EV_PARAM_REJECT := by
  rw [← m.movedFree_iff] at h
  refine if_neg fun hc => ?_
  rw [Bool.and_eq_true, decide_eq_true_eq] at hc
  exact h.elim (by omega) fun hn => hn hc.2

end Sys2Proof.Machine
end

section
/-! SUPPORT. The statements on trace time and on the commands that reach the schedule and the fire log. -/
namespace Sys2Proof.Laws
open Sys2Proof.Machine

/-- Settles O5: with a window open the tick is counted, and while trace time is estimated the nominal rate gives its step. That a loss which
is not due changes nothing is the model's choice (log entries 3, 4 and 16). -/
theorem traceTimeAndTimebase : Obligations.TraceTimeAndTimebase := by
  refine ⟨fun s adv hruns => ?tick, fun s hruns => ⟨?known, ?back, fun hloss => ⟨?lost, ?silent⟩⟩⟩
  case tick =>
    refine completes_of_answer (exec_timebaseTick s adv) ((timebaseTick_eq hruns adv.toNat).trans ?_)
    rw [Mach.advanceTb, Mach.tb_add_toNat, Mach.tickStep_eq]
    dsimp only
    split <;> rfl
  case known => exact fun he => completes_of_answer (exec_tbAliveToggle s) (tbAliveToggle_known hruns he)
  case back => exact fun he => completes_of_answer (exec_tbAliveToggle s) (tbAliveToggle_estimated hruns he)
  case lost => exact fun he => completes_of_answer (exec_timebaseLost s) (timebaseLost_known hruns hloss he)
  case silent => exact fun he hb => completes_of_answer (exec_timebaseLost s) (timebaseLost_silent he hb)

/-! ### The access arrives at the Almanac -/

section
variable {s : State} (ho : s.m.cfgOpen .alm 0) {a : BitVec 3} {t : Mach}
include ho

theorem completes_entClear (h : entClear (s.m.seen a.toNat) = t) : Completes (.entClear a) s t :=
  completes_of_answer (exec_entClear s a) ((Mach.viaCfg_open ho ..).trans h)

theorem completes_entWrite (h : entWrite (s.m.seen a.toNat) = t) : Completes (.entWrite a) s t :=
  completes_of_answer (exec_entWrite s a) ((Mach.viaCfg_open ho ..).trans h)

theorem completes_entRead (h : entRead (s.m.seen a.toNat) = t) : Completes (.entRead a) s t :=
  completes_of_answer (exec_entRead s a) ((Mach.viaCfg_open ho ..).trans h)

theorem completes_logPop : Completes (.logPop a) s (logPop (s.m.seen a.toNat)) :=
  completes_of_answer (exec_logPop s a) (Mach.viaCfg_open ho ..)

theorem completes_loomReserveWrite {v : BitVec 10} (h : loomReserveWrite v.toNat (s.m.seen a.toNat) = t) :
    Completes (.loomReserveWrite a v) s t :=
  completes_of_answer (exec_loomReserveWrite s a v) ((Mach.viaCfg_open ho ..).trans h)
end

/-- Settles O7: each command arrives at the Almanac and takes the branch that its conditions name. That CLEAR of any FREE
entry answers ALREADY_DONE, and that LOOM_RESERVE above 512 sets PARAM_REJECT, is the model's choice (log entry 25). -/
theorem scheduleAndFireLog : Obligations.ScheduleAndFireLog := by
  refine ⟨fun s a ho h3 => ?entries, fun s a v ho => ⟨?logPop, ?taken, ?rejected⟩⟩
  case entries =>
    intro m i e k reserved tick past stat holds
    have hin : reserved → m.inReserve i = true := (Mach.inReserve_iff m i).2
    have hout : ¬reserved → m.inReserve i = false := (Mach.inReserve_eq_false m i).2
    refine ⟨?clearReserved, ?clearFree, ?clearUsed, ?writeDenied, ?writeFuture, ?writePast, ?read⟩
    case clearReserved => exact fun hr => completes_entClear ho (entClear_reserved h3 (hin hr))
    case clearFree => exact fun hr hf => completes_entClear ho (entClear_free h3 (hout hr) hf)
    case clearUsed => exact fun hr hf => completes_entClear ho (entClear_used h3 (hout hr) hf)
    case writeDenied => exact fun hk hd => completes_entWrite ho (entWrite_denied h3 hk (hd.imp_left hin))
    case writeFuture => exact fun hk hr hp hpast => completes_entWrite ho (entWrite_stored (m := m) h3 hk hp (hout hr) hpast)
    case writePast => exact fun hk hr hp hpast => completes_entWrite ho (entWrite_stored (m := m) h3 hk hp (hout hr) hpast)
    case read => exact completes_entRead ho (entRead_eq h3)
  case logPop =>
    have hhead : ∀ l : List FireRec, (l.drop 1).headD default = l.getD 1 default := fun l => by
      simp [List.headD_eq_head?_getD, List.getD_eq_getElem?_getD]
    refine ⟨_, completes_logPop ho, rfl, ?_, ?_⟩
    · rw [logPop, Mach.showLog_logTick, Mach.modAlm_alm, hhead]
    · rw [logPop, Mach.showLog_logIndex, Mach.modAlm_alm, hhead]
  case taken =>
    intro hv hfree
    have hframe := (Mach.put_onlyFields (s.m.seen a.toNat) ALM.LOOM_RESERVE 0 v.toNat).trans (Mach.showLoomFull_onlyFields _ false)
    refine ⟨_, completes_loomReserveWrite ho (loomReserveWrite_taken hv hfree), ?_, hframe⟩
    rw [(Mach.showLoomFull_onlyFields _ false).2 _ 0 (by decide), Mach.get_put_same]
    exact Nat.mod_eq_of_lt v.isLt
  case rejected => exact fun h => completes_loomReserveWrite ho (loomReserveWrite_rejected h)

/-- Settles O59: an entry that has fired is FREE, so CLEAR finds nothing to do and WRITE stores the new entry, the log untouched. The
same answer for a FREE entry that never held one is the model's choice (log entry 25). -/
theorem commandsOnFiredEntries : Obligations.CommandsOnFiredEntries := by
  intro s a ho h3 hr hf
  refine ⟨⟨_, completes_entClear ho (entClear_free h3 hr hf), Mach.entStat_get _ 1, rfl, Mach.entStat_onlyFields _ 1⟩, fun hk hp => ?_⟩
  obtain ⟨hstat, hlog, past, hentry⟩ := entWrite_stored_done (m := s.m.seen a.toNat) h3 hk hp hr
  have hkept : (entWrite (s.m.seen a.toNat)).alm.sched.get (s.m.get ALM.ENT_SEL) = (s.m.seen a.toNat).entAsked past := hentry
  exact ⟨_, completes_entWrite ho rfl, hstat, hlog, by rw [hkept]; rfl, by rw [hkept]; rfl, by rw [hkept]; rfl⟩

end Sys2Proof.Laws
end

section
/-! SUPPORT. The periods and the loads of trace time: what ends a period and begins the next, and what each kind of load comes to (chapter
"Trace time and the Almanac", R38, R39, R50, R52, R56). -/
namespace Sys2Proof.Machine

/-! ### What a change of period may touch -/

/-- The fields that the end of one period and the start of the next may change (R50, R52, R56). -/
def periodKeys : List Nat :=
  [ALM.PERIOD_TICKS, ALM.GUAR_TICKS, ALM.BG_BYTES, ALM.SHRINK_MAX, ALM.LAG, ALM.PERIOD_BASE, ALM.STAT_IN_GUAR, ALM.STAT_SHRINKING,
    ALM.CNT_LAG_REPAID].map (fun f => f.key 0) ++ eventKeys .alm 0

/-- The fields that the lengths of a PERIOD entry may change (R45, R52). -/
def lengthKeys : List Nat := [ALM.PERIOD_TICKS.key 0, ALM.GUAR_TICKS.key 0] ++ eventKeys .alm 0

/-- From `a` to `b` of the Almanac's own state only what belongs to the current period changes. -/
def AlmSt.OnlyPeriod (a b : AlmSt) : Prop := b = { a with act := b.act, shrink := b.shrink, late := b.late, spent := b.spent }

theorem AlmSt.OnlyPeriod.trans {a b c : AlmSt} (h : AlmSt.OnlyPeriod a b) (g : AlmSt.OnlyPeriod b c) : AlmSt.OnlyPeriod a c := by
  rw [AlmSt.OnlyPeriod, g, h]

/-- A change of period leaves the schedule, the fire log and the count of discontinuities alone. -/
theorem AlmSt.OnlyPeriod.kept {a b : AlmSt} (h : AlmSt.OnlyPeriod a b) : b.sched = a.sched ∧ b.log = a.log ∧ b.disc = a.disc := by
  rw [h]
  exact ⟨rfl, rfl, rfl⟩

section
variable (m : Mach)

theorem Mach.reject_alm : (m.reject .alm).alm = m.alm := Mach.event_alm _ _ _ _

theorem Mach.reject_kept : FieldsKept m (m.reject .alm) (eventKeys .alm 0) := (FieldsKept.refl m _).event (List.Subset.refl _) _

theorem Mach.applyPeriod_onlyPeriod : AlmSt.OnlyPeriod m.alm m.applyPeriod.alm := by
  unfold Mach.applyPeriod
  dsimp only
  split
  · rfl
  · rw [Mach.reject_alm]
    rfl

theorem Mach.applyPeriod_kept : FieldsKept m m.applyPeriod periodKeys := by
  unfold Mach.applyPeriod
  dsimp only
  split
  · exact (FieldsKept.refl m _).modAlm _
  · exact (((((FieldsKept.refl m _).put (by decide) _).put (by decide) _).put (by decide) _).put (by decide) _).trans
      ((Mach.reject_kept _).mono (by decide))

theorem Mach.entryLengths_onlyPeriod (w : Word) : AlmSt.OnlyPeriod m.alm (m.entryLengths w).alm := by
  unfold Mach.entryLengths
  dsimp only
  split
  · rfl
  · rw [Mach.reject_alm]
    rfl

theorem Mach.entryLengths_kept (w : Word) : FieldsKept m (m.entryLengths w) lengthKeys := by
  unfold Mach.entryLengths
  dsimp only
  split
  · exact (((FieldsKept.refl m _).put (by decide) _).put (by decide) _).modAlm _
  · exact m.reject_kept.mono (by decide)

/-- The lengths of a PERIOD entry that pass the check of R52 are in force. -/
theorem Mach.entryLengths_periodAct {w : Word} (h : periodOk (bits w.toNat 0 32) (bits w.toNat 32 32) = true) :
    (m.entryLengths w).periodAct = { m.periodAct with period := bits w.toNat 0 32, guar := bits w.toNat 32 32 } := by
  simp [Mach.entryLengths, h, Mach.periodAct, Mach.modAlm]

/-! ### The start of a period (R50, R56) -/

theorem Mach.beginPeriod_kept (base : Tick) (sh : Nat) : FieldsKept m (m.beginPeriod base sh)
    [ALM.PERIOD_BASE.key 0, ALM.STAT_IN_GUAR.key 0, ALM.STAT_SHRINKING.key 0] :=
  ((((FieldsKept.refl m _).modAlm _).put (by decide) _).setFlag (by decide) _).setFlag (by decide) _

@[simp] theorem Mach.beginPeriod_alm (base : Tick) (sh : Nat) :
    (m.beginPeriod base sh).alm = (m.modAlm fun a => { a with shrink := sh, spent := [] }).alm := rfl

theorem Mach.beginPeriod_base (base : Tick) (sh : Nat) : (m.beginPeriod base sh).get ALM.PERIOD_BASE = base.toNat := by
  unfold Mach.beginPeriod
  rw [Mach.get_setFlag_ne _ _ (by decide), Mach.get_setFlag_ne _ _ (by decide), Mach.get_put_same]
  exact Nat.mod_eq_of_lt base.isLt

theorem Mach.beginPeriod_shrinking (base : Tick) (sh : Nat) :
    (m.beginPeriod base sh).flag ALM.STAT_SHRINKING = Decidable.decide (0 < sh) :=
  Mach.flag_setFlag_same _ _ _ _ (by decide)

/-! ### The end of a period (R52, R56) -/

/-- The lengths of the PERIOD entry that begins the next period, where one does. -/
def Mach.nextLengths (m : Mach) : Option Word → Mach
  | some w => m.entryLengths w
  | none => m

theorem Mach.nextLengths_kept (arg : Option Word) : FieldsKept m (m.nextLengths arg) periodKeys := by
  cases arg with
  | some w => exact (m.entryLengths_kept w).mono (by decide)
  | none => exact FieldsKept.refl m _

theorem Mach.nextLengths_onlyPeriod (arg : Option Word) : AlmSt.OnlyPeriod m.alm (m.nextLengths arg).alm := by
  cases arg with
  | some w => exact m.entryLengths_onlyPeriod w
  | none => rfl

/-- A period that ends leaves the machine with new parameters, its shrink counted and no lateness; LAG and the next period follow. -/
def Mach.periodDone (m : Mach) (elapsed : Option Nat) (arg : Option Word) : Mach :=
  let m1 := m.applyPeriod.nextLengths arg
  let m2 := if m.get ALM.LAG - m.shrinkRepaid elapsed + m.alm.late > 0xFFFFFFFF then m1.event .alm 0 ALM.EV_LAG_SAT else m1
  (m2.count ALM.CNT_LAG_REPAID 0 (m.shrinkRepaid elapsed)).modAlm fun a => { a with late := 0 }

theorem Mach.endPeriod_eq (base : Tick) (elapsed : Option Nat) (arg : Option Word) :
    let lag := satU 32 (m.get ALM.LAG - m.shrinkRepaid elapsed + m.alm.late)
    let m1 := m.periodDone elapsed arg
    m.endPeriod base elapsed arg = (m1.put ALM.LAG 0 lag).beginPeriod base (min lag m1.shrinkCap) := by
  cases arg <;> rfl

theorem Mach.periodDone_alm (elapsed : Option Nat) (arg : Option Word) :
    (m.periodDone elapsed arg).alm = ((m.applyPeriod.nextLengths arg).modAlm fun a => { a with late := 0 }).alm := by
  unfold Mach.periodDone
  dsimp only
  split
  · rw [Mach.modAlm_alm, Mach.count_alm, Mach.event_alm]
    rfl
  · rfl

theorem Mach.periodDone_kept (elapsed : Option Nat) (arg : Option Word) : FieldsKept m (m.periodDone elapsed arg) periodKeys := by
  have hlengths := m.applyPeriod_kept.trans (Mach.nextLengths_kept _ arg)
  unfold Mach.periodDone
  dsimp only
  split
  · exact ((hlengths.event (by decide) _).count (by decide) _).modAlm _
  · exact (hlengths.count (by decide) _).modAlm _

theorem Mach.periodDone_onlyPeriod (elapsed : Option Nat) (arg : Option Word) :
    AlmSt.OnlyPeriod m.alm (m.periodDone elapsed arg).alm := by
  rw [Mach.periodDone_alm]
  exact (m.applyPeriod_onlyPeriod.trans (Mach.nextLengths_onlyPeriod _ arg)).trans rfl

theorem Mach.endPeriod_kept (base : Tick) (elapsed : Option Nat) (arg : Option Word) :
    FieldsKept m (m.endPeriod base elapsed arg) periodKeys :=
  ((m.periodDone_kept elapsed arg).put (by decide) _).trans ((Mach.beginPeriod_kept _ base _).mono (by decide))

theorem Mach.endPeriod_onlyPeriod (base : Tick) (elapsed : Option Nat) (arg : Option Word) :
    AlmSt.OnlyPeriod m.alm (m.endPeriod base elapsed arg).alm :=
  (m.periodDone_onlyPeriod elapsed arg).trans rfl

theorem Mach.endPeriod_base (base : Tick) (elapsed : Option Nat) (arg : Option Word) :
    (m.endPeriod base elapsed arg).get ALM.PERIOD_BASE = base.toNat := Mach.beginPeriod_base _ base _

theorem Mach.endPeriod_lag (base : Tick) (elapsed : Option Nat) (arg : Option Word) :
    (m.endPeriod base elapsed arg).get ALM.LAG = min (m.get ALM.LAG - m.shrinkRepaid elapsed + m.alm.late) (2 ^ 32 - 1) := by
  rw [Mach.endPeriod_eq, (Mach.beginPeriod_kept _ base _).2 _ 0 (by decide), Mach.get_put_same]
  exact Nat.mod_eq_of_lt (lt_of_le_of_lt (Nat.min_le_right _ _) (by decide))

theorem Mach.endPeriod_late (base : Tick) (elapsed : Option Nat) (arg : Option Word) :
    (m.endPeriod base elapsed arg).alm.late = 0 ∧ (m.endPeriod base elapsed arg).alm.spent = [] := by
  rw [Mach.endPeriod_eq, Mach.beginPeriod_alm, Mach.modAlm_alm, Mach.put_alm, Mach.periodDone_alm]
  exact ⟨rfl, rfl⟩

/-- The lengths of the PERIOD entry that ends a period are in force in the next. -/
theorem Mach.endPeriod_lengths (base : Tick) (elapsed : Option Nat) {w : Word}
    (h : periodOk (bits w.toNat 0 32) (bits w.toNat 32 32) = true) :
    (m.endPeriod base elapsed (some w)).periodAct.period = bits w.toNat 0 32 ∧
      (m.endPeriod base elapsed (some w)).periodAct.guar = bits w.toNat 32 32 := by
  have hact : (m.endPeriod base elapsed (some w)).periodAct = (m.applyPeriod.entryLengths w).periodAct := by
    rw [Mach.periodAct, Mach.endPeriod_eq, Mach.beginPeriod_alm, Mach.modAlm_alm, Mach.put_alm, Mach.periodDone_alm]
    rfl
  rw [hact, Mach.entryLengths_periodAct _ h]
  exact ⟨rfl, rfl⟩

/-! ### The ends of the portions (R50) -/

theorem guaranteedEnd_due {m : Mach} (hr : m.almRuns = true) (hv : m.flag ALM.STAT_TB_VALID = true) (hg : m.flag ALM.STAT_IN_GUAR = true)
    (hd : reached m.tb (BitVec.ofNat 64 (m.get ALM.PERIOD_BASE) + BitVec.ofNat 64 (m.periodAct.guar + m.alm.shrink)) = true) :
    guaranteedEnd m = m.setFlag ALM.STAT_IN_GUAR 0 false := by
  simp only [guaranteedEnd, hr, hv, hg, hd, Bool.and_self, if_true]

theorem periodEnd_due {m : Mach} (hr : m.almRuns = true) (hv : m.flag ALM.STAT_TB_VALID = true) (hb : m.boundaryReached = true) :
    periodEnd m = m.endPeriod (BitVec.ofNat 64 (m.get ALM.PERIOD_BASE) + BitVec.ofNat 64 m.periodAct.period) none none := by
  simp only [periodEnd, hr, hv, hb, Bool.and_self, if_true]

/-! ### Loads of trace time (R38, R39) -/

theorem Mach.endEstimate_known (h : m.estimated = false) : m.endEstimate = m := by
  simp [Mach.endEstimate, h]

theorem Mach.tickStep_known (h : m.estimated = false) (adv : Nat) : m.tickStep adv = (adv, m.alm.frac) := by
  simp [Mach.tickStep, h]

/-- The fields in which the next known event shows. -/
def nextKeys : List Nat := [ALM.NEXT_TICK.key 0, ALM.NEXT_KIND.key 0]

/-- The first load, before the entries that it reaches are marked: trace time is valid and a period begins with it. -/
def Mach.firstLoad (m : Mach) (v : Tick) : Mach := ((m.put ALM.TB_NOW 0 v.toNat).setFlag ALM.STAT_TB_VALID 0 true).beginPeriod v 0

theorem Mach.firstLoad_get (v : Tick) : (m.firstLoad v).get ALM.TB_NOW = v.toNat ∧ (m.firstLoad v).flag ALM.STAT_TB_VALID = true ∧
    (m.firstLoad v).get ALM.PERIOD_BASE = v.toNat ∧ (m.firstLoad v).flag ALM.STAT_SHRINKING = false := by
  have hbegin := ((m.put ALM.TB_NOW 0 v.toNat).setFlag ALM.STAT_TB_VALID 0 true).beginPeriod_kept v 0
  refine ⟨?_, ?_, Mach.beginPeriod_base _ v 0, Mach.beginPeriod_shrinking _ v 0⟩
  · rw [Mach.firstLoad, hbegin.2 _ 0 (by decide), Mach.get_setFlag_ne _ _ (by decide), Mach.get_put_same]
    exact Nat.mod_eq_of_lt v.isLt
  · rw [Mach.flag, Mach.firstLoad, hbegin.2 _ 0 (by decide)]
    exact Mach.flag_setFlag_same _ _ _ true (by decide)

/-- The fields that the first load changes itself, before what shows of the entries. -/
def firstLoadKeys : List Nat :=
  [ALM.TB_NOW, ALM.STAT_TB_VALID, ALM.PERIOD_BASE, ALM.STAT_IN_GUAR, ALM.STAT_SHRINKING].map fun f => f.key 0

theorem Mach.firstLoad_kept (v : Tick) : FieldsKept m (m.firstLoad v) firstLoadKeys :=
  (((FieldsKept.refl m _).put (by decide) _).setFlag (by decide) _).trans ((Mach.beginPeriod_kept _ v 0).mono (by decide))

/-- After the first load only the marks of reached entries and what shows of them change. -/
theorem tbLoad_first_kept {m : Mach} (hr : m.almRuns = true) (he : m.estimated = false) (hv : m.flag ALM.STAT_TB_VALID = false)
    (v : Tick) (adv : Nat) : FieldsKept (m.firstLoad v) (tbLoad v adv m) (nextKeys ++ eventKeys .alm 0) := by
  simp only [tbLoad, hr, hv, m.endEstimate_known he, Bool.not_true, Bool.not_false, Bool.false_eq_true, if_false, if_true]
  refine FieldsKept.trans ?_ ((Mach.showNext_onlyFields _).kept (by decide))
  have hmark : FieldsKept (m.firstLoad v) ((m.firstLoad v).markReached fun e => { e with past := true })
      (nextKeys ++ eventKeys .alm 0) := (FieldsKept.refl _ _).modAlm _
  split
  · exact hmark.event (by decide) _
  · exact hmark

/-- A later load: trace time and its carried fraction are as expected unless it is estimated. -/
theorem tbLoad_later {m : Mach} (hr : m.almRuns = true) (he : m.estimated = false) (hv : m.flag ALM.STAT_TB_VALID = true)
    (v : Tick) (adv : Nat) : tbLoad v adv m = if v = m.tb + BitVec.ofNat 64 adv then (m.advanceTb adv).count ALM.CNT_CONFIRM
      else m.jumpTo v (m.tb + BitVec.ofNat 64 adv) := by
  have hfrac : (m.modAlm fun a => { a with frac := m.alm.frac }) = m := rfl
  simp only [tbLoad, hr, hv, m.tickStep_known he, hfrac, m.endEstimate_known he, Bool.not_true, Bool.false_eq_true, if_false]

theorem Mach.advanceTb_onlyFields (k : Nat) : OnlyFields m (m.advanceTb k) [ALM.TB_NOW.key 0, ALM.CNT_WIN_TICKS.key 0] := by
  unfold Mach.advanceTb
  dsimp only
  split
  · exact (Mach.put_onlyFields m _ 0 _).mono (by simp)
  · exact (Mach.put_onlyFields m _ 0 _).trans (Mach.count_onlyFields _ _ 0 _)

theorem Mach.advanceTb_now (k : Nat) : (m.advanceTb k).get ALM.TB_NOW = (m.tb + BitVec.ofNat 64 k).toNat := by
  have hput : (m.put ALM.TB_NOW 0 (m.tb + BitVec.ofNat 64 k).toNat).get ALM.TB_NOW = (m.tb + BitVec.ofNat 64 k).toNat := by
    rw [Mach.get_put_same]
    exact Nat.mod_eq_of_lt (BitVec.isLt _)
  unfold Mach.advanceTb
  dsimp only
  split
  · exact hput
  · rw [Mach.get_count_ne _ _ (by decide), hput]

/-! ### A discontinuity (R39) -/

/-- The jump itself, before it ends the period: trace time is the loaded tick, and the jump is recorded and counted. -/
def Mach.jumped (m : Mach) (v expected : Tick) : Mach :=
  ((((m.put ALM.TB_NOW 0 v.toNat).put ALM.JUMP 0 (v - expected).toNat).event .alm 0 ALM.EV_DISCONTINUITY).count ALM.CNT_DISC).modAlm
    fun a => { a with disc := a.disc + 1 }

theorem Mach.jumpTo_eq (v expected : Tick) : m.jumpTo v expected =
    ((((m.jumped v expected).endPeriod v (some (m.periodElapsed + 1)) none).markReached fun x =>
      { x with skewed := true }).showNext).skewBranches m.tb := rfl

theorem Mach.markReached_kept (f : Entry → Entry) (ks : List Nat) : FieldsKept m (m.markReached f) ks := (FieldsKept.refl m ks).modAlm _

theorem Mach.skewBranches_kept (old : Tick) (ks : List Nat) : FieldsKept m (m.skewBranches old) ks := ⟨rfl, fun _ _ _ => rfl⟩

/-- After the period has ended only the marks of entries and branches and what shows of them change. -/
theorem Mach.jumpTo_kept_endPeriod (v expected : Tick) : FieldsKept
    ((m.jumped v expected).endPeriod v (some (m.periodElapsed + 1)) none) (m.jumpTo v expected) nextKeys := by
  rw [Mach.jumpTo_eq]
  exact ((Mach.markReached_kept _ _ nextKeys).trans ((Mach.showNext_onlyFields _).kept (List.Subset.refl _))).trans
    (Mach.skewBranches_kept _ _ nextKeys)

theorem Mach.jumpTo_kept_jumped (v expected : Tick) :
    FieldsKept (m.jumped v expected) (m.jumpTo v expected) (periodKeys ++ nextKeys) :=
  ((Mach.endPeriod_kept _ v _ none).mono (List.subset_append_left _ _)).trans
    ((m.jumpTo_kept_endPeriod v expected).mono (List.subset_append_right _ _))

theorem Mach.jumpTo_base (v expected : Tick) : (m.jumpTo v expected).get ALM.PERIOD_BASE = v.toNat := by
  rw [(m.jumpTo_kept_endPeriod v expected).2 _ 0 (by decide), Mach.endPeriod_base]

theorem Mach.jumped_get (v expected : Tick) : (m.jumped v expected).get ALM.TB_NOW = v.toNat ∧
    (m.jumped v expected).get ALM.JUMP = (v - expected).toNat ∧
    (m.jumped v expected).get ALM.CNT_DISC = countUp (m.get ALM.CNT_DISC) 1 % 2 ^ 64 := by
  simp only [Mach.jumped, Mach.modAlm_get]
  refine ⟨?_, ?_, ?_⟩
  · rw [Mach.get_count_ne _ _ (by decide), Mach.event_get_ne _ _ (by decide), Mach.get_put_ne _ _ (by decide), Mach.get_put_same]
    exact Nat.mod_eq_of_lt v.isLt
  · rw [Mach.get_count_ne _ _ (by decide), Mach.event_get_ne _ _ (by decide), Mach.get_put_same]
    exact Nat.mod_eq_of_lt (BitVec.isLt _)
  · rw [Mach.count, Mach.get_put_same, Mach.event_get_ne _ _ (by decide), Mach.get_put_ne _ _ (by decide),
      Mach.get_put_ne _ _ (by decide)]
    rfl

/-- A discontinuity is counted in the Almanac's own state and leaves the fire log. -/
theorem Mach.jumpTo_alm (v expected : Tick) :
    (m.jumpTo v expected).alm.disc = m.alm.disc + 1 ∧ (m.jumpTo v expected).alm.log = m.alm.log := by
  have hjumped : (m.jumped v expected).alm.disc = m.alm.disc + 1 ∧ (m.jumped v expected).alm.log = m.alm.log := by
    simp [Mach.jumped]
  have hmarks : ∀ x : Mach, ∀ f, ((x.markReached f).showNext.skewBranches m.tb).alm.disc = x.alm.disc ∧
      ((x.markReached f).showNext.skewBranches m.tb).alm.log = x.alm.log := fun x f => by
    simp [Mach.skewBranches, Mach.markReached]
  obtain ⟨-, hlog, hdisc⟩ := ((m.jumped v expected).endPeriod_onlyPeriod v (some (m.periodElapsed + 1)) none).kept
  rw [Mach.jumpTo_eq, (hmarks _ _).1, (hmarks _ _).2, hdisc, hlog]
  exact hjumped
end

end Sys2Proof.Machine
end

section
/-! SUPPORT. The statements on the periods and on the loads of trace time. -/
namespace Sys2Proof.Laws
open Sys2Proof.Machine

/-- Settles O8: at its boundary a period of full length repays all its shrink. The lengths in force while no boundary has applied others, and
that an end which is not due changes nothing, are the model's choices (log entries 82, and 3, 4 and 16). -/
theorem periodsEnd : Obligations.PeriodsEnd := by
  intro s hr hv
  refine ⟨fun hg hd => ?guar, fun hb => ?period⟩
  case guar => exact completes_of_answer (exec_guaranteedPortionEnd s) (guaranteedEnd_due hr hv hg (decide_eq_true hd))
  case period =>
    obtain ⟨hlate, hspent⟩ := s.m.endPeriod_late (BitVec.ofNat 64 (s.m.get ALM.PERIOD_BASE) + BitVec.ofNat 64 s.m.periodAct.period) none none
    exact ⟨_, completes_of_answer (exec_periodEnd s) (periodEnd_due hr hv (decide_eq_true hb)), s.m.endPeriod_base _ none none,
      s.m.endPeriod_lag _ none none, hlate, hspent, (s.m.endPeriod_kept _ none none).2 _ 0 (by decide)⟩

/-- Settles O6: the first load begins a period, a load as expected only moves trace time on and is counted, and any other jumps. -/
theorem traceTimeLoads : Obligations.TraceTimeLoads := by
  intro s v adv hr he
  have hadv : adv.setWidth 64 = BitVec.ofNat 64 adv.toNat := by
    apply BitVec.eq_of_toNat_eq
    simp
  rw [hadv]
  have hload : ∀ {t}, tbLoad v adv.toNat s.m = t → Completes (.tbLoad v adv) s t := completes_of_answer (exec_tbLoad s v adv)
  refine ⟨fun hv => ?first, fun hv heq => ?confirm, fun hv hne => ?jump⟩
  case first =>
    have hkept := tbLoad_first_kept hr he hv v adv.toNat
    have hload1 := s.m.firstLoad_kept v
    obtain ⟨hnow, hvalid, hbase, hshrink⟩ := s.m.firstLoad_get v
    refine ⟨_, hload rfl, ?_, ?_, ?_, ?_, ?_, ?_⟩
    · rw [hkept.2 _ 0 (by decide), hnow]
    · rwa [Mach.flag, hkept.2 _ 0 (by decide)]
    · rw [hkept.2 _ 0 (by decide), hbase]
    · rwa [Mach.flag, hkept.2 _ 0 (by decide)]
    · rw [hkept.2 _ 0 (by decide), hload1.2 _ 0 (by decide)]
    · rw [hkept.2 _ 0 (by decide), hload1.2 _ 0 (by decide)]
  case confirm =>
    have hadvance := s.m.advanceTb_onlyFields adv.toNat
    refine ⟨_, hload ((tbLoad_later hr he hv v _).trans (if_pos heq)), ?_, ?_, ?_, ?_⟩
    · rw [Mach.get_count_ne _ _ (by decide), Mach.advanceTb_now, heq]
    · rw [Mach.count, Mach.get_put_same, hadvance.2 _ 0 (by decide)]
      rfl
    · rw [Mach.count_alm, hadvance.1]
    · exact (hadvance.trans (Mach.count_onlyFields _ ALM.CNT_CONFIRM 0 1)).mono (by decide)
  case jump =>
    have hkept := s.m.jumpTo_kept_jumped v (s.m.tb + BitVec.ofNat 64 adv.toNat)
    obtain ⟨hnow, hjump, hcount⟩ := s.m.jumped_get v (s.m.tb + BitVec.ofNat 64 adv.toNat)
    obtain ⟨hdisc, hlog⟩ := s.m.jumpTo_alm v (s.m.tb + BitVec.ofNat 64 adv.toNat)
    refine ⟨_, hload ((tbLoad_later hr he hv v _).trans (if_neg hne)), ?_, ?_, ?_, s.m.jumpTo_base v _, hdisc, hlog⟩
    · rw [hkept.2 _ 0 (by decide), hnow]
    · rw [hkept.2 _ 0 (by decide), hjump]
    · rw [hkept.2 _ 0 (by decide), hcount]

end Sys2Proof.Laws
end

section
/-! SUPPORT. The firing of a schedule entry: the effect of each kind, and the log, marks and counters that follow every effect (chapter
"Trace time and the Almanac", R40, R41, R45, R49, R50, R53, R59; R158). -/
namespace Sys2Proof.Machine

@[simp] theorem Mach.setEntry_get (m : Mach) (i : Nat) (e : Entry) (f : Field) (n : Nat) : (m.setEntry i e).get f n = m.get f n := rfl

/-! ### Keys of stream fields -/

/-- Fields of different pages have different keys. -/
theorem Field.key_ne_of_page {f g : Field} {n k : Nat} (hf : f.off < 4096 ∧ f.lo < 64) (hg : g.off < 4096 ∧ g.lo < 64)
    (h : f.page.number n ≠ g.page.number k) : f.key n ≠ g.key k := by
  rw [← Field.key_div hf.1 hf.2, ← Field.key_div hg.1 hg.2] at h
  exact fun he => h (congrArg (· / 32768) he)

/-- A field of a stream is none of the Almanac's. -/
theorem armed_key_ne {f : Field} (hf : f.off < 4096 ∧ f.lo < 64) (hp : f.page = .alm) (k : Nat) :
    f.key 0 ≠ STREAM.STAT_ARMED.key k := by
  refine Field.key_ne_of_page hf (by decide) ?_
  rw [hp]
  show 3 ≠ 112 + k
  omega

/-! ### Windows (R45, R53, R54) -/

section
variable (m : Mach)

theorem Mach.windowOpen_mask (mask : Nat) : (m.windowOpen mask).get ALM.WIN_MASK = (m.get ALM.WIN_MASK ||| mask % 32) % 32 :=
  Mach.get_put_same m _ 0 _

/-- The kinds of work that a WINDOW_CLOSE cuts off, and of them those with work left. -/
def Mach.cutKinds (mask : Nat) : List Nat := (List.range 5).filter fun k => bitAt (m.get ALM.WIN_MASK &&& mask % 32) k
def Mach.shortKinds (mask : Nat) : List Nat := (m.cutKinds mask).filter m.workQueued

/-- The units that begin to overrun are the Almanac's own record. -/
theorem Mach.overrunFrom_foldl (kinds : List Nat) (t : Tick) :
    ∃ o, kinds.foldl (fun (m : Mach) k => m.overrunFrom k t) m = m.modAlm fun a => { a with overruns := o } := by
  induction kinds generalizing m with
  | nil => exact ⟨m.alm.overruns, rfl⟩
  | cons k ks ih =>
    obtain ⟨o, ho⟩ := ih (m.overrunFrom k t)
    exact ⟨o, ho.trans rfl⟩

/-- A WINDOW_CLOSE with the mask cut, before a short kind is reported. -/
def Mach.windowCut (mask : Nat) (o : Tab (List (Nat × Tick))) : Mach :=
  (m.modAlm fun a => { a with overruns := o }).put ALM.WIN_MASK 0 (m.get ALM.WIN_MASK - (m.get ALM.WIN_MASK &&& mask % 32))

theorem Mach.windowClose_eq (mask : Nat) (t : Tick) : ∃ o, m.windowClose mask t =
    if (m.shortKinds mask).isEmpty then m.windowCut mask o
    else (((m.windowCut mask o).put ALM.WIN_PENDING 0
      ((m.shortKinds mask).foldl (fun v k => v ||| 2 ^ k) (m.get ALM.WIN_PENDING))).event .alm 0 ALM.EV_WINDOW_SHORT).count
        ALM.CNT_WIN_SHORT 0 (m.shortKinds mask).length := by
  obtain ⟨o, ho⟩ := m.overrunFrom_foldl (m.cutKinds mask) t
  refine ⟨o, ?_⟩
  rw [Mach.windowCut, ← ho]
  rfl

/-- The fields that a WINDOW_CLOSE may change. -/
def windowKeys : List Nat := [ALM.WIN_MASK.key 0, ALM.WIN_PENDING.key 0, ALM.CNT_WIN_SHORT.key 0] ++ eventKeys .alm 0

theorem Mach.windowClose_kept (mask : Nat) (t : Tick) : FieldsKept m (m.windowClose mask t) windowKeys := by
  obtain ⟨o, ho⟩ := m.windowClose_eq mask t
  have hcut : FieldsKept m (m.windowCut mask o) windowKeys := ((FieldsKept.refl m _).modAlm _).put (by decide) _
  rw [ho]
  split
  · exact hcut
  · exact ((hcut.put (by decide) _).event (by decide) _).count (by decide) _

theorem Mach.windowClose_sched (mask : Nat) (t : Tick) : (m.windowClose mask t).alm.sched = m.alm.sched := by
  obtain ⟨o, ho⟩ := m.windowClose_eq mask t
  rw [ho]
  split
  · rfl
  · rw [Mach.count_alm, Mach.event_alm]
    rfl

theorem Mach.windowClose_mask (mask : Nat) (t : Tick) : (m.windowClose mask t).get ALM.WIN_MASK =
    (m.get ALM.WIN_MASK - (m.get ALM.WIN_MASK &&& mask % 32)) % 32 := by
  obtain ⟨o, ho⟩ := m.windowClose_eq mask t
  have hcut : (m.windowCut mask o).get ALM.WIN_MASK = (m.get ALM.WIN_MASK - (m.get ALM.WIN_MASK &&& mask % 32)) % 32 :=
    Mach.get_put_same _ _ 0 _
  rw [ho]
  split
  · exact hcut
  · rw [Mach.get_count_ne _ _ (by decide), Mach.event_get_ne _ _ (by decide), Mach.get_put_ne _ _ (by decide), hcut]

theorem testBit_foldl_or {l : List Nat} {b v : Nat} (h : v.testBit b = true ∨ b ∈ l) :
    (l.foldl (fun v k => v ||| 2 ^ k) v).testBit b = true := by
  induction l generalizing v with
  | nil => simpa using h
  | cons k ks ih =>
    refine ih ?_
    rw [Nat.testBit_or, Nat.testBit_two_pow]
    rcases h with h | h
    · simp [h]
    · rcases List.mem_cons.1 h with rfl | h
      · simp
      · exact .inr h

/-- A kind cut off with work left is pending, and WINDOW_SHORT says so. -/
theorem Mach.windowClose_short {mask b : Nat} (hb : b < 5) (hm : (m.get ALM.WIN_MASK).testBit b = true)
    (hk : (mask % 32).testBit b = true) (hw : m.workQueued b = true) (t : Tick) :
    ((m.windowClose mask t).get ALM.WIN_PENDING).testBit b = true ∧
      ((m.windowClose mask t).get (evField .alm)).testBit ALM.EV_WINDOW_SHORT = true := by
  have hshort : b ∈ m.shortKinds mask :=
    List.mem_filter.2 ⟨List.mem_filter.2 ⟨List.mem_range.2 hb, by rw [bitAt, Nat.testBit_and, hm, hk]; rfl⟩, hw⟩
  obtain ⟨o, ho⟩ := m.windowClose_eq mask t
  rw [ho, if_neg (by simpa using List.ne_nil_of_mem hshort)]
  constructor
  · rw [Mach.get_count_ne _ _ (by decide), Mach.event_get_ne _ _ (by decide), Mach.get_put_same, Nat.testBit_mod_two_pow,
      testBit_foldl_or (.inr hshort)]
    exact Bool.and_eq_true_iff.2 ⟨decide_eq_true hb, rfl⟩
  · rw [Mach.get_count_ne _ _ (by decide)]
    exact Mach.event_testBit_same _ _ _ (by decide)

/-! ### A PERIOD entry (R45, R50) -/

theorem Mach.periodEntry_replaces {t : Tick} (hb : m.boundaryReached = false)
    (hf : m.periodElapsed = 0 ∨ t = BitVec.ofNat 64 (m.get ALM.PERIOD_BASE)) (arg : Word) :
    m.periodEntry t arg = (m.entryLengths arg).setFlag ALM.STAT_IN_GUAR 0
      (m.periodElapsed < (m.entryLengths arg).periodAct.guar + (m.entryLengths arg).alm.shrink) := by
  simp only [Mach.periodEntry, hb, Bool.false_eq_true, if_false, Bool.or_eq_true, decide_eq_true_eq, hf, if_true]

theorem Mach.periodEntry_ends {t : Tick} (hb : m.boundaryReached = false)
    (hf : ¬(m.periodElapsed = 0 ∨ t = BitVec.ofNat 64 (m.get ALM.PERIOD_BASE))) (arg : Word) :
    m.periodEntry t arg = m.endPeriod m.tb (some (m.periodElapsed + 1)) (some arg) := by
  simp only [Mach.periodEntry, hb, Bool.false_eq_true, if_false, Bool.or_eq_true, decide_eq_true_eq, hf]

theorem Mach.periodEntry_kept (t : Tick) (arg : Word) : FieldsKept m (m.periodEntry t arg) periodKeys := by
  unfold Mach.periodEntry
  dsimp only
  split
  · exact m.endPeriod_kept _ _ _
  · split
    · exact ((m.entryLengths_kept arg).mono (by decide)).setFlag (by decide) _
    · exact m.endPeriod_kept _ _ _

theorem Mach.periodEntry_onlyPeriod (t : Tick) (arg : Word) : AlmSt.OnlyPeriod m.alm (m.periodEntry t arg).alm := by
  unfold Mach.periodEntry
  dsimp only
  split
  · exact m.endPeriod_onlyPeriod _ _ _
  · split
    · exact m.entryLengths_onlyPeriod arg
    · exact m.endPeriod_onlyPeriod _ _ _

theorem Mach.periodEntry_base {t : Tick} (hb : m.boundaryReached = false) (arg : Word) :
    (m.periodElapsed = 0 ∨ t = BitVec.ofNat 64 (m.get ALM.PERIOD_BASE) →
      (m.periodEntry t arg).get ALM.PERIOD_BASE = m.get ALM.PERIOD_BASE) ∧
    (¬(m.periodElapsed = 0 ∨ t = BitVec.ofNat 64 (m.get ALM.PERIOD_BASE)) →
      (m.periodEntry t arg).get ALM.PERIOD_BASE = m.tb.toNat) := by
  refine ⟨fun hf => ?_, fun hf => ?_⟩
  · rw [m.periodEntry_replaces hb hf, Mach.get_setFlag_ne _ _ (by decide), (m.entryLengths_kept arg).2 _ 0 (by decide)]
  · rw [m.periodEntry_ends hb hf, Mach.endPeriod_base]

/-- Whichever period it begins or changes, that period has the lengths of the entry. -/
theorem Mach.periodEntry_lengths (t : Tick) {arg : Word} (h : periodOk (bits arg.toNat 0 32) (bits arg.toNat 32 32) = true) :
    (m.periodEntry t arg).periodAct.period = bits arg.toNat 0 32 ∧ (m.periodEntry t arg).periodAct.guar = bits arg.toNat 32 32 := by
  unfold Mach.periodEntry
  dsimp only
  split
  · exact m.endPeriod_lengths _ _ h
  · split
    · show (m.entryLengths arg).periodAct.period = _ ∧ (m.entryLengths arg).periodAct.guar = _
      rw [m.entryLengths_periodAct h]
      exact ⟨rfl, rfl⟩
    · exact m.endPeriod_lengths _ _ h

/-! ### ARM and DISARM (R133) -/

theorem Mach.arm_taken {k : Nat} (hs : m.get STREAM.STAT_STATE k = 1) (ht : m.flag STREAM.STAT_TRIGGERED k = false) :
    (m.arm k).2 = m.setFlag STREAM.STAT_ARMED k true := by
  simp [Mach.arm, Mach.strState, hs, ht]

theorem Mach.arm_ignored {k : Nat} (h : m.get STREAM.STAT_STATE k ≠ 1 ∨ m.flag STREAM.STAT_TRIGGERED k = true) :
    (m.arm k).2 = m := by
  rcases h with h | h <;> simp [Mach.arm, Mach.strState, h]

theorem Mach.arm_alm (k : Nat) : (m.arm k).2.alm = m.alm := by
  unfold Mach.arm
  split <;> rfl

theorem Mach.arm_kept (k : Nat) : FieldsKept m (m.arm k).2 [STREAM.STAT_ARMED.key k] := by
  unfold Mach.arm
  split
  · exact (Mach.setFlag_onlyFields m _ k true).kept (List.Subset.refl _)
  · exact FieldsKept.refl m _

/-! ### A PLAY_DUE entry (R158) -/

/-- The fields of list `k` that a MARK which falls due may change. -/
def markKeys (k : Nat) : List Nat := [SEQ.MARK_ARG.key k, SEQ.MARK_TICK.key k, SEQ.CNT_MARKS.key k] ++ eventKeys .seq k

theorem Mach.loomFire_alm (i : Nat) : (m.loomFire i).alm = m.alm := by
  unfold Mach.loomFire
  split
  · rfl
  · dsimp only
    split
    · split
      · show (Mach.event _ _ _ _).alm = _
        rw [Mach.event_alm]
        rfl
      · rw [Mach.event_alm]
        rfl
    · rfl

theorem Mach.loomFire_kept (i : Nat) : ∃ k < 16, FieldsKept m (m.loomFire i) (markKeys k) := by
  unfold Mach.loomFire
  split
  · exact ⟨0, by decide, FieldsKept.refl m _⟩
  · next k e hfind =>
    obtain ⟨j, hj, hfound⟩ := List.exists_of_findSome?_eq_some hfind
    obtain ⟨x, -, hx⟩ := Option.map_eq_some_iff.1 hfound
    obtain ⟨rfl, rfl⟩ := Prod.mk.inj hx
    refine ⟨j, List.mem_range.1 hj, ?_⟩
    have hdue : FieldsKept m (m.modEnt j x.id fun y => { y with due := none, fired := true, firedAt := m.now }) (markKeys j) :=
      ⟨rfl, fun _ _ _ => rfl⟩
    dsimp only
    split
    · have hmark := ((hdue.put (f := SEQ.MARK_ARG) (n := j) (by simp [markKeys]) x.arg.toNat).put (f := SEQ.MARK_TICK) (n := j)
        (by simp [markKeys]) x.t.toNat).count (f := SEQ.CNT_MARKS) (n := j) (by simp [markKeys]) 1
      have hevent := hmark.event (p := .seq) (n := j) (List.subset_append_right _ _) SEQ.EV_MARK
      split
      · exact hevent.trans ⟨rfl, fun _ _ _ => rfl⟩
      · exact hevent
    · exact hdue

theorem findSome?_range {α : Type} {f : Nat → Option α} {n j : Nat} {b : α} (hj : j < n) (hlt : ∀ y < j, f y = none)
    (hf : f j = some b) : (List.range n).findSome? f = some b := by
  induction n with
  | zero => omega
  | succ n ih =>
    rw [List.range_succ, List.findSome?_append]
    rcases Nat.lt_succ_iff_lt_or_eq.1 hj with h | rfl
    · rw [ih h]
      rfl
    · rw [List.findSome?_eq_none_iff.2 fun y hy => hlt y (List.mem_range.1 hy)]
      simp [hf]

/-- The PLAY whose PLAY_DUE entry fires, in the first list that has one, falls due now. -/
theorem Mach.loomFire_play {i j : Nat} {x : LEnt} (hj : j < 16) (hlt : ∀ y < j, ∀ z ∈ (m.seq y).queue, z.due ≠ some i)
    (hx : ((m.seq j).queue.find? fun z => z.due = some i) = some x) (hm : x.mark = false) :
    m.loomFire i = m.modEnt j x.id fun y => { y with due := none, fired := true, firedAt := m.now } := by
  have hfind : ((List.range 16).findSome? fun k => ((m.seq k).queue.find? fun e => e.due = some i).map fun e => (k, e)) =
      some (j, x) := by
    refine findSome?_range hj (fun y hy => ?_) (by rw [hx]; rfl)
    rw [List.find?_eq_none.2 fun z hz => by simpa using hlt y hy z hz]
    rfl
  simp only [Mach.loomFire, hfind, hm, Bool.false_eq_true, if_false]

theorem Mach.modEnt_queue (k id : Nat) (f : LEnt → LEnt) :
    ((m.modEnt k id f).seq k).queue = (m.seq k).queue.map fun e => if e.id = id then f e else e := by
  simp [Mach.modEnt, Mach.modSeq, Mach.modLoom, Mach.seq]

/-! ### The effect of an entry (R45) -/

theorem Mach.fireEffect_sched (i : Nat) (e : Entry) : (m.fireEffect i e).alm.sched = m.alm.sched := by
  unfold Mach.fireEffect
  cases e.kind with
  | free => rfl
  | windowOpen => rfl
  | windowClose => exact m.windowClose_sched _ _
  | period => exact (m.periodEntry_onlyPeriod _ _).kept.1
  | playDue => exact congrArg AlmSt.sched (m.loomFire_alm i)
  | arm => exact congrArg AlmSt.sched (m.arm_alm _)
  | disarm => rfl
  | wake => rfl

/-- No effect touches CNT_SKEW, and WIN_MASK is touched by the windows only. -/
theorem Mach.fireEffect_kept (i : Nat) (e : Entry) : ∃ ks, FieldsKept m (m.fireEffect i e) ks ∧ ALM.CNT_SKEW.key 0 ∉ ks ∧
    (e.kind ≠ .windowOpen → e.kind ≠ .windowClose → ALM.WIN_MASK.key 0 ∉ ks) := by
  have hmark : ∀ k < 16, ALM.CNT_SKEW.key 0 ∉ markKeys k ∧ ALM.WIN_MASK.key 0 ∉ markKeys k := by decide
  have harmed : ∀ k, ALM.CNT_SKEW.key 0 ∉ [STREAM.STAT_ARMED.key k] ∧ ALM.WIN_MASK.key 0 ∉ [STREAM.STAT_ARMED.key k] := fun k =>
    ⟨mt List.mem_singleton.1 (armed_key_ne (by decide) rfl k), mt List.mem_singleton.1 (armed_key_ne (by decide) rfl k)⟩
  unfold Mach.fireEffect
  cases e.kind with
  | free => exact ⟨[], FieldsKept.refl m _, by decide, fun _ _ => by decide⟩
  | windowOpen => exact ⟨_, (FieldsKept.refl m [ALM.WIN_MASK.key 0]).put (by decide) _, by decide, fun h => absurd rfl h⟩
  | windowClose => exact ⟨_, m.windowClose_kept _ _, by decide, fun _ h => absurd rfl h⟩
  | period => exact ⟨_, m.periodEntry_kept _ _, by decide, fun _ _ => by decide⟩
  | playDue =>
    obtain ⟨k, hk, hkept⟩ := m.loomFire_kept i
    exact ⟨_, hkept, (hmark k hk).1, fun _ _ => (hmark k hk).2⟩
  | arm => exact ⟨_, m.arm_kept _, (harmed _).1, fun _ _ => (harmed _).2⟩
  | disarm => exact ⟨_, (Mach.setFlag_onlyFields m _ _ _).kept (List.Subset.refl _), (harmed _).1, fun _ _ => (harmed _).2⟩
  | wake => exact ⟨[], FieldsKept.refl m _, by decide, fun _ _ => by decide⟩

/-! ### What follows every effect (R40, R43, R49) -/

/-- After its effect an entry is recorded, judged and, when it is marked SKEWED, counted. -/
def Mach.fireTail (r : FireRec) (skewed : Bool) : Mach :=
  let m1 := (m.appendLog r).judgeEst
  let m2 := if skewed then (m1.event .alm 0 ALM.EV_SKEWED).count ALM.CNT_SKEW else m1
  m2.showNext.showLoomFull false

theorem Mach.fire_eq (i : Nat) (e : Entry) :
    m.fire i e = ((m.setEntry i default).fireEffect i e).fireTail (m.fireRec i e) e.skewed := rfl

/-- The fields in which a record of the fire log and its loss of an older one show. -/
def recordKeys : List Nat := logKeys ++ eventKeys .alm 0

/-- The fields that may change after the effect of an entry. -/
def fireTailKeys : List Nat := recordKeys ++ nextKeys ++ [ALM.CNT_SKEW.key 0, ALM.STAT_LOOM_FULL.key 0]

theorem Mach.judgeEst_kept {ks : List Nat} (h : ALM.CNT_EST.key 0 ∈ ks) : FieldsKept m m.judgeEst ks := by
  unfold Mach.judgeEst
  split
  · exact (FieldsKept.refl m _).count h _
  · exact FieldsKept.refl m _

@[simp] theorem Mach.judgeEst_alm : m.judgeEst.alm = m.alm := by rw [Mach.judgeEst_regsOnly]
@[simp] theorem Mach.judgeEst_loom : m.judgeEst.loom = m.loom := by rw [Mach.judgeEst_regsOnly]
@[simp] theorem Mach.showNext_loom : m.showNext.loom = m.loom := by rw [m.showNext_onlyFields.1]
@[simp] theorem Mach.showLog_loom : m.showLog.loom = m.loom := by simp [Mach.showLog]

theorem Mach.appendLog_kept (r : FireRec) : FieldsKept m (m.appendLog r) recordKeys := by
  unfold Mach.appendLog
  dsimp only
  refine FieldsKept.trans (FieldsKept.modAlm ?_ _) ((Mach.showLog_kept _).mono (List.subset_append_left _ _))
  split
  · exact FieldsKept.refl m _
  · exact ((FieldsKept.refl m _).modAlm _).event (List.subset_append_right _ _) _

/-- An appended record is the last of the log; the rest of the Almanac's own state and Loom's are as before. -/
theorem Mach.appendLog_state (r : FireRec) : (m.appendLog r).alm.log.getLast? = some r ∧ (m.appendLog r).alm.sched = m.alm.sched ∧
    (m.appendLog r).alm.act = m.alm.act ∧ (m.appendLog r).loom = m.loom := by
  unfold Mach.appendLog
  dsimp only
  rw [Mach.showLog_alm, Mach.showLog_loom, Mach.modAlm_alm]
  refine ⟨List.getLast?_concat, ?_⟩
  split
  · exact ⟨rfl, rfl, rfl⟩
  · simp [Mach.modAlm]

theorem Mach.fireTail_kept (r : FireRec) (sk : Bool) : FieldsKept m (m.fireTail r sk) fireTailKeys := by
  have hrecord : FieldsKept m (m.appendLog r).judgeEst fireTailKeys :=
    ((m.appendLog_kept r).mono (by decide)).trans (Mach.judgeEst_kept _ (by decide))
  refine FieldsKept.trans (FieldsKept.trans ?_ ((Mach.showNext_onlyFields _).kept (by decide)))
    ((Mach.showLoomFull_onlyFields _ false).kept (by decide))
  cases sk with
  | false => exact hrecord
  | true => exact (hrecord.event (by decide) _).count (by decide) _

/-- After the effect the schedule, the parameters of the period and Loom's own state stay, and the record ends the log. -/
theorem Mach.fireTail_state (r : FireRec) (sk : Bool) : (m.fireTail r sk).alm.log.getLast? = some r ∧
    (m.fireTail r sk).alm.sched = m.alm.sched ∧ (m.fireTail r sk).alm.act = m.alm.act ∧ (m.fireTail r sk).loom = m.loom := by
  have hstate := m.appendLog_state r
  cases sk <;> simpa [Mach.fireTail, Mach.showLoomFull] using hstate

/-- The EVENT bits that an effect has set stay set. -/
theorem Mach.fireTail_event (r : FireRec) (sk : Bool) {b : Nat} (hb : b < 64) (h : (m.get (evField .alm)).testBit b = true) :
    ((m.fireTail r sk).get (evField .alm)).testBit b = true := by
  have hlog : ((m.appendLog r).get (evField .alm)).testBit b = true := by
    unfold Mach.appendLog
    dsimp only
    rw [(Mach.showLog_kept _).2 _ 0 (by decide), Mach.modAlm_get]
    split
    · exact h
    · exact Mach.event_testBit_of_set _ _ _ (by decide) hb h
  have hjudge : ((m.appendLog r).judgeEst.get (evField .alm)).testBit b = true := by
    rwa [Mach.judgeEst_get_ne _ (by decide)]
  unfold Mach.fireTail
  dsimp only
  rw [(Mach.showLoomFull_onlyFields _ false).2 _ 0 (by decide), (Mach.showNext_onlyFields _).2 _ 0 (by decide)]
  split
  · rw [Mach.get_count_ne _ _ (by decide)]
    exact Mach.event_testBit_of_set _ _ _ (by decide) hb hjudge
  · exact hjudge

/-- A SKEWED entry sets its event and is counted. -/
theorem Mach.fireTail_skewed (r : FireRec) : ((m.fireTail r true).get (evField .alm)).testBit ALM.EV_SKEWED = true ∧
    (m.fireTail r true).get ALM.CNT_SKEW = countUp (m.get ALM.CNT_SKEW) 1 % 2 ^ 64 := by
  have hcnt : (m.appendLog r).judgeEst.get ALM.CNT_SKEW = m.get ALM.CNT_SKEW := by
    rw [Mach.judgeEst_get_ne _ (by decide), (m.appendLog_kept r).2 _ 0 (by decide)]
  unfold Mach.fireTail
  dsimp only
  rw [(Mach.showLoomFull_onlyFields _ false).2 _ 0 (by decide), (Mach.showNext_onlyFields _).2 _ 0 (by decide),
    (Mach.showLoomFull_onlyFields _ false).2 _ 0 (by decide), (Mach.showNext_onlyFields _).2 _ 0 (by decide), if_pos rfl]
  constructor
  · rw [Mach.get_count_ne _ _ (by decide)]
    exact Mach.event_testBit_same _ _ _ (by decide)
  · rw [Mach.count, Mach.get_put_same, Mach.event_get_ne _ _ (by decide), hcnt]
    rfl

/-- The arm of a stream is no field of the Almanac, so nothing after the effect changes it. -/
theorem Mach.fireTail_armed (r : FireRec) (sk : Bool) (k : Nat) :
    (m.fireTail r sk).flag STREAM.STAT_ARMED k = m.flag STREAM.STAT_ARMED k := by
  have hpage : STREAM.STAT_ARMED.page.number k ≠ 3 := by
    show 112 + k ≠ 3
    omega
  unfold Mach.flag
  rw [(m.fireTail_kept r sk).2 _ k (Field.key_notMem_of_page (by decide) (by decide) (by decide) hpage)]
end

/-! ### A fired entry, kind by kind (R40, R45, R49) -/

section
variable (m : Mach) (i : Nat) (e : Entry)

/-- A fired entry is FREE, and its record ends the log. -/
theorem Mach.fire_state : (m.fire i e).alm.sched = m.alm.sched.set i default ∧
    (m.fire i e).alm.log.getLast? = some (m.fireRec i e) := by
  obtain ⟨hlog, hsched, -, -⟩ := ((m.setEntry i default).fireEffect i e).fireTail_state (m.fireRec i e) e.skewed
  exact ⟨hsched.trans (Mach.fireEffect_sched _ i e), hlog⟩

theorem Mach.fire_skewed (h : e.skewed = true) : ((m.fire i e).get (evField .alm)).testBit ALM.EV_SKEWED = true ∧
    (m.fire i e).get ALM.CNT_SKEW = countUp (m.get ALM.CNT_SKEW) 1 % 2 ^ 64 := by
  obtain ⟨ks, hkept, hskew, -⟩ := (m.setEntry i default).fireEffect_kept i e
  have htail := ((m.setEntry i default).fireEffect i e).fireTail_skewed (m.fireRec i e)
  rw [hkept.2 _ 0 hskew, Mach.setEntry_get] at htail
  rwa [Mach.fire_eq, h]

/-- Apart from the windows WIN_MASK is as it was. -/
theorem Mach.fire_mask_kept (ho : e.kind ≠ .windowOpen) (hc : e.kind ≠ .windowClose) :
    (m.fire i e).get ALM.WIN_MASK = m.get ALM.WIN_MASK := by
  obtain ⟨ks, hkept, -, hmask⟩ := (m.setEntry i default).fireEffect_kept i e
  rw [Mach.fire_eq, (Mach.fireTail_kept _ _ _).2 _ 0 (by decide), hkept.2 _ 0 (hmask ho hc), Mach.setEntry_get]

theorem Mach.fire_windowOpen (hk : e.kind = .windowOpen) :
    (m.fire i e).get ALM.WIN_MASK = (m.get ALM.WIN_MASK ||| e.arg.toNat % 32) % 32 := by
  have heffect : (m.setEntry i default).fireEffect i e = (m.setEntry i default).windowOpen e.arg.toNat := by rw [Mach.fireEffect, hk]
  rw [Mach.fire_eq, (Mach.fireTail_kept _ _ _).2 _ 0 (by decide), heffect, Mach.windowOpen_mask, Mach.setEntry_get]

theorem Mach.fire_windowClose (hk : e.kind = .windowClose) :
    (m.fire i e).get ALM.WIN_MASK = (m.get ALM.WIN_MASK - (m.get ALM.WIN_MASK &&& e.arg.toNat % 32)) % 32 ∧
      ∀ b < 5, (m.get ALM.WIN_MASK).testBit b = true → (e.arg.toNat % 32).testBit b = true → m.workQueued b = true →
        ((m.fire i e).get ALM.WIN_PENDING).testBit b = true ∧
          ((m.fire i e).get (evField .alm)).testBit ALM.EV_WINDOW_SHORT = true := by
  have heffect : (m.setEntry i default).fireEffect i e = (m.setEntry i default).windowClose e.arg.toNat e.tick := by
    rw [Mach.fireEffect, hk]
  rw [Mach.fire_eq, heffect]
  refine ⟨?_, fun b hb hm hbit hw => ?_⟩
  · rw [(Mach.fireTail_kept _ _ _).2 _ 0 (by decide), Mach.windowClose_mask, Mach.setEntry_get]
  · obtain ⟨hpending, hevent⟩ := (m.setEntry i default).windowClose_short hb hm hbit hw e.tick
    refine ⟨?_, Mach.fireTail_event _ _ _ (by decide) hevent⟩
    rw [(Mach.fireTail_kept _ _ _).2 _ 0 (by decide), hpending]

theorem Mach.fire_period_base (hk : e.kind = .period) (hb : m.boundaryReached = false) :
    (m.periodElapsed = 0 ∨ e.tick = BitVec.ofNat 64 (m.get ALM.PERIOD_BASE) →
      (m.fire i e).get ALM.PERIOD_BASE = m.get ALM.PERIOD_BASE) ∧
    (¬(m.periodElapsed = 0 ∨ e.tick = BitVec.ofNat 64 (m.get ALM.PERIOD_BASE)) →
      (m.fire i e).get ALM.PERIOD_BASE = m.tb.toNat) := by
  have heffect : (m.setEntry i default).fireEffect i e = (m.setEntry i default).periodEntry e.tick e.arg := by rw [Mach.fireEffect, hk]
  rw [Mach.fire_eq, (Mach.fireTail_kept _ _ _).2 _ 0 (by decide), heffect]
  exact (m.setEntry i default).periodEntry_base hb e.arg

theorem Mach.fire_period_lengths (hk : e.kind = .period) (h : periodOk (bits e.arg.toNat 0 32) (bits e.arg.toNat 32 32) = true) :
    (m.fire i e).periodAct.period = bits e.arg.toNat 0 32 ∧ (m.fire i e).periodAct.guar = bits e.arg.toNat 32 32 := by
  have heffect : (m.setEntry i default).fireEffect i e = (m.setEntry i default).periodEntry e.tick e.arg := by rw [Mach.fireEffect, hk]
  have hact : (m.fire i e).periodAct = ((m.setEntry i default).periodEntry e.tick e.arg).periodAct := by
    rw [Mach.periodAct, Mach.fire_eq, (Mach.fireTail_state _ _ _).2.2.1, heffect, Mach.periodAct]
  rw [hact]
  exact (m.setEntry i default).periodEntry_lengths e.tick h

theorem Mach.fire_arm (hk : e.kind = .arm) : (m.fire i e).flag STREAM.STAT_ARMED (e.arg.toNat % 32) =
    ((m.setEntry i default).arm (e.arg.toNat % 32)).2.flag STREAM.STAT_ARMED (e.arg.toNat % 32) := by
  have heffect : (m.setEntry i default).fireEffect i e = ((m.setEntry i default).arm (e.arg.toNat % 32)).2 := by rw [Mach.fireEffect, hk]
  rw [Mach.fire_eq, Mach.fireTail_armed, heffect]

theorem Mach.fire_disarm (hk : e.kind = .disarm) : (m.fire i e).flag STREAM.STAT_ARMED (e.arg.toNat % 32) = false := by
  have heffect : (m.setEntry i default).fireEffect i e =
      (m.setEntry i default).setFlag STREAM.STAT_ARMED (e.arg.toNat % 32) false := by rw [Mach.fireEffect, hk]
  rw [Mach.fire_eq, Mach.fireTail_armed, heffect]
  exact Mach.flag_setFlag_same _ _ _ _ (by decide)

/-- The PLAY of the first list that waits for this entry is due in this cycle. -/
theorem Mach.fire_playDue {j : Nat} {x : LEnt} (hk : e.kind = .playDue) (hj : j < 16)
    (hlt : ∀ y < j, ∀ z ∈ (m.seq y).queue, z.due ≠ some i) (hx : ((m.seq j).queue.find? fun z => z.due = some i) = some x)
    (hm : x.mark = false) :
    ∃ z ∈ ((m.fire i e).seq j).queue, z.id = x.id ∧ z.due = none ∧ z.fired = true ∧ z.firedAt = m.now := by
  have heffect : (m.setEntry i default).fireEffect i e =
      (m.setEntry i default).modEnt j x.id fun y => { y with due := none, fired := true, firedAt := m.now } := by
    rw [Mach.fireEffect, hk]
    exact (m.setEntry i default).loomFire_play hj hlt hx hm
  have hqueue : ((m.fire i e).seq j).queue =
      (m.seq j).queue.map fun y => if y.id = x.id then { y with due := none, fired := true, firedAt := m.now } else y := by
    rw [Mach.seq, Mach.fire_eq, (Mach.fireTail_state _ _ _).2.2.2, heffect]
    exact (m.setEntry i default).modEnt_queue j x.id _
  rw [hqueue]
  refine ⟨_, List.mem_map.2 ⟨x, List.mem_of_find?_eq_some hx, if_pos rfl⟩, rfl, rfl, rfl, rfl⟩
end

/-- The lengths in the argument of a PERIOD entry (R45). -/
theorem bits_period_arg (w : Word) : bits w.toNat 0 32 = w.toNat % 2 ^ 32 ∧ bits w.toNat 32 32 = w.toNat / 2 ^ 32 := by
  have hw := w.isLt
  simp only [bits]
  omega

/-! ### ALM_ENTRY_FIRE (R41, R59) -/

theorem almEntryFire_eq {m : Mach} {i : Nat} {e : Entry} (hr : m.almRuns = true) (hv : m.flag ALM.STAT_TB_VALID = true)
    (hn : m.nextToFire = some (i, e)) : almEntryFire m = if m.asleep then m.wake 2 else m.fire i e := by
  simp only [almEntryFire, hr, hv, hn, Bool.not_true, Bool.or_self, Bool.false_eq_true, if_false]

end Sys2Proof.Machine
end

section
/-! SUPPORT. The statement on the entry that fires. -/
namespace Sys2Proof.Laws
open Sys2Proof.Machine

/-- Settles O9: a reached entry wakes a sleeping Core; else it fires, and what follows its effect leaves what
the effect did. Which tick a begun period has as its first is the model's choice (log entry 82). -/
theorem scheduledEntryFires : Obligations.ScheduledEntryFires := by
  intro s i e hr hv hn
  have hfire := almEntryFire_eq hr hv hn
  refine ⟨fun ha => completes_of_answer (exec_almEntryFire s) (hfire.trans (if_pos ha)), fun ha => ?_⟩
  intro mask arg k period guar
  obtain ⟨hsched, hlog⟩ := s.m.fire_state i e
  obtain ⟨hperiod, hguar⟩ := bits_period_arg e.arg
  refine ⟨s.m.fire i e, completes_of_answer (exec_almEntryFire s) (hfire.trans (if_neg (by simp [ha]))), hsched, hlog,
    s.m.fire_skewed i e, s.m.fire_mask_kept i e, s.m.fire_windowOpen i e, s.m.fire_windowClose i e,
    fun hk hb => ⟨?firstTick, ?laterTick, ?lengths⟩, fun hk hst ht => ?armed, fun hk h => ?ignored, s.m.fire_disarm i e,
    fun j x hj hlt hk hx _ hm => s.m.fire_playDue i e hk hj hlt hx hm⟩
  case firstTick => exact (s.m.fire_period_base i e hk hb).1
  case laterTick => exact fun hel ht => (s.m.fire_period_base i e hk hb).2 (not_or.2 ⟨hel, ht⟩)
  case lengths =>
    intro hmin hlt
    have hlengths := s.m.fire_period_lengths i e hk
    rw [hperiod, hguar] at hlengths
    exact hlengths (Bool.and_eq_true_iff.2 ⟨decide_eq_true hmin, decide_eq_true hlt⟩)
  case armed =>
    rw [s.m.fire_arm i e hk, (s.m.setEntry i default).arm_taken hst ht]
    exact Mach.flag_setFlag_same _ _ _ _ (by decide)
  case ignored =>
    rw [s.m.fire_arm i e hk, (s.m.setEntry i default).arm_ignored h]
    rfl

end Sys2Proof.Laws
end

section
/-! SUPPORT. Frames by a named set of registers, and the rules of the ports' state: what a change of one port or of one request reads back
and leaves alone. -/
namespace Sys2Proof.Machine

/-! ### Of the registers, only some change -/

/-- Of the registers, from `m` to `t` only fields whose keys `K` names change. -/
def KeptBut (K : Nat → Prop) (m t : Mach) : Prop := t.integ = m.integ ∧ ∀ (f : Field) (n : Nat), ¬K (f.key n) → t.get f n = m.get f n

section
variable {K : Nat → Prop} {a b c : Mach}

theorem KeptBut.refl (K : Nat → Prop) (m : Mach) : KeptBut K m m := ⟨rfl, fun _ _ _ => rfl⟩

theorem KeptBut.trans (h : KeptBut K a b) (g : KeptBut K b c) : KeptBut K a c :=
  ⟨g.1.trans h.1, fun f n hn => (g.2 f n hn).trans (h.2 f n hn)⟩

/-- A change of the blocks' own state changes no register. -/
theorem KeptBut.of_regs (hr : b.regs = a.regs) (hi : b.integ = a.integ) : KeptBut K a b :=
  ⟨hi, fun f n _ => by rw [Mach.get, Mach.get, hr, hi]⟩

theorem FieldsKept.keptBut {ks : List Nat} (h : FieldsKept a b ks) (hk : ∀ q ∈ ks, K q) : KeptBut K a b :=
  ⟨h.1, fun f n hn => h.2 f n fun hmem => hn (hk _ hmem)⟩

theorem KeptBut.mono {L : Nat → Prop} (h : KeptBut K a b) (hk : ∀ q, K q → L q) : KeptBut L a b :=
  ⟨h.1, fun f n hn => h.2 f n fun hq => hn (hk _ hq)⟩

theorem Mach.put_keptBut (m : Mach) {f : Field} {n : Nat} (hk : K (f.key n)) (v : Nat) : KeptBut K m (m.put f n v) :=
  ((m.put_onlyFields f n v).kept (List.Subset.refl _)).keptBut (by simpa using hk)

theorem Mach.setFlag_keptBut (m : Mach) {f : Field} {n : Nat} (hk : K (f.key n)) (v : Bool) : KeptBut K m (m.setFlag f n v) :=
  m.put_keptBut hk _

theorem Mach.count_keptBut (m : Mach) {f : Field} {n : Nat} (hk : K (f.key n)) (k : Nat) : KeptBut K m (m.count f n k) :=
  m.put_keptBut hk _

theorem Mach.event_keptBut (m : Mach) {p : Page} {n : Nat} (hk : ∀ q ∈ eventKeys p n, K q) (b : Nat) : KeptBut K m (m.event p n b) :=
  ((m.events_onlyFields p n _).kept (List.Subset.refl _)).keptBut hk

/-- Only registers change from `m` to `t`, and of them only fields whose keys `K` names. -/
def OnlyRegs (K : Nat → Prop) (m t : Mach) : Prop := t = { m with regs := t.regs } ∧ KeptBut K m t

theorem OnlyRegs.trans (h : OnlyRegs K a b) (g : OnlyRegs K b c) : OnlyRegs K a c :=
  ⟨by rw [g.1, h.1], h.2.trans g.2⟩

theorem OnlyRegs.refl (K : Nat → Prop) (m : Mach) : OnlyRegs K m m := ⟨rfl, KeptBut.refl K m⟩

theorem Mach.put_onlyRegs (m : Mach) {f : Field} {n : Nat} (hk : K (f.key n)) (v : Nat) : OnlyRegs K m (m.put f n v) :=
  ⟨rfl, m.put_keptBut hk v⟩

theorem Mach.event_onlyRegs (m : Mach) {p : Page} {n : Nat} (hk : ∀ q ∈ eventKeys p n, K q) (b : Nat) : OnlyRegs K m (m.event p n b) :=
  ⟨Mach.events_regsOnly m n _ p, m.event_keptBut hk b⟩

theorem KeptBut.flag (h : KeptBut K a b) {f : Field} {n : Nat} (hn : ¬K (f.key n)) : b.flag f n = a.flag f n := by
  rw [Mach.flag, Mach.flag, h.2 f n hn]
end

/-! ### One port changes -/

section
variable (m : Mach) (n : Nat) (f : PortSt → PortSt)

@[simp] theorem Mach.port_modPort_same : (m.modPort n f).port n = f (m.port n) := Tab.get_upd_same _ _ _

theorem Mach.port_modPort_ne {k : Nat} (h : k ≠ n) : (m.modPort n f).port k = m.port k := Tab.get_upd_ne _ h _

@[simp] theorem Mach.modPort_get (g : Field) (k : Nat) : (m.modPort n f).get g k = m.get g k := rfl
@[simp] theorem Mach.modPort_flag (g : Field) (k : Nat) : (m.modPort n f).flag g k = m.flag g k := rfl
@[simp] theorem Mach.modPort_rflag (g : Field) : (m.modPort n f).rflag g = m.rflag g := rfl
@[simp] theorem Mach.modPort_serial : (m.modPort n f).serial = m.serial := rfl
@[simp] theorem Mach.modPort_reeve : (m.modPort n f).reeve = m.reeve := rfl
@[simp] theorem Mach.modPort_ht : (m.modPort n f).ht = m.ht := rfl
@[simp] theorem Mach.modPort_map : (m.modPort n f).map = m.map := rfl
@[simp] theorem Mach.modPort_kiln : (m.modPort n f).kiln = m.kiln := rfl
@[simp] theorem Mach.modPort_loom : (m.modPort n f).loom = m.loom := rfl
@[simp] theorem Mach.modPort_power : (m.modPort n f).power = m.power := rfl
@[simp] theorem Mach.modPort_now : (m.modPort n f).now = m.now := rfl
end

@[simp] theorem Mach.port_put (m : Mach) (f : Field) (k v n : Nat) : (m.put f k v).port n = m.port n := rfl
@[simp] theorem Mach.port_setFlag (m : Mach) (f : Field) (k : Nat) (b : Bool) (n : Nat) : (m.setFlag f k b).port n = m.port n := rfl
@[simp] theorem Mach.port_count (m : Mach) (f : Field) (k v n : Nat) : (m.count f k v).port n = m.port n := rfl
@[simp] theorem Mach.port_event (m : Mach) (p : Page) (k b n : Nat) : (m.event p k b).port n = m.port n := by
  rw [Mach.port, Mach.event_ports, Mach.port]

/-- Two writes of one entry, the first of them of a value that an unlisted key does not read as, leave what the second writes. -/
theorem Tab.set_set {α : Type} [Inhabited α] [DecidableEq α] (t : Tab α) (k : Nat) {v w : α} (hv : v ≠ default) (hw : w ≠ default) :
    (t.set k v).set k w = t.set k w := by
  simp only [Tab.set, if_neg hv, if_neg hw]
  induction t with
  | nil => simp [Tab.insert]
  | cons e t ih =>
    obtain ⟨j, u⟩ := e
    by_cases hlt : k < j
    · simp [Tab.insert, hlt]
    · by_cases heq : k = j
      · simp [Tab.insert, heq]
      · simp [Tab.insert, hlt, heq, ih]

/-- Two changes of a port in a row, neither of which leaves it as at reset, are one. -/
theorem Mach.modPort_modPort (m : Mach) (n : Nat) {f g : PortSt → PortSt} (hf : f (m.port n) ≠ default) (hg : g (f (m.port n)) ≠ default) :
    (m.modPort n f).modPort n g = m.modPort n fun p => g (f p) := by
  have h : (m.ports.upd n f).upd n g = m.ports.upd n fun p => g (f p) := by
    show Tab.set _ n (g (Tab.get (Tab.set _ n _) n)) = _
    rw [Tab.get_set_same]
    exact Tab.set_set _ _ hf hg
  unfold Mach.modPort
  rw [h]

/-! ### One request changes -/

section
variable (m : Mach) (n id : Nat) (f : Req → Req)

theorem Mach.reqs_modReq : ((m.modReq n id f).port n).reqs = (m.port n).reqs.map fun r => if r.id = id then f r else r := by
  simp [Mach.modReq]

/-- The change of a request stands among the port's requests. -/
theorem Mach.mem_reqs_modReq {r : Req} (hr : r ∈ (m.port n).reqs) (hid : r.id = id) : f r ∈ ((m.modReq n id f).port n).reqs := by
  rw [Mach.reqs_modReq]
  exact List.mem_map.2 ⟨r, hr, if_pos hid⟩

@[simp] theorem Mach.modReq_get (g : Field) (k : Nat) : (m.modReq n id f).get g k = m.get g k := rfl
@[simp] theorem Mach.modReq_flag (g : Field) (k : Nat) : (m.modReq n id f).flag g k = m.flag g k := rfl
@[simp] theorem Mach.modReq_rflag (g : Field) : (m.modReq n id f).rflag g = m.rflag g := rfl
@[simp] theorem Mach.modReq_serial : (m.modReq n id f).serial = m.serial := rfl
@[simp] theorem Mach.modReq_reeve : (m.modReq n id f).reeve = m.reeve := rfl
@[simp] theorem Mach.modReq_ht : (m.modReq n id f).ht = m.ht := rfl
@[simp] theorem Mach.modReq_map : (m.modReq n id f).map = m.map := rfl
@[simp] theorem Mach.modReq_kiln : (m.modReq n id f).kiln = m.kiln := rfl
end

/-! ### The clocks, the urgency and the shown levels of the ports (R75, R76, R80, R83) -/

/-- The registers that follow a port's clock and its requests: those of Reeve, and of a port STAT, INTAKE_LEVEL, OUTSTANDING,
CNT_URG3_CYCLES and CNT_TAG_STALL. -/
def clockKey (q : Nat) : Prop :=
  q / 32768 = 6 ∨ (16 ≤ q / 32768 ∧ q / 32768 < 32 ∧
    ((q / 64 % 512 = 3 ∧ (q % 64 = 1 ∨ q % 64 = 2 ∨ q % 64 = 4)) ∨ q / 64 % 512 = 0x24 ∨ q / 64 % 512 = 0x25 ∨ q / 64 % 512 = 0x108 ∨
      q / 64 % 512 = 0x109))

/-- From `m` to `t` the clocks of the ports of pair `k` have been seen to: the requests, beats and levels of every port stand. -/
structure Clocked (k : Nat) (m t : Mach) : Prop where
  rest : t = { m with regs := t.regs, ports := t.ports, reeve := t.reeve }
  reeve : t.reeve = { m.reeve with fbAt := t.reeve.fbAt, pm := t.reeve.pm }
  port : ∀ n, t.port n = { m.port n with
    urgAt := (t.port n).urgAt, tagStall := (t.port n).tagStall, pclkAt := (t.port n).pclkAt }
  other : ∀ n, n / 2 ≠ k → t.port n = m.port n
  regs : KeptBut clockKey m t

section
variable {k : Nat} {a b c : Mach}

theorem Clocked.refl (k : Nat) (m : Mach) : Clocked k m m := ⟨rfl, rfl, fun _ => rfl, fun _ _ => rfl, KeptBut.refl _ _⟩

theorem Clocked.trans (h : Clocked k a b) (g : Clocked k b c) : Clocked k a c where
  rest := by rw [g.rest, h.rest]
  reeve := by rw [g.reeve, h.reeve]
  port n := by rw [g.port n, h.port n]
  other n hn := (g.other n hn).trans (h.other n hn)
  regs := h.regs.trans g.regs

theorem Clocked.foldl {α : Type} {f : Mach → α → Mach} (l : List α) (hf : ∀ x ∈ l, ∀ m, Clocked k m (f m x)) (m : Mach) :
    Clocked k m (l.foldl f m) := by
  induction l generalizing m with
  | nil => exact Clocked.refl k m
  | cons x l ih =>
    exact (hf x List.mem_cons_self m).trans (ih (fun y hy => hf y (List.mem_cons_of_mem x hy)) _)

theorem Mach.put_clocked (m : Mach) {f : Field} {n : Nat} (hk : clockKey (f.key n)) (v : Nat) : Clocked k m (m.put f n v) :=
  ⟨rfl, rfl, fun _ => rfl, fun _ _ => rfl, m.put_keptBut hk v⟩

theorem Mach.modReeve_clocked (m : Mach) {f : ReeveSt → ReeveSt}
    (hf : f m.reeve = { m.reeve with fbAt := (f m.reeve).fbAt, pm := (f m.reeve).pm }) : Clocked k m (m.modReeve f) :=
  ⟨rfl, hf, fun _ => rfl, fun _ _ => rfl, KeptBut.of_regs rfl rfl⟩

theorem Mach.modPort_clocked (m : Mach) {n : Nat} (hn : n / 2 = k) {f : PortSt → PortSt}
    (hf : ∀ p, f p = { p with urgAt := (f p).urgAt, tagStall := (f p).tagStall, pclkAt := (f p).pclkAt }) : Clocked k m (m.modPort n f) where
  rest := rfl
  reeve := rfl
  port j := by
    by_cases hj : j = n
    · rw [hj, Mach.port_modPort_same]; exact hf _
    · rw [Mach.port_modPort_ne _ _ _ hj]
  other j hj := Mach.port_modPort_ne _ _ _ fun h => hj (h ▸ hn)
  regs := KeptBut.of_regs rfl rfl

/-- Every register of the page of Reeve is one that may change with the clocks. -/
theorem clockKey_reeve {f : Field} (hp : f.page = .reeve) (ho : f.off < 4096) (hl : f.lo < 64) (n : Nat) : clockKey (f.key n) := by
  simp only [clockKey, Field.key, hp, Page.number]
  omega

theorem Mach.setPortMeter_clocked (m : Mach) {n : Nat} (hn : n < 16) (mt : Meter) : Clocked k m (m.setPortMeter n mt) := by
  have hoff : 0x218 + 0x20 * n < 4096 := by omega
  exact ((m.modReeve_clocked rfl).trans (Mach.put_clocked _ (clockKey_reeve rfl hoff (show 0 < 64 by decide) 0) _)).trans
    (Mach.put_clocked _ (clockKey_reeve rfl hoff (show 32 < 64 by decide) 0) _)

theorem Mach.settleFb_clocked (m : Mach) : Clocked k m m.settleFb := by
  have hAt : Clocked k m (m.modReeve fun r => { r with fbAt := m.now }) := m.modReeve_clocked rfl
  unfold Mach.settleFb
  dsimp only
  split
  · exact hAt
  · refine (hAt.trans (Mach.put_clocked _ (clockKey_reeve rfl (by decide) (by decide) 0) _)).trans (Clocked.foldl _ (fun p _ x => ?_) _)
    split
    · exact Mach.put_clocked _ (clockKey_reeve rfl (by decide) (by decide) 0) _
    · exact Clocked.refl k x

/-- The registers of a port that follow its clock and its requests. -/
theorem clockKey_port {n : Nat} (hn : n < 16) : clockKey (PORT.CNT_URG3_CYCLES.key n) ∧ clockKey (PORT.CNT_TAG_STALL.key n) ∧
    clockKey (PORT.STAT_PCLK_RUN.key n) ∧ clockKey (PORT.STAT_URG_EFF.key n) ∧ clockKey (PORT.INTAKE_LEVEL.key n) ∧
    clockKey (PORT.OUTSTANDING.key n) ∧ clockKey (PORT.STAT_QUIET.key n) := by
  simp only [clockKey, Field.key, Page.number, Field.counter, PORT.CNT_URG3_CYCLES, PORT.CNT_TAG_STALL, PORT.STAT_PCLK_RUN,
    PORT.STAT_URG_EFF, PORT.INTAKE_LEVEL, PORT.OUTSTANDING, PORT.STAT_QUIET]
  omega

theorem Mach.settleUrg_clocked (m : Mach) {n : Nat} (hn : n < 16) (hk : n / 2 = k) : Clocked k m (m.settleUrg n) := by
  unfold Mach.settleUrg
  extract_lets m0 p d j m1
  have hmeter : Clocked k m m0 := by
    show Clocked k m (if m.rflag (REEVE.PM_BE n) then m.settleFb.setPortMeter n (m.portMeter n) else m)
    split
    · exact m.settleFb_clocked.trans (Mach.setPortMeter_clocked _ hn _)
    · exact Clocked.refl k m
  have hAt : Clocked k m m1 := hmeter.trans (m0.modPort_clocked hk fun _ => rfl)
  split
  · exact hAt.trans (Mach.put_clocked _ (clockKey_port hn).1 _)
  · exact hAt

theorem Mach.settleTag_clocked (m : Mach) {n : Nat} (hn : n < 16) (hk : n / 2 = k) : Clocked k m (m.settleTag n) := by
  unfold Mach.settleTag
  split
  · exact Clocked.refl k m
  · dsimp only
    split
    · exact (Mach.put_clocked _ (clockKey_port hn).2.1 _).trans (Mach.modPort_clocked _ hk fun _ => rfl)
    · exact m.modPort_clocked hk fun _ => rfl

theorem Mach.endTagStall_clocked (m : Mach) {n : Nat} (hn : n < 16) (hk : n / 2 = k) : Clocked k m (m.endTagStall n) :=
  (m.settleTag_clocked hn hk).trans (Mach.modPort_clocked _ hk fun _ => rfl)

theorem Mach.pairClock_clocked (m : Mach) (hk : k < 8) : Clocked k m (m.pairClock k) := by
  unfold Mach.pairClock
  extract_lets busy on
  refine Clocked.foldl _ (fun n hn x => ?_) m
  have hmem : n = 2 * k ∨ n = 2 * k + 1 := by simpa using hn
  have hlt : n < 16 := by omega
  have hpair : n / 2 = k := by omega
  dsimp only
  split
  · exact Clocked.refl k x
  · have hrun := ((((x.settleUrg_clocked hlt hpair).trans (Mach.settleTag_clocked _ hlt hpair)).trans
      (Mach.put_clocked _ (clockKey_port hlt).2.2.1 (b2n on))).trans
      (Mach.modPort_clocked _ hpair (f := fun p => { p with pclkAt := x.now }) fun _ => rfl))
    split
    · exact hrun.trans (Mach.put_clocked _ (clockKey_port hlt).2.2.2.1 _)
    · exact hrun

theorem Mach.showPort_clocked (m : Mach) {n : Nat} (hn : n < 16) : Clocked (n / 2) m (m.showPort n) := by
  obtain ⟨-, -, -, -, hlevel, hout, hquiet⟩ := clockKey_port hn
  exact (((m.put_clocked hlevel _).trans (Mach.put_clocked _ hout _)).trans (Mach.put_clocked _ hquiet _)).trans
    (Mach.pairClock_clocked _ (by omega))
end

/-! ### What seeing to the clocks leaves alone -/

section
variable {k : Nat} {m t : Mach} (h : Clocked k m t) (n : Nat)
include h

theorem Clocked.reqs : (t.port n).reqs = (m.port n).reqs := by rw [h.port n]
theorem Clocked.rsp : (t.port n).rsp = (m.port n).rsp := by rw [h.port n]
theorem Clocked.ply : (t.port n).ply = (m.port n).ply := by rw [h.port n]
theorem Clocked.urg : (t.port n).urg = (m.port n).urg := by rw [h.port n]
theorem Clocked.urg3At : (t.port n).urg3At = (m.port n).urg3At := by rw [h.port n]
theorem Clocked.discard : (t.port n).discard = (m.port n).discard := by rw [h.port n]
theorem Clocked.presented : (t.port n).presented = (m.port n).presented := by rw [h.port n]
theorem Clocked.early : (t.port n).early = (m.port n).early := by rw [h.port n]
omit n
theorem Clocked.serial : t.serial = m.serial := by rw [h.rest]
theorem Clocked.ht : t.ht = m.ht := by rw [h.rest]
theorem Clocked.map : t.map = m.map := by rw [h.rest]
theorem Clocked.kiln : t.kiln = m.kiln := by rw [h.rest]
theorem Clocked.loom : t.loom = m.loom := by rw [h.rest]
theorem Clocked.power : t.power = m.power := by rw [h.rest]
theorem Clocked.now : t.now = m.now := by rw [h.rest]
theorem Clocked.shapers : t.reeve.shapers = m.reeve.shapers := by rw [h.reeve]
end

end Sys2Proof.Machine
end

section
/-! SUPPORT. The client ports: what each command comes to, case by case (chapter "Iresk client ports", R62 to R85). -/
namespace Sys2Proof.Machine

/-! ### Credit and urgency (R77, R80, R81) -/

section
variable {m : Mach} {n v : Nat}

theorem plyCredit_returned (hrun : m.flag PORT.STAT_PCLK_RUN n = true) (h : m.get PORT.PLY_CRED_NOW n < (m.port n).credits) :
    plyCredit n m = m.put PORT.PLY_CRED_NOW n (m.get PORT.PLY_CRED_NOW n + 1) := by
  simp [plyCredit, hrun, h]

theorem plyCredit_over (hrun : m.flag PORT.STAT_PCLK_RUN n = true) (h : (m.port n).credits ≤ m.get PORT.PLY_CRED_NOW n) :
    plyCredit n m = m.event .port n PORT.EV_CREDIT_OVF := by
  simp [plyCredit, hrun, Nat.not_lt.2 h]

/-- The mode and the flags by which the AON watch is set are none that follow the clocks. -/
theorem Clocked.watch {k : Nat} {t : Mach} (h : Clocked k m t) (hn : n < 16) :
    t.asleep = m.asleep ∧ t.flag PORT.STAT_READY n = m.flag PORT.STAT_READY n := by
  have hmode : ¬clockKey (POWER.STAT_MODE.key 0) := by unfold clockKey; decide
  have hready : ¬clockKey (PORT.STAT_READY.key n) := by
    simp only [clockKey, Field.key, Page.number, PORT.STAT_READY]
    omega
  exact ⟨by simp only [Mach.asleep, Mach.mode, h.regs.2 _ _ hmode], h.regs.flag hready⟩

theorem urgChange_rises (hn : n < 16) (ha : m.asleep = false) (hrun : m.flag PORT.STAT_PCLK_RUN n = true)
    (hv : m.get PORT.STAT_URG_EFF n < v) :
    urgChange n v m = (((m.settleUrg n).modPort n fun q => { q with urg := v, urgFall := none }).put PORT.STAT_URG_EFF n v).modPort n
      fun q => { q with urg3At := 0 } := by
  have hawake : (((m.settleUrg n).modPort n fun q => { q with urg := v, urgFall := none }).put PORT.STAT_URG_EFF n v).asleep = false := by
    have hset : ¬PORT.STAT_URG_EFF.key n = POWER.STAT_MODE.key 0 := by
      simp only [Field.key, Page.number, PORT.STAT_URG_EFF, POWER.STAT_MODE]
      omega
    rw [← ha, ← ((m.settleUrg_clocked hn rfl).watch hn).1]
    simp only [Mach.asleep, Mach.mode, Mach.get_put_ne _ _ (Ne.symm hset), Mach.modPort_get]
  simp [urgChange, Mach.urgEff, Mach.urgWatch, hrun, hv, hv.le, hawake]

theorem urgChange_falls (hn : n < 16) (ha : m.asleep = false) (hv : v < m.get PORT.STAT_URG_EFF n) (hp : (m.port n).urg ≠ v) :
    urgChange n v m = (m.settleUrg n).modPort n fun q => { q with urg := v, urgFall := some m.now, urg3At := 0 } := by
  have hawake : ((m.settleUrg n).modPort n fun q => { q with urg := v, urgFall := some m.now }).asleep = false := by
    rw [← ha, ← ((m.settleUrg_clocked hn rfl).watch hn).1]
    rfl
  have hne : ∀ p : PortSt, p.urgFall = some m.now → p ≠ default := by rintro p h rfl; cases h
  have hboth := Mach.modPort_modPort (m.settleUrg n) n (f := fun q => { q with urg := v, urgFall := some m.now })
    (g := fun q => { q with urg3At := 0 }) (hne _ rfl) (hne _ rfl)
  rw [← hboth]
  simp [urgChange, Mach.urgEff, Mach.urgWatch, Nat.not_lt.2 hv.le, Nat.not_le.2 hv, hp, hawake]

/-- The AON watch of a port times a URG that becomes 3 (R81). -/
theorem urgChange_asleep (hn : n < 16) (ha : m.asleep = true) (hready : m.flag PORT.STAT_READY n = false)
    (hrun : m.flag PORT.STAT_PCLK_RUN n = false) (hw : (m.port n).urg3At = 0) :
    ((urgChange n v m).port n).urg = v ∧ ((urgChange n v m).port n).urg3At = (if v = 3 then m.now + 1 else 0) ∧
      (urgChange n v m).power = m.power := by
  have hs := m.settleUrg_clocked hn (k := n / 2) rfl
  obtain ⟨hsleep, hlow⟩ := hs.watch hn
  have hsleep' : ∀ f, ((m.settleUrg n).modPort n f).asleep = true := fun f => hsleep.trans ha
  have hlow' : (m.settleUrg n).flag PORT.STAT_READY n = false := hlow.trans hready
  have hwatch : ((m.settleUrg n).port n).urg3At = 0 := hs.urg3At n ▸ hw
  simp only [urgChange, Mach.urgWatch, hrun, Bool.and_false, Bool.false_eq_true, if_false, hsleep', hlow', Mach.modPort_flag,
    Mach.port_modPort_same, Mach.modPort_now, Mach.modPort_power, hs.now, hs.power, hwatch]
  simp

theorem urgFallExpire_held {t : Nat} (h : (m.port n).urgFall = some t) (ht : t + 19200 ≤ m.now) :
    urgFallExpire n m = ((m.settleUrg n).put PORT.STAT_URG_EFF n (m.port n).urg).modPort n fun q => { q with urgFall := none } := by
  have hlong : t + usec 1 ≤ m.now := ht
  simp [urgFallExpire, h, hlong]

/-! ### PCLK_SEL (R82) -/

theorem pclkSelWrite_odd (h : n % 2 = 1) : pclkSelWrite n v m = m := by simp [pclkSelWrite, h]

/-- Port `k` is disabled and quiet. -/
def Mach.still (m : Mach) (k : Nat) : Prop := m.flag PORT.CTL_ENABLE k = false ∧ (m.port k).reqs = []

theorem Mach.still_iff (m : Mach) (k : Nat) : (!m.flag PORT.CTL_ENABLE k && m.quiet k) = true ↔ m.still k := by
  simp [Mach.still, Mach.quiet]

theorem pclkSelWrite_taken (h : n % 2 = 0) (h0 : m.still n) (h1 : m.still (n + 1)) (hv : v < 4) :
    pclkSelWrite n v m = (m.put PORT.PCLK_SEL n v).put PORT.PCLK_SEL (n + 1) v := by
  simp only [pclkSelWrite, h, (m.still_iff _).2 h0, (m.still_iff _).2 h1, Nat.mod_eq_of_lt hv]
  simp

theorem pclkSelWrite_rejected (h : n % 2 = 0) (hs : ¬(m.still n ∧ m.still (n + 1))) : pclkSelWrite n v m = m.reject .port n := by
  have hnot : ¬((!m.flag PORT.CTL_ENABLE n && m.quiet n) = true ∧ (!m.flag PORT.CTL_ENABLE (n + 1) && m.quiet (n + 1)) = true) := by
    rwa [m.still_iff, m.still_iff]
  rw [pclkSelWrite, if_neg (by omega)]
  simp only [Bool.and_eq_true] at hnot ⊢
  rw [if_neg hnot]
end

/-! ### Acceptance (R65, R69, R76) -/

section
variable {m : Mach} {n op tag oid addr len cls attr : Nat}

theorem reqAccept_reused (hready : m.flag PORT.STAT_READY n = true) (hrun : m.flag PORT.STAT_PCLK_RUN n = true)
    (h : ∃ r ∈ (m.port n).reqs, r.tag = tag) : reqAccept n op tag oid addr len cls attr m =
      (m.modPort n fun q => { q with tagStall := some (q.tagStall.getD m.now), tagHeld := tag }).event .port n PORT.EV_TAG_REUSE := by
  have hany : ((m.port n).reqs.any fun r => r.tag = tag) = true := by simpa using h
  simp [reqAccept, hready, hrun, hany]

/-- With no request held on a reused tag nothing is counted; the port is written with what it holds. -/
theorem Mach.endTagStall_idle (h : (m.port n).tagStall = none) :
    m.endTagStall n = m.modPort n fun p => { p with tagStall := none } := by
  simp [Mach.endTagStall, Mach.settleTag, h]

theorem Mach.giveEarly_none (h : (m.port n).early = []) (k : Nat) : m.giveEarly n k = m := by
  cases k <;> simp [Mach.giveEarly, h]

/-- The registers that an intake check which fails may change: those of the port but CNT_REQ, and CNT_EST (R43, R69). -/
def faultKey (n q : Nat) : Prop := (q / 32768 = 16 + n ∧ q / 64 % 512 ≠ 0x100) ∨ q = ALM.CNT_EST.key 0

theorem faultKey_port {f : Field} (hp : f.page = .port) (ho : f.off < 2048 ∨ 2056 ≤ f.off ∧ f.off < 4096) (hl : f.lo < 64) (n : Nat) :
    faultKey n (f.key n) := by
  simp only [faultKey, Field.key, hp, Page.number]
  omega

theorem faultKey_events (n : Nat) : ∀ q ∈ eventKeys .port n, faultKey n q := by
  simp only [eventKeys, List.mem_cons, List.not_mem_nil, or_false]
  rintro q (rfl | rfl | rfl | rfl | rfl | rfl)
  case inr.inr.inr.inr.inr => exact .inr rfl
  all_goals exact faultKey_port rfl (.inl (by decide)) (by decide) n

theorem Mach.put_fault (m : Mach) {f : Field} (hp : f.page = .port) (ho : f.off < 2048 ∨ 2056 ≤ f.off ∧ f.off < 4096) (hl : f.lo < 64)
    (n v : Nat) : OnlyRegs (faultKey n) m (m.put f n v) := m.put_onlyRegs (faultKey_port hp ho hl n) v

theorem Mach.intakeFail_onlyRegs (m : Mach) (n : Nat) (r : Req) (st : Nat) : OnlyRegs (faultKey n) m (m.intakeFail n r st) := by
  have hcount : OnlyRegs (faultKey n) m (if st = stDenied then (m.count PORT.CNT_DENIED n).event .port n PORT.EV_DENIED
      else (m.count PORT.CNT_RANGE n).event .port n PORT.EV_RANGE) := by
    split
    · exact (m.put_fault (f := PORT.CNT_DENIED) rfl (by decide) (by decide) n _).trans (Mach.event_onlyRegs _ (faultKey_events n) _)
    · exact (m.put_fault (f := PORT.CNT_RANGE) rfl (by decide) (by decide) n _).trans (Mach.event_onlyRegs _ (faultKey_events n) _)
  unfold Mach.intakeFail
  dsimp only
  split
  · refine OnlyRegs.trans ?_ (Mach.put_fault _ (f := PORT.FAULT_STATUS) rfl (by decide) (by decide) n _)
    refine OnlyRegs.trans ?_ (Mach.put_fault _ (f := PORT.FAULT_OID) rfl (by decide) (by decide) n _)
    refine OnlyRegs.trans ?_ (Mach.put_fault _ (f := PORT.FAULT_TAG) rfl (by decide) (by decide) n _)
    refine OnlyRegs.trans ?_ (Mach.put_fault _ (f := PORT.FAULT_OP) rfl (by decide) (by decide) n _)
    exact hcount.trans (Mach.put_fault _ (f := PORT.FAULT_ADDR) rfl (by decide) (by decide) n _)
  · exact hcount

/-- The request that a REQ transfer makes, with the status `bad` of the first intake check that fails (R65, R69). -/
def Mach.newReq (m : Mach) (n op tag oid addr len cls attr : Nat) (bad : Option Nat) : Req := { (default : Req) with
  id := m.serial, op := op, tag := tag, oid := oid, addr := addr, len := len, cls := cls, attr := attr, at_ := m.now,
  closed := !writeBearing op, fail := bad, status := bad.getD 0, rcls := cls,
  coverLines := if op = opPersistNs && bad.isNone then m.otherLines n (addr / 2 ^ 52) else [],
  coverStr := if op = opPersistNs && bad.isNone then m.otherStr n (addr / 2 ^ 52) else [],
  phase := if bad.isSome then .ready else .intake, stream := if bad.isSome then none else m.feeds n op addr }

/-- The machine once the request `r` has joined the port's requests and is counted (R65). -/
def Mach.joined (m : Mach) (n : Nat) (r : Req) : Mach :=
  (({ m with serial := m.serial + 1 } : Mach).modPort n fun p => { p with reqs := p.reqs ++ [r] }).count PORT.CNT_REQ n

/-- The machine once a check that failed has been recorded (R69). -/
def Mach.judged (m : Mach) (n : Nat) (r : Req) : Mach := r.fail.elim m (m.intakeFail n r)

theorem Mach.joined_port (m : Mach) (n : Nat) (r : Req) :
    (m.joined n r).port n = { m.port n with reqs := (m.port n).reqs ++ [r] } :=
  Mach.port_modPort_same ({ m with serial := m.serial + 1 } : Mach) n fun p => { p with reqs := p.reqs ++ [r] }

theorem Mach.judged_onlyRegs (m : Mach) (n : Nat) (r : Req) : OnlyRegs (faultKey n) m (m.judged n r) := by
  cases h : r.fail with
  | none => simpa [Mach.judged, h] using OnlyRegs.refl _ m
  | some st => simpa [Mach.judged, h] using m.intakeFail_onlyRegs n r st

@[simp] theorem Mach.judged_port (m : Mach) (n : Nat) (r : Req) (k : Nat) : (m.judged n r).port k = m.port k := by
  rw [(m.judged_onlyRegs n r).1]
  rfl

/-- An accepted request joins the port's requests; a failed check is recorded, and the levels shown follow. -/
theorem reqAccept_taken (hready : m.flag PORT.STAT_READY n = true) (hrun : m.flag PORT.STAT_PCLK_RUN n = true)
    (htag : ∀ r ∈ (m.port n).reqs, r.tag ≠ tag) (hlevel : m.get PORT.INTAKE_LEVEL n < 512) (hroom : (m.port n).reqs.length < 4096)
    (hidle : (m.port n).tagStall = none) (hearly : (m.port n).early = []) :
    reqAccept n op tag oid addr len cls attr m =
      let m0 := m.modPort n fun p => { p with tagStall := none }
      let r := m0.newReq n op tag oid addr len cls attr (m.intakeCheck n op addr len cls)
      ((m0.joined n r).judged n r).showPort n := by
  have hany : ((m.port n).reqs.any fun r => r.tag = tag) = false := by simpa using htag
  have hfull : (decide (512 ≤ m.get PORT.INTAKE_LEVEL n) || decide (4096 ≤ (m.port n).reqs.length)) = false := by simp; omega
  have hearly' : ∀ r r' k, (((m.modPort n fun p => { p with tagStall := none }).joined n r).judged n r').giveEarly n k =
      ((m.modPort n fun p => { p with tagStall := none }).joined n r).judged n r' := fun r r' k => by
    refine Mach.giveEarly_none ?_ k
    rw [Mach.judged_port, Mach.joined_port, Mach.port_modPort_same]
    exact hearly
  have hcheck : (m.modPort n fun p => { p with tagStall := none }).intakeCheck n op addr len cls = m.intakeCheck n op addr len cls := rfl
  simp only [reqAccept, hready, hrun, hany, hfull, Mach.endTagStall_idle hidle, hcheck]
  rw [← hearly' _ _ 65]
  cases m.intakeCheck n op addr len cls <;> rfl

theorem cntReq_key (hn : n < 16) : ¬clockKey (PORT.CNT_REQ.key n) ∧ ¬faultKey n (PORT.CNT_REQ.key n) := by
  simp only [clockKey, faultKey, Field.key, Page.number, PORT.CNT_REQ, ALM.CNT_EST, Field.counter]
  omega

/-- What an accepted request leaves: it is counted and numbered, and stands last among the port's requests (R65, R69). -/
theorem reqAccept_taken_spec (hn : n < 16) (hready : m.flag PORT.STAT_READY n = true) (hrun : m.flag PORT.STAT_PCLK_RUN n = true)
    (htag : ∀ r ∈ (m.port n).reqs, r.tag ≠ tag) (hlevel : m.get PORT.INTAKE_LEVEL n < 512) (hroom : (m.port n).reqs.length < 4096)
    (hidle : (m.port n).tagStall = none) (hearly : (m.port n).early = []) :
    let t := reqAccept n op tag oid addr len cls attr m
    let m0 := m.modPort n fun p => { p with tagStall := none }
    t.get PORT.CNT_REQ n = countUp (m.get PORT.CNT_REQ n) 1 % 2 ^ 64 ∧ t.serial = m.serial + 1 ∧
      (t.port n).reqs = (m.port n).reqs ++ [m0.newReq n op tag oid addr len cls attr (m.intakeCheck n op addr len cls)] := by
  intro t m0
  let r := m0.newReq n op tag oid addr len cls attr (m.intakeCheck n op addr len cls)
  have ht : t = ((m0.joined n r).judged n r).showPort n := reqAccept_taken hready hrun htag hlevel hroom hidle hearly
  have hshow := ((m0.joined n r).judged n r).showPort_clocked hn
  obtain ⟨hclock, hfault⟩ := cntReq_key hn
  refine ⟨?_, ?_, ?_⟩
  · rw [ht, hshow.regs.2 _ _ hclock, (Mach.judged_onlyRegs _ n r).2.2 _ _ hfault]
    exact Mach.get_put_same _ _ _ _
  · rw [ht, hshow.serial, (Mach.judged_onlyRegs _ n r).1]
    rfl
  · rw [ht, hshow.reqs, Mach.judged_port, Mach.joined_port, Mach.port_modPort_same]
end

end Sys2Proof.Machine
end

section
namespace Sys2Proof.Laws
open Sys2Proof.Machine

/-- Settles O12: each command takes the branch that its conditions name; between them only the clocks of the port are brought up to now. -/
theorem portCreditUrgencyClock : Obligations.PortCreditUrgencyClock := by
  intro s a port v n p
  have hn : n < 16 := port.isLt
  refine ⟨fun hrun => ⟨?returned, ?excess⟩, fun ha hrun => ⟨?rises, ?falls⟩, ?watch, ?held, fun ho => ⟨?odd, ?taken, ?rejected⟩⟩
  case returned => exact fun h => completes_of_answer (exec_plyCredit s port) (plyCredit_returned hrun h)
  case excess => exact fun h => completes_of_answer (exec_plyCredit s port) (plyCredit_over hrun h)
  case rises => exact fun h => completes_of_answer (exec_urgChange s port v) (urgChange_rises hn ha hrun h)
  case falls => exact fun h hp => completes_of_answer (exec_urgChange s port v) (urgChange_falls hn ha h hp)
  case watch =>
    intro ha hready hrun _ hw
    obtain ⟨hurg, hat, hpower⟩ := urgChange_asleep (v := v.toNat) hn ha hready hrun hw
    exact ⟨_, completes_of_answer (exec_urgChange s port v) rfl, hurg, hat, by rw [hpower]⟩
  case held => exact fun t h ht => completes_of_answer (exec_urgFallExpire s port) (urgFallExpire_held h ht)
  case odd => exact fun h => completes_of_answer (exec_pclkSelWrite s a port v) ((Mach.viaCfg_open ho ..).trans (pclkSelWrite_odd h))
  case taken =>
    exact fun h h0 h1 => completes_of_answer (exec_pclkSelWrite s a port v)
      ((Mach.viaCfg_open ho ..).trans (pclkSelWrite_taken h h0 h1 v.isLt))
  case rejected =>
    exact fun h hs => completes_of_answer (exec_pclkSelWrite s a port v) ((Mach.viaCfg_open ho ..).trans (pclkSelWrite_rejected h hs))

/-- Settles O10: a reused tag is held before anything else; a request that is taken joins the port's requests as its checks leave it, and
what follows it touches neither CNT_REQ nor the requests. -/
theorem requestAcceptance : Obligations.RequestAcceptance := by
  intro s port op tag oid addr len cls attr n p hready hrun
  have hn : n < 16 := port.isLt
  refine ⟨fun h => completes_of_answer (exec_reqAccept s ..) (reqAccept_reused hready hrun h), fun htag hlevel hroom hidle hearly => ?_⟩
  obtain ⟨hcount, hserial, hreqs⟩ := reqAccept_taken_spec (op := op.toNat) (oid := oid.toNat) (addr := addr.toNat) (len := len.toNat)
    (cls := cls.toNat) (attr := attr.toNat) hn hready hrun htag hlevel hroom hidle hearly
  exact ⟨_, completes_of_answer (exec_reqAccept s ..) rfl, hcount, hserial, _, hreqs, rfl, rfl, rfl, rfl, rfl, rfl, rfl, rfl, rfl, rfl⟩

end Sys2Proof.Laws
end

section
/-! SUPPORT. The beats of the client ports: write data taken in and responses driven out (chapter "Iresk client ports", R63, R70, R71, R73,
R76). -/
namespace Sys2Proof.Machine

/-! ### Write data (R70, R71) -/

section
variable {m : Mach} {n : Nat} {data : Beat} {be : ByteEn} {last : Bool}

/-- EVENT of a port does not follow its clock. -/
theorem evField_port_key (hn : n < 16) : ¬clockKey ((evField .port).key n) := by
  simp only [clockKey, Field.key, evField, Page.number]
  omega

theorem wdatBeat_discarded (hready : m.flag PORT.STAT_READY n = true) (hrun : m.flag PORT.STAT_PCLK_RUN n = true)
    (hd : (m.port n).discard = true) : wdatBeat n data be last m =
      if last then (m.count PORT.CNT_WR_BEATS n).modPort n fun q => { q with discard := false } else m.count PORT.CNT_WR_BEATS n := by
  simp [wdatBeat, hready, hrun, hd]

theorem wdatBeat_queued (hready : m.flag PORT.STAT_READY n = true) (hrun : m.flag PORT.STAT_PCLK_RUN n = true)
    (hd : (m.port n).discard = false) (he : (m.port n).early ≠ []) (hlen : (m.port n).early.length < 64) : wdatBeat n data be last m =
      (m.count PORT.CNT_WR_BEATS n).modPort n fun q => { q with early := q.early ++ [(⟨data, be⟩, last)] } := by
  have he' : (m.port n).early.isEmpty = false := by simpa using he
  simp [wdatBeat, hready, hrun, hd, he', hlen]

/-- With nothing buffered ahead of it a beat goes to the request that wants it, or is the first to be buffered. -/
theorem wdatBeat_given (hready : m.flag PORT.STAT_READY n = true) (hrun : m.flag PORT.STAT_PCLK_RUN n = true)
    (hd : (m.port n).discard = false) (he : (m.port n).early = []) : wdatBeat n data be last m =
      ((((m.count PORT.CNT_WR_BEATS n).giveBeat n ⟨data, be⟩ last).map fun t => t.showPort n).getD
        ((m.count PORT.CNT_WR_BEATS n).modPort n fun q => { q with early := [(⟨data, be⟩, last)] })) := by
  simp only [wdatBeat, hready, hrun, hd, he]
  cases (m.count PORT.CNT_WR_BEATS n).giveBeat n ⟨data, be⟩ last <;> rfl

/-- The oldest write of a port that lacks beats (R70). -/
def Mach.wants (m : Mach) (n : Nat) : Option Req := (m.port n).reqs.find? fun r => writeBearing r.op && !r.closed

/-- A request that a beat marked last too early, or not at the end, has failed (R71). -/
def Req.misframed (b : WBeat) : Req → Req := fun x => { x with
  beats := x.beats ++ [b], closed := true, fail := if x.fail = none then some stRange else x.fail,
  status := if x.fail = none then stRange else x.status, phase := .ready }

theorem Mach.giveBeat_none {b : WBeat} (h : m.wants n = none) : m.giveBeat n b last = none := by
  unfold Mach.wants at h
  simp [Mach.giveBeat, h]

section
variable {r : Req} {b : WBeat} (h : m.wants n = some r)
include h

theorem Mach.giveBeat_good (hlast : last = Decidable.decide (r.beats.length + 1 = r.len + 1)) : m.giveBeat n b last =
    some (m.modReq n r.id fun x => { x with beats := x.beats ++ [b], closed := last }) := by
  unfold Mach.wants at h
  subst hlast
  simp [Mach.giveBeat, h]

/-- A beat whose LAST does not agree with the request closes and fails it, and is reported (R71). -/
theorem Mach.giveBeat_bad (hlast : last ≠ Decidable.decide (r.beats.length + 1 = r.len + 1)) : ∃ t, m.giveBeat n b last = some t ∧
    (∃ x ∈ (t.port n).reqs, x.id = r.id ∧ x.closed = true ∧ x.phase = .ready ∧ x.fail = some (r.fail.getD stRange)) ∧
    (t.get (evField .port) n).testBit PORT.EV_WDAT_FRAMING = true ∧ (t.port n).discard = !last := by
  let m1 := m.modReq n r.id (Req.misframed b)
  let m2 := (m1.event .port n PORT.EV_WDAT_FRAMING).modPort n fun p => { p with discard := !last }
  have hgive : m.giveBeat n b last = some (if r.fail.isNone then m2.count PORT.CNT_RANGE n else m2) := by
    unfold Mach.wants at h
    have hlen : (r.beats.length = r.len) ↔ last = false := by
      have hfull := Bool.not_eq.2 hlast.symm
      rw [← hfull]
      simp
    cases last <;> simp [Mach.giveBeat, h, m1, m2, hlen] <;> rfl
  have hx : Req.misframed b r ∈ (m1.port n).reqs := m.mem_reqs_modReq n r.id _ (List.mem_of_find?_eq_some h) rfl
  have hport : (if r.fail.isNone then m2.count PORT.CNT_RANGE n else m2).port n = { m1.port n with discard := !last } := by
    split <;> simp [m2]
  have hevent : (if r.fail.isNone then m2.count PORT.CNT_RANGE n else m2).get (evField .port) n =
      (m1.event .port n PORT.EV_WDAT_FRAMING).get (evField .port) n := by
    split
    · exact Mach.get_put_ne _ _ (by simp only [Field.key, evField, PORT.CNT_RANGE, Field.counter]; omega)
    · rfl
  refine ⟨_, hgive, ⟨Req.misframed b r, by rw [hport]; exact hx, rfl, rfl, rfl, ?_⟩, ?_, by rw [hport]⟩
  · cases hf : r.fail <;> simp [Req.misframed, hf]
  · rw [hevent]
    exact Mach.event_testBit_same _ _ _ (by decide)
end
end

/-! ### Responses (R63, R73, R76) -/

/-- From `m` to `t` registers change, and of the ports of pair `k` what follows their clocks; of the blocks only Reeve may change. -/
structure Paced (k : Nat) (m t : Mach) : Prop where
  rest : t = { m with regs := t.regs, ports := t.ports, reeve := t.reeve }
  port : ∀ n, t.port n = { m.port n with
    urgAt := (t.port n).urgAt, tagStall := (t.port n).tagStall, pclkAt := (t.port n).pclkAt }
  other : ∀ n, n / 2 ≠ k → t.port n = m.port n

section
variable {k : Nat} {a b c : Mach}

theorem Paced.trans (h : Paced k a b) (g : Paced k b c) : Paced k a c where
  rest := by rw [g.rest, h.rest]
  port n := by rw [g.port n, h.port n]
  other n hn := (g.other n hn).trans (h.other n hn)

theorem Clocked.paced (h : Clocked k a b) : Paced k a b := ⟨h.rest, h.port, h.other⟩

/-- A change of registers alone leaves the ports. -/
theorem Paced.of_regs (h : b = { a with regs := b.regs }) : Paced k a b := by
  have hports : ∀ n, b.port n = a.port n := fun n => by rw [h]; rfl
  exact ⟨by rw [h], fun n => by rw [hports n], fun n _ => hports n⟩

theorem Paced.refl (k : Nat) (m : Mach) : Paced k m m := Paced.of_regs rfl

theorem Paced.put (h : Paced k a b) (f : Field) (n v : Nat) : Paced k a (b.put f n v) := h.trans (Paced.of_regs rfl)

theorem Paced.event (h : Paced k a b) (p : Page) (n v : Nat) : Paced k a (b.event p n v) :=
  h.trans (Paced.of_regs (Mach.events_regsOnly b n _ p))

theorem Paced.maxlat (h : Paced k a b) (f g : Field) (lat tag : Nat) : Paced k a (b.maxlat f g lat tag) := by
  unfold Mach.maxlat
  split
  · exact (h.put _ _ _).put _ _ _
  · exact h

theorem Mach.recordLatency_paced (m : Mach) (n : Nat) (r : Req) : Paced k m (m.recordLatency n r) := by
  unfold Mach.recordLatency
  split
  · exact Paced.refl k m
  · extract_lets lat m1 m2
    have h1 : Paced k m m1 := by
      show Paced k m (if _ then _ else _)
      split
      · exact (Paced.refl k m).maxlat ..
      · exact Paced.refl k m
    have h2 : Paced k m m2 := by
      show Paced k m (if _ then _ else _)
      split
      · exact h1.maxlat ..
      · exact h1
    split
    · exact (h2.maxlat ..).put ..
    · exact h2
end

section
variable {m : Mach} {n tag : Nat} {r : Req}

/-- A port that drives the next response beat of `r`; the beats of a chunk follow one another (R73). -/
def PortSt.driving (tag : Nat) (r : Req) (p : PortSt) : PortSt :=
  let last := Decidable.decide (r.sent + 1 = r.rspBeats)
  let rd := r.op = opRead && r.fail.isNone
  { p with
    rsp := some ⟨(r.beat r.sent).1, tag, (r.beat r.sent).2, last⟩,
    chunk := if last || !rd || (r.beatPlace r.sent).2 = 3 then none else some r.id }

/-- The machine once the next response beat of `r` is driven (R73). -/
def Mach.driven (m : Mach) (n tag : Nat) (r : Req) : Mach :=
  let rd := r.op = opRead && r.fail.isNone
  let m1 := m.modPort n (PortSt.driving tag r)
  if rd then m1.count PORT.CNT_RD_BEATS n else m1

/-- The machine once the last beat of `r` completes it (R63, R76). -/
def Mach.finished (m : Mach) (n tag : Nat) (r : Req) : Mach :=
  let m2 := if (m.port n).tagStall.isSome && (m.port n).tagHeld = tag then m.endTagStall n else m
  let m3 := (m2.recordLatency n r).modPort n fun p => { p with reqs := p.reqs.filter fun x => x.id ≠ r.id }
  let m4 := if r.errRsp then m3.count PORT.CNT_ERR_RSP n else m3
  let m5 := if r.status = stHeld then m4.event .port n PORT.EV_HELD_TIMEOUT else m4
  m5.showPort n

theorem rspBeat_driven (hfind : ((m.port n).reqs.find? fun x => x.tag = tag) = some r) (hrun : m.flag PORT.STAT_PCLK_RUN n = true)
    (hready : r.beatReady r.sent = true) (hturn : m.rspTurn n r = true) : rspBeat n tag m =
      if r.sent + 1 = r.rspBeats then (m.driven n tag r).finished n tag r
      else (m.driven n tag r).modReq n r.id fun x => { x with sent := x.sent + 1 } := by
  simp only [rspBeat, hfind, hrun, hready, hturn, Bool.and_self, Bool.not_true, Bool.false_eq_true, if_false]
  by_cases hlast : r.sent + 1 = r.rspBeats
  · rw [if_neg (show ¬(!Decidable.decide (r.sent + 1 = r.rspBeats)) = true by simp [hlast]), if_pos hlast]
    rfl
  · rw [if_pos (show (!Decidable.decide (r.sent + 1 = r.rspBeats)) = true by simp [hlast]), if_neg hlast]
    rfl

variable (m n tag r)

theorem Mach.driven_paced : Paced (n / 2) (m.modPort n (PortSt.driving tag r)) (m.driven n tag r) := by
  unfold Mach.driven
  dsimp only
  split
  · exact (Paced.refl _ _).put ..
  · exact Paced.refl _ _

/-- What precedes the end of a request: a request held on its tag is released, and the completion is judged for the latency maxima. -/
theorem Mach.finished_paced (hn : n < 16) : ∃ t, Paced (n / 2) m t ∧
    Paced (n / 2) (t.modPort n fun p => { p with reqs := p.reqs.filter fun x => x.id ≠ r.id }) (m.finished n tag r) := by
  unfold Mach.finished
  extract_lets m2 m3 m4 m5
  have h2 : Paced (n / 2) m m2 := by
    show Paced (n / 2) m (if _ then _ else _)
    split
    · exact (m.endTagStall_clocked hn rfl).paced
    · exact Paced.refl _ m
  have h4 : Paced (n / 2) m3 m4 := by
    show Paced (n / 2) m3 (if _ then _ else _)
    split
    · exact (Paced.refl _ m3).put ..
    · exact Paced.refl _ m3
  have h5 : Paced (n / 2) m3 m5 := by
    show Paced (n / 2) m3 (if _ then _ else _)
    split
    · exact h4.event ..
    · exact h4
  exact ⟨_, h2.trans (m2.recordLatency_paced n r), h5.trans (m5.showPort_clocked hn).paced⟩
end

section
variable {k : Nat} {m t : Mach} (h : Paced k m t) (n : Nat)
include h
theorem Paced.reqs : (t.port n).reqs = (m.port n).reqs := by rw [h.port n]
theorem Paced.rsp : (t.port n).rsp = (m.port n).rsp := by rw [h.port n]
omit n
theorem Paced.ht : t.ht = m.ht := by rw [h.rest]
theorem Paced.map : t.map = m.map := by rw [h.rest]
theorem Paced.kiln : t.kiln = m.kiln := by rw [h.rest]
end

/-- The port of another pair is another port. -/
theorem Mach.port_modPort_pair (m : Mach) {n k : Nat} (f : PortSt → PortSt) (hk : k / 2 ≠ n / 2) : (m.modPort n f).port k = m.port k :=
  m.port_modPort_ne n f fun h => hk (congrArg (· / 2) h)

/-- What one response beat of `r` leaves (R63, R73, R76). -/
theorem rspBeat_spec {m : Mach} {n tag : Nat} {r : Req} (hn : n < 16) (hfind : ((m.port n).reqs.find? fun x => x.tag = tag) = some r)
    (hrun : m.flag PORT.STAT_PCLK_RUN n = true) (hready : r.beatReady r.sent = true) (hturn : m.rspTurn n r = true) :
    let t := rspBeat n tag m
    (t.port n).rsp = some ⟨(r.beat r.sent).1, tag, (r.beat r.sent).2, Decidable.decide (r.sent + 1 = r.rspBeats)⟩ ∧
      (t.port n).reqs = (if r.sent + 1 = r.rspBeats then (m.port n).reqs.filter (fun x => x.id ≠ r.id)
        else (m.port n).reqs.map fun x => if x.id = r.id then { x with sent := x.sent + 1 } else x) ∧
      t.ht = m.ht ∧ t.map = m.map ∧ t.kiln = m.kiln ∧ ∀ k, k / 2 ≠ n / 2 → t.port k = m.port k := by
  rw [rspBeat_driven hfind hrun hready hturn]
  have hd := m.driven_paced n tag r
  have hrsp : ((m.driven n tag r).port n).rsp =
      some ⟨(r.beat r.sent).1, tag, (r.beat r.sent).2, Decidable.decide (r.sent + 1 = r.rspBeats)⟩ := by
    rw [hd.rsp, Mach.port_modPort_same]; rfl
  have hreqs : ((m.driven n tag r).port n).reqs = (m.port n).reqs := by rw [hd.reqs, Mach.port_modPort_same]; rfl
  have hother : ∀ k, k / 2 ≠ n / 2 → (m.driven n tag r).port k = m.port k := fun k hk => by
    rw [hd.other k hk, m.port_modPort_pair _ hk]
  split
  case isTrue hlast =>
    obtain ⟨u, hu, hend⟩ := (m.driven n tag r).finished_paced n tag r hn
    refine ⟨?_, ?_, ?_, ?_, ?_, fun k hk => ?_⟩
    · rw [hend.rsp, Mach.port_modPort_same, hu.rsp, hrsp]
    · rw [hend.reqs, Mach.port_modPort_same, hu.reqs, hreqs]
    · rw [hend.ht, Mach.modPort_ht, hu.ht, hd.ht, Mach.modPort_ht]
    · rw [hend.map, Mach.modPort_map, hu.map, hd.map, Mach.modPort_map]
    · rw [hend.kiln, Mach.modPort_kiln, hu.kiln, hd.kiln, Mach.modPort_kiln]
    · rw [hend.other k hk, Mach.port_modPort_pair _ _ hk, hu.other k hk, hother k hk]
  case isFalse hlast =>
    refine ⟨?_, ?_, ?_, ?_, ?_, fun k hk => ?_⟩
    · rw [Mach.modReq, Mach.port_modPort_same, hrsp]
    · rw [Mach.reqs_modReq, hreqs]
    · rw [Mach.modReq_ht, hd.ht, Mach.modPort_ht]
    · rw [Mach.modReq_map, hd.map, Mach.modPort_map]
    · rw [Mach.modReq_kiln, hd.kiln, Mach.modPort_kiln]
    · rw [Mach.modReq, Mach.port_modPort_pair _ _ hk, hother k hk]

end Sys2Proof.Machine
end

section
namespace Sys2Proof.Laws
open Sys2Proof.Machine

/-- Settles O11: a WDAT beat goes where its port's state says, and of what a RSP beat changes nothing but the response and the request
itself is more than a clock or a count. -/
theorem portBeats : Obligations.PortBeats := by
  constructor
  case left =>
    intro s port data be last n p m wants hready hrun
    have hexec := exec_wdatBeat s port data be last
    refine ⟨fun hd => ?_, fun hd he hw => ?_, fun hd he hlen => ?_, fun r hd he hw => ⟨fun hl => ?_, fun hl => ?_⟩⟩
    · exact completes_of_answer hexec (wdatBeat_discarded hready hrun hd)
    · refine completes_of_answer hexec ((wdatBeat_given hready hrun hd he).trans ?_)
      rw [Mach.giveBeat_none (show m.wants n = none from hw)]
      rfl
    · exact completes_of_answer hexec (wdatBeat_queued hready hrun hd he hlen)
    · refine completes_of_answer hexec ((wdatBeat_given hready hrun hd he).trans ?_)
      rw [Mach.giveBeat_good (show m.wants n = some r from hw) hl]
      rfl
    · obtain ⟨t, ht, ⟨x, hx, hreq⟩, hevent, hdiscard⟩ :=
        Mach.giveBeat_bad (b := ⟨data, be⟩) (show m.wants n = some r from hw) hl
      have hshow := t.showPort_clocked port.isLt
      refine ⟨_, completes_of_answer hexec (wdatBeat_given hready hrun hd he), ?_⟩
      rw [ht]
      refine ⟨⟨x, ?_, hreq⟩, ?_, ?_⟩
      · exact (hshow.reqs n).symm ▸ hx
      · exact (hshow.regs.2 (evField .port) n (evField_port_key port.isLt)).symm ▸ hevent
      · exact (hshow.discard n).trans hdiscard
  case right =>
    intro s port tag r n last hfind hrun hbeat hturn
    obtain ⟨hrsp, hreqs, hht, hmap, hkiln, hother⟩ := rspBeat_spec (n := n) port.isLt hfind hrun hbeat hturn
    refine ⟨_, completes_of_answer (exec_rspBeat s port tag) rfl, hrsp, hreqs.trans ?_, hht, hmap, hkiln, fun k _ h0 h1 => hother k (by omega)⟩
    exact (if_congr decide_eq_true_iff.symm rfl rfl)

end Sys2Proof.Laws
end

section
/-! SUPPORT. Delivery of a list's lines to a port: what one push changes, and the enabling of a port (chapters "Iresk client ports", R77,
R84, and "Loom: playback", R157, R159, R161). -/
namespace Sys2Proof.Machine

/-! ### What follows a push -/

/-- The registers that follow a list's deliveries: those of the pages below the ports', and of the list all but CNT_ENTRIES. -/
def deliverKey (k q : Nat) : Prop := q / 32768 < 16 ∨ (q / 32768 = 144 + k ∧ q / 64 % 512 ≠ 0x100)

/-- From `m` to `t` the levels, copies and pins that a delivery shows have been seen to: ports and walked entries stand. -/
structure Delivered (k : Nat) (m t : Mach) : Prop where
  rest : t = { m with regs := t.regs, loom := t.loom }
  loom : t.loom = { m.loom with copies := t.loom.copies }
  regs : KeptBut (deliverKey k) m t

section
variable {k : Nat} {a b c : Mach}

theorem Delivered.refl (k : Nat) (m : Mach) : Delivered k m m := ⟨rfl, rfl, KeptBut.refl _ _⟩

theorem Delivered.trans (h : Delivered k a b) (g : Delivered k b c) : Delivered k a c where
  rest := by rw [g.rest, h.rest]
  loom := by rw [g.loom, h.loom]
  regs := h.regs.trans g.regs

theorem Delivered.port (h : Delivered k a b) (n : Nat) : b.port n = a.port n := by rw [h.rest]; rfl

theorem Delivered.seq (h : Delivered k a b) (j : Nat) : b.seq j = a.seq j := by rw [Mach.seq, h.loom]; rfl

theorem Delivered.put (h : Delivered k a b) {f : Field} {n : Nat} (hk : deliverKey k (f.key n)) (v : Nat) : Delivered k a (b.put f n v) :=
  h.trans ⟨rfl, rfl, b.put_keptBut hk v⟩

theorem Delivered.of_onlyRegs (h : OnlyRegs (deliverKey k) a b) : Delivered k a b :=
  ⟨by rw [h.1], by rw [h.1], h.2⟩

theorem Delivered.event (h : Delivered k a b) {p : Page} {n : Nat} (hk : ∀ q ∈ eventKeys p n, deliverKey k q) (v : Nat) :
    Delivered k a (b.event p n v) := h.trans (Delivered.of_onlyRegs (b.event_onlyRegs hk v))

theorem deliverKey_loom : deliverKey k (LOOM.HELD_NOW.key 0) ∧ deliverKey k (LOOM.SPEC_NOW.key 0) ∧ deliverKey k (LOOM.KEEP_NOW.key 0) ∧
    deliverKey k (LOOM.PINNED.key 0) ∧ deliverKey k (LOOM.ACTIVE.key 0) ∧ deliverKey k (ERR.CNT_POISON_READ.key 0) := by
  simp [deliverKey, Field.key, Page.number, LOOM.HELD_NOW, LOOM.SPEC_NOW, LOOM.KEEP_NOW, LOOM.PINNED, LOOM.ACTIVE, ERR.CNT_POISON_READ,
    Field.counter]

theorem deliverKey_seq : deliverKey k (SEQ.CURSOR.key k) ∧ deliverKey k (SEQ.WALK_NEXT.key k) ∧ deliverKey k (SEQ.WALK_SPEC.key k) ∧
    deliverKey k (SEQ.WALK_BRANCHES.key k) ∧ deliverKey k (SEQ.WALK_PINS.key k) ∧ deliverKey k (SEQ.DELIVER_ENTRY.key k) ∧
    deliverKey k (SEQ.DELIVER_LINES.key k) ∧ deliverKey k (SEQ.CNT_LINES.key k) := by
  simp only [deliverKey, Field.key, Page.number, SEQ.CURSOR, SEQ.WALK_NEXT, SEQ.WALK_SPEC, SEQ.WALK_BRANCHES, SEQ.WALK_PINS,
    SEQ.DELIVER_ENTRY, SEQ.DELIVER_LINES, SEQ.CNT_LINES, Field.counter]
  omega

theorem deliverKey_events : ∀ q ∈ eventKeys .seq k, deliverKey k q := by
  simp only [eventKeys, List.mem_cons, List.not_mem_nil, or_false, deliverKey, Field.key, Page.number, evField, evFirstBit, evFirstEst,
    evFirstValid, evTime, ALM.CNT_EST, Field.counter]
  omega

theorem Mach.showLoom_delivered (m : Mach) : Delivered k m m.showLoom :=
  let ⟨held, spec, keep, pinned, active, _⟩ := deliverKey_loom (k := k)
  (((((Delivered.refl k m).put held _).put spec _).put keep _).put pinned _).put active _

theorem Mach.showSeq_delivered (m : Mach) : Delivered k m (m.showSeq k) := by
  obtain ⟨hcursor, hnext, hspec, hbranches, hpins, hentry, hlines, -⟩ := deliverKey_seq (k := k)
  unfold Mach.showSeq
  extract_lets s head m1
  have h1 : Delivered k m m1 := (((((Delivered.refl k m).put hcursor _).put hnext _).put hspec _).put hbranches _).put hpins _
  refine Delivered.trans ?_ (Mach.showLoom_delivered _)
  cases head with
  | none => exact h1
  | some e => exact (h1.put hentry _).put hlines _

theorem Mach.lineOut_delivered (m : Mach) (e : LEnt) (n : Nat) (c : Option LCopy) : Delivered k m (m.lineOut k e n c) := by
  have hcopies : ∀ f : List LCopy → List LCopy, Delivered k m (m.modLoom fun s => { s with copies := f s.copies }) := fun f =>
    ⟨rfl, rfl, KeptBut.of_regs rfl rfl⟩
  cases c with
  | none => exact Delivered.refl k m
  | some c =>
    simp only [Mach.lineOut]
    split
    case isTrue => exact Delivered.refl k m
    case isFalse =>
      split
      case isTrue => exact hcopies fun l => l.filter fun x => !Decidable.decide (x = c)
      case isFalse =>
        split
        case isTrue => exact hcopies fun l => l.map fun x => if x = c then { c with kind := 2, ent := e.idx, n := n } else x
        case isFalse => exact (hcopies fun l => l.filter fun x => !Decidable.decide (x = c)).event deliverKey_events _
end

/-! ### One push (R77, R159) -/

section
variable (m : Mach) (n : Nat) (b : PlyBeat)

theorem Mach.pushBeat_ply : ((m.pushBeat n b).port n).ply = some b := by
  show ((m.modPort n fun p => { p with ply := some b }).port n).ply = some b
  rw [Mach.port_modPort_same]

theorem Mach.pushBeat_credit : (m.pushBeat n b).get PORT.PLY_CRED_NOW n = (m.get PORT.PLY_CRED_NOW n - 1) % 2 ^ 13 := by
  unfold Mach.pushBeat Mach.count
  rw [Mach.get_put_ne _ _ (by simp only [Field.key, PORT.PLY_CRED_NOW, PORT.CNT_PLY_BEATS, Field.counter]; omega), Mach.get_put_same]
  rfl

theorem Mach.pushBeat_keptBut : KeptBut (fun q => q / 32768 = 16 + n) m (m.pushBeat n b) := by
  have hkey : ∀ f : Field, f.page = .port → f.off < 4096 → f.lo < 64 → f.key n / 32768 = 16 + n := fun f hp ho hl => by
    rw [Field.key_div ho hl, hp]; rfl
  refine (KeptBut.trans ?_ (Mach.put_keptBut _ (hkey PORT.PLY_CRED_NOW rfl (by decide) (by decide)) _)).trans
    (Mach.count_keptBut _ (hkey PORT.CNT_PLY_BEATS rfl (by decide) (by decide)) _)
  exact KeptBut.of_regs rfl rfl

@[simp] theorem Mach.pushBeat_loom : (m.pushBeat n b).loom = m.loom := rfl
@[simp] theorem Mach.pushBeat_map : (m.pushBeat n b).map = m.map := rfl
end

/-- The credits of a port do not follow a list's deliveries. -/
theorem plyCred_key {k n : Nat} (hn : n < 16) : ¬deliverKey k (PORT.PLY_CRED_NOW.key n) := by
  simp only [deliverKey, Field.key, Page.number, PORT.PLY_CRED_NOW]
  omega

section
variable (m : Mach) (k id : Nat)

theorem Mach.seq_modSeq (f : SeqSt → SeqSt) : (m.modSeq k f).seq k = f (m.seq k) := Tab.get_upd_same _ _ _

/-- The change of a walked entry stands among the list's entries. -/
theorem Mach.mem_queue_modEnt (f : LEnt → LEnt) {e : LEnt} (he : e ∈ (m.seq k).queue) (hid : e.id = id) :
    f e ∈ ((m.modEnt k id f).seq k).queue := by
  rw [Mach.modEnt, Mach.seq_modSeq]
  exact List.mem_map.2 ⟨e, he, if_pos hid⟩
end

theorem SeqSt.pushNext_mem {s : SeqSt} {e : LEnt} (h : s.pushNext = some e) : e ∈ s.queue :=
  List.mem_of_mem_filter (List.mem_of_find?_eq_some h)

/-- A line that can be pushed is taken from what is at hand: nothing changes. -/
theorem Mach.pushValue_some {m t : Mach} {k n : Nat} {e : LEnt} {v : Nat × Line × Option LCopy} (h : m.pushValue k e n = (some v, t)) :
    t = m := by
  unfold Mach.pushValue at h
  dsimp only at h
  split at h
  case isTrue => exact (Prod.mk.inj h).2.symm
  case isFalse =>
    split at h
    case isTrue =>
      split at h
      · exact (Prod.mk.inj h).2.symm
      · cases (Prod.mk.inj h).1
    case isFalse =>
      split at h
      case isTrue => split at h <;> cases (Prod.mk.inj h).1
      case isFalse =>
        split at h
        · exact (Prod.mk.inj h).2.symm
        · cases (Prod.mk.inj h).1

/-- A port can be pushed a beat of list `k`: it runs, and it holds a credit; a STOPPING list needs no enabled port (R77, R84, R155). -/
def Mach.pushable (m : Mach) (n k : Nat) : Bool :=
  m.fabricUp && !m.asleep && (m.flag PORT.STAT_READY n || m.seqState k = 4) && m.flag PORT.STAT_PCLK_RUN n && 0 < m.get PORT.PLY_CRED_NOW n

theorem Mach.pushable_iff (m : Mach) (n k : Nat) : m.pushable n k = true ↔
    (m.fabricUp = true ∧ m.asleep = false ∧ (m.flag PORT.STAT_READY n = true ∨ m.seqState k = 4) ∧
      m.flag PORT.STAT_PCLK_RUN n = true ∧ 0 < m.get PORT.PLY_CRED_NOW n) := by
  simp [Mach.pushable, and_assoc]

/-- The list whose deliveries a port receives. -/
def Mach.listOf (m : Mach) (n : Nat) : Option Nat :=
  (List.range 16).find? fun j => (m.seqState j = 3 || m.seqState j = 4) && m.seqPort j = n

/-- The line of entry `e` of list `k` is pushed on by one beat (R159). -/
def Mach.pushLine (m : Mach) (n k : Nat) (e : LEnt) : Mach :=
  match m.pushValue k e e.pushed with
  | (none, m1) => m1.showSeq k
  | (some (st, d, c), m1) =>
    let first := e.pushed = 0 && e.beat = 0
    let lastLine := e.pushed + 1 = e.lines
    let j := if first then m1.judgeFirst k n e st else (st, 0, m1)
    let m2 := j.2.2.pushBeat n ⟨Line.beat d e.beat, 0, j.1, first, lastLine && e.beat = 3, first && m.estimated, j.2.1⟩
    if e.beat < 3 then (m2.modEnt k e.id fun x => { x with beat := x.beat + 1 }).showSeq k
    else
      let m3 := (m2.lineOut k e e.pushed c).count SEQ.CNT_LINES k
      let m4 := if st = stPoison then m3.count ERR.CNT_POISON_READ else m3
      if !lastLine then (m4.modEnt k e.id fun x => { x with
        beat := 0, pushed := e.pushed + 1, ph := x.ph.erase e.pushed, here := x.here.erase e.pushed }).showSeq k
      else
        (((((m4.unpin e.pins).modSeq k fun s => { s with queue := s.queue.filter fun x => x.id ≠ e.id }).count SEQ.CNT_ENTRIES
          k).put SEQ.DELIVER_LINES k (e.pushed + 1)).showSeq k).pairClock (n / 2)

section
variable {m : Mach} {n k : Nat} {e : LEnt}

theorem plyPush_noList (h : m.listOf n = none) : plyPush n m = m := by
  unfold Mach.listOf at h
  simp only [plyPush, h]

/-- With a list to receive, a push is of the entry that the list pushes next, while the port can take it. -/
theorem plyPush_list (h : m.listOf n = some k) : plyPush n m =
    match if m.pushable n k then (m.seq k).pushNext.filter fun e => m.seqState k = 3 || e.begun else none with
    | none => m
    | some e => if e.mark then
        ((m.pushBeat n ⟨e.arg.setWidth 512, 1, 0, true, true, false, 0⟩).modSeq k fun s => { s with
          queue := (s.queue.map fun x => if x.id = e.id then { x with done := true } else x).filter fun x =>
            !(x.id = e.id && (!x.evt || x.fired)) }).showSeq k
      else m.pushLine n k e := by
  unfold Mach.listOf at h
  simp only [plyPush, h]
  rfl

section
variable (h : m.listOf n = some k)
include h

/-- Without a credit or a clock, with nothing left to push, or while a STOPPING list has begun nothing more, nothing is pushed. -/
theorem plyPush_idle (hidle : m.pushable n k = false ∨ (m.seq k).pushNext = none ∨
    (m.seqState k ≠ 3 ∧ (m.seq k).pushNext = some e ∧ e.begun = false)) : plyPush n m = m := by
  have hnone : (if m.pushable n k then (m.seq k).pushNext.filter fun e => m.seqState k = 3 || e.begun else none) = none := by
    rcases hidle with hnot | hnext | ⟨hstop, hnext, hbegun⟩
    · simp [hnot]
    · simp [hnext]
    · simp [hnext, hstop, hbegun]
  rw [plyPush_list h, hnone]

variable (hable : m.pushable n k = true) (he : (m.seq k).pushNext = some e) (hgo : m.seqState k = 3 ∨ e.begun = true)
include hable he hgo

omit h in
theorem plyPush_entry : (if m.pushable n k then (m.seq k).pushNext.filter fun e => m.seqState k = 3 || e.begun else none) = some e := by
  simp [hable, he, hgo]

/-- A MARK entry is pushed as one beat of its argument (R159). -/
theorem plyPush_mark (hmark : e.mark = true) : ∃ f, plyPush n m =
    ((m.pushBeat n ⟨e.arg.setWidth 512, 1, 0, true, true, false, 0⟩).modSeq k f).showSeq k := by
  rw [plyPush_list h, plyPush_entry hable he hgo]
  exact ⟨_, if_pos hmark⟩

theorem plyPush_line (hmark : e.mark = false) : plyPush n m = m.pushLine n k e := by
  rw [plyPush_list h, plyPush_entry hable he hgo]
  simp only [hmark, Bool.false_eq_true, if_false]
end

section
variable {st : Nat} {d : Line} {c : Option LCopy} (hv : m.pushValue k e e.pushed = (some (st, d, c), m))
include hv

theorem Mach.pushLine_first (h0 : e.pushed = 0) (hb : e.beat = 0) : m.pushLine n k e =
    let j := m.judgeFirst k n e st
    ((j.2.2.pushBeat n ⟨Line.beat d 0, 0, j.1, true, false, m.estimated, j.2.1⟩).modEnt k e.id fun x =>
      { x with beat := x.beat + 1 }).showSeq k := by
  unfold Mach.pushLine
  rw [hv]
  simp [h0, hb]

theorem Mach.pushLine_next (h0 : 0 < e.pushed ∨ 0 < e.beat) (hb : e.beat < 3) : m.pushLine n k e =
    ((m.pushBeat n ⟨Line.beat d e.beat, 0, st, false, false, false, 0⟩).modEnt k e.id fun x => { x with beat := x.beat + 1 }).showSeq
      k := by
  have hfirst : (Decidable.decide (e.pushed = 0) && Decidable.decide (e.beat = 0)) = false := by simp; omega
  unfold Mach.pushLine
  rw [hv]
  simp [hfirst, hb, show e.beat ≠ 3 by omega]

/-- What the last beat of a line leaves besides the beat itself: the line's copy is seen to, and the line is counted. -/
def Mach.lineEnd (m : Mach) (n k : Nat) (e : LEnt) (st : Nat) (d : Line) (c : Option LCopy) : Mach :=
  let m1 := ((m.pushBeat n ⟨Line.beat d 3, 0, st, false, e.pushed + 1 = e.lines, false, 0⟩).lineOut k e e.pushed c).count SEQ.CNT_LINES k
  if st = stPoison then m1.count ERR.CNT_POISON_READ else m1

theorem Mach.pushLine_lineEnd (hb : e.beat = 3) (hl : e.pushed + 1 ≠ e.lines) : m.pushLine n k e =
    ((m.lineEnd n k e st d c).modEnt k e.id fun x => { x with
        beat := 0, pushed := e.pushed + 1, ph := x.ph.erase e.pushed, here := x.here.erase e.pushed }).showSeq k := by
  unfold Mach.pushLine
  rw [hv]
  simp [hb, hl, Mach.lineEnd]

theorem Mach.pushLine_entEnd (hb : e.beat = 3) (hl : e.pushed + 1 = e.lines) : m.pushLine n k e =
    ((((((m.lineEnd n k e st d c).unpin e.pins).modSeq k fun s => { s with
      queue := s.queue.filter fun x => x.id ≠ e.id }).count SEQ.CNT_ENTRIES k).put SEQ.DELIVER_LINES k (e.pushed + 1)).showSeq
      k).pairClock (n / 2) := by
  unfold Mach.pushLine
  rw [hv]
  simp [hb, hl, Mach.lineEnd]
end

theorem Mach.lineEnd_delivered (m : Mach) (n k : Nat) (e : LEnt) (st : Nat) (d : Line) (c : Option LCopy) :
    Delivered k (m.pushBeat n ⟨Line.beat d 3, 0, st, false, e.pushed + 1 = e.lines, false, 0⟩) (m.lineEnd n k e st d c) := by
  obtain ⟨-, -, -, -, -, -, -, hlines⟩ := deliverKey_seq (k := k)
  obtain ⟨-, -, -, -, -, hpoison⟩ := deliverKey_loom (k := k)
  unfold Mach.lineEnd
  extract_lets m1
  have h1 : Delivered k (m.pushBeat n ⟨Line.beat d 3, 0, st, false, e.pushed + 1 = e.lines, false, 0⟩) m1 :=
    (Mach.lineOut_delivered _ e e.pushed c).put hlines _
  split
  · exact h1.put hpoison _
  · exact h1

/-- The last beat of a line but not of its entry: the entry stands one line further (R159). -/
theorem Mach.pushLine_lineEnd_spec {st : Nat} {d : Line} {c : Option LCopy} (hv : m.pushValue k e e.pushed = (some (st, d, c), m))
    (he : (m.seq k).pushNext = some e) (hb : e.beat = 3) (hl : e.pushed + 1 ≠ e.lines) :
    ((m.pushLine n k e).port n).ply = some ⟨Line.beat d 3, 0, st, false, false, false, 0⟩ ∧
      ∃ x ∈ ((m.pushLine n k e).seq k).queue, x.id = e.id ∧ x.pushed = e.pushed + 1 ∧ x.beat = 0 := by
  have hend := m.lineEnd_delivered n k e st d c
  have hmem : e ∈ ((m.lineEnd n k e st d c).seq k).queue := by
    rw [hend.seq]
    exact SeqSt.pushNext_mem he
  rw [Mach.pushLine_lineEnd hv hb hl]
  refine ⟨?_, ?_⟩
  · rw [(Mach.showSeq_delivered _).port]
    show ((m.lineEnd n k e st d c).port n).ply = _
    rw [hend.port, Mach.pushBeat_ply, decide_eq_false hl]
  · rw [(Mach.showSeq_delivered _).seq]
    exact ⟨_, Mach.mem_queue_modEnt _ k e.id _ hmem rfl, rfl, rfl, rfl⟩

theorem Mach.unpin_rest (m : Mach) (us : List Nat) : m.unpin us = { m with map := (m.unpin us).map } := by
  unfold Mach.unpin
  induction us generalizing m with
  | nil => rfl
  | cons u us ih => exact (ih _).trans rfl

/-- CNT_ENTRIES of a list does not follow its deliveries, nor a port. -/
theorem cntEntries_key : ¬deliverKey k (SEQ.CNT_ENTRIES.key k) ∧ ¬clockKey (SEQ.CNT_ENTRIES.key k) ∧
    (n < 16 → ¬SEQ.CNT_ENTRIES.key k / 32768 = 16 + n) ∧ SEQ.CNT_ENTRIES.key k ≠ SEQ.DELIVER_LINES.key k := by
  simp only [deliverKey, clockKey, Field.key, Page.number, SEQ.CNT_ENTRIES, SEQ.DELIVER_LINES, Field.counter]
  omega

/-- The last beat of an entry: the entry goes, and is counted (R157, R159). -/
theorem Mach.pushLine_entEnd_spec {st : Nat} {d : Line} {c : Option LCopy} (hn : n < 16)
    (hv : m.pushValue k e e.pushed = (some (st, d, c), m)) (hb : e.beat = 3) (hl : e.pushed + 1 = e.lines) :
    ((m.pushLine n k e).port n).ply = some ⟨Line.beat d 3, 0, st, false, true, false, 0⟩ ∧
      (∀ x ∈ ((m.pushLine n k e).seq k).queue, x.id ≠ e.id) ∧
      (m.pushLine n k e).get SEQ.CNT_ENTRIES k = countUp (m.get SEQ.CNT_ENTRIES k) 1 % 2 ^ 64 := by
  obtain ⟨hdeliver, hclock, hport, hne⟩ := cntEntries_key (n := n) (k := k)
  have hend := m.lineEnd_delivered n k e st d c
  have hunpin := (m.lineEnd n k e st d c).unpin_rest e.pins
  rw [Mach.pushLine_entEnd hv hb hl]
  generalize (m.lineEnd n k e st d c).unpin e.pins = u at hunpin ⊢
  have huport : u.port n = (m.lineEnd n k e st d c).port n := by rw [hunpin]; rfl
  have huget : u.get SEQ.CNT_ENTRIES k = m.get SEQ.CNT_ENTRIES k := by
    rw [hunpin]
    show (m.lineEnd n k e st d c).get SEQ.CNT_ENTRIES k = _
    rw [hend.regs.2 _ _ hdeliver, (m.pushBeat_keptBut n _).2 _ _ (hport hn)]
  let v := ((u.modSeq k fun s => { s with queue := s.queue.filter fun x => x.id ≠ e.id }).count SEQ.CNT_ENTRIES k).put
    SEQ.DELIVER_LINES k (e.pushed + 1)
  have hshow : Delivered k v (v.showSeq k) := v.showSeq_delivered
  have hpair := (v.showSeq k).pairClock_clocked (k := n / 2) (by omega)
  refine ⟨?_, ?_, ?_⟩
  · rw [hpair.ply, hshow.port]
    show (u.port n).ply = _
    rw [huport, hend.port, Mach.pushBeat_ply, decide_eq_true hl]
  · rw [Mach.seq, hpair.loom, ← Mach.seq, hshow.seq]
    show ∀ x ∈ ((u.modSeq k _).seq k).queue, x.id ≠ e.id
    rw [Mach.seq_modSeq]
    simp
  · rw [hpair.regs.2 _ _ hclock, hshow.regs.2 _ _ hdeliver, Mach.get_put_ne _ _ hne, ← huget]
    exact Mach.get_put_same _ _ _ _
end

end Sys2Proof.Machine
end

section
namespace Sys2Proof.Laws
open Sys2Proof.Machine

/-- Settles O26: a push takes the branch that the list, the credit and the entry's next beat name, as does a change of the port's enable;
that est is said of first beats only is the model's choice (log entry 39). -/
theorem deliveryToAPort : Obligations.DeliveryToAPort := by
  intro s p4 k e n st list able
  have hn : n < 16 := p4.isLt
  have hexec := exec_plyPush s p4
  refine ⟨fun hl => ?noList, fun hl hidle => ?idle, fun hable hl he hgo => ⟨fun hm => ?mark, fun st' d c m' hm hv => ?line,
    fun m' hm hv => ?nothing⟩, fun a en ho => ⟨fun hen => ?on, fun hen hoff => ?stays, fun hen hon => ?stops⟩⟩
  case noList => exact completes_of_answer hexec (plyPush_noList hl)
  case idle =>
    refine completes_of_answer hexec (plyPush_idle hl (hidle.imp_left fun hnot => ?_))
    rw [← Bool.not_eq_true, s.m.pushable_iff]
    exact hnot
  case mark =>
    obtain ⟨f, hf⟩ := plyPush_mark hl ((s.m.pushable_iff n k).2 hable) he hgo hm
    have hshow := (((s.m.pushBeat n ⟨e.arg.setWidth 512, 1, 0, true, true, false, 0⟩).modSeq k f).showSeq_delivered (k := k))
    refine ⟨_, completes_of_answer hexec hf, ?_, ?_, ?_⟩
    · rw [hshow.regs.2 _ _ (plyCred_key hn)]
      exact s.m.pushBeat_credit n _
    · rw [hshow.port]
      exact s.m.pushBeat_ply n _
    · rw [hshow.rest]
      rfl
  case line =>
    obtain rfl := Mach.pushValue_some hv
    have hline := plyPush_line hl ((s.m.pushable_iff n k).2 hable) he hgo hm
    refine ⟨fun h0 hb => ?_, fun h0 hb => ?_, fun hb hlast => ?_, fun hb hlast _ => ?_⟩
    · exact completes_of_answer hexec (hline.trans (Mach.pushLine_first hv h0 hb))
    · exact completes_of_answer hexec (hline.trans (Mach.pushLine_next hv h0 hb))
    · exact ⟨_, completes_of_answer hexec hline, Mach.pushLine_lineEnd_spec hv he hb hlast⟩
    · exact ⟨_, completes_of_answer hexec hline, Mach.pushLine_entEnd_spec hn hv hb hlast⟩
  case nothing =>
    refine completes_of_answer hexec ((plyPush_line hl ((s.m.pushable_iff n k).2 hable) he hgo hm).trans ?_)
    rw [Mach.pushLine, hv]
  case on =>
    subst hen
    exact completes_of_answer (exec_portEnableWrite s a p4 1) ((Mach.viaCfg_open ho ..).trans rfl)
  case stays =>
    subst hen
    refine completes_of_answer (exec_portEnableWrite s a p4 0) ((Mach.viaCfg_open ho ..).trans ?_)
    rw [portEnableCmd, hoff]
    rfl
  case stops =>
    subst hen
    refine completes_of_answer (exec_portEnableWrite s a p4 0) ((Mach.viaCfg_open ho ..).trans ?_)
    rw [portEnableCmd, hon]
    rfl

end Sys2Proof.Laws
end

section
/-! SUPPORT. A request on its way through stages A and B: presented at the intake, metered, and shaped (chapters "Iresk client ports", R75,
and "Reeve: regulation", R363 to R369). -/
namespace Sys2Proof.Machine

/-! ### Meters that are off (R364, R367) -/

section
variable {m : Mach} {n c : Nat} {r : Req}

/-- With the class meter off and nobody waiting at it, a request that is not red goes on to its class's shaper. -/
theorem Mach.toClass_off (hcl : m.rflag (REEVE.CL_METER_EN c) = false) (hcq : m.reeve.cq.get c = []) (id : Nat) {col : Color}
    (hcol : col ≠ .red) (len : Nat) : m.toClass n id c col len = m.toShaper n id c col := by
  simp [Mach.toClass, Mach.classStep, hcl, hcq, hcol]

theorem Mach.portStep_off (hpm : m.rflag (REEVE.PM_ENABLE n) = false) (hcl : m.rflag (REEVE.CL_METER_EN r.cls) = false)
    (hcq : m.reeve.cq.get r.cls = []) (held : Bool) : m.portStep n r held = m.toShaper n r.id r.cls .green := by
  simp only [Mach.portStep, hpm, Bool.not_false, if_true]
  exact Mach.toClass_off hcl hcq r.id (by decide) _

/-- A count leaves what the other fields of Reeve read in this cycle. -/
theorem Mach.rflag_count_ne (m : Mach) {f g : Field} {n : Nat} (h : g.key 0 ≠ f.key n) (k : Nat) : (m.count f n k).rflag g = m.rflag g := by
  have hget : (m.count f n k).get g = m.get g := Mach.get_put_ne _ _ h
  unfold Mach.rflag Mach.rget
  rw [hget]
  rfl

/-- The held request of a port whose meters are off passes on to its class's shaper, and the cycles of its hold are counted (R365). -/
theorem portMeterRelease_off (hfind : ((m.port n).reqs.find? fun x => x.phase == .portHeld) = some r)
    (hup : m.fabricUp = true) (hpm : m.rflag (REEVE.PM_ENABLE n) = false) (hcl : m.rflag (REEVE.CL_METER_EN r.cls) = false)
    (hcq : m.reeve.cq.get r.cls = []) : portMeterRelease n m =
      (m.count REEVE.CNT_HOLD_CYCLES 0 (m.now / 8 - r.heldAt / 8)).toShaper n r.id r.cls .green := by
  have hkeys : (REEVE.PM_ENABLE n).key 0 ≠ REEVE.CNT_HOLD_CYCLES.key 0 ∧
      (REEVE.CL_METER_EN r.cls).key 0 ≠ REEVE.CNT_HOLD_CYCLES.key 0 := by
    simp only [Field.key, REEVE.PM_ENABLE, REEVE.CL_METER_EN, REEVE.CNT_HOLD_CYCLES, Field.counter, Page.number]
    omega
  simp only [portMeterRelease, hfind, hup, hpm, Bool.not_false, Bool.true_or, Bool.and_self, if_true]
  exact Mach.portStep_off ((m.rflag_count_ne hkeys.1 _).trans hpm) ((m.rflag_count_ne hkeys.2 _).trans hcl) hcq true

theorem classMeterRelease_off {p id : Nat} {rest : List (Nat × Nat)} (hcq : m.reeve.cq.get c = (p, id) :: rest)
    (hreq : m.req? p id = some r) (hup : m.fabricUp = true) (hcl : m.rflag (REEVE.CL_METER_EN c) = false) :
    classMeterRelease c m = (m.modReeve fun x => { x with cq := x.cq.set c rest }).toShaper p id c r.color := by
  have hcl' : (m.modReeve fun x => { x with cq := x.cq.set c rest }).rflag (REEVE.CL_METER_EN c) = false := hcl
  simp [classMeterRelease, hcq, hreq, hup, hcl, Mach.classStep, hcl']

/-! ### Shapers (R368, R369) -/

section
variable {p id : Nat} {rest : List (Nat × Nat)} (hfifo : (m.shaper c).fifo = (p, id) :: rest) (hreq : m.req? p id = some r)
include hfifo hreq

theorem shaperRelease_charged (hup : m.fabricUp = true) (hstr : r.stream = none) (hen : m.rflag (REEVE.CL_SHAPE_EN c) = true)
    (hcredit : 0 ≤ (m.shaper c).credit) (hrate : m.rget (REEVE.CL_RATE c) ≠ 0) : shaperRelease c m =
      (m.setShaper c { m.shaper c with fifo := rest, credit := (m.shaper c).credit - m.reqLen r * 65536 }).splitRequest p r := by
  simp [shaperRelease, hfifo, hreq, hup, hen, hstr, hrate, Int.not_lt.2 hcredit]

theorem shaperRelease_free (hup : m.fabricUp = true) (hstr : r.stream = none) (hen : m.rflag (REEVE.CL_SHAPE_EN c) = false) :
    shaperRelease c m = (m.setShaper c { m.shaper c with fifo := rest, credit := 0 }).splitRequest p r := by
  simp [shaperRelease, hfifo, hreq, hup, hen, hstr]

theorem shaperRelease_inDebt (hen : m.rflag (REEVE.CL_SHAPE_EN c) = true) (hcredit : (m.shaper c).credit < 0) : shaperRelease c m = m := by
  simp [shaperRelease, hfifo, hreq, hen, hcredit]
end

theorem debtClear_inDebt (hcredit : (m.shaper c).credit < 0) : debtClear c m =
    (m.setShaper c { m.shaper c with credit := 0 }).count REEVE.CNT_DEBT_CLEARED 0 ((-(m.shaper c).credit + 65535) / 65536).toNat := by
  simp [debtClear, hcredit]

/-! ### Presentation (R75) -/

/-- The request `r` has been presented: it takes its place in the order of presentations. -/
def Mach.present (m : Mach) (n : Nat) (r : Req) : Mach :=
  let m1 := (m.modPort n fun p => { p with presented := (p.presented + 1) % 64 }).modReq n r.id fun (x : Req) =>
    { x with stall := none, pseq := m.serial }
  { m1 with serial := m1.serial + 1 }

@[simp] theorem Mach.present_rflag (m : Mach) (n : Nat) (r : Req) (g : Field) : (m.present n r).rflag g = m.rflag g := rfl
@[simp] theorem Mach.present_reeve (m : Mach) (n : Nat) (r : Req) : (m.present n r).reeve = m.reeve := rfl

theorem Mach.present_presented (m : Mach) (n : Nat) (r : Req) : ((m.present n r).port n).presented = ((m.port n).presented + 1) % 64 := by
  show ((Mach.modReq _ n r.id _).port n).presented = _
  rw [Mach.modReq, Mach.port_modPort_same, Mach.port_modPort_same]

theorem Mach.present_reqs (m : Mach) {n : Nat} {r : Req} (hr : r ∈ (m.port n).reqs) :
    ∃ x ∈ ((m.present n r).port n).reqs, x.id = r.id ∧ x.pseq = m.serial := by
  have hreqs : r ∈ ((m.modPort n fun p => { p with presented := (p.presented + 1) % 64 }).port n).reqs := by
    rw [Mach.port_modPort_same]
    exact hr
  exact ⟨_, Mach.mem_reqs_modReq _ n r.id (fun (x : Req) => { x with stall := none, pseq := m.serial }) hreqs rfl, rfl, rfl⟩

/-- With no request held at the port's meter and none stalled behind a range, the chosen request is presented. -/
theorem intakePresent_chosen (hup : m.fabricUp = true) (hheld : ∀ x ∈ (m.port n).reqs, x.phase ≠ .portHeld)
    (hrange : ∀ x ∈ (m.port n).intake, m.heldRange n x = none)
    (hr : m.presentChoice n ((m.port n).intake.filter (m.presentable n (m.port n).intake)) = some r) : intakePresent n m =
      (if ordering r.op then (m.present n r).modReq n r.id fun (x : Req) =>
          { x with phase := .order, covers := if r.op = opFence then [] else m.coverOf n r }
        else (m.present n r).portStep n { r with pseq := m.serial } false).showPort n := by
  have hnone : ((m.port n).reqs.any fun r => r.phase == .portHeld) = false := by simpa using hheld
  have hstalled : (((m.port n).intake.filter (m.presentable n (m.port n).intake)).filter fun r => (m.heldRange n r).isSome) = [] :=
    List.filter_eq_nil_iff.2 fun x hx => by simp [hrange x (List.mem_of_mem_filter hx)]
  have hfree : (((m.port n).intake.filter (m.presentable n (m.port n).intake)).filter fun r => (m.heldRange n r).isNone) =
      (m.port n).intake.filter (m.presentable n (m.port n).intake) :=
    List.filter_eq_self.2 fun x hx => by simp [hrange x (List.mem_of_mem_filter hx)]
  simp only [intakePresent, hup, hnone, hstalled, hfree, hr, List.foldl_nil, Bool.not_true, Bool.or_self, Bool.false_eq_true, if_false]
  rfl

/-- Bringing a shaper's credit up to now leaves its queue. -/
theorem Shaper.advance_fifo (s : Shaper) (now rate cap : Nat) (en : Bool) : (s.advance now rate cap en).fifo = s.fifo := by
  unfold Shaper.advance
  split <;> rfl

theorem Mach.toShaper_fifo (m : Mach) (n id c : Nat) (col : Color) :
    ((m.toShaper n id c col).reeve.shapers.get c).fifo = (m.reeve.shapers.get c).fifo ++ [(n, id)] := by
  show (Tab.get (Tab.set m.reeve.shapers c { m.shaper c with fifo := (m.shaper c).fifo ++ [(n, id)] }) c).fifo = _
  rw [Tab.get_set_same, Mach.shaper, Shaper.advance_fifo]

theorem Mach.mem_reqs_toShaper (m : Mach) {n id : Nat} {x : Req} (hx : x ∈ (m.port n).reqs) (hid : x.id = id) (c : Nat) (col : Color) :
    { x with phase := .shaper, color := col, rcls := c } ∈ ((m.toShaper n id c col).port n).reqs :=
  Mach.mem_reqs_modReq (m.setShaper c { m.shaper c with fifo := (m.shaper c).fifo ++ [(n, id)] }) n id
    (fun x => { x with phase := .shaper, color := col, rcls := c }) hx hid
end

end Sys2Proof.Machine
end

section
namespace Sys2Proof.Laws
open Sys2Proof.Machine

/-- Settles O13: what is presented waits in its order or joins its class's shaper, and with the meters off what they hold goes the same
way; that credit is kept in 2^-16 byte, and the debt forgiven rounded up, is the model's choice (log entry 29). -/
theorem intakeMetersAndShapers : Obligations.IntakeMetersAndShapers := by
  refine ⟨⟨?present, ?portMeter, ?classMeter⟩, ?shapers⟩
  case present =>
    intro s port r n q hup hheld hrange hr hmem
    have hn : n < 16 := port.isLt
    have ht := intakePresent_chosen hup hheld hrange hr
    obtain ⟨x, hx, hid, hseq⟩ := s.m.present_reqs hmem
    refine ⟨fun hord => ?order, fun hord hpm hcl hcq => ?shaper⟩
    case order =>
      rw [if_pos hord] at ht
      have hmod := Mach.mem_reqs_modReq _ n r.id
        (fun (x : Req) => { x with phase := .order, covers := if r.op = opFence then [] else s.m.coverOf n r }) hx hid
      have hshow := Mach.showPort_clocked ((s.m.present n r).modReq n r.id fun (x : Req) =>
        { x with phase := .order, covers := if r.op = opFence then [] else s.m.coverOf n r }) hn
      refine ⟨_, completes_of_answer (exec_intakePresent s port) ht, hshow.serial, ?_, ?_⟩
      · rw [hshow.presented, ← s.m.present_presented n r, Mach.modReq, Mach.port_modPort_same]
      · rw [hshow.reqs]
        exact ⟨_, hmod, hid, rfl, hseq⟩
    case shaper =>
      have hstep := Mach.portStep_off (m := s.m.present n r) (r := { r with pseq := s.m.serial }) hpm hcl hcq false
      rw [if_neg (by simp [hord]), hstep] at ht
      have hshaped := Mach.mem_reqs_toShaper _ hx hid r.cls .green
      have hshow := ((s.m.present n r).toShaper n r.id r.cls .green).showPort_clocked hn
      refine ⟨_, completes_of_answer (exec_intakePresent s port) ht, hshow.serial, ?_, ?_⟩
      · rw [hshow.shapers, Mach.toShaper_fifo, Mach.present_reeve]
      · rw [hshow.reqs]
        exact ⟨_, hshaped, hid, rfl, rfl, hseq⟩
  case portMeter =>
    exact fun s port r hfind hup hpm hcl hcq => completes_of_answer (exec_portMeterHoldRelease s port)
      (portMeterRelease_off hfind hup hpm hcl hcq)
  case classMeter =>
    exact fun s c p id rest r hcq hreq hup hcl => completes_of_answer (exec_classMeterHoldRelease s c)
      (classMeterRelease_off hcq hreq hup hcl)
  case shapers =>
    intro s c a sh
    refine ⟨fun p id rest r hfifo hreq hup hstr => ⟨fun hen hcredit hrate => ?charged, fun hen => ?free, fun hen hcredit => ?inDebt⟩,
      fun ho hcredit => ?debt⟩
    case charged => exact completes_of_answer (exec_shaperRelease s c) (shaperRelease_charged hfifo hreq hup hstr hen hcredit hrate)
    case free => exact completes_of_answer (exec_shaperRelease s c) (shaperRelease_free hfifo hreq hup hstr hen)
    case inDebt => exact completes_of_answer (exec_shaperRelease s c) (shaperRelease_inDebt hfifo hreq hen hcredit)
    case debt =>
      exact completes_of_answer (exec_debtClear s a c)
        ((Mach.viaCfg_open ho ..).trans (debtClear_inDebt (m := s.m.seen a.toNat) hcredit))

end Sys2Proof.Laws
end

section
/-! SUPPORT. What the engines under a client's line do aside from it: line requests queued and withdrawn, errors reported, map words written
and ladders climbed. None of it touches a port, a stream or the time, and of the registers only the engines' own change. -/
namespace Sys2Proof.Machine

/-- The registers that the engines write: those of ERR, GLN and MAP, CNT_EST, the longest waits of stage C, and those of the lists. -/
def engineKey (q : Nat) : Bool :=
  (6 < q / 32768 && q / 32768 < 10) || q == ALM.CNT_EST.key 0 || (36 ≤ q / 32768 && q / 64 % 4 == 2) || 144 ≤ q / 32768

theorem engineKey_iff (q : Nat) : engineKey q = true ↔
    (6 < q / 32768 ∧ q / 32768 < 10) ∨ q = ALM.CNT_EST.key 0 ∨ (36 ≤ q / 32768 ∧ q / 64 % 4 = 2) ∨ 144 ≤ q / 32768 := by
  simp [engineKey, or_assoc]

/-- The registers that the engines may change: with `w`, DIR_COUNT and the events of the Hearth tier too. -/
def asideKey (w : Bool) (q : Nat) : Prop := engineKey q = true ∨ (w = true ∧ (q = HT.DIR_COUNT.key 0 ∨ q ∈ eventKeys .ht 0))

/-- From `m` to `t` the engines have worked: ports, streams, order, time and the protection of every namespace stand, an unarmed flip of the
SRAMs stays unarmed, and without `w` the Hearth tier stands too. -/
structure Aside (w : Bool) (m t : Mach) : Prop where
  rest : t = { m with
    regs := t.regs, serial := t.serial, alm := t.alm, sc := t.sc, rota := t.rota, ns := t.ns, ht := t.ht, map := t.map, err := t.err,
    zml := t.zml, loom := t.loom }
  ht : w = false → t.ht = m.ht
  regs : KeptBut (asideKey w) m t
  arm : m.flag ERR.FLIP_S_ARM = false → t.flag ERR.FLIP_S_ARM = false
  prot : ∀ k, (t.nsDesc k).prot = (m.nsDesc k).prot

section
variable {w : Bool} {a b c m : Mach}

theorem Aside.refl (w : Bool) (m : Mach) : Aside w m m := ⟨rfl, fun _ => rfl, KeptBut.refl _ _, id, fun _ => rfl⟩

theorem Aside.trans (h : Aside w a b) (g : Aside w b c) : Aside w a c where
  rest := by rw [g.rest, h.rest]
  ht hw := (g.ht hw).trans (h.ht hw)
  regs := h.regs.trans g.regs
  arm ha := g.arm (h.arm ha)
  prot k := (g.prot k).trans (h.prot k)

theorem Aside.foldl {α : Type} {f : Mach → α → Mach} (l : List α) (hf : ∀ x m, Aside w m (f m x)) (m : Mach) : Aside w m (l.foldl f m) := by
  induction l generalizing m with
  | nil => exact Aside.refl w m
  | cons x l ih => exact (hf x m).trans (ih _)

/-- The same for a fold that carries a figure beside the machine. -/
theorem Aside.foldl_snd {α β : Type} {f : β × Mach → α → β × Mach} (l : List α) (hf : ∀ x p, Aside w p.2 (f p x).2) (p : β × Mach) :
    Aside w p.2 (l.foldl f p).2 := by
  induction l generalizing p with
  | nil => exact Aside.refl w p.2
  | cons x l ih => exact (hf x p).trans (ih _)

/-- A step that is taken or left out. -/
theorem Aside.ite {p : Prop} [Decidable p] (h : Aside w a b) (g : Aside w a c) : Aside w a (if p then b else c) := by
  split
  · exact h
  · exact g

/-- A change of the engines' own state changes no register. -/
theorem Aside.of_state (hr : b = { a with
    serial := b.serial, alm := b.alm, sc := b.sc, rota := b.rota, ht := b.ht, map := b.map, err := b.err, zml := b.zml, loom := b.loom }) (hh : w = false → b.ht = a.ht) : Aside w a b where
  rest := by rw [hr]
  ht := hh
  regs := KeptBut.of_regs (by rw [hr]) (by rw [hr])
  arm ha := by rw [hr]; exact ha
  prot k := by rw [hr]; rfl

theorem Mach.put_aside (m : Mach) {f : Field} {n : Nat} (hk : asideKey w (f.key n)) (ha : ERR.FLIP_S_ARM.key 0 ≠ f.key n)
    (v : Nat) : Aside w m (m.put f n v) where
  rest := rfl
  ht _ := rfl
  regs := m.put_keptBut hk v
  arm h := (Mach.flag_put_ne _ _ ha).trans h
  prot _ := rfl

theorem Mach.event_aside (m : Mach) {p : Page} {n : Nat} (hk : ∀ q ∈ eventKeys p n, asideKey w q)
    (ha : ERR.FLIP_S_ARM.key 0 ∉ eventKeys p n) (b : Nat) : Aside w m (m.event p n b) where
  rest := by rw [(m.event_onlyRegs (K := fun _ => True) (fun _ _ => trivial) b).1]
  ht _ := by rw [Mach.event_ht]
  regs := m.event_keptBut hk b
  arm h := by rw [Mach.flag, Mach.event_get_ne _ _ ha]; exact h
  prot k := by rw [Mach.nsDesc, Mach.event_ns]; rfl

section
variable (h : Aside w a b)
include h

theorem Aside.put {f : Field} {n v : Nat} (hk : engineKey (f.key n) = true := by decide) (ha : ERR.FLIP_S_ARM.key 0 ≠ f.key n := by decide) :
    Aside w a (b.put f n v) := h.trans (b.put_aside (.inl hk) ha v)

theorem Aside.setFlag {f : Field} {n : Nat} {v : Bool} (hk : engineKey (f.key n) = true := by decide)
    (ha : ERR.FLIP_S_ARM.key 0 ≠ f.key n := by decide) : Aside w a (b.setFlag f n v) := h.put hk ha

theorem Aside.count {f : Field} {n v : Nat} (hk : engineKey (f.key n) = true := by decide)
    (ha : ERR.FLIP_S_ARM.key 0 ≠ f.key n := by decide) : Aside w a (b.count f n v) := h.put hk ha

theorem Aside.errEvent {v : Nat} : Aside w a (b.event .err 0 v) :=
  h.trans (b.event_aside (fun q hq => .inl ((by decide : ∀ q ∈ eventKeys .err 0, engineKey q = true) q hq)) (by decide) v)

theorem Aside.mapEvent {v : Nat} : Aside w a (b.event .map 0 v) :=
  h.trans (b.event_aside (fun q hq => .inl ((by decide : ∀ q ∈ eventKeys .map 0, engineKey q = true) q hq)) (by decide) v)

theorem Aside.modSc {f : StageC → StageC} : Aside w a (b.modSc f) := h.trans (Aside.of_state rfl fun _ => rfl)
theorem Aside.modAlm {f : AlmSt → AlmSt} : Aside w a (b.modAlm f) := h.trans (Aside.of_state rfl fun _ => rfl)
theorem Aside.modMap {f : MapSt → MapSt} : Aside w a (b.modMap f) := h.trans (Aside.of_state rfl fun _ => rfl)
theorem Aside.modErr {f : ErrSt → ErrSt} : Aside w a (b.modErr f) := h.trans (Aside.of_state rfl fun _ => rfl)
theorem Aside.modLoom {f : LoomSt → LoomSt} : Aside w a (b.modLoom f) := h.trans (Aside.of_state rfl fun _ => rfl)
theorem Aside.modNs {n : Nat} {f : NsDesc → NsDesc} (hf : ∀ d, (f d).prot = d.prot) : Aside w a (b.modNs n f) :=
  h.trans {
    rest := rfl
    ht := fun _ => rfl
    regs := KeptBut.of_regs rfl rfl
    arm := id
    prot := fun k => by
      by_cases hk : k = n
      · rw [hk, Mach.nsDesc, Mach.modNs, Tab.get_upd_same, hf]
        rfl
      · rw [Mach.nsDesc, Mach.modNs, Tab.get_upd_ne _ hk]
        rfl }

theorem Aside.serial {n : Nat} : Aside w a { b with serial := n } := h.trans (Aside.of_state rfl fun _ => rfl)

theorem Aside.judgeEst : Aside w a b.judgeEst := Aside.ite h.count h
end

/-! ### Errors reported (R248, R253) -/

section
variable (m)

theorem Mach.showRing_aside : Aside w m m.showRing := (((Aside.refl w m).put.put).put).put

theorem Mach.ringAdd_aside (r : RingInfo) : Aside w m (m.ringAdd r) := by
  unfold Mach.ringAdd
  extract_lets i e m1 m2 m3
  have h1 : Aside w m m1 := Aside.of_state rfl fun _ => rfl
  have h2 : Aside w m m2 := h1.put.trans (Mach.showRing_aside _)
  have h3 : Aside w m m3 := Aside.ite h2.count (Aside.ite h2.count (Aside.ite h2.count h2))
  exact Aside.ite h3.errEvent.count h3

theorem Mach.poisoned_aside (k : Nat) : Aside w m (m.poisoned k) := (Aside.refl w m).count.errEvent

theorem Mach.sramFail_aside (r : RingInfo) : Aside w m (m.sramFail r) :=
  (Aside.refl w m).count.errEvent.judgeEst.trans (Mach.ringAdd_aside _ _)

/-! ### Copies in Loom (R159, R169) -/

omit m in
theorem specStale_key (k : Nat) : engineKey (SEQ.SPEC_STALE.key k) = true ∧ ERR.FLIP_S_ARM.key 0 ≠ SEQ.SPEC_STALE.key k := by
  rw [engineKey_iff]
  simp only [Field.key, Page.number, SEQ.SPEC_STALE, ERR.FLIP_S_ARM, Field.counter]
  omega

theorem Mach.loomDiscard_aside (l : Nat) (flying : Bool) : Aside w m (m.loomDiscard l flying) := by
  unfold Mach.loomDiscard
  refine (Aside.refl w m).modLoom.trans (Aside.foldl _ (fun c x => ?_) _)
  exact (Aside.refl w x).count (specStale_key c.seq).1 (specStale_key c.seq).2

theorem Mach.poisonLine_aside (l : Nat) : Aside w m (m.poisonLine l) := (m.loomDiscard_aside l false).trans (Mach.poisoned_aside _ _)

/-! ### Line requests queued and withdrawn (R370, R373) -/

theorem Mach.enqueue_aside (k : Nat) (q : LineReq) : Aside w m (m.enqueue k q) := by
  unfold Mach.enqueue
  exact (Aside.refl w m).modSc

theorem Mach.hQueue_aside (rq : Nat) (p : Nat × Nat) (write : Bool) (job : Job) (port : Option Nat) (green : Bool) :
    Aside w m (m.hQueue rq p write job port green) := (m.enqueue_aside _ _).serial

theorem Mach.mQueue_aside (c : Nat) (rx : Bool) (rq : Nat) (md : Media) (job : Job) (port : Option Nat) (green : Bool) :
    Aside w m (m.mQueue c rx rq md job port green) := (m.enqueue_aside _ _).serial

omit m in
theorem maxWait_key (k r : Nat) : engineKey ((ROTA.MAXWAIT (arbPage k) r).key (arbInst k)) = true ∧
    ERR.FLIP_S_ARM.key 0 ≠ (ROTA.MAXWAIT (arbPage k) r).key (arbInst k) := by
  have hpage : 36 ≤ (arbPage k).number (arbInst k) := by
    unfold arbPage
    split <;> simp only [Page.number] <;> omega
  have hkey : (ROTA.MAXWAIT (arbPage k) r).key (arbInst k) = (arbPage k).number (arbInst k) * 32768 + 64 * (0x102 + 4 * r) := by
    simp only [Field.key, ROTA.MAXWAIT]
    omega
  have harm : ERR.FLIP_S_ARM.key 0 < 32768 * 8 := by decide
  rw [engineKey_iff, hkey]
  omega

theorem Mach.showMaxWait_aside (k : Nat) (q : LineReq) : Aside w m (m.showMaxWait k q) :=
  Aside.ite ((Aside.refl w m).put (maxWait_key k q.rq).1 (maxWait_key k q.rq).2) (Aside.refl w m)

theorem Mach.withdraw_aside (p : LineReq → Bool) : Aside w m (m.withdraw p) := by
  unfold Mach.withdraw
  extract_lets ids gone rd flying m1 mark drop m2 ended
  have h1 : Aside w m m1 := (Aside.refl w m).modSc.trans (Aside.foldl _ (fun x y => y.showMaxWait_aside _ _) _)
  exact (h1.trans (Aside.of_state rfl fun _ => rfl)).trans (Aside.of_state rfl fun _ => rfl)

theorem Mach.recordLate_aside (k : Nat) : Aside w m (m.recordLate k) := Aside.ite (Aside.refl w m).modAlm (Aside.refl w m)

theorem Mach.unitsEnded_aside (m0 : Mach) (kind : Nat) : Aside w m (m.unitsEnded m0 kind) :=
  Aside.foldl _ (fun _ x => (Aside.refl w x).modAlm.trans (Aside.foldl _ (fun _ y => y.recordLate_aside _) _)) m


/-! ### What a new value of a line withdraws (R246, R250) -/

theorem Mach.gleanSub_aside (key n : Nat) : Aside w m (m.gleanSub key n) := (Aside.refl w m).modErr

theorem Mach.setBad_aside (l : List Nat) : Aside w m (m.setBad l) := (Aside.refl w m).modErr.put.put

omit m in
theorem gleanField_key (g : Nat) : engineKey ((gleanField g).key 0) = true ∧ ERR.FLIP_S_ARM.key 0 ≠ (gleanField g).key 0 := by
  unfold gleanField
  split
  · decide
  · split <;> decide

theorem Mach.gleanDropped_aside (gs : List (Nat × Nat)) : Aside w m (m.gleanDropped gs) := by
  unfold Mach.gleanDropped
  extract_lets ws
  refine Aside.ite (Aside.refl w m) (Aside.trans (Aside.foldl _ (fun key x => ?_) _) (Mach.unitsEnded_aside _ m 2))
  have hf := gleanField_key (((ws.filter fun g => g.1 = key).head?.map (·.2)).getD 0)
  exact ((((Aside.refl w x).put hf.1 hf.2).put).trans (Mach.gleanSub_aside _ _ _)).trans (Mach.setBad_aside _ _)

theorem Mach.dropRepairs_aside (key : Nat) : Aside w m (m.dropRepairs key) := by
  unfold Mach.dropRepairs
  exact Aside.ite (Aside.refl w m) ((m.withdraw_aside _).trans (Mach.gleanDropped_aside _ _))

theorem Mach.dropRewrite_aside (uk key : Nat) : Aside w m (m.dropRewrite uk key) := by
  unfold Mach.dropRewrite
  exact Aside.ite ((Aside.ite (Aside.refl w m) (m.withdraw_aside _)).modMap.trans (Mach.unitsEnded_aside _ m 0)) (Aside.refl w m)

theorem Mach.markReads_aside (hit : Nat → Bool → Bool) : Aside w m (m.markReads hit) := Aside.of_state rfl fun _ => rfl

theorem Mach.overtake_aside (l : Nat) (par : Bool) : Aside w m (m.overtake l par) :=
  ((m.markReads_aside _).trans (Mach.dropRepairs_aside _ _)).trans (Mach.dropRewrite_aside _ _ _)
end
end
end Sys2Proof.Machine
end

section
/-! SUPPORT. The map words and the tree of pages above them, the Hearth cells and the dirty-line directory, and the ladders of a read: each
works aside from the ports and streams. -/
namespace Sys2Proof.Machine

section
variable {w : Bool} (m : Mach)

/-! ### The delta log and checkpoints (R195, R196) -/

theorem Mach.storeProg_aside (pair seg pos : Nat) (d : Line) (rq : Nat) (job : Job) :
    Aside w m (m.storeProg pair seg pos d rq job).2 := Aside.foldl _ (fun _ x => x.mQueue_aside ..) m

theorem Mach.spaceProg_aside (x : Nat) (d : Line) (rq : Nat) (job : Job) : Aside w m (m.spaceProg x d rq job).2 := m.storeProg_aside ..

theorem Mach.setFill_aside (v : Nat) : Aside w m (m.setFill v) := (Aside.refl w m).put.setFlag

theorem Mach.deltaLineOut_aside : Aside w m m.deltaLineOut := by
  unfold Mach.deltaLineOut
  exact Aside.ite (Aside.refl w m) ((m.spaceProg_aside ..).modMap.trans (Mach.setFill_aside _ _))

theorem Mach.deltaStall_aside : Aside w m m.deltaStall := (Aside.refl w m).modMap

theorem Mach.deltaPut_aside (kind ns idx v : Nat) : Aside w m (m.deltaPut kind ns idx v) := by
  unfold Mach.deltaPut
  extract_lets d r m1
  have h1 : Aside w m m1 := (Aside.refl w m).modMap.trans (Mach.setFill_aside _ _)
  exact Aside.ite (h1.trans m1.deltaLineOut_aside) h1

theorem Mach.ledgerWrite_aside (c s pos : Nat) : Aside w m (m.ledgerWrite c s pos) := m.spaceProg_aside ..

theorem Mach.ckptPageWrite_aside (pg : Nat) : Aside w m (m.ckptPageWrite pg).2 := by
  unfold Mach.ckptPageWrite
  refine Aside.foldl_snd _ (fun j p => ?_) (0, m)
  exact p.2.spaceProg_aside ..

theorem Mach.ckptStart_aside : Aside w m m.ckptStart := by
  unfold Mach.ckptStart
  refine Aside.ite (Aside.refl w m) (Aside.ite (Aside.refl w m).setFlag ?_)
  extract_lets fill m1 pages ledger r m2 m3
  have h1 : Aside w m m1 := (m.deltaPut_aside ..).trans (Mach.deltaLineOut_aside _)
  have hr : Aside w m r.2 := by
    refine h1.trans (Aside.foldl_snd _ (fun pg p => ?_) (0, m1))
    exact p.2.ckptPageWrite_aside pg
  have h2 : Aside w m m2 := hr.trans (Aside.foldl _ (fun _ x => x.ledgerWrite_aside ..) _)
  have h3 : Aside w m m3 := h2.modMap.put
  exact Aside.ite h3.mapEvent.setFlag h3

theorem Mach.deltaCrossed_aside (m0 : Mach) : Aside w m (m.deltaCrossed m0) := by
  unfold Mach.deltaCrossed
  exact Aside.ite ((Aside.refl w m).mapEvent.trans (Mach.ckptStart_aside _)) (Aside.refl w m)

theorem Mach.delta_aside (kind ns idx v : Nat) : Aside w m (m.delta kind ns idx v).2 :=
  (m.deltaPut_aside ..).trans (Mach.deltaCrossed_aside _ _)

/-! ### Cells of Hearth (R238, R246) -/

theorem Aside.modHt {a b : Mach} (h : Aside true a b) {f : HtSt → HtSt} : Aside true a (b.modHt f) :=
  h.trans (Aside.of_state rfl (by simp))

theorem Aside.dirCount {a b : Mach} (h : Aside true a b) {v : Nat} : Aside true a (b.put HT.DIR_COUNT 0 v) :=
  h.trans (b.put_aside (.inr ⟨rfl, .inl rfl⟩) (by decide) v)

theorem Aside.htEvent {a b : Mach} (h : Aside true a b) {v : Nat} : Aside true a (b.event .ht 0 v) :=
  h.trans (b.event_aside (fun _ hq => .inr ⟨rfl, .inr hq⟩) (by decide) v)

theorem Mach.hWrite_aside (p : Nat × Nat) (line : Nat) (l : HLine) : Aside true m (m.hWrite p line l) := by
  unfold Mach.hWrite
  extract_lets hit mask t l' m1
  have h1 : Aside true m m1 := (Aside.refl true m).modHt
  exact Aside.ite h1.setFlag.errEvent h1

theorem Mach.homeEmpty_aside (p : Nat × Nat) : Aside true m (m.homeEmpty p) := m.hWrite_aside ..

theorem Mach.setDir_aside (e : Nat) (d : DirEnt) : Aside true m (m.setDir e d) := (Aside.refl true m).modHt.dirCount

theorem Mach.dirFreeEnt_aside (e : Nat) : Aside true m (m.dirFreeEnt e) := (m.setDir_aside e default).modHt

/-! ### Map words (R186 to R190) -/

theorem Mach.mapCell_aside (pg j : Nat) : Aside true m (m.mapCell pg j) :=
  Aside.foldl _ (fun _ x => (x.hWrite_aside ..).trans (Mach.hQueue_aside ..)) m

theorem Mach.showWarm_aside : Aside w m m.showWarm := (Aside.refl w m).setFlag

theorem Mach.hmapAdd_aside (pg : Nat) : Aside true m (m.hmapAdd pg) :=
  ((Aside.refl true m).modMap.trans (Mach.showWarm_aside _)).trans (Aside.foldl _ (fun _ x => x.mapCell_aside ..) _)

theorem Mach.poolTake_aside : Aside w m m.poolTake.2 := by
  unfold Mach.poolTake
  dsimp only
  exact (Aside.refl w m).modMap

theorem Mach.sramTouch_aside (key : Nat) : Aside w m (m.sramTouch key) := by
  unfold Mach.sramTouch
  exact (Aside.refl w m).modMap

theorem Mach.dirtyPage_aside (pg : Nat) : Aside w m (m.dirtyPage pg) := (Aside.refl w m).modMap

/-- An armed flip of an SRAM strikes and is armed no more; one that is not armed does nothing (R255). -/
theorem Mach.flipS_aside (ram : Nat) : Aside w m (m.flipS ram).2 := by
  unfold Mach.flipS
  split
  · have hoff : Aside w m (m.setFlag ERR.FLIP_S_ARM 0 false) := {
      rest := rfl
      ht := fun _ => rfl
      regs := m.setFlag_keptBut (.inl (by decide)) false
      arm := fun _ => Mach.flag_setFlag_same _ _ _ _ (by decide)
      prot := fun _ => rfl }
    dsimp only
    exact hoff.errEvent
  · exact Aside.refl w m

theorem Mach.wordWrite_aside (key : Nat) : Aside true m (m.wordWrite key) := by
  unfold Mach.wordWrite
  extract_lets f m1 m2 p
  have h1 : Aside true m m1 := (m.flipS_aside 1).trans (Mach.sramTouch_aside _ _)
  have h2 : Aside true m m2 := Aside.ite h1.modMap h1
  exact Aside.ite (h2.trans (Mach.mapCell_aside _ _ _)) h2

theorem Mach.entCached_aside (uk : Nat) : Aside true m (m.entCached uk) := (m.sramTouch_aside _).trans (Mach.wordWrite_aside _ _)

theorem Mach.setSeg_aside (c s : Nat) (x : SegSt) : Aside w m (m.setSeg c s x) := (Aside.refl w m).modMap

theorem Mach.freeSegs_aside (e : Nat) : Aside w m (m.freeSegs e) :=
  Aside.foldl _ (fun c x => (Aside.ite (Aside.refl w x) (x.setSeg_aside ..)).count) m

theorem Mach.dropUnit_aside (uk : Nat) : Aside w m (m.dropUnit uk) := (Aside.refl w m).modMap

theorem Mach.clearWord_aside (pg ns idx : Nat) : Aside true m (m.clearWord pg ns idx) :=
  ((m.dirtyPage_aside _).trans (Mach.wordWrite_aside _ _)).trans (Mach.delta_aside ..)

theorem Mach.reclaimRoot_aside (ns root lo hi : Nat) : Aside true m (m.reclaimRoot ns root lo hi) := by
  unfold Mach.reclaimRoot
  extract_lets live ks m1 m1' pages m2 v
  have hunit : ∀ k (x : Mach), Aside true x (((x.places k).foldl (fun (m : Mach) e => m.freeSegs e) x).dropUnit k) := fun k x =>
    (Aside.foldl _ (fun _ y => y.freeSegs_aside _) x).trans (Mach.dropUnit_aside _ _)
  have h1 : Aside true m m1 := Aside.foldl _ (fun k x => Aside.ite ((hunit k x).trans (Mach.clearWord_aside ..)) (hunit k x)) m
  have h1' : Aside true m m1' := (h1.trans (Mach.unitsEnded_aside _ m 0)).trans (Mach.unitsEnded_aside _ m 1)
  have h2 : Aside true m m2 := h1'.trans (Aside.foldl _ (fun p x =>
    Aside.ite ((Aside.refl true x).modMap.trans (Mach.clearWord_aside ..)) (Aside.refl true x).modMap) _)
  exact Aside.ite h2 (h2.modMap.trans (Mach.clearWord_aside ..))

theorem Mach.orphan_aside (ns root : Nat) : Aside w m (m.orphan ns root) :=
  ((Aside.foldl _ (fun _ x => (Aside.refl w x).modMap.trans (Mach.dropUnit_aside _ _)) m).trans (Mach.unitsEnded_aside _ m 0)).trans
    (Mach.unitsEnded_aside _ m 1)

theorem Mach.setReclaim_aside (l : List (Nat × Nat × Nat × Nat)) : Aside w m (m.setReclaim l) := (Aside.refl w m).modMap.put

theorem Mach.setEntRaw_aside (uk e : Nat) : Aside w m (m.setEntRaw uk e) := by
  unfold Mach.setEntRaw
  extract_lets old m1 k m1'
  have h1 : Aside w m m1 := (Aside.refl w m).modMap
  exact (Aside.ite h1.modMap h1).modNs fun _ => rfl

theorem Mach.ensureTree_aside (uk : Nat) : Aside true m (m.ensureTree uk) := by
  unfold Mach.ensureTree
  extract_lets ns u rk freed cleared t made m1 t' made'
  have hpage : ∀ (x : Mach) (f : MapSt → MapSt) (up pg key : Nat),
      Aside true x (((((x.poolTake.2).modMap f).dirtyPage up).hmapAdd pg).wordWrite key) := fun x f up pg key =>
    ((x.poolTake_aside.modMap.trans (Mach.dirtyPage_aside _ _)).trans (Mach.hmapAdd_aside _ _)).trans (Mach.wordWrite_aside _ _)
  have hcleared : Aside true m cleared :=
    ((m.reclaimRoot_aside ..).trans (Mach.orphan_aside _ _ _)).trans (Mach.setReclaim_aside _ _)
  have h1 : Aside true m m1 := Aside.ite (Aside.refl true m) ((hcleared.trans (hpage cleared _ _ _ _)).trans (Mach.delta_aside ..))
  exact Aside.ite h1 ((h1.trans (hpage m1 _ _ _ _)).trans (Mach.delta_aside ..))

theorem Mach.setEnt_aside (uk e : Nat) : Aside true m (m.setEnt uk e).2 := by
  unfold Mach.setEnt
  extract_lets m1 m2 r
  have h1 : Aside true m m1 := Aside.ite (Aside.refl true m) (m.ensureTree_aside uk)
  have h2 : Aside true m m2 := ((h1.trans (Mach.setEntRaw_aside _ _ _)).trans (Mach.dirtyPage_aside _ _)).trans (Mach.entCached_aside _ _)
  have hr : Aside true m r.2 := h2.trans (Mach.delta_aside ..)
  split
  · exact hr
  · dsimp only
    exact hr.modMap

theorem Mach.setEntFlag_aside (uk k : Nat) (b : Bool) : Aside true m (m.setEntFlag uk k b).2 := by
  unfold Mach.setEntFlag
  extract_lets e
  split
  · exact Aside.refl true m
  · split
    · exact (Aside.refl true m).modMap.trans (Mach.deltaStall_aside _)
    · exact m.setEnt_aside ..

end
end Sys2Proof.Machine
end

section
/-! SUPPORT. Reads of the medium and at the point of coherence: the ladders that a read climbs work aside from the ports, and whatever is read
leaves every request as it was (chapters "Architecture and data paths", R20, and "Line integrity, recovery and scrubbing", R240 to R250). -/
namespace Sys2Proof.Machine

section
variable {w : Bool} (m : Mach)

/-! ### Ladders (R240 to R250) -/

theorem Mach.readLine_aside (rq uk : Nat) (p : Nat × Nat × Nat) (line bkt : Nat) (job : Job) (port : Option Nat) (green par : Bool) :
    Aside w m (m.readLine rq uk p line bkt job port green par) := m.mQueue_aside ..

theorem Mach.gleanProgs_aside (key gl n : Nat) : Aside w m (m.gleanProgs key gl n) := by
  unfold Mach.gleanProgs
  exact Aside.ite (Aside.refl w m).modErr (Aside.refl w m)

theorem Mach.joinLadder_aside (l : Ladder) (job : Job) (port : Option Nat) (demand merge : Bool) (at_ : Nat) :
    Aside w m (m.joinLadder l job port demand merge at_) := by
  unfold Mach.joinLadder Mach.modLadder
  exact (Aside.refl w m).modErr

theorem Mach.newLadder_aside (job : Job) (line uk : Nat) (p : Nat × Nat × Nat) (rq : Nat) (port : Option Nat)
    (demand merge noRepair own : Bool) (at_ : Nat) (first : Line) (gen birth : Nat) (todo : List Nat) (par newer : Bool) :
    Aside w m (m.newLadder job line uk p rq port demand merge noRepair own at_ first gen birth todo par newer).2 := by
  unfold Mach.newLadder
  dsimp only
  exact (Aside.refl w m).modErr.serial

theorem Mach.keepPoison_aside (uk : Nat) (p : Nat × Nat × Nat) (line : Nat) (par : Bool) (d : Line) :
    Aside true m (m.keepPoison uk p line par d) := by
  unfold Mach.keepPoison
  exact Aside.ite (Aside.refl true m) ((m.setEntFlag_aside ..).trans (Mach.mQueue_aside ..))

theorem Mach.setRebuild_aside (uk c : Nat) : Aside true m (m.setRebuild uk c) := by
  unfold Mach.setRebuild
  exact Aside.ite (Aside.refl true m) (m.setEnt_aside ..)

theorem Mach.progLine_aside (rq uk i : Nat) (d : Line) (gen mark : Nat) (birth : Option Nat) (job : Job) :
    Aside true m (m.progLine rq uk i d gen mark birth job).2 := by
  unfold Mach.progLine
  refine Aside.foldl_snd _ (fun c p => ?_) (0, m)
  split
  · exact Aside.ite (p.2.keepPoison_aside ..) (p.2.setRebuild_aside ..)
  · exact p.2.mQueue_aside ..

theorem Mach.ladderEnd_aside (l : Ladder) (o : Out) (outcome : Nat) (restored : Bool) :
    Aside true m (m.ladderEnd l o outcome restored).2 := by
  unfold Mach.ladderEnd
  extract_lets m0 elapsed bound late info m1 steps done m2 gl md gl'
  have h0 : Aside true m m0 := (Aside.refl true m).modErr
  have h1 : Aside true m m1 := (Aside.ite h0.count h0).trans (Mach.ringAdd_aside _ _)
  split
  case h_2 => exact h1
  case h_1 uk line _ _ =>
    extract_lets i m3 key job r
    have h2 : Aside true m m2 := Aside.ite h1 h1.errEvent.count
    have h3 : Aside true m m3 := (h2.trans (Mach.poisonLine_aside _ _)).trans (Mach.setEntFlag_aside ..)
    split
    · split
      · exact h2
      · split
        · exact h3.trans (Mach.keepPoison_aside ..)
        · split
          · exact (h3.trans (Mach.mQueue_aside ..)).trans (Mach.gleanProgs_aside ..)
          · exact (h3.trans (Mach.progLine_aside ..)).trans (Mach.gleanProgs_aside ..)
    · split
      · exact (h1.trans (Mach.mQueue_aside ..)).trans (Mach.gleanProgs_aside ..)
      · exact h1

theorem Mach.ladderLost_aside (l : Ladder) : Aside true m (m.ladderLost l).2 := m.ladderEnd_aside ..

theorem Mach.ladderStep4_aside (l : Ladder) : Aside true m (m.ladderStep4 l).2 := by
  unfold Mach.ladderStep4
  split
  case h_2 => exact m.ladderLost_aside _
  case h_1 =>
    extract_lets e i
    split
    · dsimp only
      exact (Aside.refl true m).modErr
    · split
      · exact m.ladderLost_aside _
      · exact (Aside.refl true m).modErr.trans (Aside.foldl _ (fun _ x => x.readLine_aside ..) _)

theorem Mach.startRead_aside (rq line : Nat) (job : Job) (port : Option Nat) (green demand merge noRepair : Bool) (at_ : Nat) :
    Aside true m (m.startRead rq line job port green demand merge noRepair at_).2 := by
  unfold Mach.startRead
  extract_lets u e
  split
  · exact m.joinLadder_aside ..
  · split
    · exact Aside.refl true m
    · exact m.readLine_aside ..
    · exact (m.newLadder_aside ..).trans (Mach.ladderStep4_aside _ _)

theorem Mach.streamHint_aside (r : Req) : Aside true m (m.streamHint r) := by
  unfold Mach.streamHint
  exact Aside.foldl _ (fun l x => Aside.ite (Aside.refl true x) (x.startRead_aside ..)) m

/-! ### Dirty lines (R246) -/

theorem Mach.dirtyLadder_aside (e rq port : Nat) (demand merge : Bool) (at_ : Nat) :
    Aside true m (m.dirtyLadder e rq port demand merge at_).2 := by
  unfold Mach.dirtyLadder
  extract_lets p c en info m1 unreq bad q o both
  have h1 : Aside true m m1 := (Aside.refl true m).count.judgeEst
  have hunreq : ∀ x : Mach, Aside true x (unreq x) := fun x => Aside.ite (Aside.refl true x) (Aside.refl true x).errEvent.count
  have hbad : Aside true m bad := (h1.trans (Mach.hQueue_aside ..)).trans (Mach.hWrite_aside ..)
  have hboth : Aside true m both :=
    ((hbad.count.trans (Mach.hQueue_aside ..)).trans (Mach.hQueue_aside ..)).trans (Mach.hWrite_aside ..)
  split
  · split
    · exact (((h1.trans (Mach.hQueue_aside ..)).trans (Mach.hQueue_aside ..)).trans (Mach.hWrite_aside ..)).trans (Mach.ringAdd_aside _ _)
    · exact ((hboth.trans (Mach.poisonLine_aside _ _)).trans (hunreq _)).trans (Mach.ringAdd_aside _ _)
  · exact ((hbad.trans (Mach.poisonLine_aside _ _)).trans (hunreq _)).trans (Mach.ringAdd_aside _ _)

theorem Mach.dirtyRead_aside (e rq port : Nat) (demand merge : Bool) (at_ : Nat) :
    Aside true m (m.dirtyRead e rq port demand merge at_).2.2 := by
  unfold Mach.dirtyRead
  extract_lets c
  split
  · exact Aside.refl true m
  · split
    · exact m.dirtyLadder_aside ..
    · exact Aside.refl true m

theorem Mach.markLastUse_aside (l : Nat) : Aside true m (m.markLastUse l) := by
  unfold Mach.markLastUse
  split
  · exact m.setDir_aside ..
  · exact Aside.ite (Aside.refl true m).modHt (Aside.refl true m)

end

section
variable {w : Bool} {m t : Mach} (h : Aside w m t)
include h

theorem Aside.ports : t.ports = m.ports := by rw [h.rest]
theorem Aside.port (n : Nat) : t.port n = m.port n := by rw [Mach.port, h.ports]; rfl
theorem Aside.kiln : t.kiln = m.kiln := by rw [h.rest]
theorem Aside.now : t.now = m.now := by rw [h.rest]
end

/-! ### What is read leaves the requests (R20, R91) -/

section
variable (m : Mach)

@[simp] theorem Mach.modSlot_ports (k no : Nat) (f : Slot → Slot) : (m.modSlot k no f).ports = m.ports := rfl

theorem Mach.stagedRead_ports (k : Nat) (s : Slot) (d : Nat) (ri : RingInfo) (at_ : Nat) :
    (m.stagedRead k s d ri at_).2.2.2.ports = m.ports := by
  unfold Mach.stagedRead
  extract_lets mine others fix dur info m1 v
  have h1 : Aside true m m1 := Aside.foldl _ (fun _ x => x.sramFail_aside _) m
  split
  · rfl
  · split
    · exact h1.ports
    · exact (Mach.poisonLine_aside (w := true) _ _).ports.trans h1.ports

theorem Mach.spilledRead_aside (k : Nat) (s : Slot) (d : Nat) (drain : Bool) (ri : RingInfo) (at_ : Nat) :
    Aside true m (m.spilledRead k s d drain ri at_).2.2.2 := by
  unfold Mach.spilledRead
  extract_lets p c others fix dur info m1 v
  have h1 : Aside true m m1 := (Aside.refl true m).count.judgeEst.trans (Mach.ringAdd_aside _ _)
  split
  · exact Aside.refl true m
  · split
    · exact Aside.refl true m
    · split
      · exact Aside.ite (h1.trans (Mach.hWrite_aside ..)) h1
      · exact Aside.ite ((h1.trans (Mach.hWrite_aside ..)).trans (Mach.poisonLine_aside _ _)) h1

theorem Mach.kilnRead_ports {l rq port : Nat} {demand : Bool} {at_ st : Nat} {d : Line} {t : Mach}
    (h : m.kilnRead l rq port demand at_ = some (st, d, t)) : t.ports = m.ports := by
  unfold Mach.kilnRead at h
  split at h
  · cases h
  · obtain ⟨-, -, rfl⟩ := h
    unfold Mach.slotRead
    dsimp only
    split
    · rfl
    · split
      · exact m.stagedRead_ports ..
      · exact (m.spilledRead_aside ..).ports

/-- Whatever the point of coherence holds, reading it leaves the requests of every port. -/
theorem Mach.coherent_ports (rq port l : Nat) (demand merge : Bool) (at_ : Nat) :
    (m.coherent rq port l demand merge at_).2.2.ports = m.ports := by
  unfold Mach.coherent
  split
  · next st d t h => exact m.kilnRead_ports h
  · split
    · exact (m.dirtyRead_aside ..).ports
    · split
      · extract_lets c
        split
        · exact (((Aside.refl true m).count.judgeEst).trans (Mach.homeEmpty_aside _ _)).ports
        · rfl
      · rfl

end

/-! ### A line that is done (R92) -/

/-- The state of a line on which its request has taken effect. -/
def LineSt.finished (st : Nat) (d : Line) (cls : Nat) (l : LineSt) : LineSt :=
  { l with phase := .done, status := st, data := d, cls := cls, waitAt := none }

section
variable {m : Mach} {n id k : Nat}

/-- The change of line `k` of a request stands among the port's requests. -/
theorem List.getD_modify_same {α : Type} (l : List α) (f : α → α) (a : α) (h : k < l.length) :
    (l.modify k f).getD k a = f (l.getD k a) := by
  rw [List.getD_eq_getElem _ _ (by simpa using h), List.getD_eq_getElem _ _ h, List.getElem_modify]
  simp

variable (st : Nat) (d : Line) (cls : Nat)

/-- Line `k` of the request is done, and nothing else of its lines changes. -/
theorem Mach.lineDone_line {x : Req} (hx : x ∈ (m.port n).reqs) (hid : x.id = id) (hk : k < x.lines.length) :
    ∃ y ∈ ((m.lineDone n id k st d cls).port n).reqs, y.id = id ∧
      y.lines.getD k default = LineSt.finished st d cls (x.lines.getD k default) := by
  unfold Mach.lineDone
  extract_lets m1
  let x1 : Req := { x with began := true, lines := x.lines.modify k (LineSt.finished st d cls) }
  have h1 : x1 ∈ (m1.port n).reqs := m.mem_reqs_modReq n id
    (fun r => { r with began := true, lines := r.lines.modify k (LineSt.finished st d cls) }) hx hid
  have hline : x1.lines.getD k default = LineSt.finished st d cls (x.lines.getD k default) := List.getD_modify_same _ _ _ hk
  split
  · exact ⟨x1, h1, hid, hline⟩
  · next r _ =>
    split
    · exact ⟨x1, h1, hid, hline⟩
    · extract_lets m2
      have h2 := m1.mem_reqs_modReq n id (fun (x : Req) => { x with
        phase := .ready, status := if writesLines r.op then worstStatus r.lines else stOk }) h1 hid
      split
      · rw [(Mach.streamHint_aside m2 r).port n]
        exact ⟨_, h2, hid, hline⟩
      · exact ⟨_, h2, hid, hline⟩

/-- A request that is no READ hints at no lines: nothing but the requests changes. -/
theorem Mach.lineDone_onlyPorts (hop : ∀ x ∈ (m.port n).reqs, x.id = id → x.op ≠ opRead) :
    m.lineDone n id k st d cls = { m with ports := (m.lineDone n id k st d cls).ports } := by
  unfold Mach.lineDone
  extract_lets m1
  have hop1 : ∀ r, m1.req? n id = some r → r.op ≠ opRead := by
    intro r hr
    have hmem : r ∈ (m1.port n).reqs := List.mem_of_find?_eq_some hr
    have hid : r.id = id := by simpa using List.find?_some hr
    rw [Mach.reqs_modReq] at hmem
    obtain ⟨x, hx, rfl⟩ := List.mem_map.1 hmem
    by_cases hxid : x.id = id
    · simpa [hxid] using hop x hx hxid
    · simp [hxid] at hid
  split
  · rfl
  · next r hr =>
    split
    · rfl
    · extract_lets m2
      rw [if_neg (by simp [hop1 r hr])]
      rfl
end

/-! ### Reads and prefetches (R66, R68, R74) -/

section
variable {m : Mach} {n k tag op : Nat} {r : Req}

/-- The command of a released request takes effect on the line that it names. -/
theorem clientLine_step (hup : m.fabricUp = true) (hfind : ((m.port n).reqs.find? fun x => x.tag = tag && x.op = op) = some r)
    (hphase : r.phase = .lines) (hk : k < r.lines.length) : clientLine op n tag k m = m.lineStep n r k := by
  simp [clientLine, hup, hfind, hphase, hk]

/-- A READ leaves its line with the value found: the data when it is GOOD, and the status of its class (R74, R112). -/
theorem Mach.readEffect_line (hr : r ∈ (m.port n).reqs) (hk : k < r.lines.length) (hop : r.op = opRead) (st : Nat) (d : Line) (cls : Nat) :
    ∃ x ∈ ((m.readEffect n r k st d cls).port n).reqs, x.id = r.id ∧ (x.lines.getD k default).phase = .done ∧
      (x.lines.getD k default).data = (if cls = 0 then d else 0) ∧
      (x.lines.getD k default).status = (if cls = 2 then stPoison else if cls = 1 ∨ st = stUnwritten then stUnwritten else st) := by
  unfold Mach.readEffect
  rw [if_neg (by rw [hop]; decide)]
  extract_lets blank m1 m2
  have hm1 : m1.port n = m.port n := by
    show (if _ then _ else _ : Mach).port n = _
    split
    · exact m.port_event ..
    · rfl
  have hm2 : m2.port n = m.port n := by
    rw [← hm1]
    show (if _ then _ else _ : Mach).port n = _
    split <;> rfl
  obtain ⟨x, hx, hid, hline⟩ := m2.lineDone_line (k := k) (if cls = 2 then stPoison else if blank then stUnwritten else st)
    (if cls = 0 then d else 0) cls (hm2.symm ▸ hr) rfl hk
  refine ⟨x, hx, hid, ?_⟩
  rw [hline]
  refine ⟨rfl, rfl, ?_⟩
  simp only [LineSt.finished, blank, Bool.or_eq_true, decide_eq_true_eq]

section
variable (hphase : (r.lines.getD k default).phase = .served) (hfree : m.lineFree n r k = true) (hmark : m.behindMark r.id = false)
  {st : Nat} {d : Line} {cls : Nat} {hf : Bool} {m1 : Mach}
  (hc : m.coherent r.rcls n (r.line k) (r.op ≠ opPrefetch) false r.at_ = (some (st, d, cls), hf, m1))
include hphase hfree hmark hc

/-- A READ whose line the Core holds takes its value from there (R20, R23). -/
theorem Mach.lineStep_read (hop : r.op = opRead) : m.lineStep n r k =
    (if bitAt r.attr 3 then m1.markLastUse (r.line k) else m1).readEffect n r k st d cls := by
  have hw : writesLines r.op = false := by rw [hop]; decide
  have hne : r.op ≠ opPrefetch := by rw [hop]; decide
  simp only [Mach.lineStep, hphase, hfree, hmark, hw, Bool.not_true, Bool.or_self, Bool.false_and, Bool.false_eq_true, if_false, hc]
  simp only [Mach.valueEffect, hop, decide_true, Bool.true_and, Bool.true_or, if_true, show (opRead = opPrefetch) = False by decide,
    decide_false, Bool.false_and, Bool.false_eq_true, if_false]

/-- A PREFETCH of a line that the Core holds fetches nothing (R68). -/
theorem Mach.lineStep_prefetch (hop : r.op = opPrefetch) : m.lineStep n r k =
    if (m.dirFind (r.line k)).isSome then m.lineDone n r.id k stOk 0 0 else m1.lineDone n r.id k stOk d cls := by
  have hw : writesLines r.op = false := by rw [hop]; decide
  simp only [Mach.lineStep, hphase, hfree, hmark, hw, Bool.not_true, Bool.or_self, Bool.false_and, Bool.false_eq_true, if_false, hc]
  simp only [Mach.valueEffect, Mach.readEffect, hop, decide_true, Bool.true_and, Bool.or_true, if_true,
    show (opPrefetch = opRead) = False by decide, decide_false, Bool.false_and, Bool.false_eq_true, if_false]
end
end

end Sys2Proof.Machine
end

section
namespace Sys2Proof.Laws
open Sys2Proof.Machine

/-- Settles O16: reading at the point of coherence, and whatever a hint then fetches, leaves the requests, so the line of the request ends
with the value found. -/
theorem readsTakeTheValue : Obligations.ReadsTakeTheValue := by
  intro s port tag k r st cls d hf m1 p4 t12 k4 hp ht hk4 hup hk hserved hfree hmark hphase hc
  subst hp ht hk4
  have hports : m1.ports = s.m.ports := by
    have hc' := s.m.coherent_ports r.rcls p4.toNat (r.line k4.toNat) (r.op ≠ opPrefetch) false r.at_
    rwa [hc] at hc'
  intro _ hr
  have hr1 : r ∈ (m1.port p4.toNat).reqs := by rwa [Mach.port, hports]
  refine ⟨fun hop hfind => ?read, fun hop hfind => ?prefetch⟩
  case read =>
    have hstep := (clientLine_step hup hfind hphase hk).trans (Mach.lineStep_read hserved hfree hmark hc hop)
    refine ⟨_, completes_of_answer (exec_read s p4 t12 k4) hstep, Mach.readEffect_line ?_ hk hop st d cls⟩
    split
    · rwa [(m1.markLastUse_aside (r.line k4.toNat)).port]
    · exact hr1
  case prefetch =>
    have hstep := (clientLine_step hup hfind hphase hk).trans (Mach.lineStep_prefetch hserved hfree hmark hc hop)
    refine ⟨_, completes_of_answer (exec_prefetch s p4 t12 k4) hstep, ?_⟩
    split
    · obtain ⟨x, hx, hid, hline⟩ := s.m.lineDone_line stOk 0 0 hr rfl hk
      exact ⟨x, hx, hid, by rw [hline]; exact ⟨rfl, rfl⟩⟩
    · obtain ⟨x, hx, hid, hline⟩ := m1.lineDone_line stOk d cls hr1 rfl hk
      exact ⟨x, hx, hid, by rw [hline]; exact ⟨rfl, rfl⟩⟩

end Sys2Proof.Laws
end

section
/-! SUPPORT. How a write takes effect on a line: the dirty slot that it writes whole, and what follows once the line is there (chapter
"Hearth: the HBM tier controller", R279). -/
namespace Sys2Proof.Machine

/-! ### The request of a port that has a number -/

/-- Port `n` has a request numbered `id`, and whatever request of it has that number is as `P` says. -/
def Mach.ReqHas (m : Mach) (n id : Nat) (P : Req → Prop) : Prop :=
  (∃ x ∈ (m.port n).reqs, x.id = id) ∧ ∀ x ∈ (m.port n).reqs, x.id = id → P x

section
variable {m t : Mach} {n id : Nat} {P Q : Req → Prop} (h : m.ReqHas n id P)
include h

theorem Mach.ReqHas.of_reqs (hr : (t.port n).reqs = (m.port n).reqs) : t.ReqHas n id P := by
  rw [Mach.ReqHas, hr]
  exact h

theorem Mach.ReqHas.mono (hpq : ∀ x, P x → Q x) : m.ReqHas n id Q := ⟨h.1, fun x hx hid => hpq x (h.2 x hx hid)⟩

theorem Mach.ReqHas.exists : ∃ x ∈ (m.port n).reqs, x.id = id ∧ P x :=
  let ⟨x, hx, hid⟩ := h.1
  ⟨x, hx, hid, h.2 x hx hid⟩

theorem Mach.ReqHas.req : ∃ x, m.req? n id = some x ∧ P x := by
  obtain ⟨x, hx, hid⟩ := h.1
  obtain ⟨y, hy⟩ := Option.isSome_iff_exists.1 (List.find?_isSome.2 ⟨x, hx, by simpa using hid⟩ : (m.req? n id).isSome)
  exact ⟨y, hy, h.2 y (List.mem_of_find?_eq_some hy) (by simpa using List.find?_some hy)⟩

/-- A change of the request. -/
theorem Mach.ReqHas.modReq {f : Req → Req} (hf : ∀ x, P x → Q (f x)) (hid : ∀ x, (f x).id = x.id) : (m.modReq n id f).ReqHas n id Q := by
  rw [Mach.ReqHas, Mach.reqs_modReq]
  obtain ⟨⟨x, hx, hxid⟩, hall⟩ := h
  refine ⟨⟨f x, List.mem_map.2 ⟨x, hx, if_pos hxid⟩, (hid x).trans hxid⟩, fun y hy hyid => ?_⟩
  obtain ⟨z, hz, rfl⟩ := List.mem_map.1 hy
  by_cases hzid : z.id = id
  · rw [if_pos hzid]
    exact hf z (hall z hz hzid)
  · rw [if_neg hzid] at hyid
    exact absurd hyid hzid
end

/-- The request has taken effect on its line `k` with status `st`. -/
def Req.lineEnds (k st : Nat) (x : Req) : Prop := (x.lines.getD k default).phase = .done ∧ (x.lines.getD k default).status = st

/-- The request waits for a way on its line `k`. -/
def Req.lineWaits (k : Nat) (x : Req) : Prop := (x.lines.getD k default).phase = .dirWait

/-- The request is no READ, and has a line `k`. -/
def Req.wantsLine (k : Nat) (x : Req) : Prop := x.op ≠ opRead ∧ k < x.lines.length

section
variable {m : Mach} {n id k : Nat} (h : m.ReqHas n id (Req.wantsLine k))
include h

theorem Mach.ReqHas.modLine (f : LineSt → LineSt) :
    (m.modLine n id k f).ReqHas n id (Req.wantsLine k) :=
  h.modReq (fun _ hx => ⟨hx.1, by simpa using hx.2⟩) fun _ => rfl

theorem Mach.ReqHas.lineDone (st : Nat) (d : Line) (cls : Nat) : (m.lineDone n id k st d cls).ReqHas n id (Req.lineEnds k st) := by
  unfold Mach.lineDone
  extract_lets m1
  have h1 : m1.ReqHas n id fun x => x.op ≠ opRead ∧ x.lineEnds k st := by
    refine h.modReq (fun x hx => ⟨hx.1, ?_⟩) fun _ => rfl
    have hline : (x.lines.modify k (LineSt.finished st d cls)).getD k default = _ := List.getD_modify_same _ _ _ hx.2
    exact ⟨congrArg LineSt.phase hline, congrArg LineSt.status hline⟩
  split
  · exact h1.mono fun _ hx => hx.2
  · next r _ =>
    split
    · exact h1.mono fun _ hx => hx.2
    · extract_lets m2
      have h2 : m2.ReqHas n id (Req.lineEnds k st) := h1.modReq (fun _ hx => hx.2) fun _ => rfl
      split
      · exact h2.of_reqs (by rw [(m2.streamHint_aside r).port])
      · exact h2

theorem Mach.ReqHas.lineDone_onlyPorts (st : Nat) (d : Line) (cls : Nat) :
    m.lineDone n id k st d cls = { m with ports := (m.lineDone n id k st d cls).ports } :=
  Mach.lineDone_onlyPorts st d cls fun x hx hid => (h.2 x hx hid).1
end

/-! ### Places of the dirty slots (R277) -/

/-- The dirty slots lie where they lay while the stacks in service are the same. -/
theorem KeptBut.dirtyPlace {K : Nat → Prop} {m t : Mach} (h : KeptBut K m t) (h0 : ¬K (HT.STAT_IN_SERVICE.key 0))
    (h1 : ¬K (HT.STAT_IN_SERVICE.key 1)) (hs : ¬K (HT.STAT_SINGLE.key 0)) : t.dirtyPlace = m.dirtyPlace := by
  funext e
  unfold Mach.dirtyPlace Mach.mirrorBase Mach.dirtyBase Mach.stacksLaid Mach.survivor Mach.stacksIn Mach.stackIn
  rw [h.flag h0, h.flag h1, h.flag hs, h.1]

/-- The engines leave the places of the slots. -/
theorem Aside.dirtyPlace {w : Bool} {a b : Mach} (h : Aside w a b) : b.dirtyPlace = a.dirtyPlace := by
  refine h.regs.dirtyPlace ?_ ?_ ?_ <;> unfold asideKey <;> clear h <;> revert w <;> decide

/-- The pages of the registers that the engines may change: the Almanac's, those of ERR, GLN and MAP, and all above the ports'. -/
theorem asideKey_page {w : Bool} {q : Nat} (h : asideKey w q) :
    q / 32768 = 3 ∨ (6 < q / 32768 ∧ q / 32768 < 10) ∨ q / 32768 = 32 ∨ 36 ≤ q / 32768 := by
  have hht : ∀ q ∈ HT.DIR_COUNT.key 0 :: eventKeys .ht 0, q / 32768 = 3 ∨ q / 32768 = 32 := by decide
  have hest : ALM.CNT_EST.key 0 / 32768 = 3 := by decide
  rcases h with h | ⟨-, h⟩
  · rcases (engineKey_iff q).1 h with h | rfl | h | h <;> omega
  · have := hht q (List.mem_cons.2 h)
    omega

/-! ### What follows the write (R104, R279) -/

/-- The registers that change once a line is written: those of the engines, and the count of cycles that writes waited. -/
def effectKey (q : Nat) : Prop := asideKey false q ∨ q = HT.CNT_DIR_WAIT.key 0

/-- From `m` to `t` a write has taken effect, and the Hearth tier stands as the write left it. -/
structure Effected (m t : Mach) : Prop where
  ht : t.ht = m.ht
  regs : KeptBut effectKey m t

section
variable {a b c : Mach}

theorem Effected.refl (m : Mach) : Effected m m := ⟨rfl, KeptBut.refl _ _⟩

theorem Effected.trans (h : Effected a b) (g : Effected b c) : Effected a c := ⟨g.ht.trans h.ht, h.regs.trans g.regs⟩

theorem Aside.effected (h : Aside false a b) : Effected a b := ⟨h.ht rfl, h.regs.mono fun _ => .inl⟩

/-- A change of the ports alone. -/
theorem Effected.of_ports (h : b = { a with ports := b.ports }) : Effected a b := ⟨by rw [h], KeptBut.of_regs (by rw [h]) (by rw [h])⟩

theorem Effected.dirtyPlace (h : Effected a b) : b.dirtyPlace = a.dirtyPlace := by
  refine h.regs.dirtyPlace ?_ ?_ ?_ <;> unfold effectKey asideKey <;> decide

/-- What a port counts of its merges is none of it. -/
theorem Effected.get_cntRmw (h : Effected a b) {n : Nat} (hn : n < 16) : b.get PORT.CNT_RMW n = a.get PORT.CNT_RMW n := by
  refine h.regs.2 _ _ fun hk => ?_
  have hpage : PORT.CNT_RMW.key n / 32768 = 16 + n := Field.key_div (by decide) (by decide) n
  have hwait : HT.CNT_DIR_WAIT.key 0 / 32768 = 32 := by decide
  rcases hk with hk | hk
  · have := asideKey_page hk
    omega
  · rw [hk] at hpage
    omega
end

/-! ### The dirty slot of a line (R277 to R279) -/

/-- Entry `e` is the one that a write of line `l` takes: the line's own, or a free way of its bucket while the hold-up rule has room. -/
def Mach.dirtySlot (m : Mach) (l e : Nat) : Prop :=
  m.dirFind l = some e ∨ (m.dirFind l = none ∧ m.dirAny l = some e) ∨
    (m.dirAny l = none ∧ m.dirtyRoom = true ∧ m.dirFree (lineBucket l) = some e)

/-- Entry `e` of the directory holds line `l`, and its dirty slot, unless an injected flip struck it, the data `d` with class `cls`. -/
def Mach.holdsDirty (m : Mach) (armed : Bool) (l e : Nat) (d : Line) (cls : Nat) : Prop :=
  (m.dirEnt e).valid = true ∧ (m.dirEnt e).line = l ∧ (armed = false →
    (m.cell (m.dirtyPlace e)).data = d ∧ (m.cell (m.dirtyPlace e)).cls = cls ∧ (m.cell (m.dirtyPlace e)).st = 2)

section
variable {a b : Mach} {armed : Bool} {l e : Nat} {d : Line} {cls : Nat} (hd : a.holdsDirty armed l e d cls)
include hd

theorem Mach.holdsDirty.of_ht (hht : b.ht = a.ht) (hplace : b.dirtyPlace = a.dirtyPlace) : b.holdsDirty armed l e d cls := by
  unfold Mach.holdsDirty Mach.cell Mach.dirEnt at hd ⊢
  rw [hplace, hht]
  exact hd

theorem Effected.holdsDirty (h : Effected a b) : b.holdsDirty armed l e d cls := hd.of_ht h.ht h.dirtyPlace
end

/-- The machine once entry `e`, which held `old`, holds line `l` with the data `d` of class `cls`. -/
def Mach.putAt (m : Mach) (rq l e : Nat) (d : Line) (cls : Nat) (mirror lastUse : Bool) (old : DirEnt) : Mach :=
  let en : DirEnt := { old with
    line := l, valid := true, mirrored := old.mirrored || mirror, lastUse := old.lastUse || lastUse, lost := false }
  let m1 := (m.setDir e en).dirtyWrite e d cls
  let m2 := if en.mirrored then m1.hQueue rq (m1.mirrorPlace e) true else m1
  { m2 with serial := m2.serial + 1 }

/-- The entry that a new dirty line begins with (R278). -/
def Mach.freshEnt (m : Mach) : DirEnt := { (default : DirEnt) with since := m.now, born := m.serial }

section
variable {m : Mach} {l e : Nat} (rq : Nat) (d : Line) (cls : Nat) (mirror lastUse : Bool)

theorem Mach.dirFind_of_any_none (h : m.dirAny l = none) : m.dirFind l = none := by simp [Mach.dirFind, h]

/-- A line that has a slot is put there; an entry of the line that is not current is freed first (R278). -/
theorem Mach.putDirty_slot (h : m.dirtySlot l e) : ∃ x old, (x = m ∨ x = m.dirFreeEnt e) ∧
    m.putDirty rq l d cls mirror lastUse = (true, x.putAt rq l e d cls mirror lastUse old) := by
  rcases h with hfind | ⟨hfind, hany⟩ | ⟨hany, hroom, hfree⟩
  · exact ⟨m, m.dirEnt e, .inl rfl, by simp only [Mach.putDirty, hfind]; rfl⟩
  · exact ⟨m.dirFreeEnt e, m.freshEnt, .inr rfl, by simp only [Mach.putDirty, hfind, hany]; rfl⟩
  · refine ⟨m, m.freshEnt, .inl rfl, ?_⟩
    simp only [Mach.putDirty, Mach.dirFind_of_any_none hany, hany, hroom, hfree, if_true]
    rfl

/-- A line without a slot waits (R279). -/
theorem Mach.putDirty_wait (h : ∀ e, ¬m.dirtySlot l e) :
    m.putDirty rq l d cls mirror lastUse = (false, m.event .ht 0 HT.EV_DIR_WAIT) := by
  have hfind : m.dirFind l = none := Option.eq_none_iff_forall_not_mem.2 fun e he => h e (.inl he)
  have hany : m.dirAny l = none := Option.eq_none_iff_forall_not_mem.2 fun e he => h e (.inr (.inl ⟨hfind, he⟩))
  have hfree : m.dirtyRoom = true → m.dirFree (lineBucket l) = none := fun hroom =>
    Option.eq_none_iff_forall_not_mem.2 fun e he => h e (.inr (.inr ⟨hany, hroom, he⟩))
  simp only [Mach.putDirty, hfind, hany]
  by_cases hroom : m.dirtyRoom = true
  · simp only [hroom, hfree hroom, if_true]
  · rw [if_neg hroom]
end

/-! ### What a write leaves in the slot -/

section
variable (m : Mach) (p : Nat × Nat) (line : Nat) (c : HLine)

theorem Mach.hWrite_dir : (m.hWrite p line c).ht.dir = m.ht.dir := by
  unfold Mach.hWrite
  extract_lets hit mask t c' m1
  split
  · rw [Mach.event_ht]
    rfl
  · rfl

/-- With no flip armed a cell takes what is written to it. -/
theorem Mach.hWrite_unarmed (h : m.flag ERR.FLIP_H_ARM = false) :
    m.hWrite p line c = m.modHt fun t => { t with cells := t.cells.set (cellKey p) c } := by
  simp [Mach.hWrite, h]

theorem HLine.cls_mark (line gen st : Nat) (use : Bool) (d : Line) {cls : Nat} (h : cls ≤ 2) :
    (HLine.mk d line gen st use (markX cls) 0).cls = cls := by
  interval_cases cls <;> rfl

end

/-- Written at one place and then at another, the first still holds what both were given. -/
theorem Tab.get_set_of_get {α : Type} [Inhabited α] [DecidableEq α] (t : Tab α) {j k : Nat} {v : α} (h : t.get k = v) :
    (t.set j v).get k = v := by
  by_cases hjk : k = j
  · rw [hjk, Tab.get_set_same]
  · rw [Tab.get_set_ne _ hjk _, h]

section
variable {m : Mach} (e : Nat) (d : Line) (cls : Nat)

theorem Mach.dirtyWrite_dirEnt : (m.dirtyWrite e d cls).dirEnt e =
    { m.dirEnt e with rewritten := (m.dirEnt e).rewritten || (m.dirEnt e).wb, lost := false } := Tab.get_set_same _ _ _

theorem Mach.dirtyWrite_aside : Aside true m (m.dirtyWrite e d cls) := by
  unfold Mach.dirtyWrite
  extract_lets en c m1 m2
  have h1 : Aside true m m1 := m.hWrite_aside ..
  exact (Aside.ite (h1.trans (Mach.hWrite_aside ..)) h1).trans (Mach.setDir_aside ..)

theorem Mach.dirtyWrite_cell (harm : m.flag ERR.FLIP_H_ARM = false) : ((m.dirtyWrite e d cls).cell (m.dirtyPlace e)) =
    ⟨d, (m.dirEnt e).line, m.epoch (lineNs (m.dirEnt e).line), 2, (m.dirEnt e).lastUse, markX cls, 0⟩ := by
  unfold Mach.dirtyWrite
  extract_lets en c m1 m2
  have hm1 : m1 = m.modHt fun t => { t with cells := t.cells.set (cellKey (m.dirtyPlace e)) c } := m.hWrite_unarmed _ _ _ harm
  have hcell : m1.cell (m.dirtyPlace e) = c := by
    rw [hm1]
    exact Tab.get_set_same _ _ _
  have harm1 : m1.flag ERR.FLIP_H_ARM = false := by
    rw [hm1]
    exact harm
  show m2.cell (m.dirtyPlace e) = c
  show (if _ then _ else _ : Mach).cell (m.dirtyPlace e) = c
  split
  · rw [m1.hWrite_unarmed _ _ _ harm1]
    exact Tab.get_set_of_get _ hcell
  · exact hcell

theorem Mach.setDir_flipArm (m : Mach) (x : DirEnt) : (m.setDir e x).flag ERR.FLIP_H_ARM = m.flag ERR.FLIP_H_ARM :=
  Mach.flag_put_ne _ _ (by decide)

section
variable (m : Mach) (rq l : Nat) (mirror lastUse : Bool) (old : DirEnt)

theorem Mach.putAt_aside : Aside true m (m.putAt rq l e d cls mirror lastUse old) := by
  unfold Mach.putAt
  extract_lets en m1 m2
  have h1 : Aside true m m1 := (m.setDir_aside e en).trans (Mach.dirtyWrite_aside e d cls)
  exact (Aside.ite (h1.trans (Mach.hQueue_aside ..)) h1).serial

theorem Mach.putAt_holdsDirty (hcls : cls ≤ 2) :
    (m.putAt rq l e d cls mirror lastUse old).holdsDirty (m.flag ERR.FLIP_H_ARM) l e d cls := by
  unfold Mach.putAt
  extract_lets en m1 m2
  have hent : (m.setDir e en).dirEnt e = en := Tab.get_set_same _ _ _
  have h1 : m1.holdsDirty (m.flag ERR.FLIP_H_ARM) l e d cls := by
    refine ⟨?_, ?_, fun harm => ?_⟩
    · rw [Mach.dirtyWrite_dirEnt, hent]
    · rw [Mach.dirtyWrite_dirEnt, hent]
    · rw [(Mach.dirtyWrite_aside e d cls).dirtyPlace, Mach.dirtyWrite_cell e d cls ((m.setDir_flipArm e en).trans harm)]
      exact ⟨rfl, HLine.cls_mark _ _ _ _ _ hcls, rfl⟩
  have h2 : Aside false m1 m2 := Aside.ite (Mach.hQueue_aside ..) (Aside.refl false m1)
  exact Effected.holdsDirty h1 h2.serial.effected
end

/-- A line that has a slot is written there whole. -/
theorem Mach.putDirty_holds {m : Mach} {l e : Nat} (h : m.dirtySlot l e) (rq : Nat) (mirror lastUse : Bool) (hcls : cls ≤ 2) :
    (m.putDirty rq l d cls mirror lastUse).1 = true ∧
      (m.putDirty rq l d cls mirror lastUse).2.holdsDirty (m.flag ERR.FLIP_H_ARM) l e d cls := by
  obtain ⟨x, old, hx, hput⟩ := Mach.putDirty_slot rq d cls mirror lastUse h
  have harm : x.flag ERR.FLIP_H_ARM = m.flag ERR.FLIP_H_ARM := by
    rcases hx with rfl | rfl
    · rfl
    · exact m.setDir_flipArm e default
  rw [hput, ← harm]
  exact ⟨rfl, Mach.putAt_holdsDirty e d cls x rq l mirror lastUse old hcls⟩

theorem Mach.putDirty_aside (m : Mach) (rq l : Nat) (mirror lastUse : Bool) : Aside true m (m.putDirty rq l d cls mirror lastUse).2 := by
  by_cases h : ∃ e, m.dirtySlot l e
  · obtain ⟨e, he⟩ := h
    obtain ⟨x, old, hx, hput⟩ := Mach.putDirty_slot rq d cls mirror lastUse he
    rw [hput]
    rcases hx with rfl | rfl
    · exact x.putAt_aside ..
    · exact (m.dirFreeEnt_aside e).trans (Mach.putAt_aside ..)
  · rw [Mach.putDirty_wait rq d cls mirror lastUse fun e he => h ⟨e, he⟩]
    dsimp only
    exact (Aside.refl true m).htEvent
end

/-! ### A write takes effect on its line (R67, R95, R279) -/

section
variable (m : Mach) (n id l serial : Nat)

theorem Mach.recordWrite_effected : Effected m (m.recordWrite n id l serial) := Effected.of_ports rfl

theorem Mach.recordWrite_reqs : ((m.recordWrite n id l serial).port n).reqs = (m.port n).reqs := by
  rw [Mach.recordWrite, Mach.port_modPort_same]
end

/-- What follows once line `k` of the request has been put in its slot: the wait is counted, older copies and repairs of the line go, and the
request's line is done. -/
def Mach.wrote (m : Mach) (n : Nat) (r : Req) (k st waited serial : Nat) : Mach :=
  let m1 := if 0 < waited then m.count HT.CNT_DIR_WAIT 0 waited else m
  let m2 := ((m1.overtake (r.line k)).loomDiscard (r.line k)).recordWrite n r.id (r.line k) serial
  (if st = stWritePoisoned then m2.count ERR.CNT_WRITE_POISONED else m2).lineDone n r.id k st 0 0

section
variable {m : Mach} {n k : Nat} {r : Req} (st : Nat) (d : Line) (cls : Nat)

theorem Mach.writeEffect_put {t : Mach}
    (hput : m.putDirty r.rcls (r.line k) d cls (m.mirrors r.cls) (bitAt r.attr 0 && r.op ≠ opClearPoison) = (true, t)) :
    ∃ waited, m.writeEffect n r k st d cls = t.wrote n r k st waited m.serial := by
  simp only [Mach.writeEffect, hput, Bool.not_true, Bool.false_eq_true, if_false]
  exact ⟨_, rfl⟩

theorem Mach.writeEffect_wait (h : ∀ e, ¬m.dirtySlot (r.line k) e) : m.writeEffect n r k st d cls =
    (m.event .ht 0 HT.EV_DIR_WAIT).modLine n r.id k fun x => { x with phase := .dirWait, waitAt := some (x.waitAt.getD m.now) } := by
  simp only [Mach.writeEffect, Mach.putDirty_wait r.rcls d cls (m.mirrors r.cls) _ h, Bool.not_false, if_true]

section
variable (h : m.ReqHas n r.id (Req.wantsLine k)) (waited serial : Nat)
include h

theorem Mach.wrote_effected : Effected m (m.wrote n r k st waited serial) ∧
    (m.wrote n r k st waited serial).ReqHas n r.id (Req.lineEnds k st) := by
  unfold Mach.wrote
  extract_lets m1 m2
  have h1 : Effected m m1 ∧ m1.ports = m.ports := by
    show Effected m (if _ then _ else _) ∧ (if _ then _ else _ : Mach).ports = m.ports
    split
    · exact ⟨⟨rfl, m.count_keptBut (.inr rfl) _⟩, rfl⟩
    · exact ⟨Effected.refl m, rfl⟩
  have hdrop : Aside false m1 ((m1.overtake (r.line k)).loomDiscard (r.line k)) :=
    (m1.overtake_aside _ false).trans (Mach.loomDiscard_aside _ _ true)
  have h2 : Effected m m2 := (h1.1.trans hdrop.effected).trans (Mach.recordWrite_effected _ ..)
  have hreqs : (m2.port n).reqs = (m.port n).reqs := by
    rw [Mach.recordWrite_reqs, hdrop.port, Mach.port, h1.2]
    rfl
  have h3 : Aside false m2 (if st = stWritePoisoned then m2.count ERR.CNT_WRITE_POISONED else m2) :=
    Aside.ite (Aside.refl false m2).count (Aside.refl false m2)
  generalize (if st = stWritePoisoned then m2.count ERR.CNT_WRITE_POISONED else m2) = m3 at h3
  have hhas : m3.ReqHas n r.id (Req.wantsLine k) := h.of_reqs (by rw [h3.port, hreqs])
  exact ⟨(h2.trans h3.effected).trans (Effected.of_ports (hhas.lineDone_onlyPorts st 0 0)), hhas.lineDone st 0 0⟩

end

/-- With a slot for the line the write takes effect: the slot holds what was written, and the request's line is done. -/
theorem Mach.writeEffect_slot (h : m.ReqHas n r.id (Req.wantsLine k)) {e : Nat} (he : m.dirtySlot (r.line k) e) (hcls : cls ≤ 2) :
    (m.writeEffect n r k st d cls).ReqHas n r.id (Req.lineEnds k st) ∧
      (m.writeEffect n r k st d cls).holdsDirty (m.flag ERR.FLIP_H_ARM) (r.line k) e d cls ∧
      (n < 16 → (m.writeEffect n r k st d cls).get PORT.CNT_RMW n = m.get PORT.CNT_RMW n) := by
  obtain ⟨htrue, hholds⟩ := Mach.putDirty_holds d cls he r.rcls (m.mirrors r.cls) (bitAt r.attr 0 && r.op ≠ opClearPoison) hcls
  have hv := Mach.putDirty_aside d cls m r.rcls (r.line k) (m.mirrors r.cls) (bitAt r.attr 0 && r.op ≠ opClearPoison)
  generalize hw : m.putDirty r.rcls (r.line k) d cls (m.mirrors r.cls) (bitAt r.attr 0 && r.op ≠ opClearPoison) = v at htrue hholds hv
  obtain ⟨b, t⟩ := v
  obtain rfl : b = true := htrue
  obtain ⟨waited, hwrote⟩ := Mach.writeEffect_put (n := n) st d cls hw
  obtain ⟨heff, hdone⟩ := Mach.wrote_effected (m := t) st (h.of_reqs (by rw [hv.port])) waited m.serial
  rw [hwrote]
  refine ⟨hdone, Effected.holdsDirty hholds heff, fun hn => (heff.get_cntRmw hn).trans (hv.regs.2 _ _ fun hk => ?_)⟩
  have hpage : PORT.CNT_RMW.key n / 32768 = 16 + n := Field.key_div (by decide) (by decide) n
  have := asideKey_page hk
  omega

/-! ### Merging into the line found, and clearing poison (R250, R251) -/

theorem Mach.ReqHas.lineIsDone (h : m.ReqHas n r.id (Req.lineEnds k st)) : m.lineIsDone n r.id k = true := by
  obtain ⟨x, hx, hphase, -⟩ := h.req
  rw [Mach.lineIsDone, hx]
  simp only [hphase, beq_self_eq_true, Bool.or_true]

/-- What was found on a line stands with its request and nowhere else. -/
theorem Mach.keepFound_dirtySlot (l e : Nat) : (m.keepFound n r.id k st d cls).dirtySlot l e = m.dirtySlot l e := rfl

theorem Mach.dirtyPlace_count_rmw (hn : n < 16) : (m.count PORT.CNT_RMW n).dirtyPlace = m.dirtyPlace := by
  have hpage : PORT.CNT_RMW.key n / 32768 = 16 + n := Field.key_div (by decide) (by decide) n
  have hne : ∀ q, 32 ≤ q / 32768 → ¬q = PORT.CNT_RMW.key n := fun q hq h => by omega
  exact (m.count_keptBut (K := (· = PORT.CNT_RMW.key n)) rfl 1).dirtyPlace (hne _ (by decide)) (hne _ (by decide)) (hne _ (by decide))

/-- The events of the Hearth tier are none of the engines'. -/
theorem Aside.htEvents {a b : Mach} (h : Aside false a b) : b.get (evField .ht) 0 = a.get (evField .ht) 0 :=
  h.regs.2 _ _ (by unfold asideKey; decide)

variable (h : m.ReqHas n r.id (Req.wantsLine k))
include h

/-- Without a slot the line waits, and the wait is reported (R279). -/
theorem Mach.writeEffect_waits (hno : ∀ e, ¬m.dirtySlot (r.line k) e) :
    ((m.writeEffect n r k st d cls).get (evField .ht) 0).testBit HT.EV_DIR_WAIT = true ∧
      (m.writeEffect n r k st d cls).ReqHas n r.id (Req.lineWaits k) := by
  have hevent : (m.event .ht 0 HT.EV_DIR_WAIT).ReqHas n r.id (Req.wantsLine k) := h.of_reqs (by rw [Mach.port_event])
  rw [Mach.writeEffect_wait st d cls hno]
  refine ⟨m.event_testBit_same .ht 0 (by decide), hevent.modReq (fun x hx => ?_) fun _ => rfl⟩
  exact congrArg LineSt.phase (List.getD_modify_same x.lines _ default hx.2)

/-- A partial write merges into the line found, into zeros where that is BLANK, and keeps poison as poison (R250). -/
theorem Mach.mergeEffect_slot (hn : n < 16) (hempty : r.emptyLine k = false) {e : Nat} (he : m.dirtySlot (r.line k) e) :
    (m.mergeEffect n r k st d cls).get PORT.CNT_RMW n = countUp (m.get PORT.CNT_RMW n) 1 % 2 ^ 64 ∧
      (m.mergeEffect n r k st d cls).ReqHas n r.id (Req.lineEnds k (if cls = 2 then stWritePoisoned else if cls = 1 then stOk else st)) ∧
      (m.mergeEffect n r k st d cls).holdsDirty (m.flag ERR.FLIP_H_ARM) (r.line k) e (r.newLine k (if cls = 1 then 0 else d))
        (if cls = 2 then 2 else 0) := by
  have hkeep : (m.keepFound n r.id k st d cls).ReqHas n r.id (Req.wantsLine k) := h.modLine _
  obtain ⟨hdone, hholds, hrmw⟩ := Mach.writeEffect_slot (if cls = 2 then stWritePoisoned else if cls = 1 then stOk else st)
    (r.newLine k (if cls = 1 then 0 else d)) (if cls = 2 then 2 else 0) hkeep he (by split <;> omega)
  unfold Mach.mergeEffect
  extract_lets base st' m1 m2
  rw [if_neg (by simp [hempty])]
  rw [if_neg (by rw [show m1.lineIsDone n r.id k = true from hdone.lineIsDone st']; decide)]
  have hcount : (m1.count PORT.CNT_RMW n).get PORT.CNT_RMW n = countUp (m.get PORT.CNT_RMW n) 1 % 2 ^ 64 := by
    have hsame : m1.get PORT.CNT_RMW n = m.get PORT.CNT_RMW n := hrmw hn
    rw [← hsame]
    exact Mach.get_put_same _ _ _ _
  have hslot := hholds.of_ht (b := m1.count PORT.CNT_RMW n) rfl (Mach.dirtyPlace_count_rmw hn)
  have h2 : Aside false (m1.count PORT.CNT_RMW n) m2 := Mach.hQueue_aside ..
  have h3 : Aside false (m1.count PORT.CNT_RMW n) (if st = stWritePoisoned then m2.poisoned else m2) :=
    Aside.ite (h2.trans (m2.poisoned_aside 1)) h2
  exact ⟨(h3.effected.get_cntRmw hn).trans hcount, hdone.of_reqs (by rw [h3.port]; rfl), Effected.holdsDirty hslot h3.effected⟩

/-- A write of no byte reads the line and writes nothing (R67, R72). -/
theorem Mach.mergeEffect_empty (hempty : r.emptyLine k = true) (hcls : cls ≠ 2) :
    (m.mergeEffect n r k st d cls).get PORT.CNT_RMW n = countUp (m.get PORT.CNT_RMW n) 1 % 2 ^ 64 ∧
      (m.mergeEffect n r k st d cls).ht = m.ht ∧
      (m.mergeEffect n r k st d cls).ReqHas n r.id (Req.lineEnds k (if cls = 1 then stOk else st)) := by
  have hcount : (m.count PORT.CNT_RMW n).ReqHas n r.id (Req.wantsLine k) := h.of_reqs rfl
  have honly := hcount.lineDone_onlyPorts (if cls = 1 then stOk else st) 0 0
  have hmerge : m.mergeEffect n r k st d cls = (m.count PORT.CNT_RMW n).lineDone n r.id k (if cls = 1 then stOk else st) 0 0 := by
    unfold Mach.mergeEffect
    extract_lets base st' m1 m2
    rw [if_pos (by simp [hempty, hcls]), show st' = if cls = 1 then stOk else st from if_neg hcls]
  rw [hmerge]
  refine ⟨?_, by rw [honly]; rfl, hcount.lineDone _ 0 0⟩
  rw [honly]
  exact Mach.get_put_same _ _ _ _

/-- CLEAR_POISON leaves a line that is GOOD. -/
theorem Mach.clearEffect_good : (m.clearEffect n r k 0).ht = m.ht ∧ (m.clearEffect n r k 0).ReqHas n r.id (Req.lineEnds k stOk) := by
  refine ⟨?_, h.lineDone stOk 0 0⟩
  rw [show m.clearEffect n r k 0 = m.lineDone n r.id k stOk 0 0 from rfl, h.lineDone_onlyPorts]

/-- CLEAR_POISON writes zeros over a line that is not GOOD (R251). -/
theorem Mach.clearEffect_slot {found : Nat} (hfound : found ≠ 0) {e : Nat} (he : m.dirtySlot (r.line k) e) :
    (m.clearEffect n r k found).ReqHas n r.id (Req.lineEnds k stOk) ∧
      (m.clearEffect n r k found).holdsDirty (m.flag ERR.FLIP_H_ARM) (r.line k) e 0 0 := by
  have hkeep : (m.keepFound n r.id k stOk 0 found).ReqHas n r.id (Req.wantsLine k) := h.modLine _
  obtain ⟨hdone, hholds, -⟩ := Mach.writeEffect_slot stOk 0 0 hkeep he (by omega)
  unfold Mach.clearEffect
  extract_lets m1
  rw [if_neg hfound]
  have h1 : Aside false m1 (if m1.lineIsDone n r.id k && found = 2 then m1.count ERR.CNT_CLEARED else m1) :=
    Aside.ite (Aside.refl false m1).count (Aside.refl false m1)
  exact ⟨hdone.of_reqs (by rw [h1.port]), Effected.holdsDirty hholds h1.effected⟩

theorem Mach.clearEffect_waits {found : Nat} (hfound : found ≠ 0) (hno : ∀ e, ¬m.dirtySlot (r.line k) e) :
    ((m.clearEffect n r k found).get (evField .ht) 0).testBit HT.EV_DIR_WAIT = true ∧
      (m.clearEffect n r k found).ReqHas n r.id (Req.lineWaits k) := by
  have hkeep : (m.keepFound n r.id k stOk 0 found).ReqHas n r.id (Req.wantsLine k) := h.modLine _
  obtain ⟨hevent, hwaits⟩ := Mach.writeEffect_waits stOk 0 0 hkeep hno
  unfold Mach.clearEffect
  extract_lets m1
  rw [if_neg hfound]
  have h1 : Aside false m1 (if m1.lineIsDone n r.id k && found = 2 then m1.count ERR.CNT_CLEARED else m1) :=
    Aside.ite (Aside.refl false m1).count (Aside.refl false m1)
  exact ⟨by rw [h1.htEvents]; exact hevent, hwaits.of_reqs (by rw [h1.port])⟩
end

/-! ### Which way a line goes -/

section
variable {m : Mach} {n k : Nat} {r : Req}

/-- A write of a whole line needs no read (R72). -/
theorem Mach.lineStep_whole (hphase : (r.lines.getD k default).phase = .served) (hfree : m.lineFree n r k = true)
    (hmark : m.behindMark r.id = false) (hw : writesLines r.op = true) (hwhole : r.wholeLine k = true) :
    m.lineStep n r k = m.writeEffect n r k stOk (r.newLine k 0) 0 := by
  simp only [Mach.lineStep, hphase, hfree, hmark, hw, hwhole, Bool.not_true, Bool.or_self, Bool.and_self, Bool.false_eq_true, if_false,
    if_true]

theorem Mach.lineStep_merge (hphase : (r.lines.getD k default).phase = .dirWait) (hop : r.op ≠ opClearPoison)
    (hwhole : r.wholeLine k = false) : m.lineStep n r k =
      m.mergeEffect n r k (r.lines.getD k default).status (r.lines.getD k default).data (r.lines.getD k default).cls := by
  simp only [Mach.lineStep, hphase, hop, hwhole, Bool.false_eq_true, if_false]

theorem Mach.lineStep_clear (hphase : (r.lines.getD k default).phase = .dirWait) (hop : r.op = opClearPoison) :
    m.lineStep n r k = m.clearEffect n r k (r.lines.getD k default).cls := by
  simp only [Mach.lineStep, hphase, hop, if_true]
end

end Sys2Proof.Machine
end

section
namespace Sys2Proof.Laws
open Sys2Proof.Machine

/-- Settles O17: a write goes to the line's dirty slot, and what follows it leaves the Hearth tier, so the slot still holds what was written
when the request's line is done. -/
theorem writesTakeEffectOnTheLine : Obligations.WritesTakeEffectOnTheLine := by
  intro s p4 t12 k4 r port k x l found slot done holds writes merges hup hk hr huniq
  have hn : port < 16 := p4.isLt
  have hhas : r.op ≠ opRead → s.m.ReqHas port r.id (Req.wantsLine k) := fun hop =>
    ⟨⟨r, hr, rfl⟩, fun y hy hid => by rw [huniq y hy hid]; exact ⟨hop, hk⟩⟩
  have hstep : ∀ {op}, found op → clientLine op port t12.toNat k s.m = s.m.lineStep port r k := fun ⟨_, hfind, hphase⟩ =>
    clientLine_step hup hfind hphase hk
  have hwhole : ∀ {c : Instr} {op : Nat}, exec c s = answer s (clientLine op port t12.toNat k) → writesLines op = true →
      x.phase = .served → s.m.lineFree port r k = true → s.m.behindMark r.id = false → r.wholeLine k = true → found op →
      writes c (r.newLine k 0) 0 stOk := by
    intro c op hc hw hphase hfree hmark hall hfound
    have hop : r.op = op := hfound.1
    have hhas := hhas (by rw [hop]; rintro rfl; cases hw)
    have hc := completes_of_answer hc ((hstep hfound).trans (Mach.lineStep_whole hphase hfree hmark (hop ▸ hw) hall))
    refine ⟨fun e he => ?_, fun hno => ?_⟩
    · obtain ⟨hdone, hholds, -⟩ := Mach.writeEffect_slot stOk (r.newLine k 0) 0 hhas he (by omega)
      exact ⟨_, hc, hdone.exists, hholds⟩
    · obtain ⟨hevent, hwaits⟩ := Mach.writeEffect_waits stOk (r.newLine k 0) 0 hhas hno
      exact ⟨_, hc, hevent, hwaits.exists⟩
  have hmerge : ∀ {c : Instr} {op : Nat}, exec c s = answer s (clientLine op port t12.toNat k) → op ≠ opRead → op ≠ opClearPoison →
      x.phase = .dirWait → r.wholeLine k = false → r.emptyLine k = false → found op → merges c := by
    intro c op hc hread hclear hphase hall hempty hfound e he cls
    have hop : r.op = op := hfound.1
    obtain ⟨hrmw, hdone, hholds⟩ := Mach.mergeEffect_slot x.status x.data x.cls (hhas (hop ▸ hread)) hn hempty he
    exact ⟨_, completes_of_answer hc ((hstep hfound).trans (Mach.lineStep_merge hphase (hop ▸ hclear) hall)), hrmw, hdone.exists, hholds⟩
  refine ⟨fun hphase hfree hmark hall => ⟨?write, ?zero, ?masked⟩, fun hphase hall hempty => ⟨?mergeWrite, ?mergeMasked⟩,
    fun hphase hall hempty hcls hfound => ?empty, fun hphase hfound => ⟨fun hcls => ?good, fun hcls => ?clear⟩⟩
  case write => exact hwhole (exec_write s p4 t12 k4) (by decide) hphase hfree hmark hall
  case zero => exact hwhole (exec_zero s p4 t12 k4) (by decide) hphase hfree hmark hall
  case masked => exact hwhole (exec_writeMasked s p4 t12 k4) (by decide) hphase hfree hmark hall
  case mergeWrite => exact hmerge (exec_write s p4 t12 k4) (by decide) (by decide) hphase hall hempty
  case mergeMasked => exact hmerge (exec_writeMasked s p4 t12 k4) (by decide) (by decide) hphase hall hempty
  case empty =>
    have hop : r.op = opWriteMasked := hfound.1
    obtain ⟨hrmw, hht, hdone⟩ := Mach.mergeEffect_empty x.status x.data x.cls (hhas (by rw [hop]; decide)) hempty hcls
    exact ⟨_, completes_of_answer (exec_writeMasked s p4 t12 k4)
      ((hstep hfound).trans (Mach.lineStep_merge hphase (by rw [hop]; decide) hall)), hrmw, hht, hdone.exists⟩
  case good =>
    have hop : r.op = opClearPoison := hfound.1
    obtain ⟨hht, hdone⟩ := Mach.clearEffect_good (hhas (by rw [hop]; decide))
    have hclear := (hstep hfound).trans (Mach.lineStep_clear hphase hop)
    rw [show (r.lines.getD k default).cls = 0 from hcls] at hclear
    exact ⟨_, completes_of_answer (exec_clearPoison s p4 t12 k4) hclear, hht, hdone.exists⟩
  case clear =>
    have hop : r.op = opClearPoison := hfound.1
    have hhas := hhas (by rw [hop]; decide)
    have hc := completes_of_answer (exec_clearPoison s p4 t12 k4) ((hstep hfound).trans (Mach.lineStep_clear hphase hop))
    refine ⟨fun e he => ?_, fun hno => ?_⟩
    · obtain ⟨hdone, hholds⟩ := Mach.clearEffect_slot hhas hcls he
      exact ⟨_, hc, hdone.exists, hholds⟩
    · obtain ⟨hevent, hwaits⟩ := Mach.clearEffect_waits hhas hcls hno
      exact ⟨_, hc, hevent, hwaits.exists⟩

end Sys2Proof.Laws
end

section
/-! SUPPORT. The beats of a line, and the work on one stream: what it leaves of the stream's own registers and slots and of the other streams
(chapter "Kiln: capture", R121 to R142). -/
namespace Sys2Proof.Machine

/-! ### Beats of a line (R17) -/

theorem maskAt_getLsbD (w lo len i : Nat) : (maskAt w lo len).getLsbD i = decide (i < w ∧ lo ≤ i ∧ i < lo + len) := by
  rw [maskAt, BitVec.getLsbD_ofNat, Nat.testBit_mul_two_pow, Nat.testBit_two_pow_sub_one]
  rw [Bool.eq_iff_iff]
  simp
  omega

section
variable (l : Line) {q p : Nat} (b : Beat)

theorem Line.beat_setBeat_same (hq : q < 4) : Line.beat (Line.setBeat l q b) q = b := by
  refine BitVec.eq_of_getLsbD_eq fun i hi => ?_
  have hin : 512 * q + i < 2048 := by omega
  simp only [Line.beat, Line.setBeat, BitVec.getLsbD_extractLsb', BitVec.getLsbD_or, BitVec.getLsbD_and, BitVec.getLsbD_not,
    BitVec.getLsbD_shiftLeft, BitVec.getLsbD_setWidth, maskAt_getLsbD]
  simp [hi, hin]
  omega

theorem Line.beat_setBeat_ne (hp : p < 4) (h : p ≠ q) : Line.beat (Line.setBeat l q b) p = Line.beat l p := by
  refine BitVec.eq_of_getLsbD_eq fun i hi => ?_
  have hin : 512 * p + i < 2048 := by omega
  simp only [Line.beat, Line.setBeat, BitVec.getLsbD_extractLsb', BitVec.getLsbD_or, BitVec.getLsbD_and, BitVec.getLsbD_not,
    BitVec.getLsbD_shiftLeft, BitVec.getLsbD_setWidth, maskAt_getLsbD]
  rcases Nat.lt_or_gt_of_ne h with hlt | hgt
  · have h1 : 512 * p + i < 512 * q := by omega
    simp [hi, hin, h1, Nat.not_le.2 h1]
  · have h1 : 512 * q + 512 ≤ 512 * p + i := by omega
    have hb : b.getLsbD (512 * p + i - 512 * q) = false := BitVec.getLsbD_of_ge _ _ (by omega)
    rw [hb]
    simp [hi, hin]
    exact fun _ => .inr h1
end

/-! ### Work on one stream -/

/-- The registers of a stream that work on it keeps, those that the least work gives up first: appending to its index and showing its levels
keeps all, padding it all but the first, stopping it all but the first three, and latching a trigger none. -/
def guardFields : List Field :=
  [STREAM.NEXT_OFFSET, STREAM.STAT_STATE, STREAM.STAT_ARMED, STREAM.CNT_BYTES, STREAM.STAT_TRIGGERED, STREAM.TRIG_TICK, STREAM.TRIG_OFFSET]

/-- The place of a field in its page. -/
def Field.place (f : Field) : Nat := f.off / 8 * 64 + f.lo

/-- A place that work on a stream guards when it gives up the first `lv` registers. -/
def guarded (lv x : Nat) : Bool := (guardFields.drop lv).any fun f => f.place == x

/-- The registers that work on stream `j` may change when it gives up the first `lv`. -/
def streamKey (lv j q : Nat) : Prop :=
  asideKey true q ∨ q / 32768 = 10 ∨ (q / 32768 = 112 + j ∧ guarded lv (q % 32768) = false)

/-- From `m` to `t` there has been work on stream `j`: ports and the other streams stand, and where nothing is given up its slots too. -/
structure Streamed (lv j : Nat) (m t : Mach) : Prop where
  rest : t = { m with
    regs := t.regs, serial := t.serial, alm := t.alm, sc := t.sc, rota := t.rota, ns := t.ns, ht := t.ht, map := t.map, err := t.err,
    zml := t.zml, loom := t.loom, kiln := t.kiln }
  trig : t.kiln.trig = m.kiln.trig
  other : ∀ i, i ≠ j → t.str i = m.str i
  slots : lv = 0 → (t.str j).slots = (m.str j).slots
  regs : KeptBut (streamKey lv j) m t

/-- The place of a stream's field among the registers. -/
theorem Field.key_stream {f : Field} (hp : f.page = .stream) (j : Nat) : f.key j = (112 + j) * 32768 + f.place := by
  simp only [Field.key, Field.place, hp, Page.number]
  omega

section
variable {lv lv' j : Nat} {a b c m : Mach}

theorem Streamed.refl (lv j : Nat) (m : Mach) : Streamed lv j m m := ⟨rfl, rfl, fun _ _ => rfl, fun _ => rfl, KeptBut.refl _ _⟩

theorem Streamed.trans (h : Streamed lv j a b) (g : Streamed lv j b c) : Streamed lv j a c where
  rest := by rw [g.rest, h.rest]
  trig := g.trig.trans h.trig
  other i hi := (g.other i hi).trans (h.other i hi)
  slots hl := (g.slots hl).trans (h.slots hl)
  regs := h.regs.trans g.regs

theorem Streamed.ite {p : Prop} [Decidable p] (h : Streamed lv j a b) (g : Streamed lv j a c) : Streamed lv j a (if p then b else c) := by
  split
  · exact h
  · exact g

theorem Streamed.foldl {α : Type} {f : Mach → α → Mach} (l : List α) (hf : ∀ x m, Streamed lv j m (f m x)) (m : Mach) :
    Streamed lv j m (l.foldl f m) := by
  induction l generalizing m with
  | nil => exact Streamed.refl lv j m
  | cons x l ih => exact (hf x m).trans (ih _)

theorem guarded_of_le (h : lv ≤ lv') {x : Nat} (hx : guarded lv x = false) : guarded lv' x = false := by
  simp only [guarded, List.any_eq_false] at hx ⊢
  exact fun f hf => hx f (List.drop_subset_drop_left _ h hf)

/-- Work that goes less far is work that goes further. -/
theorem Streamed.mono (h : Streamed lv j a b) (hl : lv ≤ lv') : Streamed lv' j a b where
  rest := h.rest
  trig := h.trig
  other := h.other
  slots h0 := h.slots (by omega)
  regs := h.regs.mono fun q hq => by
    rcases hq with hq | hq | ⟨hp, hq⟩
    · exact .inl hq
    · exact .inr (.inl hq)
    · exact .inr (.inr ⟨hp, guarded_of_le hl hq⟩)

/-- The engines do no work on a stream. -/
theorem Aside.streamed (h : Aside true a b) : Streamed lv j a b where
  rest := by rw [h.rest]
  trig := by rw [h.kiln]
  other i _ := by rw [Mach.str, h.kiln]; rfl
  slots _ := by rw [Mach.str, h.kiln]; rfl
  regs := h.regs.mono fun _ => .inl

theorem Streamed.of_onlyRegs (h : OnlyRegs (streamKey lv j) a b) : Streamed lv j a b := by
  have hkiln : b.kiln = a.kiln := by rw [h.1]
  exact ⟨by rw [h.1], by rw [hkiln], fun i _ => by rw [Mach.str, hkiln]; rfl, fun _ => by rw [Mach.str, hkiln]; rfl, h.2⟩

/-- A register of the stream that its level does not guard. -/
theorem streamKey_own {f : Field} (hp : f.page = .stream) (hf : f.place < 32768)
    (hg : guarded lv f.place = false) (j : Nat) : streamKey lv j (f.key j) := by
  rw [Field.key_stream hp]
  exact .inr (.inr ⟨by omega, by rw [show ((112 + j) * 32768 + f.place) % 32768 = f.place by omega]; exact hg⟩)

theorem streamKey_events (lv j : Nat) : ∀ q ∈ eventKeys .stream j, streamKey lv j q := by
  have hown : ∀ f ∈ [evField .stream, evFirstBit .stream, evFirstEst .stream, evFirstValid .stream, evTime .stream],
      f.page = .stream ∧ f.place < 32768 ∧ guarded 0 f.place = false := by decide
  have hkey : ∀ f ∈ [evField .stream, evFirstBit .stream, evFirstEst .stream, evFirstValid .stream, evTime .stream],
      streamKey lv j (f.key j) := fun f hf =>
    let ⟨hp, hplace, hg⟩ := hown f hf
    streamKey_own hp hplace (guarded_of_le (Nat.zero_le lv) hg) j
  simp only [eventKeys, List.mem_cons, List.not_mem_nil, or_false] at hkey ⊢
  rintro q (rfl | rfl | rfl | rfl | rfl | rfl)
  case inr.inr.inr.inr.inr => exact .inl (.inl (by decide))
  all_goals exact hkey _ (by simp)

section
variable (h : Streamed lv j a b)
include h

theorem Streamed.put {f : Field} {v : Nat} (hp : f.page = .stream := by rfl) (hf : f.place < 32768 := by decide)
    (hg : guarded lv f.place = false := by decide) : Streamed lv j a (b.put f j v) :=
  h.trans (Streamed.of_onlyRegs (b.put_onlyRegs (streamKey_own hp hf hg j) v))

theorem Streamed.setFlag {f : Field} {v : Bool} (hp : f.page = .stream := by rfl) (hf : f.place < 32768 := by decide)
    (hg : guarded lv f.place = false := by decide) : Streamed lv j a (b.setFlag f j v) := h.put hp hf hg

theorem Streamed.count {f : Field} {v : Nat} (hp : f.page = .stream := by rfl) (hf : f.place < 32768 := by decide)
    (hg : guarded lv f.place = false := by decide) : Streamed lv j a (b.count f j v) := h.put hp hf hg

/-- A register of KILN's page. -/
theorem Streamed.kilnPut {f : Field} {v : Nat} (hk : f.key 0 / 32768 = 10 := by decide) : Streamed lv j a (b.put f 0 v) :=
  h.trans (Streamed.of_onlyRegs (b.put_onlyRegs (.inr (.inl hk)) v))

theorem Streamed.event {v : Nat} : Streamed lv j a (b.event .stream j v) :=
  h.trans (Streamed.of_onlyRegs (b.event_onlyRegs (streamKey_events lv j) v))

theorem Streamed.kilnEvent {v : Nat} : Streamed lv j a (b.event .kiln 0 v) :=
  h.trans (Streamed.of_onlyRegs (b.event_onlyRegs (fun q hq =>
    ((by decide : ∀ q ∈ eventKeys .kiln 0, engineKey q = true ∨ q / 32768 = 10) q hq).elim (fun h => .inl (.inl h)) fun h => .inr (.inl h)) v))

theorem Streamed.modStr {f : StrSt → StrSt} (hf : lv = 0 → ∀ s, (f s).slots = s.slots := by intros; rfl) :
    Streamed lv j a (b.modStr j f) :=
  h.trans {
    rest := rfl
    trig := rfl
    other := fun i hi => Tab.get_upd_ne _ hi _
    slots := fun hl => by
      rw [Mach.str, Mach.modStr, Tab.get_upd_same]
      exact hf hl _
    regs := KeptBut.of_regs rfl rfl }
end
end

end Sys2Proof.Machine
end

section
/-! SUPPORT. What each step of a stream's work keeps: its index, its padding and its stop (chapter "Kiln: capture", R124 to R142). -/
namespace Sys2Proof.Machine

section
variable {j : Nat} (m : Mach)

/-! ### The index (R141, R142) -/

theorem Mach.newValue_streamed (lv l : Nat) : Streamed lv j m (m.newValue l) :=
  ((m.overtake_aside l false).trans (Mach.loomDiscard_aside _ l true)).streamed

theorem Mach.idxFlush_streamed (final : Bool) (fuel : Nat) : Streamed 0 j m (m.idxFlush j final fuel) := by
  induction fuel generalizing m with
  | zero => exact Streamed.refl 0 j m
  | succ fuel ih =>
    unfold Mach.idxFlush
    extract_lets s n first l d c r
    have hr : Streamed 0 j m r.2 := (Mach.putDirty_aside d 0 m c l (m.mirrors c) false).streamed
    refine Streamed.ite (Streamed.refl 0 j m) (Streamed.ite (Streamed.trans ?_ (ih _)) hr)
    exact (((hr.trans (Mach.hQueue_aside ..).streamed).put).modStr).trans (Mach.newValue_streamed _ 0 l)

theorem Mach.idxAppend_streamed (fl off : Nat) : Streamed 0 j m (m.idxAppend j fl off) := by
  unfold Mach.idxAppend
  refine Streamed.ite (Streamed.refl 0 j m) ?_
  extract_lets s cap skew w1 offs excess m1 m2
  have h2 : Streamed 0 j m m2 := ((Streamed.refl 0 j m).modStr).put
  exact Streamed.ite (Streamed.refl 0 j m).count.event ((Streamed.ite h2.event h2).trans (Mach.idxFlush_streamed _ _ _))

theorem Mach.idxAge_streamed : Streamed 0 j m (m.idxAge j) := by
  unfold Mach.idxAge
  exact Streamed.ite (Streamed.refl 0 j m) (((Streamed.refl 0 j m).modStr).put)

/-! ### Levels shown (R129, R143) -/

theorem Mach.spillEnter_streamed : Streamed 0 j m (m.spillEnter j) := by
  unfold Mach.spillEnter
  exact Streamed.ite (Streamed.refl 0 j m).setFlag.event.count (Streamed.refl 0 j m)

theorem Mach.showStr_streamed : Streamed 0 j m (m.showStr j) := by
  unfold Mach.showStr
  extract_lets m1 h was m2 m3 m4
  have h1 : Streamed 0 j m m1 := (((Streamed.refl 0 j m).kilnPut.kilnPut).kilnPut.put).put
  have h2 : Streamed 0 j m m2 := Streamed.ite h1.count h1
  have h3 : Streamed 0 j m m3 := h2.setFlag.modStr
  have h4 : Streamed 0 j m m4 := Streamed.ite h3.event h3
  exact Streamed.ite h4.kilnEvent h4

/-! ### Slots filled and padded (R124, R126, R136) -/

theorem Mach.closeHalf_streamed : Streamed 1 j m (m.closeHalf j) := (Streamed.refl 1 j m).modStr (by simp)

theorem Mach.modSlot_streamed (no : Nat) (f : Slot → Slot) : Streamed 1 j m (m.modSlot j no f) := (Streamed.refl 1 j m).modStr (by simp)

theorem Mach.setNext_streamed (o : Nat) : Streamed 1 j m (m.setNext j o) := by
  unfold Mach.setNext
  exact Streamed.ite (Streamed.refl 1 j m).put (Streamed.refl 1 j m).put.put

theorem Mach.slotComplete_streamed (no : Nat) : Streamed 1 j m (m.slotComplete j no) := by
  unfold Mach.slotComplete
  extract_lets m1 m2
  have h2 : Streamed 1 j m m2 := Streamed.ite (m.modSlot_streamed ..).kilnPut (m.modSlot_streamed ..)
  exact Streamed.ite (h2.trans (Mach.closeHalf_streamed _)) h2

theorem Mach.kilnPad_streamed (mark : Bool) : Streamed 1 j m (m.kilnPad j mark) := by
  unfold Mach.kilnPad
  extract_lets o r n no m1 m2 m2' m1'
  have h1 : Streamed 1 j m m1 := ((m.idxAppend_streamed ..).mono (by decide)).count
  have h2 : Streamed 1 j m m2 := h1.trans (Streamed.foldl _ (fun _ x => (x.idxAppend_streamed ..).mono (by decide)) _)
  have h2' : Streamed 1 j m m2' := h2.trans (Streamed.foldl _ (fun _ x => x.newValue_streamed 1 _) _)
  have h1' : Streamed 1 j m m1' := Streamed.ite (Streamed.refl 1 j m)
    ((((h2'.trans (Mach.modSlot_streamed ..)).trans (Mach.setNext_streamed _ _)).trans (Mach.slotComplete_streamed _ _)).trans
      ((Mach.idxAge_streamed _).mono (by decide)))
  exact (Streamed.ite (h1'.trans (Mach.closeHalf_streamed _)) h1').trans ((Mach.showStr_streamed _).mono (by decide))

/-! ### The end of a run (R123, R135) -/

theorem Mach.strEnd_streamed (reason e : Nat) : Streamed 3 j m (m.strEnd j reason e) := by
  unfold Mach.strEnd Mach.strWindow
  extract_lets trig t pre m1
  have h1 : Streamed 3 j m m1 := (((((Streamed.refl 3 j m).put).put.setFlag).put).put).setFlag
  exact Streamed.ite (h1.modStr (by simp)) h1

theorem Mach.strStop_streamed (reason : Nat) : Streamed 3 j m (m.strStop j reason) := by
  unfold Mach.strStop
  extract_lets e m2
  have h2 : Streamed 3 j m m2 := ((m.strEnd_streamed ..).trans ((Mach.kilnPad_streamed _ _).mono (by decide))).trans
    ((Mach.idxAppend_streamed ..).mono (by decide))
  exact ((h2.trans ((Mach.idxFlush_streamed _ _ _).mono (by decide))).event).trans ((Mach.showStr_streamed _).mono (by decide))

theorem Mach.postDone_streamed : Streamed 3 j m (m.postDone j) := by
  unfold Mach.postDone
  exact Streamed.ite (m.strStop_streamed _) (Streamed.refl 3 j m)

theorem Mach.trigEdge_streamed : Streamed 7 j m (m.trigEdge j) := by
  unfold Mach.trigEdge
  refine Streamed.ite (Streamed.refl 7 j m).count (Streamed.ite (Streamed.refl 7 j m) ?_)
  extract_lets o m1
  have h1 : Streamed 7 j m m1 := (Streamed.refl 7 j m).put.put.setFlag
  exact (h1.setFlag.event.trans ((Mach.idxAppend_streamed ..).mono (by decide))).trans ((Mach.postDone_streamed _).mono (by decide))
end

end Sys2Proof.Machine
end

section
/-! SUPPORT. Staging: where the beats of a stream's bytes stand once they have arrived (chapter "Kiln: capture", R121, R124, R126). -/
namespace Sys2Proof.Machine

/-! ### One slot (R126) -/

/-- A slot once beat `q` of its line `d` has arrived; with parity (`par`) the last line takes it in too. -/
def Slot.stage (par : Prop) [Decidable par] (d q : Nat) (b : Beat) (x : Slot) : Tab Line :=
  let ls := x.lines.set d (Line.setBeat (x.lines.get d) q b)
  if par then ls.set 15 (Line.setBeat (ls.get 15) q (Line.beat (ls.get 15) q ^^^ b)) else ls

section
variable {par : Prop} [Decidable par] {d q p c : Nat} (b : Beat) (x : Slot)

/-- The parity line is no data line. -/
theorem Slot.stage_get (hp : par → p ≠ 15) : (x.stage par d q b).get p = (x.lines.set d (Line.setBeat (x.lines.get d) q b)).get p := by
  unfold Slot.stage
  dsimp only
  split
  · exact Tab.get_set_ne _ (hp ‹_›) _
  · rfl

theorem Slot.stage_beat_same (hq : q < 4) (hd : par → d ≠ 15) : Line.beat ((x.stage par d q b).get d) q = b := by
  rw [Slot.stage_get b x hd, Tab.get_set_same, Line.beat_setBeat_same _ _ hq]

theorem Slot.stage_beat_ne (hc : c < 4) (hp : par → p ≠ 15) (h : p = d → c ≠ q) :
    Line.beat ((x.stage par d q b).get p) c = Line.beat (x.lines.get p) c := by
  rw [Slot.stage_get b x hp]
  by_cases hpd : p = d
  · rw [hpd, Tab.get_set_same, Line.beat_setBeat_ne _ _ hc (h hpd)]
  · rw [Tab.get_set_ne _ hpd]
end

/-! ### Where a stream's bytes stand (R124) -/

/-- The beat of stream `k` at offset `p` is staged with the value `v`. -/
def Mach.stagedAt (m : Mach) (k p : Nat) (v : Beat) : Prop :=
  ∃ y ∈ (m.str k).slots, y.no = p / m.span k ∧ Line.beat (y.lines.get (p % m.span k / 256)) (p % 256 / 64) = v

section
variable (m : Mach) (k : Nat)

/-- Two beats of one slot on one line, of which the first comes earlier, have different places on it. -/
theorem beat_place_ne {p s o D : Nat} (hs : 0 < s) (ho : p + 64 * s = o) (hno : p / (256 * D) = o / (256 * D))
    (hd : p % (256 * D) / 256 = o % (256 * D) / 256) : p % 256 / 64 ≠ o % 256 / 64 := by
  rw [Nat.mod_mul_right_div_self, Nat.mod_mul_right_div_self] at hd
  rw [← Nat.div_div_eq_div_mul, ← Nat.div_div_eq_div_mul] at hno
  have hblock : p / 256 = o / 256 := by
    rw [← Nat.div_add_mod (p / 256) D, ← Nat.div_add_mod (o / 256) D, hno, hd]
  omega

/-- With parity every data line of a slot comes before the parity line. -/
theorem Mach.dataLine_ne (p : Nat) (h : m.strProt k = 2) : p % m.span k / 256 ≠ 15 := by
  have hspan : m.span k = 256 * 15 := by rw [Mach.span, Mach.slotData, if_pos h]
  rw [hspan]
  omega

theorem Mach.modSlot_slots (no : Nat) (f : Slot → Slot) :
    ((m.modSlot k no f).str k).slots = (m.str k).slots.map fun x => if x.no = no then f x else x := by
  rw [Mach.modSlot, Mach.str, Mach.modStr, Tab.get_upd_same]
  rfl

/-- A change of a stream's slots that moves none of them and keeps their lines keeps what is staged. -/
theorem Mach.stagedAt_map {a b : Mach} {p : Nat} {v : Beat} (h : a.stagedAt k p v) {f : Slot → Slot}
    (hs : (b.str k).slots = (a.str k).slots.map f) (hspan : b.span k = a.span k) (hno : ∀ x, (f x).no = x.no)
    (hl : ∀ x, x.no = p / a.span k → Line.beat ((f x).lines.get (p % a.span k / 256)) (p % 256 / 64) =
      Line.beat (x.lines.get (p % a.span k / 256)) (p % 256 / 64)) : b.stagedAt k p v := by
  obtain ⟨y, hy, hyno, hybeat⟩ := h
  refine ⟨f y, ?_, ?_, ?_⟩
  · rw [hs]
    exact List.mem_map_of_mem hy
  · rw [hno, hspan, hyno]
  · rw [hspan, hl y hyno, hybeat]
end

end Sys2Proof.Machine
end

section
/-! SUPPORT. Staging one beat after another at NEXT_OFFSET (chapter "Kiln: capture", R121, R124, R126). -/
namespace Sys2Proof.Machine

/-- The registers that staging a beat of stream `k` changes. -/
def stageKey (k q : Nat) : Prop := q = STREAM.NEXT_OFFSET.key k ∨ q = STREAM.LAP.key k ∨ q = KILN.CNT_PARITY_STRIPES.key 0

theorem Field.key_stream_ne {f g : Field} (hf : f.page = .stream) (hg : g.page = .stream) (h : f.place ≠ g.place) (k : Nat) :
    f.key k ≠ g.key k := by
  rw [Field.key_stream hf, Field.key_stream hg]
  omega

/-- A stream's field is none of a page below the streams'. -/
theorem Field.key_stream_ne_low {f : Field} (hf : f.page = .stream) {q : Nat} (hq : q < 112 * 32768) (k : Nat) : f.key k ≠ q := by
  rw [Field.key_stream hf]
  omega

theorem targetAddr_notStaged (k : Nat) : ¬stageKey k (STREAM.TARGET_ADDR.key k) := by
  rintro (h | h | h)
  · exact Field.key_stream_ne rfl rfl (by decide) k h
  · exact Field.key_stream_ne rfl rfl (by decide) k h
  · exact Field.key_stream_ne_low rfl (by decide) k h

theorem flipArm_notStaged (k : Nat) : ¬stageKey k (ERR.FLIP_S_ARM.key 0) := by
  rintro (h | h | h)
  · exact Field.key_stream_ne_low rfl (by decide) k h.symm
  · exact Field.key_stream_ne_low rfl (by decide) k h.symm
  · exact absurd h (by decide)

/-- From `m` to `t` beats of stream `k` were staged while no flip of the SRAMs was armed. -/
structure Staging (k : Nat) (m t : Mach) : Prop where
  ns : t.ns = m.ns
  regs : KeptBut (stageKey k) m t

section
variable {k : Nat} {a b c : Mach}

theorem Staging.refl (k : Nat) (m : Mach) : Staging k m m := ⟨rfl, KeptBut.refl _ _⟩

theorem Staging.trans (h : Staging k a b) (g : Staging k b c) : Staging k a c := ⟨g.ns.trans h.ns, h.regs.trans g.regs⟩

theorem Staging.ite {p : Prop} [Decidable p] (h : Staging k a b) (g : Staging k a c) : Staging k a (if p then b else c) := by
  split
  · exact h
  · exact g

section
variable (h : Staging k a b)
include h

theorem Staging.put {f : Field} {n v : Nat} (hk : stageKey k (f.key n)) : Staging k a (b.put f n v) :=
  h.trans ⟨rfl, b.put_keptBut hk v⟩

theorem Staging.modStr {j : Nat} {f : StrSt → StrSt} : Staging k a (b.modStr j f) := h.trans ⟨rfl, KeptBut.of_regs rfl rfl⟩

theorem Staging.strProt : b.strProt k = a.strProt k := by
  rw [Mach.strProt, Mach.strProt, Mach.strNs, Mach.strNs, h.regs.2 _ _ (targetAddr_notStaged k), Mach.nsDesc, Mach.nsDesc, h.ns]

theorem Staging.span : b.span k = a.span k := by rw [Mach.span, Mach.span, Mach.slotData, Mach.slotData, h.strProt]

theorem Staging.unarmed : b.flag ERR.FLIP_S_ARM = a.flag ERR.FLIP_S_ARM :=
  h.regs.flag (flipArm_notStaged k)
end
end

section
variable (m : Mach) (k : Nat)

/-! ### A full slot (R124, R126) -/

theorem Mach.setNext_staging (o : Nat) : Staging k m (m.setNext k o) := by
  unfold Mach.setNext
  have h1 : Staging k m (m.put STREAM.NEXT_OFFSET k o) := (Staging.refl k m).put (.inl rfl)
  exact Staging.ite h1 (h1.put (.inr (.inl rfl)))

theorem Mach.setNext_nextOff (o : Nat) : (m.setNext k o).nextOff k = o % 2 ^ 64 := by
  unfold Mach.setNext Mach.nextOff
  dsimp only
  split
  · exact Mach.get_put_same ..
  · rw [Mach.get_put_ne _ _ (Field.key_stream_ne rfl rfl (by decide) k), Mach.get_put_same]
    rfl

theorem Mach.slotComplete_staging (no : Nat) : Staging k m (m.slotComplete k no) := by
  unfold Mach.slotComplete
  extract_lets m1 m2
  have h1 : Staging k m m1 := (Staging.refl k m).modStr
  have h2 : Staging k m m2 := Staging.ite (h1.put (.inr (.inr rfl))) h1
  exact Staging.ite h2.modStr h2

theorem Mach.slotComplete_nextOff (no : Nat) : (m.slotComplete k no).nextOff k = m.nextOff k := by
  have hcount : ∀ x : Mach, (x.count KILN.CNT_PARITY_STRIPES).nextOff k = x.nextOff k := fun x =>
    Mach.get_put_ne _ _ (Field.key_stream_ne_low rfl (by decide) k)
  unfold Mach.slotComplete
  extract_lets m1 m2
  have h2 : m2.nextOff k = m.nextOff k := by
    unfold m2
    split
    · exact hcount m1
    · rfl
  split
  · exact h2
  · exact h2

section
variable {m} {k} {p : Nat} {v : Beat} (h : m.stagedAt k p v)
include h

/-- What is staged does not hang on other registers. -/
theorem Mach.stagedAt_of_slots {t : Mach} (hs : (t.str k).slots = (m.str k).slots) (hspan : t.span k = m.span k) : t.stagedAt k p v := by
  obtain ⟨y, hy, hno, hbeat⟩ := h
  exact ⟨y, by rw [hs]; exact hy, by rw [hspan]; exact hno, by rw [hspan]; exact hbeat⟩

theorem Mach.stagedAt_closeHalf : (m.closeHalf k).stagedAt k p v := by
  by_cases hu : (m.str k).used = 0
  · refine Mach.stagedAt_of_slots h ?_ rfl
    rw [Mach.closeHalf, Mach.str, Mach.modStr, Tab.get_upd_same]
    exact congrArg StrSt.slots (if_pos hu)
  · refine Mach.stagedAt_map k h (f := fun x => if x.half = (m.str k).half then { x with closed := true } else x) ?_ rfl ?_ ?_
    · rw [Mach.closeHalf, Mach.str, Mach.modStr, Tab.get_upd_same]
      exact congrArg StrSt.slots (if_neg hu)
    · intro x
      split <;> rfl
    · intro x _
      split <;> rfl

theorem Mach.stagedAt_slotComplete (no : Nat) : (m.slotComplete k no).stagedAt k p v := by
  unfold Mach.slotComplete
  extract_lets m1 m2
  have h1 : m1.stagedAt k p v := by
    refine Mach.stagedAt_map k h (m.modSlot_slots k no _) rfl ?_ ?_
    · intro x
      split <;> rfl
    · intro x _
      split <;> rfl
  have hcount : Staging k m1 (m1.count KILN.CNT_PARITY_STRIPES) := (Staging.refl k m1).put (.inr (.inr rfl))
  have h2 : m2.stagedAt k p v := by
    unfold m2
    split
    · exact Mach.stagedAt_of_slots h1 rfl hcount.span
    · exact h1
  split
  · exact Mach.stagedAt_closeHalf h2
  · exact h2
end
end

end Sys2Proof.Machine
end

section
/-! SUPPORT. The beats of a request staged in order: each in its place, after those before it (chapter "Kiln: capture", R121, R126). -/
namespace Sys2Proof.Machine

/-! ### One beat -/

/-- Stream `k` with a slot for its next beat. -/
def Mach.slotOpened (m : Mach) (k : Nat) : Mach :=
  if (m.str k).slots.any (fun s => s.no = m.nextOff k / m.span k) then m
  else m.modStr k fun s => { s with
    slots := s.slots ++ [{ (default : Slot) with
      no := m.nextOff k / m.span k, since := m.now, half := s.half,
      pos := if m.pingpong k then s.half * (m.stgCap k / 2) + s.used else m.nextOff k / m.span k % max 1 (m.stgCap k) }],
    used := s.used + 1 }

/-- A slot of stream `k` with its next beat stored. -/
def Mach.slotStored (m : Mach) (k : Nat) (b : Beat) (x : Slot) : Slot :=
  { x with lines := x.stage (m.strProt k = 2) (m.nextOff k % m.span k / 256) (m.nextOff k % 256 / 64) b, filled := x.filled + 64 }

/-- Stream `k` with its next beat stored in that slot. -/
def Mach.beatStored (m : Mach) (k : Nat) (b : Beat) : Mach :=
  ((m.slotOpened k).modSlot k (m.nextOff k / m.span k) (m.slotStored k b)).setNext k (m.nextOff k + 64)

section
variable (m : Mach) (k : Nat) (b : Beat)

theorem Mach.stageBeat_unarmed (h : m.flag ERR.FLIP_S_ARM = false) : m.stageBeat k b =
    if (m.nextOff k + 64) % m.span k = 0 then (m.beatStored k b).slotComplete k (m.nextOff k / m.span k) else m.beatStored k b := by
  have hflip : m.flipS 0 = ((false, 0), m) := by simp [Mach.flipS, h]
  rw [Mach.stageBeat, hflip]
  simp only [BitVec.xor_zero, if_false, Bool.false_eq_true]
  rfl

theorem Mach.slotOpened_staging : Staging k m (m.slotOpened k) := Staging.ite (Staging.refl k m) (Staging.refl k m).modStr

theorem Mach.beatStored_staging : Staging k m (m.beatStored k b) :=
  (m.slotOpened_staging k).modStr.trans (Mach.setNext_staging _ k _)

theorem Mach.stageBeat_staging (h : m.flag ERR.FLIP_S_ARM = false) : Staging k m (m.stageBeat k b) := by
  rw [m.stageBeat_unarmed k b h]
  exact Staging.ite ((m.beatStored_staging k b).trans (Mach.slotComplete_staging _ k _)) (m.beatStored_staging k b)

theorem Mach.stageBeat_nextOff : (m.stageBeat k b).nextOff k = (m.nextOff k + 64) % 2 ^ 64 := by
  unfold Mach.stageBeat
  extract_lets o no d q f m0 pp fresh m1 word m2 m3
  have h3 : m3.nextOff k = (o + 64) % 2 ^ 64 := m2.setNext_nextOff k (o + 64)
  split
  · rw [Mach.slotComplete_nextOff, h3]
  · exact h3

theorem Mach.stageBeat_streamed : Streamed 1 k m (m.stageBeat k b) := by
  unfold Mach.stageBeat
  extract_lets o no d q f m0 pp fresh m1 word m2 m3
  have h0 : Streamed 1 k m m0 := (m.flipS_aside 0).streamed
  have h1 : Streamed 1 k m m1 := Streamed.ite h0 (h0.modStr (by simp))
  have h3 : Streamed 1 k m m3 := (h1.trans (m1.modSlot_streamed no _)).trans (m2.setNext_streamed (o + 64))
  exact Streamed.ite (h3.trans (m3.slotComplete_streamed no)) h3

theorem Mach.slotOpened_slot : ∃ x ∈ ((m.slotOpened k).str k).slots, x.no = m.nextOff k / m.span k := by
  unfold Mach.slotOpened
  split
  · next h => simpa using h
  · rw [Mach.str, Mach.modStr, Tab.get_upd_same]
    exact ⟨_, List.mem_append_right _ (List.mem_singleton.2 rfl), rfl⟩

theorem Mach.slotOpened_stagedAt {p : Nat} {v : Beat} (h : m.stagedAt k p v) : (m.slotOpened k).stagedAt k p v := by
  obtain ⟨y, hy, hno, hbeat⟩ := h
  rw [Mach.stagedAt, (m.slotOpened_staging k).span]
  refine ⟨y, ?_, hno, hbeat⟩
  unfold Mach.slotOpened
  split
  · exact hy
  · rw [Mach.str, Mach.modStr, Tab.get_upd_same]
    exact List.mem_append_left _ hy

theorem Mach.setNext_str (o j : Nat) : (m.setNext k o).str j = m.str j := by
  unfold Mach.setNext
  dsimp only
  split <;> rfl

theorem Mach.beatStored_slots : ((m.beatStored k b).str k).slots = ((m.slotOpened k).str k).slots.map fun x =>
    if x.no = m.nextOff k / m.span k then m.slotStored k b x else x := by
  rw [Mach.beatStored, Mach.setNext_str, Mach.modSlot_slots]

/-- The beat is in its place. -/
theorem Mach.beatStored_same : (m.beatStored k b).stagedAt k (m.nextOff k) b := by
  obtain ⟨x, hx, hno⟩ := m.slotOpened_slot k
  rw [Mach.stagedAt, (m.beatStored_staging k b).span, m.beatStored_slots]
  refine ⟨m.slotStored k b x, List.mem_map.2 ⟨x, hx, if_pos hno⟩, hno, ?_⟩
  exact Slot.stage_beat_same b x (by omega) (m.dataLine_ne k _)

/-- The beats before it stay. -/
theorem Mach.beatStored_earlier {p s : Nat} {v : Beat} (hs : 0 < s) (hp : p + 64 * s = m.nextOff k) (h : m.stagedAt k p v) :
    (m.beatStored k b).stagedAt k p v := by
  have hspan := (m.slotOpened_staging k).span
  refine Mach.stagedAt_map k (m.slotOpened_stagedAt k h) (m.beatStored_slots k b)
    ((m.beatStored_staging k b).span.trans hspan.symm) (fun x => by split <;> rfl) fun x hx => ?_
  rw [hspan] at hx ⊢
  split
  · next hno =>
    refine Slot.stage_beat_ne b x (by omega) (m.dataLine_ne k p) fun hd => ?_
    exact beat_place_ne hs hp (hx.symm.trans hno) hd
  · rfl

theorem Mach.stageBeat_stagedAt (h : m.flag ERR.FLIP_S_ARM = false) {p : Nat} {v : Beat} (hst : (m.beatStored k b).stagedAt k p v) :
    (m.stageBeat k b).stagedAt k p v := by
  rw [m.stageBeat_unarmed k b h]
  split
  · exact Mach.stagedAt_slotComplete hst _
  · exact hst
end

/-! ### All beats of a request -/

section
variable (k : Nat) {op : Nat}

/-- The beats of a request with opcode `op`, staged in their order. -/
def Mach.stageBeats (m : Mach) (k op : Nat) (bs : List WBeat) : Mach := bs.foldl (fun m b => m.stageBeat k (streamBeat op b)) m

theorem Mach.stageBeats_streamed (m : Mach) (op : Nat) (bs : List WBeat) : Streamed 1 k m (m.stageBeats k op bs) :=
  Streamed.foldl bs (fun _ x => x.stageBeat_streamed k _) m

theorem Mach.stageBeats_nextOff (m : Mach) (op : Nat) {bs : List WBeat} (hne : bs ≠ []) :
    (m.stageBeats k op bs).nextOff k = (m.nextOff k + 64 * bs.length) % 2 ^ 64 := by
  induction bs generalizing m with
  | nil => exact absurd rfl hne
  | cons b bs ih =>
    have hstep := m.stageBeat_nextOff k (streamBeat op b)
    rcases bs.eq_nil_or_concat with rfl | hcons
    · exact hstep
    · have hbs : bs ≠ [] := by
        obtain ⟨l, x, rfl⟩ := hcons
        simp
      rw [Mach.stageBeats, List.foldl_cons, ← Mach.stageBeats, ih _ hbs, hstep, List.length_cons]
      omega

/-- While no flip is armed every beat of the request is in its place in the end, and the beats before them stay. -/
theorem Mach.stageBeats_stagedAt (bs : List WBeat) {m : Mach} (harm : m.flag ERR.FLIP_S_ARM = false)
    (hroom : m.nextOff k + 64 * bs.length < 2 ^ 64) :
    (∀ p s v, 0 < s → p + 64 * s = m.nextOff k → m.stagedAt k p v → (m.stageBeats k op bs).stagedAt k p v) ∧
    ∀ i b, bs[i]? = some b → (m.stageBeats k op bs).stagedAt k (m.nextOff k + 64 * i) (streamBeat op b) := by
  induction bs generalizing m with
  | nil => exact ⟨fun _ _ _ _ _ h => h, by simp⟩
  | cons c bs ih =>
    rw [List.length_cons] at hroom
    have hst := m.stageBeat_staging k (streamBeat op c) harm
    have hnext : (m.stageBeat k (streamBeat op c)).nextOff k = m.nextOff k + 64 := by
      rw [Mach.stageBeat_nextOff, Nat.mod_eq_of_lt (by omega)]
    obtain ⟨hold, hnew⟩ := ih (m := m.stageBeat k (streamBeat op c)) (hst.unarmed.trans harm) (by omega)
    rw [hnext] at hold hnew
    refine ⟨fun p s v hs hp h => ?_, fun i b hb => ?_⟩
    · exact hold p (s + 1) v (by omega) (by omega) (m.stageBeat_stagedAt k _ harm (m.beatStored_earlier k _ hs hp h))
    · cases i with
      | zero =>
        obtain rfl : c = b := by simpa using hb
        exact hold _ 1 _ (by omega) (by omega) (m.stageBeat_stagedAt k _ harm (m.beatStored_same k _))
      | succ i =>
        have := hnew i b (by simpa using hb)
        rwa [show m.nextOff k + 64 + 64 * i = m.nextOff k + 64 * (i + 1) by omega] at this
end

end Sys2Proof.Machine
end

section
/-! SUPPORT. A request taken into its stream: staged, counted, put in the index and answered (chapter "Kiln: capture", R121, R123, R130). -/
namespace Sys2Proof.Machine

/-! ### What a stream's registers read after the work -/

theorem guarded_iff {lv x : Nat} : guarded lv x = true ↔ ∃ f ∈ guardFields.drop lv, f.place = x := by simp [guarded]

/-- The engines leave a stream's own registers, its events aside. -/
theorem asideKey_stream {f : Field} (hp : f.page = .stream) (hplace : f.place < 32768) (hev : f.place / 64 % 4 ≠ 2) {w : Bool} {j : Nat}
    (hj : j < 32) : ¬asideKey w (f.key j) := by
  have hlow : ∀ q ∈ ALM.CNT_EST.key 0 :: HT.DIR_COUNT.key 0 :: eventKeys .ht 0, q / 32768 < 112 := by decide
  rw [Field.key_stream hp]
  rintro (h | ⟨-, h⟩)
  · rcases (engineKey_iff _).1 h with h | h | h | h
    · omega
    · have := hlow (ALM.CNT_EST.key 0) List.mem_cons_self
      omega
    · omega
    · omega
  · have := hlow _ (List.mem_cons_of_mem _ (List.mem_cons.2 h))
    omega

section
variable {lv j : Nat} {a b : Mach} {f : Field}

theorem Aside.get_stream {w : Bool} (h : Aside w a b) (hj : j < 32) (hp : f.page = .stream := by rfl) (hplace : f.place < 32768 := by decide)
    (hev : f.place / 64 % 4 ≠ 2 := by decide) : b.get f j = a.get f j := h.regs.2 f j (asideKey_stream hp hplace hev hj)

/-- A register that the work does not give up. -/
theorem Streamed.get (h : Streamed lv j a b) (hj : j < 32) (hp : f.page = .stream := by rfl)
    (hg : guarded lv f.place = true := by decide) : b.get f j = a.get f j := by
  have hguard : ∀ g ∈ guardFields, g.place < 32768 ∧ g.place / 64 % 4 ≠ 2 := by decide
  obtain ⟨g, hmem, heq⟩ := guarded_iff.1 hg
  obtain ⟨hplace, hev⟩ := heq ▸ hguard g (List.mem_of_mem_drop hmem)
  refine h.regs.2 f j ?_
  rintro (hk | hk | ⟨-, hk⟩)
  · exact asideKey_stream hp hplace hev hj hk
  · rw [Field.key_stream hp] at hk
    omega
  · rw [Field.key_stream hp, show ((112 + j) * 32768 + f.place) % 32768 = f.place by omega, hg] at hk
    cases hk

theorem Streamed.flag (h : Streamed lv j a b) (hj : j < 32) (hp : f.page = .stream := by rfl)
    (hg : guarded lv f.place = true := by decide) : b.flag f j = a.flag f j := by rw [Mach.flag, Mach.flag, h.get hj hp hg]

theorem Streamed.ports (h : Streamed lv j a b) : b.ports = a.ports := by rw [h.rest]

theorem Streamed.port (h : Streamed lv j a b) (n : Nat) : b.port n = a.port n := by rw [Mach.port, h.ports]; rfl
end

/-! ### The request answered -/

/-- The request has been answered with status `st` and word `w`. -/
def Req.answered (st w : Nat) (x : Req) : Prop := x.phase = .ready ∧ x.status = st ∧ x.word0 = BitVec.ofNat 64 w

theorem Mach.ReqHas.kilnEnd {m : Mach} {n id : Nat} {P : Req → Prop} (h : m.ReqHas n id P) (st w : Nat) :
    (m.kilnEnd n id st w).ReqHas n id (Req.answered st w) :=
  h.modReq (fun _ _ => ⟨rfl, rfl, rfl⟩) fun _ => rfl

section
variable (m : Mach) (n k : Nat) (r : Req)

/-- The stream once the request's beats are staged: the units under them are no run-ahead any more. -/
def Mach.kilnStaged : Mach :=
  ((((List.range r.beats.length).map fun i => (m.unitOf (m.strBase k + m.place1 k (m.nextOff k + 64 * i) / 256)).1).eraseDups).foldl
    (fun (m : Mach) uk => (m.setEntFlag uk fRunahead false).2) m).stageBeats k r.op r.beats

/-- The staged bytes counted, older copies of the lines put aside and the index written. -/
def Mach.kilnIndexed (x : Mach) : Mach :=
  ((m.idxMarks k (m.nextOff k) r.bytes).foldl (fun (m : Mach) p => m.idxAppend k 0 p)
    ((m.takeLines k (m.nextOff k) r.bytes).foldl Mach.newValue (x.count STREAM.CNT_BYTES k r.bytes))).idxAge k

/-- The request answered with the offset at which it was stored. -/
def Mach.kilnAnswered (x : Mach) : Mach :=
  ((x.kilnEnd n r.id stOk (if r.op = opAppend then m.nextOff k else 0)).modPort n fun p =>
    { p with fed := p.fed ++ [(k, r.id, m.nextOff k, m.nextOff k + r.bytes)] }).modReq n r.id fun (r : Req) => { r with began := true }

/-- The levels shown; in FLUSH the stream is padded. -/
def Mach.kilnShown (x : Mach) : Mach :=
  let m5 := (x.spillEnter k).postDone k
  if m.mode = mFlush && m5.strState k = 1 then m5.kilnPad k true else m5.showStr k

/-- The request taken. -/
def Mach.kilnTaken : Mach := m.kilnShown k (m.kilnAnswered n k r (m.kilnIndexed k r (m.kilnStaged k r)))
end

section
variable {m : Mach} {n k : Nat} {r : Req}

/-- The request's turn in its stream (R123). -/
def Mach.kilnTurn (m : Mach) (k : Nat) (r : Req) : Prop :=
  ∀ p < 16, ∀ x ∈ (m.port p).reqs, x.stream = some k → x.phase ≠ .ready → x.phase ≠ .intake → r.pseq ≤ x.pseq

theorem Mach.kilnTurn_iff : ((List.range 16).all fun p => (m.port p).reqs.all fun x =>
    x.stream ≠ some k || x.phase == .ready || x.phase == .intake || Decidable.decide (r.pseq ≤ x.pseq)) = true ↔ m.kilnTurn k r := by
  simp only [Mach.kilnTurn, List.all_eq_true, List.mem_range, Bool.or_eq_true, decide_eq_true_eq, beq_iff_eq, or_assoc, ← or_iff_not_imp_left]
  simp only [ne_eq, Classical.or_iff_not_imp_left, not_not]

theorem Mach.kilnTake_aborted (hreq : m.req? n r.id = some r) (hstr : r.stream = some k) (hphase : r.phase = .kiln) (hturn : m.kilnTurn k r)
    (hstate : m.get STREAM.STAT_STATE k ≠ 1) : m.kilnTake n r.id = m.kilnEnd n r.id stAborted 0 := by
  have hturn := Mach.kilnTurn_iff.2 hturn
  unfold Mach.kilnTake
  simp only [hreq, hstr]
  rw [hturn]
  simp [hphase, Mach.strState, hstate]

theorem Mach.kilnTake_taken (hreq : m.req? n r.id = some r) (hstr : r.stream = some k) (hphase : r.phase = .kiln) (hturn : m.kilnTurn k r)
    (hstate : m.get STREAM.STAT_STATE k = 1) (hop : r.op = opAppend)
    (hfit : m.ring k = true ∨ m.nextOff k + r.bytes ≤ m.strLen k) (hmap : m.strMapped k r.bytes = true)
    (hhold : m.holdupBlocked k (max 1 (m.newSlots k r.bytes)) = false) (hroom : m.stgRoom k (m.newSlots k r.bytes) = true)
    (hidx : (m.str k).idxBuf.length < 28) (hmark : m.behindMark r.id = false)
    (htouch : ∀ l ∈ m.takeLines k (m.nextOff k) r.bytes, ∀ x ∈ (m.port n).reqs, x.id < r.id → x.stream ≠ some k →
      (x.oid = r.oid ∨ writesLines x.op = true) → m.mayTouch x l = false) :
    m.kilnTake n r.id = m.kilnTaken n k r := by
  have hturn := Mach.kilnTurn_iff.2 hturn
  have hfull : (!m.ring k && Decidable.decide (m.strLen k < m.nextOff k + r.bytes)) = false := by
    rcases hfit with h | h
    · simp [h]
    · simp [Nat.not_lt.2 h]
  have hblock : ((m.takeLines k (m.nextOff k) r.bytes).any fun l => (m.port n).reqs.any fun x => Decidable.decide (x.id < r.id) &&
      x.stream ≠ some k && (Decidable.decide (x.oid = r.oid) || writesLines x.op) && m.mayTouch x l) = false := by
    refine List.any_eq_false.2 fun l hl hany => ?_
    obtain ⟨x, hx, hblocks⟩ := List.any_eq_true.1 hany
    simp only [Bool.and_eq_true, decide_eq_true_eq, Bool.or_eq_true] at hblocks
    obtain ⟨⟨⟨hid, hne⟩, hor⟩, ht⟩ := hblocks
    exact absurd ((htouch l hl x hx hid hne hor).symm.trans ht) (by decide)
  unfold Mach.kilnTake
  simp only [hreq, hstr]
  refine (if_neg (by rw [hturn, hphase]; decide)).trans ((if_neg (by simp [Mach.strState, hstate])).trans ((if_neg (by simp [hop])).trans
    ((if_neg (by rw [hfull]; decide)).trans ((if_neg (by simp [hmap, hhold, hroom])).trans ((if_neg (by omega)).trans (if_neg ?_))))))
  rw [hmark, hblock]
  decide
end

end Sys2Proof.Machine
end

section
/-! SUPPORT. An APPEND that is taken: what its stream's registers and slots show in the end (chapter "Kiln: capture", R121, R123). -/
namespace Sys2Proof.Machine

/-- The engines leave a stream's places: its target and the protection of its namespace. -/
theorem Aside.span {w : Bool} {a b : Mach} (h : Aside w a b) {k : Nat} (hk : k < 32) : b.span k = a.span k := by
  have hprot : b.strProt k = a.strProt k := by
    rw [Mach.strProt, Mach.strProt, Mach.strNs, Mach.strNs, h.get_stream hk, h.prot]
  rw [Mach.span, Mach.span, Mach.slotData, Mach.slotData, hprot]

section
variable (m : Mach) (n k : Nat) (r : Req)

/-! ### Staged (R121, R126) -/

theorem Mach.kilnStaged_of_aside : ∃ x, Aside true m x ∧ m.kilnStaged k r = x.stageBeats k r.op r.beats :=
  ⟨_, Aside.foldl _ (fun _ _ => Mach.setEntFlag_aside ..) m, rfl⟩

theorem Mach.kilnStaged_streamed : Streamed 1 k m (m.kilnStaged k r) := by
  obtain ⟨x, hx, heq⟩ := m.kilnStaged_of_aside k r
  rw [heq]
  exact hx.streamed.trans (x.stageBeats_streamed k r.op r.beats)

theorem Mach.kilnStaged_nextOff (hk : k < 32) (hne : r.beats ≠ []) :
    (m.kilnStaged k r).nextOff k = (m.nextOff k + 64 * r.beats.length) % 2 ^ 64 := by
  obtain ⟨x, hx, heq⟩ := m.kilnStaged_of_aside k r
  rw [heq, x.stageBeats_nextOff k r.op hne, Mach.nextOff, Mach.nextOff, hx.get_stream hk]

/-- A beat that `WRITE_MASKED` does not mask. -/
theorem streamBeat_append (b : WBeat) : streamBeat opAppend b = b.data := rfl

theorem Mach.stageBeats_staging (k op : Nat) (bs : List WBeat) {m : Mach} (h : m.flag ERR.FLIP_S_ARM = false) :
    Staging k m (m.stageBeats k op bs) := by
  induction bs generalizing m with
  | nil => exact Staging.refl k m
  | cons b bs ih =>
    have hst := m.stageBeat_staging k (streamBeat op b) h
    exact hst.trans (ih (hst.unarmed.trans h))

theorem Mach.kilnStaged_slots (hk : k < 32) (hop : r.op = opAppend) (harm : m.flag ERR.FLIP_S_ARM = false)
    (hroom : m.nextOff k + 64 * r.beats.length < 2 ^ 64) {i : Nat} {b : WBeat} (hb : r.beats[i]? = some b) :
    ∃ y ∈ ((m.kilnStaged k r).str k).slots, y.no = (m.nextOff k + 64 * i) / m.span k ∧
      Line.beat (y.lines.get ((m.nextOff k + 64 * i) % m.span k / 256)) ((m.nextOff k + 64 * i) % 256 / 64) = b.data := by
  obtain ⟨x, hx, heq⟩ := m.kilnStaged_of_aside k r
  have hnext : x.nextOff k = m.nextOff k := hx.get_stream hk
  have hst := (Mach.stageBeats_stagedAt k (op := r.op) r.beats (hx.arm harm) (by rw [hnext]; exact hroom)).2 i b hb
  have hspan : (x.stageBeats k r.op r.beats).span k = m.span k :=
    (Mach.stageBeats_staging k r.op r.beats (hx.arm harm)).span.trans (hx.span hk)
  rw [Mach.stagedAt, hspan, hnext, hop, streamBeat_append] at hst
  rw [heq, hop]
  exact hst

/-! ### Indexed, answered and shown (R123, R130, R141) -/

theorem Mach.kilnIndexed_streamed (x : Mach) : Streamed 0 k (x.count STREAM.CNT_BYTES k r.bytes) (m.kilnIndexed k r x) :=
  ((Streamed.foldl _ (fun _ y => y.newValue_streamed 0 _) _).trans
    (Streamed.foldl _ (fun _ y => y.idxAppend_streamed 0 _) _)).trans (Mach.idxAge_streamed _)

theorem Mach.kilnAnswered_get (x : Mach) (f : Field) (j : Nat) : (m.kilnAnswered n k r x).get f j = x.get f j := rfl

theorem Mach.kilnAnswered_str (x : Mach) (j : Nat) : (m.kilnAnswered n k r x).str j = x.str j := rfl

theorem Mach.kilnAnswered_reqHas {x : Mach} {P : Req → Prop} (h : x.ReqHas n r.id P) :
    (m.kilnAnswered n k r x).ReqHas n r.id (Req.answered stOk (if r.op = opAppend then m.nextOff k else 0)) := by
  have hend := h.kilnEnd stOk (if r.op = opAppend then m.nextOff k else 0)
  unfold Mach.kilnAnswered
  refine Mach.ReqHas.modReq (P := Req.answered stOk (if r.op = opAppend then m.nextOff k else 0)) (hend.of_reqs ?_)
    (fun _ hx => hx) fun _ => rfl
  rw [Mach.port_modPort_same]

/-- Without a trigger no capture ends here. -/
theorem Mach.postDone_untriggered {x : Mach} (h : x.flag STREAM.STAT_TRIGGERED k = false) : x.postDone k = x := by simp [Mach.postDone, h]

theorem Mach.spillEnter_postDone {x : Mach} (hk : k < 32) (h : x.flag STREAM.STAT_TRIGGERED k = false) :
    (x.spillEnter k).postDone k = x.spillEnter k :=
  Mach.postDone_untriggered k (((x.spillEnter_streamed (j := k)).flag hk).trans h)

theorem Mach.kilnShown_streamed {x : Mach} (hk : k < 32) (h : x.flag STREAM.STAT_TRIGGERED k = false) : Streamed 1 k x (m.kilnShown k x) := by
  unfold Mach.kilnShown
  rw [Mach.spillEnter_postDone k hk h]
  have hs : Streamed 1 k x (x.spillEnter k) := x.spillEnter_streamed.mono (by decide)
  exact Streamed.ite (hs.trans (Mach.kilnPad_streamed _ true)) (hs.trans ((Mach.showStr_streamed _).mono (by decide)))

theorem Mach.kilnShown_streamed_run {x : Mach} (hk : k < 32) (h : x.flag STREAM.STAT_TRIGGERED k = false) (hmode : m.mode ≠ mFlush) :
    Streamed 0 k x (m.kilnShown k x) := by
  unfold Mach.kilnShown
  rw [Mach.spillEnter_postDone k hk h]
  simp only [hmode, decide_false, Bool.false_and, Bool.false_eq_true, if_false]
  exact x.spillEnter_streamed.trans (Mach.showStr_streamed _)
end

/-! ### Taken (R121, R123) -/

/-- The request staged, put in the index and answered, before the levels are shown. -/
def Mach.kilnPlaced (m : Mach) (n k : Nat) (r : Req) : Mach := m.kilnAnswered n k r (m.kilnIndexed k r (m.kilnStaged k r))

section
variable (m : Mach) (n : Nat) (r : Req) {k : Nat} (hk : k < 32)
include hk

/-- A register of the stream other than CNT_BYTES that staging keeps, or that work after it keeps, reads as once the beats are staged. -/
theorem Mach.kilnPlaced_get {f : Field} (hp : f.page = .stream := by rfl) (hg : guarded 0 f.place = true := by decide)
    (hne : f.place ≠ STREAM.CNT_BYTES.place := by decide) : (m.kilnPlaced n k r).get f k = (m.kilnStaged k r).get f k := by
  rw [Mach.kilnPlaced, Mach.kilnAnswered_get, (m.kilnIndexed_streamed k r _).get hk hp hg,
    Mach.get_count_ne _ _ (Field.key_stream_ne hp rfl hne k)]

theorem Mach.kilnPlaced_bytes : (m.kilnPlaced n k r).get STREAM.CNT_BYTES k = countUp (m.get STREAM.CNT_BYTES k) r.bytes % 2 ^ 64 := by
  rw [Mach.kilnPlaced, Mach.kilnAnswered_get, (m.kilnIndexed_streamed k r _).get hk, Mach.count, Mach.get_put_same,
    (m.kilnStaged_streamed k r).get hk]
  rfl

omit hk in
theorem Mach.kilnPlaced_slots : ((m.kilnPlaced n k r).str k).slots = ((m.kilnStaged k r).str k).slots := by
  rw [Mach.kilnPlaced, Mach.kilnAnswered_str, (m.kilnIndexed_streamed k r _).slots rfl]
  rfl

omit hk in
theorem Mach.kilnPlaced_reqHas {P : Req → Prop} (h : m.ReqHas n r.id P) :
    (m.kilnPlaced n k r).ReqHas n r.id (Req.answered stOk (if r.op = opAppend then m.nextOff k else 0)) := by
  refine m.kilnAnswered_reqHas n k r (h.of_reqs (congrArg PortSt.reqs ?_))
  rw [(m.kilnIndexed_streamed k r (m.kilnStaged k r)).port, Mach.port_count, (m.kilnStaged_streamed k r).port]

variable (htrig : m.flag STREAM.STAT_TRIGGERED k = false)
include htrig

theorem Mach.kilnPlaced_untriggered : (m.kilnPlaced n k r).flag STREAM.STAT_TRIGGERED k = false := by
  rw [Mach.flag, m.kilnPlaced_get n r hk, ← Mach.flag, (m.kilnStaged_streamed k r).flag hk, htrig]

theorem Mach.kilnTaken_streamed : Streamed 1 k (m.kilnPlaced n k r) (m.kilnTaken n k r) :=
  m.kilnShown_streamed k hk (m.kilnPlaced_untriggered n r hk htrig)

theorem Mach.kilnTaken_streamed_run (hmode : m.mode ≠ mFlush) : Streamed 0 k (m.kilnPlaced n k r) (m.kilnTaken n k r) :=
  m.kilnShown_streamed_run k hk (m.kilnPlaced_untriggered n r hk htrig) hmode
end

end Sys2Proof.Machine
end

section
/-! SUPPORT. The trigger inputs sampled: the edge of one stream, and what the edges of the others leave of it (chapter "Kiln: capture", R133). -/
namespace Sys2Proof.Machine

/-! ### The other streams -/

/-- From `m` to `t` nothing has happened to stream `k`: the time and the sampled levels stand, and of the registers trace time and its own,
its events aside. -/
structure Untouched (k : Nat) (m t : Mach) : Prop where
  now : t.now = m.now
  trig : t.kiln.trig = m.kiln.trig
  str : t.str k = m.str k
  tb : t.get ALM.TB_NOW = m.get ALM.TB_NOW
  regs : ∀ f : Field, f.page = .stream → f.place < 32768 → f.place / 64 % 4 ≠ 2 → t.get f k = m.get f k

section
variable {k : Nat} {a b c : Mach}

theorem Untouched.refl (k : Nat) (m : Mach) : Untouched k m m := ⟨rfl, rfl, rfl, rfl, fun _ _ _ _ => rfl⟩

theorem Untouched.trans (h : Untouched k a b) (g : Untouched k b c) : Untouched k a c where
  now := g.now.trans h.now
  trig := g.trig.trans h.trig
  str := g.str.trans h.str
  tb := g.tb.trans h.tb
  regs f hp hplace hev := (g.regs f hp hplace hev).trans (h.regs f hp hplace hev)

theorem Untouched.get (h : Untouched k a b) {f : Field} (hp : f.page = .stream := by rfl) (hplace : f.place < 32768 := by decide)
    (hev : f.place / 64 % 4 ≠ 2 := by decide) : b.get f k = a.get f k := h.regs f hp hplace hev

theorem Untouched.flag (h : Untouched k a b) {f : Field} (hp : f.page = .stream := by rfl) (hplace : f.place < 32768 := by decide)
    (hev : f.place / 64 % 4 ≠ 2 := by decide) : b.flag f k = a.flag f k := by rw [Mach.flag, Mach.flag, h.get hp hplace hev]

/-- Work on another stream. -/
theorem Streamed.untouched {lv j : Nat} (h : Streamed lv j a b) (hk : k < 32) (hj : k ≠ j) : Untouched k a b where
  now := by rw [h.rest]
  trig := h.trig
  str := h.other k hj
  tb := by
    refine h.regs.2 _ _ ?_
    have hpage : ALM.TB_NOW.key 0 / 32768 = 3 := by decide
    rintro (hq | hq | ⟨hq, -⟩)
    · revert hq
      unfold asideKey
      decide
    · omega
    · omega
  regs f hp hplace hev := by
    refine h.regs.2 f k ?_
    rw [Field.key_stream hp]
    rintro (hq | hq | ⟨hq, -⟩)
    · exact asideKey_stream hp hplace hev hk (by rw [Field.key_stream hp]; exact hq)
    · omega
    · omega
end

/-! ### A trigger edge (R133) -/

section
variable (m : Mach) {k : Nat} (hk : k < 32)
include hk

/-- A stream that stops is disarmed. -/
theorem Mach.strStop_disarmed (reason : Nat) : (m.strStop k reason).flag STREAM.STAT_ARMED k = false := by
  unfold Mach.strStop
  extract_lets e m2
  have hend : (m.strEnd k reason e).flag STREAM.STAT_ARMED k = false := by
    unfold Mach.strEnd
    extract_lets m1
    have h1 : m1.flag STREAM.STAT_ARMED k = false := Mach.flag_setFlag_same _ _ _ false (by decide)
    split
    · exact h1
    · exact h1
  have h2 : Streamed 1 k (m.strEnd k reason e) m2 := (Mach.kilnPad_streamed _ _).trans ((Mach.idxAppend_streamed ..).mono (by decide))
  have h3 := ((h2.trans ((Mach.idxFlush_streamed _ true 3).mono (by decide))).event (v := STREAM.EV_STOPPED)).trans
    ((Mach.showStr_streamed _).mono (by decide))
  exact (h3.flag hk).trans hend

theorem Mach.postDone_disarmed (h : m.flag STREAM.STAT_ARMED k = false) : (m.postDone k).flag STREAM.STAT_ARMED k = false := by
  unfold Mach.postDone
  split
  · exact m.strStop_disarmed hk 2
  · exact h

/-- The trigger latched: trace time, the offset, and the stream TRIGGERED and not armed. -/
theorem Mach.trigEdge_latched (htrig : m.flag STREAM.STAT_TRIGGERED k = false) (harmed : m.flag STREAM.STAT_ARMED k = true)
    (hend : (m.str k).armedEnd ≠ some m.now) :
    (m.trigEdge k).get STREAM.TRIG_TICK k = m.get ALM.TB_NOW % 2 ^ 64 ∧
    (m.trigEdge k).get STREAM.TRIG_OFFSET k = m.get STREAM.NEXT_OFFSET k % 2 ^ 64 ∧
    (m.trigEdge k).flag STREAM.STAT_TRIGGERED k = true ∧ (m.trigEdge k).flag STREAM.STAT_ARMED k = false := by
  have hne : ∀ {f g : Field}, f.page = .stream → g.page = .stream → f.place ≠ g.place → f.key k ≠ g.key k :=
    fun hf hg h => Field.key_stream_ne hf hg h k
  unfold Mach.trigEdge
  rw [if_neg (by simp [htrig, hend]), if_neg (by simp [harmed])]
  extract_lets o m1
  have hidx : Streamed 0 k (m1.setFlag STREAM.STAT_TRIGGERED k true)
      (((m1.setFlag STREAM.STAT_TRIGGERED k true).event .stream k STREAM.EV_TRIGGER).idxAppend k idxTrigger o) :=
    ((Streamed.refl 0 k _).event).trans (Mach.idxAppend_streamed ..)
  have hpost := (hidx.mono (by decide : 0 ≤ 3)).trans (Mach.postDone_streamed _)
  refine ⟨(hpost.get hk).trans ?_, (hpost.get hk).trans ?_, (hpost.flag hk).trans ?_, Mach.postDone_disarmed _ hk ((hidx.flag hk).trans ?_)⟩
  · rw [Mach.get_setFlag_ne _ _ (hne rfl rfl (by decide)), Mach.get_setFlag_ne _ _ (hne rfl rfl (by decide)),
      Mach.get_put_ne _ _ (hne rfl rfl (by decide)), Mach.get_put_same]
    rfl
  · rw [Mach.get_setFlag_ne _ _ (hne rfl rfl (by decide)), Mach.get_setFlag_ne _ _ (hne rfl rfl (by decide)), Mach.get_put_same]
    rfl
  · exact Mach.flag_setFlag_same _ _ _ true (by decide)
  · rw [Mach.flag, Mach.get_setFlag_ne _ _ (hne rfl rfl (by decide)), ← Mach.flag]
    exact Mach.flag_setFlag_same _ _ _ false (by decide)
end

/-! ### The inputs sampled (R33, R133) -/

/-- An edge of the selected sense at the stream's input. -/
def Mach.trigSeen (m : Mach) (old levels k : Nat) : Prop :=
  if m.flag STREAM.TRIG_FALLING k then bitAt old (m.get STREAM.TRIG_SRC k) = true ∧ bitAt levels (m.get STREAM.TRIG_SRC k) = false
  else bitAt old (m.get STREAM.TRIG_SRC k) = false ∧ bitAt levels (m.get STREAM.TRIG_SRC k) = true

/-- The same as a test. -/
def Mach.seesTrig (m : Mach) (old levels k : Nat) : Bool :=
  if m.flag STREAM.TRIG_FALLING k then bitAt old (m.get STREAM.TRIG_SRC k) && !bitAt levels (m.get STREAM.TRIG_SRC k)
  else !bitAt old (m.get STREAM.TRIG_SRC k) && bitAt levels (m.get STREAM.TRIG_SRC k)

/-- Stream `k` takes its edge, if the levels show one. -/
def Mach.trigStep (old levels : Nat) (m : Mach) (k : Nat) : Mach := if m.seesTrig old levels k then m.trigEdge k else m

/-- The streams that take an edge. -/
def Mach.trigStreams (m : Mach) : List Nat := (List.range 32).filter fun k => m.strState k ≠ 0 && m.flag STREAM.TRIG_ENABLE k

section
variable {m : Mach} {old levels k : Nat}

theorem trigSample_running (hruns : m.almRuns = true) (hup : m.fabricUp = true) : trigSample levels m =
    m.trigStreams.foldl (Mach.trigStep m.kiln.trig levels) { m with kiln := { m.kiln with trig := levels } } := by
  unfold trigSample
  rw [if_neg (by simp [hruns])]
  dsimp only
  rw [if_neg (by simp [hup])]
  rfl

theorem Mach.seesTrig_iff : m.seesTrig old levels k = true ↔ m.trigSeen old levels k := by
  unfold Mach.trigSeen Mach.seesTrig
  split <;> simp

theorem Mach.trigStep_untouched (m : Mach) {j : Nat} (hk : k < 32) (hj : k ≠ j) : Untouched k m (m.trigStep old levels j) := by
  unfold Mach.trigStep
  split
  · exact (m.trigEdge_streamed (j := j)).untouched hk hj
  · exact Untouched.refl k m

theorem Mach.trigSteps_untouched (hk : k < 32) {l : List Nat} (hl : k ∉ l) (m : Mach) :
    Untouched k m (l.foldl (Mach.trigStep old levels) m) := by
  induction l generalizing m with
  | nil => exact Untouched.refl k m
  | cons j l ih =>
    obtain ⟨hj, hl⟩ := not_or.1 (mt List.mem_cons.2 hl)
    exact (m.trigStep_untouched hk hj).trans (ih hl _)

theorem Mach.trigSteps_trig (l : List Nat) (m : Mach) : (l.foldl (Mach.trigStep old levels) m).kiln.trig = m.kiln.trig := by
  induction l generalizing m with
  | nil => rfl
  | cons j l ih =>
    rw [List.foldl_cons, ih]
    unfold Mach.trigStep
    split
    · exact m.trigEdge_streamed.trig
    · rfl

theorem Untouched.trigSeen {t : Mach} (h : Untouched k m t) (hs : m.trigSeen old levels k) : t.trigSeen old levels k := by
  unfold Mach.trigSeen
  rw [h.flag, h.get]
  exact hs

/-- A stream of the list that sees its edge takes it once, and keeps what it latched. -/
theorem Mach.trigSteps_edge (hk : k < 32) {l : List Nat} (hl : l.Nodup) (hmem : k ∈ l) (m : Mach) (hs : m.trigSeen old levels k) :
    ∃ x, Untouched k m x ∧ Untouched k (x.trigEdge k) (l.foldl (Mach.trigStep old levels) m) := by
  obtain ⟨before, after, rfl⟩ := List.append_of_mem hmem
  obtain ⟨hbefore, hafter⟩ : k ∉ before ∧ k ∉ after := by
    rw [List.nodup_middle, List.nodup_cons, List.mem_append, not_or] at hl
    exact hl.1
  have hx := Mach.trigSteps_untouched (old := old) (levels := levels) hk hbefore m
  refine ⟨_, hx, ?_⟩
  rw [List.foldl_append, List.foldl_cons, Mach.trigStep, if_pos (Mach.seesTrig_iff.2 (hx.trigSeen hs))]
  exact Mach.trigSteps_untouched hk hafter _
end

end Sys2Proof.Machine
end

section
/-! SUPPORT. The two commands: a request taken by APPEND, and the inputs sampled (chapter "Kiln: capture", R121, R133). -/
namespace Sys2Proof.Machine

section
variable {m : Mach} {n tag k : Nat} {r : Req}

theorem clientAppend_found (hup : m.fabricUp = true)
    (hfind : ((m.port n).reqs.find? fun x => Decidable.decide (x.tag = tag) && Decidable.decide (x.op = opAppend)) = some r) :
    clientAppend n tag m = m.kilnTake n r.id := by
  unfold clientAppend
  rw [if_neg (by simp [hup]), hfind]

/-- What a taken APPEND shows in the end. -/
theorem Mach.kilnTaken_spec (hk : k < 32) (htrig : m.flag STREAM.STAT_TRIGGERED k = false) (hop : r.op = opAppend)
    (hlen : r.beats.length = r.len + 1) (hreq : m.req? n r.id = some r) :
    let t := m.kilnTaken n k r
    let o := m.get STREAM.NEXT_OFFSET k
    let len := 64 * r.beats.length
    (m.mode ≠ mFlush → t.get STREAM.NEXT_OFFSET k = (o + len) % 2 ^ 64) ∧
    t.get STREAM.CNT_BYTES k = countUp (m.get STREAM.CNT_BYTES k) len % 2 ^ 64 ∧
    t.get STREAM.STAT_STATE k = m.get STREAM.STAT_STATE k ∧
    t.ReqHas n r.id (Req.answered stOk o) ∧
    (m.mode ≠ mFlush → m.flag ERR.FLIP_S_ARM = false → o + len < 2 ^ 64 → ∀ i b, r.beats[i]? = some b →
      ∃ y ∈ (t.str k).slots, y.no = (o + 64 * i) / m.span k ∧
        Line.beat (y.lines.get ((o + 64 * i) % m.span k / 256)) ((o + 64 * i) % 256 / 64) = b.data) := by
  intro t o len
  have hst : Streamed 1 k (m.kilnPlaced n k r) t := m.kilnTaken_streamed n r hk htrig
  have hrun : m.mode ≠ mFlush → Streamed 0 k (m.kilnPlaced n k r) t := m.kilnTaken_streamed_run n r hk htrig
  have hbytes : r.bytes = len := by
    show 64 * (r.len + 1) = 64 * r.beats.length
    omega
  have hne : r.beats ≠ [] := List.ne_nil_of_length_pos (by omega)
  refine ⟨fun hmode => ?next, ?bytes, ?state, ?answer, fun hmode harm hroom i b hb => ?slots⟩
  case next =>
    rw [(hrun hmode).get hk, m.kilnPlaced_get n r hk]
    exact m.kilnStaged_nextOff k r hk hne
  case bytes => rw [hst.get hk, m.kilnPlaced_bytes n r hk, hbytes]
  case state => rw [hst.get hk, m.kilnPlaced_get n r hk, (m.kilnStaged_streamed k r).get hk]
  case answer =>
    have hhas : m.ReqHas n r.id fun _ => True := ⟨⟨r, List.mem_of_find?_eq_some hreq, rfl⟩, fun _ _ _ => trivial⟩
    have hplaced := m.kilnPlaced_reqHas n r (k := k) hhas
    rw [if_pos hop] at hplaced
    exact hplaced.of_reqs (congrArg PortSt.reqs (hst.port n))
  case slots =>
    rw [(hrun hmode).slots rfl, m.kilnPlaced_slots n r]
    exact m.kilnStaged_slots k r hk hop harm hroom hb
end

/-- What a stream that takes its edge shows once the inputs are sampled. -/
theorem trigSample_edge {m : Mach} {levels k : Nat} (hk : k < 32) (hruns : m.almRuns = true) (hup : m.fabricUp = true)
    (hstate : m.get STREAM.STAT_STATE k = 1) (henable : m.flag STREAM.TRIG_ENABLE k = true) (harmed : m.flag STREAM.STAT_ARMED k = true)
    (htrig : m.flag STREAM.STAT_TRIGGERED k = false) (hend : (m.str k).armedEnd ≠ some m.now) (hs : m.trigSeen m.kiln.trig levels k) :
    let t := trigSample levels m
    t.kiln.trig = levels ∧ t.get STREAM.TRIG_TICK k = m.get ALM.TB_NOW % 2 ^ 64 ∧
      t.get STREAM.TRIG_OFFSET k = m.get STREAM.NEXT_OFFSET k % 2 ^ 64 ∧ t.flag STREAM.STAT_TRIGGERED k = true ∧
      t.flag STREAM.STAT_ARMED k = false := by
  intro t
  have hmem : k ∈ m.trigStreams := by simp [Mach.trigStreams, Mach.strState, hk, hstate, henable]
  have hnodup : m.trigStreams.Nodup := List.nodup_range.filter _
  obtain ⟨x, hx, hrest⟩ := Mach.trigSteps_edge hk hnodup hmem { m with kiln := { m.kiln with trig := levels } } hs
  rw [← trigSample_running hruns hup] at hrest
  obtain ⟨htick, hoff, htriggered, hdisarmed⟩ := x.trigEdge_latched hk (hx.flag.trans htrig) (hx.flag.trans harmed)
    (by rw [hx.str, hx.now]; exact hend)
  refine ⟨?_, ?_, ?_, hrest.flag.trans htriggered, hrest.flag.trans hdisarmed⟩
  · show (trigSample levels m).kiln.trig = levels
    rw [trigSample_running hruns hup, Mach.trigSteps_trig]
  · rw [hrest.get, htick, hx.tb]
    rfl
  · rw [hrest.get, hoff, hx.get]
    rfl

end Sys2Proof.Machine
end

section
namespace Sys2Proof.Laws
open Sys2Proof.Machine

/-- Settles O20: what a request does after its beats are staged keeps the stream's slots and registers, and an edge of another stream keeps
what this one latched. -/
theorem appendAndTrigger : Obligations.AppendAndTrigger := by
  constructor
  case right =>
    intro s levels k hk hruns hup hstate henable harmed htrig hend hs
    exact ⟨_, completes_of_answer (exec_trigEdge s levels) rfl,
      trigSample_edge hk hruns hup hstate henable harmed htrig hend hs⟩
  intro s p4 t12 r k n o len hup hfind hreq hop hstr hk hphase hlen hturn
  refine ⟨fun hstate => ?aborted, ?taken⟩
  case aborted =>
    exact completes_of_answer (exec_append s p4 t12)
      ((clientAppend_found hup hfind).trans (Mach.kilnTake_aborted hreq hstr hphase hturn hstate))
  case taken =>
    have hbytes : len = r.bytes := by
      show 64 * r.beats.length = 64 * (r.len + 1)
      omega
    rw [hbytes]
    intro hstate hfit hmap hhold hroom htrig hidx hmark htouch
    obtain ⟨hnext, hcount, hkept, hanswer, hslots⟩ := Mach.kilnTaken_spec hk htrig hop hlen hreq
    refine ⟨_, completes_of_answer (exec_append s p4 t12) ((clientAppend_found hup hfind).trans
      (Mach.kilnTake_taken hreq hstr hphase hturn hstate hop hfit hmap hhold hroom hidx hmark htouch)), ?_⟩
    rw [← hbytes]
    exact ⟨hnext, hcount, hkept.trans hstate, hanswer.exists, hslots⟩

end Sys2Proof.Laws
end

section
/-! SUPPORT. The ordering operations: what FENCE, PERSIST, the global fence and the time-out of a hold do with the request that their row
finds (R100 to R107, R115). -/
namespace Sys2Proof.Machine

section
variable {m : Mach} {n tag op : Nat} {r : Req}

theorem clientFence_earlierTook (hup : m.fabricUp = true)
    (hfind : ((m.port n).reqs.find? fun x => x.tag = tag && x.op = opFence && x.phase == .order) = some r)
    (htook : ∀ x ∈ (m.port n).reqs, r.id ≤ x.id ∨ x.took = true) :
    clientFence n tag m = m.modReq n r.id fun x => { x with phase := .ready, status := stOk } := by
  have hall : ((m.port n).reqs.all fun x => r.id ≤ x.id || x.took) = true := by simpa using htook
  simp only [clientFence, hfind, hup, hall, Bool.and_self, if_true]

theorem clientFence_waits (hfind : ((m.port n).reqs.find? fun x => x.tag = tag && x.op = opFence && x.phase == .order) = some r)
    (hwait : ¬∀ x ∈ (m.port n).reqs, r.id ≤ x.id ∨ x.took = true) : clientFence n tag m = m := by
  have hall : ((m.port n).reqs.all fun x => r.id ≤ x.id || x.took) = false := by
    rw [← Bool.not_eq_true]
    simpa using hwait
  simp only [clientFence, hfind, hall, Bool.and_false, Bool.false_eq_true, if_false]

/-! ### PERSIST (R104 to R107) -/

/-- What PERSIST `r` of port `n` does at stream `k`: the open stripe that holds bytes it covers is padded (R107, R136). -/
def padCovered (n : Nat) (r : Req) (m : Mach) (k : Nat) : Mach :=
  if m.strState k = 1 && ((m.coveredStr n r).filter fun w => w.1 = k).any (fun w => m.openFrom k < w.2) then (m.kilnPad k true).kilnOffer
  else m

theorem clientPersist_found (hup : m.fabricUp = true)
    (hfind : ((m.port n).reqs.find? fun x => x.tag = tag && x.op = op && x.phase == .order) = some r) :
    clientPersist op n tag m = (((m.coveredStr n r).map (·.1)).eraseDups).foldl (padCovered n r) m := by
  simp only [clientPersist, hup, hfind, Bool.not_true, Bool.false_eq_true, if_false]
  rfl

theorem padCovered_open {k o : Nat} (hcov : m.coveredStr n r = [(k, o)]) (hrun : m.get STREAM.STAT_STATE k = 1) (ho : m.openFrom k < o) :
    padCovered n r m k = (m.kilnPad k true).kilnOffer := by
  simp [padCovered, Mach.strState, hcov, hrun, ho]

/-- No stream that runs holds covered bytes in what a pad would close, so no pad is made. -/
theorem foldl_padCovered_closed (h : ∀ w ∈ m.coveredStr n r, m.get STREAM.STAT_STATE w.1 ≠ 1 ∨ w.2 ≤ m.openFrom w.1) (ks : List Nat) :
    ks.foldl (padCovered n r) m = m := by
  refine List.foldl_fixed' (fun k => if_neg fun hpad => ?_) ks
  simp only [Bool.and_eq_true, decide_eq_true_eq, List.any_eq_true, List.mem_filter] at hpad
  obtain ⟨hrun, w, ⟨hw, rfl⟩, hopen⟩ := hpad
  rcases h w hw with hstate | hle
  · exact hstate hrun
  · exact Nat.not_lt.2 hle hopen

/-- A line that a PERSIST under way covers is wanted until it is durable (R107, R281). -/
theorem Mach.persistWants_of_covered (hn : n < 16) (hmem : r ∈ (m.port n).reqs) (hop : r.op = opPersist ∨ r.op = opPersistNs)
    (hphase : r.phase = .order) {w : Nat × Nat} (hw : w ∈ m.coveredWrites n r) (hdue : m.lineDurable w.1 w.2 = false) :
    m.persistWants w.1 = true := by
  simp only [Mach.persistWants, List.any_eq_true, List.mem_range, Bool.and_eq_true, Bool.or_eq_true, decide_eq_true_eq, beq_iff_eq]
  exact ⟨n, hn, r, hmem, ⟨hop, hphase⟩, w, hw, rfl, by rw [hdue]; rfl⟩

/-- Without lines or stream bytes of other ports, a PERSIST covers the poison of its own port's writes alone (R106). -/
theorem Mach.coversPoison_own (hlines : r.coverLines = []) (hstr : r.coverStr = []) : m.coversPoison n r = true ↔
    r.lostSeen = true ∨ ∃ l ∈ (m.port n).lostTo, (m.nsDesc (lineNs l.1)).ephemeral = false ∧ l.2 < r.id ∧
      (r.op = opPersist ∨ lineNs l.1 = r.ns) := by
  simp [Mach.coversPoison, hlines, hstr, and_assoc]

theorem persistComplete_durable (hup : m.fabricUp = true)
    (hfind : ((m.port n).reqs.find? fun x => x.tag = tag && (x.op = opPersist || x.op = opPersistNs) && x.phase == .order) = some r)
    (htook : ∀ x ∈ (m.port n).reqs, x.id ∈ r.covers → x.took = true)
    (hlines : ∀ w ∈ m.coveredWrites n r, m.lineDurable w.1 w.2 = true)
    (hstr : ∀ w ∈ m.coveredStr n r, m.strActive w.1 = true → w.2 ≤ m.get STREAM.TAIL w.1) :
    persistComplete n tag m =
      (m.modReq n r.id fun x => { x with phase := .ready, status := if m.coversPoison n r then stWritePoisoned else stOk }).modPort n
        fun p => { p with
          wrote := p.wrote.filter (fun w => !m.lineDurable w.1 w.2.2),
          fed := p.fed.filter (fun w => m.strActive w.1 && m.get STREAM.TAIL w.1 < w.2.2.2) } := by
  have htook' : ((m.port n).reqs.all fun x => !r.covers.contains x.id || x.took) = true := by
    simpa [or_iff_not_imp_left] using htook
  have hlines' : ((m.coveredWrites n r).all fun w => m.lineDurable w.1 w.2) = true := by simpa using hlines
  have hstr' : ((m.coveredStr n r).all fun w => !m.strActive w.1 || w.2 ≤ m.get STREAM.TAIL w.1) = true := by
    simpa [or_iff_not_imp_left] using hstr
  simp only [persistComplete, hfind, hup, htook', hlines', hstr', Bool.and_self, if_true]

/-! ### The global fence and the time-out of a hold (R102, R103, R115) -/

theorem gfenceGo_idle (h : m.flag GLOBAL.GFENCE_BUSY = false) : gfenceGo m =
    (({ m with order := { m.order with mark := m.serial }, serial := m.serial + 1 } : Mach).put GLOBAL.GFENCE_BUSY 0 1).put
      GLOBAL.GFENCE_DONE 0 0 := by
  simp only [gfenceGo, h, Bool.false_eq_true, if_false]
  rfl

theorem gfenceGo_busy (h : m.flag GLOBAL.GFENCE_BUSY = true) : gfenceGo m = m.put GLOBAL.GFENCE_MISSED 0 1 := by
  simp only [gfenceGo, h, if_true]
  rfl

/-- Every request before the mark of the global fence has taken effect. -/
def Mach.markTook (m : Mach) : Prop := ∀ p < 16, ∀ r ∈ (m.port p).reqs, m.order.mark ≤ r.id ∨ r.took = true

theorem Mach.markTook_iff :
    ((List.range 16).all fun p => (m.port p).reqs.all fun r => m.order.mark ≤ r.id || r.took) = true ↔ m.markTook := by
  simp [Mach.markTook]

theorem gfenceDone_took (hbusy : m.flag GLOBAL.GFENCE_BUSY = true) (h : m.markTook) :
    gfenceDone m = ((m.put GLOBAL.GFENCE_BUSY 0 0).put GLOBAL.GFENCE_DONE 0 1).event .global 0 GLOBAL.EV_GFENCE_DONE := by
  simp only [gfenceDone, hbusy, Mach.markTook_iff.2 h, Bool.and_self, if_true]
  rfl

theorem gfenceDone_waits (h : ¬m.markTook) : gfenceDone m = m :=
  if_neg fun hdone => h (Mach.markTook_iff.1 (Bool.and_eq_true_iff.1 hdone).2)

theorem heldTimeout_held {t : Nat} {h : Hold} (hfind : ((m.port n).reqs.find? fun x => x.tag = tag && x.phase == .intake) = some r)
    (hstall : r.stall = some t) (hrange : m.heldRange n r = some h) (htime : t + 19200 * h.time ≤ m.now) (hrel : m.releasing h = false) :
    heldTimeout n tag m =
      (m.modReq n r.id fun x => { x with phase := .ready, status := stHeld, fail := some stHeld }).showPort n := by
  simp [heldTimeout, usec, hfind, hstall, hrange, htime, hrel]
end

end Sys2Proof.Machine
end

section
/-! SUPPORT. The statement on the ordering operations (chapter "Ordering and durability", R100 to R107, R115). -/
namespace Sys2Proof.Laws
open Sys2Proof.Machine

/-- A PERSIST or PERSIST_NS under way pads the one open stripe that it covers; where it covers none, nothing changes and the covered lines
that are not durable are wanted. -/
theorem persist_pads {s : State} {c : Instr} {n tag op : Nat} {r : Req} (hc : exec c s = answer s (clientPersist op n tag)) (hn : n < 16)
    (hop : op = opPersist ∨ op = opPersistNs) (hup : s.m.fabricUp = true)
    (hfind : ((s.m.port n).reqs.find? fun x => x.tag = tag && x.op = op && x.phase == .order) = some r) :
    (∀ k o, s.m.coveredStr n r = [(k, o)] → s.m.get STREAM.STAT_STATE k = 1 → s.m.openFrom k < o →
      Completes c s (s.m.kilnPad k true).kilnOffer) ∧
    ((∀ w ∈ s.m.coveredStr n r, s.m.get STREAM.STAT_STATE w.1 ≠ 1 ∨ w.2 ≤ s.m.openFrom w.1) → CompletesWith c s (fun t => t = s.m ∧
      ∀ w ∈ s.m.coveredWrites n r, s.m.lineDurable w.1 w.2 = false → t.persistWants w.1 = true)) := by
  refine ⟨fun k o hcov hrun ho => ?pad, fun hclosed => ?still⟩
  case pad =>
    refine completes_of_answer hc ((clientPersist_found hup hfind).trans ?_)
    rw [hcov]
    exact padCovered_open hcov hrun ho
  case still =>
    have hsame : clientPersist op n tag s.m = s.m := (clientPersist_found hup hfind).trans (foldl_padCovered_closed hclosed _)
    have hr := List.find?_some hfind
    simp only [Bool.and_eq_true, decide_eq_true_eq, beq_iff_eq] at hr
    obtain ⟨⟨-, rfl⟩, hphase⟩ := hr
    exact ⟨s.m, completes_of_answer hc hsame, rfl, fun w hw hdue =>
      Mach.persistWants_of_covered hn (List.mem_of_find?_eq_some hfind) hop hphase hw hdue⟩

/-- Settles O18: each command finds its request, or the fence's mark, and takes the branch that its conditions name. That a fence which is not
due changes nothing is the model's choice (log entries 3, 4 and 16). -/
theorem fencesAndPersists : Obligations.FencesAndPersists := by
  refine ⟨fun s p4 t12 r hup => ⟨fun hfind => ⟨fun htook => ?fence, fun hwait => ?fenceWaits⟩,
      ⟨fun hfind => ?persist, fun hfind => ?persistNs⟩, fun hfind htook hlines hstr hnone hnone' => ?complete⟩,
    fun s a p4 t12 => ⟨fun ho => ⟨fun hidle => ?go, fun hbusy => ?missed⟩, fun hbusy => ⟨fun hall => ?done, fun hwait => ?doneWaits⟩,
      fun r t h hfind hstall hrange htime hrel => ?held⟩⟩
  case fence => exact completes_of_answer (exec_fence s p4 t12) (clientFence_earlierTook hup hfind htook)
  case fenceWaits => exact completes_of_answer (exec_fence s p4 t12) (clientFence_waits hfind hwait)
  case persist => exact persist_pads (exec_persist s p4 t12) p4.isLt (.inl rfl) hup hfind
  case persistNs => exact persist_pads (exec_persistNs s p4 t12) p4.isLt (.inr rfl) hup hfind
  case complete =>
    refine ⟨_, completes_of_answer (exec_persistComplete s p4 t12) (persistComplete_durable hup hfind htook hlines hstr), ?_⟩
    simp only [Mach.port_modPort_same]
    exact ⟨_, Mach.mem_reqs_modReq _ _ _ _ (List.mem_of_find?_eq_some hfind) rfl, rfl, rfl, if_congr (Mach.coversPoison_own hnone hnone') rfl rfl⟩
  case go => exact completes_of_answer (exec_gfenceGo s a) ((Mach.viaCfg_open ho ..).trans (gfenceGo_idle hidle))
  case missed => exact completes_of_answer (exec_gfenceGo s a) ((Mach.viaCfg_open ho ..).trans (gfenceGo_busy hbusy))
  case done => exact completes_of_answer (exec_gfenceDone s) (gfenceDone_took hbusy hall)
  case doneWaits => exact completes_of_answer (exec_gfenceDone s) (gfenceDone_waits hwait)
  case held => exact completes_of_answer (exec_heldTimeout s p4 t12) (heldTimeout_held hfind hstall hrange htime hrel)

end Sys2Proof.Laws
end

section
/-! SUPPORT. The command blocks that order and query: which block a row serves and what it comes to, the block's own change, and what a hold
that is asked for stands for (R114, R116, R196, R254, R258, R333, R419 to R422). -/
namespace Sys2Proof.Machine

/-! ### The block that a row serves -/

/-- Collier works on blocks, and `c` is the oldest one of opcode `op` that `can` names. -/
def Mach.servesFirst (m : Mach) (op : Nat) (can : Cmd → Bool) (c : Cmd) : Prop := m.blocksRun = true ∧ m.post.ramBad = false ∧
  (m.post.cmds.find? fun x => x.op = op && !x.restart && !x.cancelled && can x) = some c

section
variable {m : Mach} {op : Nat} {can : Cmd → Bool} {act : Cmd → Mach → Mach} {refused : Cmd → Option Nat} {c : Cmd}

theorem Mach.serve_stopped (h : m.blocksRun = false) : m.serve op can act = m := by simp [Mach.serve, h]

theorem Mach.serve_first (h : m.servesFirst op can c) : m.serve op can act = act c m := by
  obtain ⟨hrun, hram, hfind⟩ := h
  simp [Mach.serve, hrun, hram, hfind]

theorem Mach.serveOnce_stopped (h : m.blocksRun = false) : m.serveOnce op refused act = m := Mach.serve_stopped h

theorem Mach.serveOnce_first (h : m.servesFirst op m.inTurn c) :
    m.serveOnce op refused act = (refused c).elim ((act c m).finish c 2 0) (m.finish c 4) := by
  rw [Mach.serveOnce, Mach.serve_first h]
  cases refused c <;> rfl

theorem Mach.serveOnce_refused (h : m.servesFirst op m.inTurn c) {why : Nat} (hr : refused c = some why) :
    m.serveOnce op refused act = m.finish c 4 why := by
  rw [Mach.serveOnce_first h, hr, Option.elim_some]

theorem Mach.serveOnce_done (h : m.servesFirst op m.inTurn c) (hr : refused c = none) :
    m.serveOnce op refused act = (act c m).finish c 2 0 := by
  rw [Mach.serveOnce_first h, hr, Option.elim_none]
end

@[simp] theorem firstReason_true (why : Nat) (l : List (Bool × Nat)) : firstReason ((true, why) :: l) = some why := rfl
@[simp] theorem firstReason_false (why : Nat) (l : List (Bool × Nat)) : firstReason ((false, why) :: l) = firstReason l := rfl
@[simp] theorem firstReason_nil : firstReason [] = none := rfl

theorem bits_zero (v w : Nat) : bits v 0 w = v % 2 ^ w := by simp [bits]

/-- A value that its field holds is read whole. -/
theorem bits_zero_of_lt {v w : Nat} (h : v < 2 ^ w) : bits v 0 w = v := (bits_zero v w).trans (Nat.mod_eq_of_lt h)

/-! ### The change of a block -/

section
variable (m : Mach) (id : Nat) (f : Cmd → Cmd)

/-- Whatever block carries the number that was changed has come of the change. -/
theorem Mach.modCmd_changed {x : Cmd} (hx : x ∈ (m.modCmd id f).post.cmds) (hid : x.id = id) : ∃ y, x = f y := by
  obtain ⟨y, -, rfl⟩ := List.mem_map.1 hx
  by_cases hy : y.id = id
  · exact ⟨y, if_pos hy⟩
  · rw [if_neg hy] at hid
    exact absurd hid hy
end

/-! ### CHECKPOINT (R196) -/

section
variable {m : Mach} {c : Cmd} (h : m.servesFirst 6
  (fun x => x.stage = 0 || x.arg ≤ m.get MAP.CKPT_GEN || (m.get MAP.CKPT_STATE = ckIdle : Bool)) c)
include h

theorem checkpoint_accepted (h0 : c.stage = 0) : checkpoint m = m.ckptStart.modCmd c.id fun x => { x with
    stage := 1, arg := if (m.get MAP.CKPT_STATE = ckIdle : Bool) then m.get MAP.CKPT_GEN + 1 else m.get MAP.CKPT_GEN + 2 } := by
  rw [checkpoint, Mach.serve_first h, if_pos h0]
  simp only [decide_eq_true_eq]

theorem checkpoint_durable (h0 : c.stage ≠ 0) (hg : c.arg ≤ m.get MAP.CKPT_GEN) :
    checkpoint m = (m.results c [m.get MAP.CKPT_GEN]).finish c 2 0 := by
  rw [checkpoint, Mach.serve_first h, if_neg h0, if_pos hg]

theorem checkpoint_again (h0 : c.stage ≠ 0) (hg : m.get MAP.CKPT_GEN < c.arg) (hup : m.mapUp = true) (hflush : m.mode ≠ mFlush) :
    checkpoint m = m.ckptStart.modCmd c.id fun x => { x with arg := m.get MAP.CKPT_GEN + 1 } := by
  have hgo : (m.mapUp && (m.mode ≠ mFlush : Bool)) = true := by simp [hup, hflush]
  rw [checkpoint, Mach.serve_first h, if_neg h0, if_neg (Nat.not_le.2 hg), if_pos hgo]
end

/-! ### RANGE_HOLD and RANGE_RELEASE (R114, R116) -/

/-- The parts of a RANGE_HOLD's parameters: address, namespace, offset, length, time and port. -/
def Cmd.holdAddr (c : Cmd) : Nat := c.p0.toNat % 2 ^ 60
def Cmd.holdNs (c : Cmd) : Nat := c.holdAddr / 2 ^ 52
def Cmd.holdOff (c : Cmd) : Nat := c.holdAddr % 2 ^ 52
def Cmd.holdLen (c : Cmd) : Nat := c.p1.toNat % 2 ^ 52
def Cmd.holdTime (c : Cmd) : Nat := c.p2.toNat / 2 ^ 32 % 2 ^ 17
def Cmd.holdPort (c : Cmd) : Nat := c.p2.toNat % 16

theorem Cmd.holdParts (c : Cmd) : bits c.p0.toNat 0 60 = c.holdAddr ∧ bits c.p0.toNat 52 8 = c.holdNs ∧ bits c.p0.toNat 0 52 = c.holdOff ∧
    bits c.p1.toNat 0 52 = c.holdLen ∧ bits c.p2.toNat 32 17 = c.holdTime ∧ bits c.p2.toNat 0 4 = c.holdPort := by
  refine ⟨bits_zero _ _, ?ns, (bits_zero _ _).trans ?off, bits_zero _ _, rfl, bits_zero _ _⟩
  case ns => exact (Nat.mod_mul_right_div_self ..).symm
  case off => exact (Nat.mod_mod_of_dvd _ (by decide)).symm

section
variable (m : Mach) (c : Cmd)

/-- The range or the time that a RANGE_HOLD asks for is none that a hold can have. -/
def Mach.holdBad : Bool := c.holdAddr % 256 ≠ 0 || c.holdLen = 0 || c.holdLen % 256 ≠ 0 || 2 ^ 52 ≤ c.p1.toNat ||
  (m.nsDesc c.holdNs).size < c.holdOff + c.holdLen || c.holdTime = 0 || 100000 < c.holdTime

/-- The range that a RANGE_HOLD asks for meets a hold in force, or the target of a stream. -/
def Mach.holdMeets : Bool := (m.order.holds.any fun x => meets c.holdAddr c.holdLen (x.ns * 2 ^ 52 + x.off) x.len) ||
  (List.range 32).any fun k => m.strActive k && meets c.holdAddr c.holdLen (m.get STREAM.TARGET_ADDR k) (m.strLen k)

/-- The writes of other ports to the range that have gone on from intake and have not taken effect: those for which RANGE_HOLD waits. -/
def Mach.holdOlder : List (Nat × Nat) := (List.range 16).flatMap fun p => if p = c.holdPort then [] else
  ((m.port p).reqs.filter fun r => writesLines r.op && r.op ≠ opAppend && r.fail.isNone && r.phase ≠ .intake && r.phase ≠ .ready &&
    r.ns = c.holdNs && r.addr % 2 ^ 52 / 256 * 256 < c.holdOff + c.holdLen &&
    c.holdOff < (r.addr % 2 ^ 52 / 256 + r.nlines) * 256).map fun r => (p, r.id)

/-- The hold that a RANGE_HOLD asks for is in force. -/
def Mach.holdBegun : Mach :=
  let x : Hold := ⟨m.holdId, c.holdPort, c.holdNs, c.holdOff, c.holdLen, c.holdTime, c.agent, c.id⟩
  ({ m with order := { m.order with holds := m.order.holds ++ [x] } } : Mach).modCmd c.id fun y =>
    { y with stage := 1, committed := true, arg := m.holdId, waits := m.holdOlder c }

theorem Mach.holdBad_iff : m.holdBad c = true ↔ c.holdAddr % 256 ≠ 0 ∨ c.holdLen = 0 ∨ c.holdLen % 256 ≠ 0 ∨ 2 ^ 52 ≤ c.p1.toNat ∨
    (m.nsDesc c.holdNs).size < c.holdOff + c.holdLen ∨ c.holdTime = 0 ∨ 100000 < c.holdTime := by
  simp only [Mach.holdBad, Bool.or_eq_true, decide_eq_true_eq, or_assoc]

theorem Mach.holdMeets_iff : m.holdMeets c = true ↔
    (∃ x ∈ m.order.holds, meets c.holdAddr c.holdLen (x.ns * 2 ^ 52 + x.off) x.len = true) ∨
      ∃ k < 32, m.strActive k = true ∧ meets c.holdAddr c.holdLen (m.get STREAM.TARGET_ADDR k) (m.strLen k) = true := by
  simp only [Mach.holdMeets, Bool.or_eq_true, List.any_eq_true, List.mem_range, Bool.and_eq_true]

theorem Mach.mem_holdOlder (p i : Nat) : (p, i) ∈ m.holdOlder c ↔
    p < 16 ∧ p ≠ c.holdPort ∧ ∃ r ∈ (m.port p).reqs, r.id = i ∧ writesLines r.op = true ∧ r.op ≠ opAppend ∧ r.fail = none ∧
      r.phase ≠ .intake ∧ r.phase ≠ .ready ∧ r.ns = c.holdNs ∧ r.addr % 2 ^ 52 / 256 * 256 < c.holdOff + c.holdLen ∧
      c.holdOff < (r.addr % 2 ^ 52 / 256 + r.nlines) * 256 := by
  simp only [Mach.holdOlder, List.mem_flatMap, List.mem_range]
  constructor
  · rintro ⟨q, hq, hmem⟩
    by_cases hport : q = c.holdPort
    · simp [hport] at hmem
    · simp only [if_neg hport, List.mem_map, List.mem_filter, Bool.and_eq_true, decide_eq_true_eq, Option.isNone_iff_eq_none,
        Prod.mk.injEq] at hmem
      obtain ⟨r, ⟨hr, hwhat⟩, rfl, rfl⟩ := hmem
      exact ⟨hq, hport, r, hr, rfl, by simpa only [and_assoc] using hwhat⟩
  · rintro ⟨hp, hport, r, hr, rfl, hwhat⟩
    refine ⟨p, hp, ?_⟩
    simp only [if_neg hport, List.mem_map, List.mem_filter, Bool.and_eq_true, decide_eq_true_eq, Option.isNone_iff_eq_none]
    exact ⟨r, ⟨hr, by simpa only [and_assoc] using hwhat⟩, rfl⟩
end

section
variable {m : Mach} {c : Cmd} (h : m.servesFirst 7 (fun x => x.stage = 0 && m.inTurn x) c)
include h

theorem rangeHold_judged : rangeHold m = (firstReason
    [(!(m.nsDesc c.holdNs).exists_, 3), (m.holdBad c, 4), (m.holdMeets c, 7), (decide (8 ≤ m.order.holds.length), 8)]).elim
    (m.holdBegun c) (m.finish c 4) := by
  obtain ⟨haddr, hns, hoff, hlen, htime, hport⟩ := c.holdParts
  rw [rangeHold, Mach.serve_first h]
  simp only [haddr, hns, hoff, hlen, htime, hport]
  change (match firstReason [(!(m.nsDesc c.holdNs).exists_, 3), (m.holdBad c, 4), (m.holdMeets c, 7), (decide (8 ≤ m.order.holds.length), 8)] with
    | some r => m.refuse c r
    | none => m.holdBegun c) = _
  generalize firstReason _ = why
  cases why <;> rfl

theorem rangeHold_absent (he : (m.nsDesc c.holdNs).exists_ = false) : rangeHold m = m.finish c 4 3 := by
  rw [rangeHold_judged h, he]
  rfl

section
variable (he : (m.nsDesc c.holdNs).exists_ = true)
include he

theorem rangeHold_bad (hb : m.holdBad c = true) : rangeHold m = m.finish c 4 4 := by
  rw [rangeHold_judged h, he, hb]
  rfl

theorem rangeHold_meets (hb : m.holdBad c = false) (ho : m.holdMeets c = true) : rangeHold m = m.finish c 4 7 := by
  rw [rangeHold_judged h, he, hb, ho]
  rfl

theorem rangeHold_full (hb : m.holdBad c = false) (ho : m.holdMeets c = false) (hn : 8 ≤ m.order.holds.length) :
    rangeHold m = m.finish c 4 8 := by
  rw [rangeHold_judged h, he, hb, ho, decide_eq_true hn]
  rfl

theorem rangeHold_begun (hb : m.holdBad c = false) (ho : m.holdMeets c = false) (hn : m.order.holds.length < 8) :
    rangeHold m = m.holdBegun c := by
  rw [rangeHold_judged h, he, hb, ho, decide_eq_false (Nat.not_le.2 hn)]
  rfl
end
end

/-- What a hold that begins leaves: it stands after those in force, and the block waits for the older writes. -/
theorem Mach.holdBegun_spec (m : Mach) (c : Cmd) :
    (m.holdBegun c).order.holds =
      m.order.holds ++ [⟨m.holdId, c.holdPort, c.holdNs, c.holdOff, c.holdLen, c.holdTime, c.agent, c.id⟩] ∧ (m.holdBegun c).regs = m.regs ∧
    ∀ x ∈ (m.holdBegun c).post.cmds, x.id = c.id → x.stage = 1 ∧ x.committed = true ∧ x.arg = m.holdId ∧ x.waits = m.holdOlder c := by
  refine ⟨rfl, rfl, fun x hx hid => ?_⟩
  obtain ⟨y, rfl⟩ := Mach.modCmd_changed _ _ _ hx hid
  exact ⟨rfl, rfl, rfl, rfl⟩

/-- Every older write for which a RANGE_HOLD waits has been answered. -/
def Mach.holdDrained (m : Mach) (c : Cmd) : Bool := c.waits.all fun w =>
  match m.req? w.1 w.2 with | some r => r.phase == .ready | none => true

theorem rangeHoldDrainDone_drained {m : Mach} {c : Cmd} (h : m.servesFirst 7 (fun x => x.stage = 1 && m.holdDrained x) c) :
    rangeHoldDrainDone m = (m.results c [c.arg]).finish c 2 0 := by
  unfold rangeHoldDrainDone
  exact Mach.serve_first h

/-- The end of holds changes requests, and of the orders the holds alone. -/
theorem Mach.endHolds_holds (m : Mach) (p : Hold → Bool) : (m.endHolds p).order.holds = m.order.holds.filter fun h => !p h := by
  have hreq : ∀ (n : Nat) (l : List Req) (x : Mach),
      (l.foldl (fun (m : Mach) r => m.modReq n r.id fun (x : Req) => { x with stall := none }) x).order = x.order := fun n l x =>
    List.foldlRecOn (motive := fun y : Mach => y.order = x.order) l _ rfl fun _ hy _ _ => hy
  unfold Mach.endHolds
  dsimp only
  refine List.foldlRecOn (motive := fun y : Mach => y.order.holds = m.order.holds.filter fun h => !p h) (List.range 16) _ rfl ?_
  exact fun y hy n _ => (congrArg OrderSt.holds (hreq n _ y)).trans hy

section
variable {m : Mach} {c : Cmd} (h : m.servesFirst 8 m.inTurn c)
include h

theorem rangeRelease_held (hh : ∃ x ∈ m.order.holds, x.id = c.p0.toNat % 8) :
    rangeRelease m = (m.endHolds fun x => x.id = c.p0.toNat % 8).finish c 2 0 := by
  rw [rangeRelease, Mach.serve_first h]
  simp only [bits_zero]
  exact if_pos (by simpa using hh)

theorem rangeRelease_none (hh : ∀ x ∈ m.order.holds, x.id ≠ c.p0.toNat % 8) : rangeRelease m = m.finish c 3 0 := by
  rw [rangeRelease, Mach.serve_first h]
  simp only [bits_zero]
  exact if_neg (by simpa using hh)
end

/-! ### ERRLOG_READ, HUB_INFO and RETIRE_QUERY (R254, R333, R422) -/

section
variable {m : Mach} {c : Cmd}

theorem errlogRead_bad (h : m.servesFirst 10 m.inTurn c) (hbad : c.p1.toNat = 0 ∨ 1024 < c.p1.toNat ∨ 2 ^ 32 ≤ c.p0.toNat) :
    errlogRead m = m.finish c 4 4 := by
  have hjudge : (c.p1.toNat = 0 || 1024 < c.p1.toNat || 2 ^ 32 ≤ c.p0.toNat : Bool) = true := by
    simpa only [Bool.or_eq_true, decide_eq_true_eq, or_assoc] using hbad
  exact Mach.serveOnce_refused h (by rw [hjudge, firstReason_true])

theorem errlogRead_read (h : m.servesFirst 10 m.inTurn c) (h0 : c.p1.toNat ≠ 0) (hn : c.p1.toNat ≤ 1024) (hi : c.p0.toNat < 2 ^ 32) :
    let i := max c.p0.toNat (m.get ERR.RING_WR - 1024)
    let got := min (c.p0.toNat + c.p1.toNat) (m.get ERR.RING_WR) - i
    errlogRead m = (m.results c ([i, got] ++ (List.range got).flatMap fun j =>
      let e := m.err.ring.get ((i + j) % 1024)
      [e.w0, e.w1, e.w2, e.w3])).finish c 2 0 := by
  have hjudge : (c.p1.toNat = 0 || 1024 < c.p1.toNat || 2 ^ 32 ≤ c.p0.toNat : Bool) = false := by
    simp only [Bool.or_eq_false_iff, decide_eq_false_iff_not]
    exact ⟨⟨h0, Nat.not_lt.2 hn⟩, Nat.not_le.2 hi⟩
  intro i got
  rw [errlogRead, Mach.serveOnce_done h (by rw [hjudge, firstReason_false, firstReason_nil])]
  simp only [bits_zero_of_lt hi, bits_zero_of_lt (lt_of_le_of_lt hn (by decide : 1024 < 2 ^ 11))]
  rfl

section
variable (h : m.servesFirst 15 (fun x => x.stage ≠ 1) c)
include h

theorem hubInfo_read (h2 : c.stage = 2) : hubInfo m = (m.result c 0 256 c.line.toNat).finish c 2 0 := by
  rw [hubInfo, Mach.serve_first h]
  exact if_pos h2

theorem hubInfo_inactive (h2 : c.stage ≠ 2) (hlink : m.link (c.p0.toNat % 32) ≠ 4) : hubInfo m = m.finish c 4 12 := by
  rw [hubInfo, Mach.serve_first h]
  simp only [bits_zero]
  exact (if_neg h2).trans (if_pos hlink)

theorem hubInfo_asked (h2 : c.stage ≠ 2) (hlink : m.link (c.p0.toNat % 32) = 4) :
    ∃ x : Mach, hubInfo m = x.modCmd c.id fun y => { y with stage := 1 } := by
  rw [hubInfo, Mach.serve_first h]
  simp only [bits_zero]
  exact ⟨_, (if_neg h2).trans (if_neg (not_not_intro hlink))⟩
end

theorem retireQuery_bad (h : m.servesFirst 16 m.inTurn c) (hbad : 2 ^ 5 ≤ c.p0.toNat ∨ 2 ^ 32 ≤ c.p1.toNat ∨ 2 ^ 16 ≤ c.p2.toNat) :
    retireQuery m = m.finish c 4 4 := by
  have hjudge : (2 ^ 5 ≤ c.p0.toNat || 2 ^ 32 ≤ c.p1.toNat || 2 ^ 16 ≤ c.p2.toNat : Bool) = true := by
    simpa only [Bool.or_eq_true, decide_eq_true_eq, or_assoc] using hbad
  exact Mach.serveOnce_refused h (by rw [hjudge, firstReason_true])

theorem retireQuery_answered (h : m.servesFirst 16 m.inTurn c)
    (hok : ¬(2 ^ 5 ≤ c.p0.toNat ∨ 2 ^ 32 ≤ c.p1.toNat ∨ 2 ^ 16 ≤ c.p2.toNat)) :
    let ch := c.p0.toNat % 32
    let out := ((m.segsIn ch .retired).filter fun x => c.p1.toNat ≤ x).take c.p2.toNat
    retireQuery m = ((m.results c [m.spares ch, (m.segsIn ch .retired).length, b2n (m.chanRO ch) * 2 ^ 32]).result c 24 (4 * out.length)
      (out.foldr (fun x a => x % 2 ^ 32 + 2 ^ 32 * a) 0)).finish c 2 0 := by
  have hjudge : (2 ^ 5 ≤ c.p0.toNat || 2 ^ 32 ≤ c.p1.toNat || 2 ^ 16 ≤ c.p2.toNat : Bool) = false := by
    rw [← Bool.not_eq_true]
    simpa only [Bool.or_eq_true, decide_eq_true_eq, or_assoc] using hok
  simp only [not_or, Nat.not_le] at hok
  obtain ⟨-, hfrom, hcount⟩ := hok
  intro ch out
  rw [retireQuery, Mach.serveOnce_done h (by rw [hjudge, firstReason_false, firstReason_nil])]
  simp only [bits_zero_of_lt hfrom, bits_zero_of_lt hcount, bits_zero c.p0.toNat]
  rfl
end

/-! ### SCRUB_REQUEST (R258, R422) -/

theorem FieldsKept.puts {ks : List Nat} {a : Mach} (l : List Field) (hk : ∀ f ∈ l, f.key 0 ∈ ks) :
    ∀ {b : Mach}, FieldsKept a b ks → FieldsKept a (l.foldl (fun (m : Mach) f => m.put f 0 0) b) ks := by
  induction l with
  | nil => exact id
  | cons f l ih => exact fun h => ih (fun g hg => hk g (List.mem_cons_of_mem f hg)) (h.put (hk f List.mem_cons_self) 0)

theorem FieldsKept.modErr {ks : List Nat} {a b : Mach} (h : FieldsKept a b ks) (f : ErrSt → ErrSt) : FieldsKept a (b.modErr f) ks :=
  h.trans ⟨rfl, fun _ _ _ => rfl⟩

/-- The fields that a GO of the Gleaner may change. -/
def goKeys : List Nat :=
  GLN.sums.map (·.key 0) ++ [GLN.RESULT_ABORT_OUT.key 0, GLN.RESULT_STATE.key 0, GLN.RESULT_REASON.key 0, GLN.PROGRESS.key 0,
    GLN.STAT_RUNNING.key 0] ++ eventKeys .gln 0

/-- A GO of the Gleaner leaves every register but those of the pass's course and summary, and the events of its page. -/
theorem glnGo_kept (m : Mach) : FieldsKept m (glnGo m) goKeys := by
  have hev : eventKeys .gln 0 ⊆ goKeys := List.subset_append_right _ _
  have h0 : FieldsKept m ((GLN.sums.foldl (fun (m : Mach) f => m.put f 0 0) m).put GLN.RESULT_ABORT_OUT 0 0) goKeys :=
    ((FieldsKept.refl m goKeys).puts GLN.sums fun f hf => List.mem_append_left _ (List.mem_append_left _ (List.mem_map.2 ⟨f, hf, rfl⟩))).put (by decide) 0
  unfold glnGo
  split
  · exact (FieldsKept.refl m goKeys).event hev _
  · dsimp only
    split
    · exact ((h0.put (by decide) _).put (by decide) _).event hev _
    · exact ((((h0.put (by decide) _).put (by decide) _).put (by decide) _).setFlag (by decide) _).modErr _

section
variable {m : Mach} {c : Cmd}

/-- The range or the mode that a SCRUB_REQUEST asks for is none that a pass can have. -/
def Mach.scrubBad (m : Mach) (c : Cmd) : Bool := c.p0.toNat % 256 ≠ 0 || c.p1.toNat = 0 || c.p1.toNat % 256 ≠ 0 ||
  (m.nsDesc (c.p0.toNat / 2 ^ 52 % 2 ^ 8)).size < c.p0.toNat % 2 ^ 52 + c.p1.toNat || c.p2.toNat % 4 = 3 ||
  c.p2.toNat / 2 ^ 8 % 2 ^ 8 = 0 || c.p2.toNat / 2 ^ 16 % 4 = 0

theorem Mach.scrubBad_iff (m : Mach) (c : Cmd) : m.scrubBad c = true ↔ c.p0.toNat % 256 ≠ 0 ∨ c.p1.toNat = 0 ∨ c.p1.toNat % 256 ≠ 0 ∨
    (m.nsDesc (c.p0.toNat / 2 ^ 52 % 2 ^ 8)).size < c.p0.toNat % 2 ^ 52 + c.p1.toNat ∨ c.p2.toNat % 4 = 3 ∨
    c.p2.toNat / 2 ^ 8 % 2 ^ 8 = 0 ∨ c.p2.toNat / 2 ^ 16 % 4 = 0 := by
  simp only [Mach.scrubBad, Bool.or_eq_true, decide_eq_true_eq, or_assoc]

/-- The pass that a SCRUB_REQUEST asks for stands in the Gleaner's registers. -/
def Mach.scrubSet (m : Mach) (c : Cmd) : Mach :=
  (((((m.put GLN.START 0 c.p0.toNat).put GLN.LENGTH 0 c.p1.toNat).put GLN.MODE_KIND 0 (bits c.p2.toNat 0 2)).put GLN.MODE_ANYTIME 0
    (bits c.p2.toNat 4 1)).put GLN.MODE_DEPTH 0 (bits c.p2.toNat 8 8)).put GLN.MODE_REFRESH_STEP 0 (bits c.p2.toNat 16 2)

/-- The pass has been asked for, and the block waits for it. -/
def Mach.scrubBegun (m : Mach) (c : Cmd) : Mach :=
  ((glnGo (m.scrubSet c)).modErr fun e => { e with gCmd := some c.id }).modCmd c.id fun x => { x with stage := 1 }

theorem Mach.scrubSet_range (m : Mach) (c : Cmd) : (m.scrubSet c).get GLN.START = c.p0.toNat % 2 ^ 60 ∧
    (m.scrubSet c).get GLN.LENGTH = c.p1.toNat % 2 ^ 52 := by
  have hmode : ∀ f : Field, f.key 0 ∉ [GLN.MODE_KIND.key 0, GLN.MODE_ANYTIME.key 0, GLN.MODE_DEPTH.key 0, GLN.MODE_REFRESH_STEP.key 0] →
      (m.scrubSet c).get f = ((m.put GLN.START 0 c.p0.toNat).put GLN.LENGTH 0 c.p1.toNat).get f := fun f hf =>
    ((((FieldsKept.refl _ _).put (by decide) _).put (by decide) _).put (by decide) _ |>.put (by decide) _).2 f 0 hf
  refine ⟨?_, ?_⟩
  · rw [hmode _ (by decide), Mach.get_put_ne _ _ (by decide), Mach.get_put_same]
    rfl
  · rw [hmode _ (by decide), Mach.get_put_same]
    rfl

theorem Mach.scrubBegun_range (m : Mach) (c : Cmd) : (m.scrubBegun c).get GLN.START = c.p0.toNat % 2 ^ 60 ∧
    (m.scrubBegun c).get GLN.LENGTH = c.p1.toNat % 2 ^ 52 := by
  obtain ⟨hstart, hlength⟩ := m.scrubSet_range c
  obtain ⟨-, hkept⟩ := glnGo_kept (m.scrubSet c)
  exact ⟨(hkept GLN.START 0 (by decide)).trans hstart, (hkept GLN.LENGTH 0 (by decide)).trans hlength⟩

section
variable (hrun : m.blocksRun = true) (hram : m.post.ramBad = false)
  (hfind : (m.post.cmds.find? fun x => x.op = 17 && !x.restart && x.stage ≠ 1) = some c)
include hrun hram hfind

theorem scrubRequest_ended (h0 : c.stage ≠ 0) :
    scrubRequest m = (m.result c 0 96 (c.line.toNat % 2 ^ 768)).finish c (if c.stage = 2 then 2 else 7) 0 := by
  simp only [scrubRequest, hrun, hram, hfind, bits_zero, Bool.not_true, Bool.false_eq_true, if_false]
  exact if_pos h0

theorem scrubRequest_judged (h0 : c.stage = 0) : scrubRequest m =
    (firstReason [(m.gleaning, 9), (!(m.nsDesc (c.p0.toNat / 2 ^ 52 % 2 ^ 8)).exists_, 3), (m.scrubBad c, 4)]).elim
      (m.scrubBegun c) (m.finish c 4) := by
  simp only [scrubRequest, hrun, hram, hfind, Bool.not_true, Bool.false_eq_true, if_false]
  rw [if_neg (not_not_intro h0)]
  have hbad : m.scrubBad c = (c.p0.toNat % 256 ≠ 0 || c.p1.toNat = 0 || c.p1.toNat % 256 ≠ 0 ||
      (m.nsDesc (bits c.p0.toNat 52 8)).size < bits c.p0.toNat 0 52 + c.p1.toNat || bits c.p2.toNat 0 2 = 3 || bits c.p2.toNat 8 8 = 0 ||
      bits c.p2.toNat 16 2 = 0 : Bool) := by
    simp only [bits_zero]
    rfl
  rw [← hbad]
  change _ = (firstReason [(m.gleaning, 9), (!(m.nsDesc (bits c.p0.toNat 52 8)).exists_, 3), (m.scrubBad c, 4)]).elim _ _
  generalize firstReason _ = why
  cases why <;> rfl

section
variable (h0 : c.stage = 0)
include h0

theorem scrubRequest_running (hg : m.gleaning = true) : scrubRequest m = m.finish c 4 9 := by
  rw [scrubRequest_judged hrun hram hfind h0, hg]
  rfl

section
variable (hg : m.gleaning = false)
include hg

theorem scrubRequest_absent (he : (m.nsDesc (c.p0.toNat / 2 ^ 52 % 2 ^ 8)).exists_ = false) : scrubRequest m = m.finish c 4 3 := by
  rw [scrubRequest_judged hrun hram hfind h0, hg, he]
  rfl

theorem scrubRequest_bad (he : (m.nsDesc (c.p0.toNat / 2 ^ 52 % 2 ^ 8)).exists_ = true) (hb : m.scrubBad c = true) :
    scrubRequest m = m.finish c 4 4 := by
  rw [scrubRequest_judged hrun hram hfind h0, hg, he, hb]
  rfl

theorem scrubRequest_begun (he : (m.nsDesc (c.p0.toNat / 2 ^ 52 % 2 ^ 8)).exists_ = true) (hb : m.scrubBad c = false) :
    scrubRequest m = m.scrubBegun c := by
  rw [scrubRequest_judged hrun hram hfind h0, hg, he, hb]
  rfl
end
end
end
end

end Sys2Proof.Machine
end

section
/-! SUPPORT. The statement on the blocks that order and query (chapters "Ordering and durability" and "Collier and the posts", R114, R116,
R196, R254, R258, R333, R422). -/
namespace Sys2Proof.Laws
open Sys2Proof.Machine

/-- While Collier works on no blocks, the rows of these blocks change nothing. -/
theorem orderBlocks_stopped {s : State} (h : s.m.blocksRun = false) : Completes .checkpoint s s.m ∧ Completes .rangeHold s s.m ∧
    Completes .rangeHoldDrainDone s s.m ∧ Completes .rangeRelease s s.m ∧ Completes .health s s.m ∧ Completes .errlogRead s s.m ∧
    Completes .hubInfo s s.m ∧ Completes .retireQuery s s.m ∧ Completes .scrubRequest s s.m :=
  ⟨completes_of_answer (exec_checkpoint s) (by rw [checkpoint, Mach.serve_stopped h]),
    completes_of_answer (exec_rangeHold s) (Mach.serve_stopped h),
    completes_of_answer (exec_rangeHoldDrainDone s) (by rw [rangeHoldDrainDone, Mach.serve_stopped h]),
    completes_of_answer (exec_rangeRelease s) (Mach.serve_stopped h), completes_of_answer (exec_health s) (Mach.serveOnce_stopped h),
    completes_of_answer (exec_errlogRead s) (Mach.serveOnce_stopped h), completes_of_answer (exec_hubInfo s) (Mach.serve_stopped h),
    completes_of_answer (exec_retireQuery s) (Mach.serveOnce_stopped h),
    completes_of_answer (exec_scrubRequest s) (if_pos (by rw [h]; rfl))⟩

/-- Settles O45: each row serves the oldest block that can go on, and takes the branch that the block's stage and its parameters name. That
over-wide parameters are refused rests on R419 and log entry 52; that a hold gets the lowest ID not in force (log entry 84), and that a
row takes one phase at a time (log entries 3, 4 and 16), is the model's choice. -/
theorem orderAndQueryBlocks : Obligations.OrderAndQueryBlocks := by
  intro s c
  refine ⟨orderBlocks_stopped, fun h => ?checkpoint, fun h => ?hold, fun h => ?drained, fun h => ?release, fun h => ?health,
    fun h => ?errlog, fun h => ?hubInfo, fun h => ?retire, fun hrun hram hfind => ?scrub⟩
  case checkpoint =>
    exact ⟨fun h0 => completes_of_answer (exec_checkpoint s) (checkpoint_accepted h h0),
      fun h0 hg => completes_of_answer (exec_checkpoint s) (checkpoint_durable h h0 hg),
      fun h0 hg hup hflush => completes_of_answer (exec_checkpoint s) (checkpoint_again h h0 hg hup hflush)⟩
  case hold =>
    intro a ns off len time badRange overlap
    have hbad : s.m.holdBad c = true ↔ badRange := s.m.holdBad_iff c
    have hover : s.m.holdMeets c = true ↔ overlap := s.m.holdMeets_iff c
    have hgood : ¬badRange → s.m.holdBad c = false := fun hb => Bool.eq_false_iff.2 (hb ∘ hbad.1)
    have hfree : ¬overlap → s.m.holdMeets c = false := fun ho => Bool.eq_false_iff.2 (ho ∘ hover.1)
    refine ⟨fun he => completes_of_answer (exec_rangeHold s) (rangeHold_absent h he),
      fun he hb => completes_of_answer (exec_rangeHold s) (rangeHold_bad h he (hbad.2 hb)),
      fun he hb ho => completes_of_answer (exec_rangeHold s) (rangeHold_meets h he (hgood hb) (hover.2 ho)),
      fun he hb ho hn => completes_of_answer (exec_rangeHold s) (rangeHold_full h he (hgood hb) (hfree ho) hn),
      fun he hb ho hn => ⟨_, completes_of_answer (exec_rangeHold s) (rangeHold_begun h he (hgood hb) (hfree ho) hn), ?_⟩⟩
    obtain ⟨hholds, hregs, hblock⟩ := s.m.holdBegun_spec c
    refine ⟨hholds, hregs, fun x hx hid => ?_⟩
    obtain ⟨hstage, hcommit, harg, hwaits⟩ := hblock x hx hid
    exact ⟨hstage, hcommit, harg, fun p i => hwaits ▸ s.m.mem_holdOlder c p i⟩
  case drained => exact completes_of_answer (exec_rangeHoldDrainDone s) (rangeHoldDrainDone_drained h)
  case release =>
    refine ⟨fun hh => ⟨completes_of_answer (exec_rangeRelease s) (rangeRelease_held h hh), ?_⟩,
      fun hh => completes_of_answer (exec_rangeRelease s) (rangeRelease_none h hh)⟩
    rw [Mach.endHolds_holds]
    simp only [decide_not]
  case health => exact completes_of_answer (exec_health s) (Mach.serveOnce_done h rfl)
  case errlog =>
    exact ⟨fun hbad => completes_of_answer (exec_errlogRead s) (errlogRead_bad h hbad),
      fun h0 hn hi => completes_of_answer (exec_errlogRead s) (errlogRead_read h h0 hn hi)⟩
  case hubInfo =>
    refine ⟨fun h2 => completes_of_answer (exec_hubInfo s) (hubInfo_read h h2),
      fun h2 hlink => completes_of_answer (exec_hubInfo s) (hubInfo_inactive h h2 hlink), fun h2 hlink => ?_⟩
    obtain ⟨m1, hasked⟩ := hubInfo_asked h h2 hlink
    refine ⟨_, completes_of_answer (exec_hubInfo s) hasked, fun x hx hid => ?_⟩
    obtain ⟨y, rfl⟩ := Mach.modCmd_changed _ _ _ hx hid
    rfl
  case retire =>
    exact ⟨fun hbad => completes_of_answer (exec_retireQuery s) (retireQuery_bad h hbad),
      fun hok => completes_of_answer (exec_retireQuery s) (retireQuery_answered h hok)⟩
  case scrub =>
    intro a n md d bad
    have hbad : s.m.scrubBad c = true ↔ bad := s.m.scrubBad_iff c
    have hended := scrubRequest_ended hrun hram hfind
    refine ⟨fun h2 => completes_of_answer (exec_scrubRequest s) ((hended (by omega)).trans (by rw [if_pos h2])),
      fun h0 h2 => completes_of_answer (exec_scrubRequest s) ((hended h0).trans (by rw [if_neg h2])),
      fun h0 hg => completes_of_answer (exec_scrubRequest s) (scrubRequest_running hrun hram hfind h0 hg),
      fun h0 hg he => completes_of_answer (exec_scrubRequest s) (scrubRequest_absent hrun hram hfind h0 hg he),
      fun h0 hg he hb => completes_of_answer (exec_scrubRequest s) (scrubRequest_bad hrun hram hfind h0 hg he (hbad.2 hb)),
      fun h0 hg he hb => ⟨_, completes_of_answer (exec_scrubRequest s)
        (scrubRequest_begun hrun hram hfind h0 hg he (Bool.eq_false_iff.2 (hb ∘ hbad.1))), rfl, ?_⟩⟩
    obtain ⟨hstart, hlength⟩ := s.m.scrubBegun_range c
    refine ⟨hstart, hlength, fun x hx hid => ?_⟩
    obtain ⟨y, rfl⟩ := Mach.modCmd_changed _ _ _ hx hid
    rfl

end Sys2Proof.Laws
end

section
/-! REFUTATION of `Obligations.StreamLife`: the state in which STOP_REASON does not keep what a STOP records (chapter "Kiln: capture", R122,
R138). -/
namespace Sys2Proof.Machine

/-- A line request of a requester that ROTA does not have: the last of the 20 requesters is 19 (R387). -/
def tooFar : LineReq := { (default : LineReq) with rq := 78, wait := 5, job := .repair 0 0 }

/-- Running Core with stream 0 RUNNING at NEXT_OFFSET 64 and, in a queue of arbiter 33, a line of that requester with a repair of line 0.
No run reaches it: it refutes a statement over all states. -/
def stopping : Mach :=
  let m := ([(GLOBAL.STAT_RELEASED, 0, 1), (POWER.STAT_MODE, 0, mRun), (POWER.PD_ON, 0, 2 ^ 17 - 1), (STREAM.STAT_STATE, 0, 1),
    (STREAM.NEXT_OFFSET, 0, 64)] : List (Field × Nat × Nat)).foldl (fun m x => m.put x.1 x.2.1 x.2.2) { Mach.reset with porstN := true }
  { m with sc := { m.sc with queues := [(64 * 33, [tooFar])] } }

theorem stopping_open : stopping.cfgOpen .stream 0 := by
  refine ⟨by decide +kernel, by decide +kernel, by decide +kernel, by decide +kernel, by decide +kernel, ?domain, ?clock⟩
  all_goals
    rintro _ ⟨⟩
    decide +kernel

theorem stopping_running : (stopping.seen 0).get STREAM.STAT_STATE 0 = 1 ∧ (stopping.seen 0).get STREAM.CMD_RESULT 0 ≠ 3 := by
  decide +kernel

/-- The longest wait of that requester would stand in stream 0's STOP_REASON: the registers of a page end before it. -/
theorem maxWait_key_eq_stopReason_key : (ROTA.MAXWAIT (arbPage 33) tooFar.rq).key (arbInst 33) = STREAM.STOP_REASON.key 0 := by
  decide +kernel

/-- The stream's last index line is a new value of line 0: its repair is withdrawn (R244) and the wait shown there (R400). -/
theorem stopping_stopReason : (streamStop 0 (stopping.seen 0)).get STREAM.STOP_REASON 0 = tooFar.wait := by decide +kernel

end Sys2Proof.Machine
end

section
namespace Sys2Proof.Laws
open Sys2Proof.Machine

/-- Refutes O19: on `stopping` STOP ends with STOP_REASON 5, not 1. After it has recorded why the stream stops, its last index line
withdraws a queued repair whose requester number, 78, is none of ROTA's, and the longest wait of that number has STOP_REASON's key
(`maxWait_key_eq_stopReason_key`). The clauses speak of every state; in the states that a run reaches requester numbers are below 20, so
this is a gap of the hypotheses. -/
theorem not_streamLife : ¬ Obligations.StreamLife := by
  unfold Obligations.StreamLife
  intro h
  obtain ⟨hrun, hidle⟩ := stopping_running
  have hcommands := (h.1 ⟨stopping, []⟩ 0 0 stopping_open).2 hidle
  obtain ⟨-, -, hstop, -⟩ := hcommands
  obtain ⟨t, hexec, -, -, hreason, -⟩ := hstop hrun
  have hcomp : Completes (.streamStop 0 0) ⟨stopping, []⟩ (streamStop 0 (stopping.seen 0)) :=
    completes_of_answer (exec_streamStop _ 0 0) (Mach.viaCfg_open stopping_open ..)
  have ht : t = streamStop 0 (stopping.seen 0) := by
    rw [Completes, hexec] at hcomp
    injection hcomp with hstate
    injection hstate
  have hkey : (0 : BitVec 5).toNat = 0 := rfl
  rw [ht, hkey, stopping_stopReason] at hreason
  exact absurd hreason (by decide)

end Sys2Proof.Laws
end

section
/-! SUPPORT. Which registers of their pages work on the streams writes: a frame by the fields written, for what has to read a register
that the work leaves alone (chapter "Kiln: capture", R124 to R148). -/
namespace Sys2Proof.Machine

/-- A fold keeps what each of its steps keeps. -/
theorem foldl_keeps {σ α β : Type} (p : σ → β) {f : σ → α → σ} (hf : ∀ s x, p (f s x) = p s) (l : List α) (s : σ) :
    p (l.foldl f s) = p s :=
  List.foldlRecOn (motive := fun t => p t = p s) l f rfl fun b hb x _ => (hf b x).trans hb

/-! ### The frame -/

/-- The registers that work on the streams may change when it writes the fields `ws` of their pages: beside those the engines' registers and
those of KILN's page. -/
def workKey (ws : List Field) (q : Nat) : Prop := asideKey true q ∨ q / 32768 = 10 ∨ ∃ g ∈ ws, ∃ j, q = g.key j

/-- Of the streams' registers, only the fields `ws` change from `m` to `t`. -/
def Worked (ws : List Field) (m t : Mach) : Prop := KeptBut (workKey ws) m t

/-- A field of the streams' pages that is none of `ws`, nor one that the engines write. -/
def apart (ws : List Field) (f : Field) : Bool :=
  Decidable.decide (f.place < 32768 ∧ f.place / 64 % 4 ≠ 2) &&
    ws.all fun g => Decidable.decide (g.page = .stream ∧ g.place < 32768 ∧ g.place ≠ f.place)

/-- The event group of a stream's page. -/
def eventFields : List Field := [evField .stream, evFirstBit .stream, evFirstEst .stream, evFirstValid .stream, evTime .stream]

section
variable {ws vs : List Field} {a b c : Mach}

theorem Worked.refl (ws : List Field) (m : Mach) : Worked ws m m := KeptBut.refl _ m

theorem Worked.trans (h : Worked ws a b) (g : Worked ws b c) : Worked ws a c := KeptBut.trans h g

theorem Worked.mono (h : Worked ws a b) (hs : ws ⊆ vs) : Worked vs a b := KeptBut.mono h fun _ hq =>
  hq.imp id (Or.imp id fun ⟨g, hg, hj⟩ => ⟨g, hs hg, hj⟩)

theorem Worked.ite {p : Prop} [Decidable p] (h : Worked ws a b) (g : Worked ws a c) : Worked ws a (if p then b else c) := by
  split
  · exact h
  · exact g

theorem Worked.foldl {α : Type} {f : Mach → α → Mach} (l : List α) (hf : ∀ m x, Worked ws m (f m x)) (m : Mach) :
    Worked ws m (l.foldl f m) :=
  List.foldlRecOn l f (Worked.refl ws m) fun b hb x _ => hb.trans (hf b x)

/-- The same for a fold that carries a figure beside the machine. -/
theorem Worked.foldl_snd {α β : Type} {f : β × Mach → α → β × Mach} (l : List α) (hf : ∀ p x, Worked ws p.2 (f p x).2)
    (p : β × Mach) : Worked ws p.2 (l.foldl f p).2 :=
  List.foldlRecOn (motive := fun r => Worked ws p.2 r.2) l f (Worked.refl ws p.2) fun b hb x _ => hb.trans (hf b x)

theorem Aside.worked {w : Bool} (h : Aside w a b) : Worked ws a b := KeptBut.mono h.regs fun _ hq =>
  .inl (hq.imp id fun ⟨_, hq⟩ => ⟨rfl, hq⟩)

/-- A change of the blocks' own state. -/
theorem Worked.of_regs (hr : b.regs = a.regs) (hi : b.integ = a.integ) : Worked ws a b := KeptBut.of_regs hr hi

section
variable (h : Worked ws a b)
include h

theorem Worked.put {f : Field} {k v : Nat} (hf : f ∈ ws := by decide) : Worked ws a (b.put f k v) :=
  h.trans (b.put_keptBut (.inr (.inr ⟨f, hf, k, rfl⟩)) v)

theorem Worked.setFlag {f : Field} {k : Nat} {v : Bool} (hf : f ∈ ws := by decide) : Worked ws a (b.setFlag f k v) := h.put hf

theorem Worked.count {f : Field} {k v : Nat} (hf : f ∈ ws := by decide) : Worked ws a (b.count f k v) := h.put hf

/-- A register of KILN's page. -/
theorem Worked.kilnPut {f : Field} {v : Nat} (hk : f.key 0 / 32768 = 10 := by decide) : Worked ws a (b.put f 0 v) :=
  h.trans (b.put_keptBut (.inr (.inl hk)) v)

theorem Worked.kilnEvent {v : Nat} : Worked ws a (b.event .kiln 0 v) :=
  h.trans (b.event_keptBut (fun q hq =>
    have hkey : ∀ q ∈ eventKeys .kiln 0, engineKey q = true ∨ q / 32768 = 10 := by decide
    (hkey q hq).elim (fun h => .inl (.inl h)) fun h => .inr (.inl h)) v)

theorem Worked.event {k v : Nat} (hs : eventFields ⊆ ws := by decide) : Worked ws a (b.event .stream k v) :=
  h.trans (b.event_keptBut (fun q hq => by
    have hkey : ∀ g ∈ eventFields, workKey ws (g.key k) := fun g hg => .inr (.inr ⟨g, hs hg, k, rfl⟩)
    simp only [eventKeys, eventFields, List.mem_cons, List.not_mem_nil, or_false] at hkey hq
    rcases hq with rfl | rfl | rfl | rfl | rfl | rfl
    case inr.inr.inr.inr.inr => exact .inl (.inl (by decide))
    all_goals exact hkey _ (by simp)) v)

theorem Worked.modStr {k : Nat} {f : StrSt → StrSt} : Worked ws a (b.modStr k f) := h.trans (Worked.of_regs rfl rfl)
theorem Worked.modSlot {k no : Nat} {f : Slot → Slot} : Worked ws a (b.modSlot k no f) := h.modStr
theorem Worked.modPort {n : Nat} {f : PortSt → PortSt} : Worked ws a (b.modPort n f) := h.trans (Worked.of_regs rfl rfl)

/-- A register that the work does not write. -/
theorem Worked.get {k : Nat} (hk : k < 32) {f : Field} (hp : f.page = .stream := by rfl) (hf : apart ws f = true := by decide) :
    b.get f k = a.get f k := by
  obtain ⟨⟨hplace, hev⟩, hws⟩ : (f.place < 32768 ∧ f.place / 64 % 4 ≠ 2) ∧
      ∀ g ∈ ws, g.page = .stream ∧ g.place < 32768 ∧ g.place ≠ f.place := by
    simpa only [apart, Bool.and_eq_true, List.all_eq_true, decide_eq_true_eq] using hf
  refine h.2 f k ?_
  rintro (hq | hq | ⟨g, hg, j, hq⟩)
  · exact asideKey_stream hp hplace hev hk hq
  · rw [Field.key_stream hp] at hq
    omega
  · obtain ⟨hgp, hgplace, hne⟩ := hws g hg
    rw [Field.key_stream hp, Field.key_stream hgp] at hq
    omega

theorem Worked.flag {k : Nat} (hk : k < 32) {f : Field} (hp : f.page = .stream := by rfl) (hf : apart ws f = true := by decide) :
    b.flag f k = a.flag f k := by rw [Mach.flag, Mach.flag, h.get hk hp hf]
end
end

/-! ### What each step of the work writes -/

/-- The fields that show a stream's levels (R130, R146). -/
def levelFields : List Field := [STREAM.STG_FILL, STREAM.SPILL_BYTES, STREAM.CNT_BP_CYCLES, STREAM.STAT_HELD]
/-- The fields that showing them writes, with the events that it sets. -/
def shownFields : List Field := eventFields ++ levelFields
/-- The fields that appending to the index writes (R141, R142). -/
def indexFields : List Field := eventFields ++ [STREAM.IDX_COUNT, STREAM.IDX_HEAD, STREAM.CNT_IDX_DROPPED]
/-- The fields that issue to the medium writes (R127). -/
def offerFields : List Field := [STREAM.CNT_STRIPES, STREAM.STAT_GROUP_WAIT]

section
variable {ws : List Field} (m : Mach) (k : Nat)

theorem Mach.newValue_worked (l : Nat) : Worked ws m (m.newValue l) :=
  ((m.overtake_aside (w := true) l false).trans (Mach.loomDiscard_aside _ l true)).worked

theorem Mach.idxFlush_worked (final : Bool) (fuel : Nat) : Worked indexFields m (m.idxFlush k final fuel) := by
  induction fuel generalizing m with
  | zero => exact Worked.refl _ m
  | succ fuel ih =>
    unfold Mach.idxFlush
    extract_lets s n first l d c r
    have hr : Worked indexFields m r.2 := (Mach.putDirty_aside d 0 m c l (m.mirrors c) false).worked
    have hq : Worked indexFields m (r.2.hQueue c (r.2.linePlace l false) true) := hr.trans (Mach.hQueue_aside (w := true) ..).worked
    exact Worked.ite (Worked.refl _ m) (Worked.ite ((hq.put.modStr.trans (Mach.newValue_worked _ l)).trans (ih _)) hr)

theorem Mach.idxAppend_worked (fl off : Nat) : Worked indexFields m (m.idxAppend k fl off) := by
  unfold Mach.idxAppend
  have h0 : Worked indexFields m m := Worked.refl _ m
  extract_lets s cap skew w1 offs excess m1 m2
  have h2 : Worked indexFields m m2 := h0.modStr.put
  exact Worked.ite h0 (Worked.ite h0.count.event ((Worked.ite h2.event h2).trans (Mach.idxFlush_worked _ k false 2)))

theorem Mach.idxAge_worked : Worked indexFields m (m.idxAge k) := by
  unfold Mach.idxAge
  exact Worked.ite (Worked.refl _ m) (Worked.refl _ m).modStr.put

theorem Mach.showKiln_worked : Worked ws m m.showKiln := (Worked.refl _ m).kilnPut.kilnPut.kilnPut

theorem Mach.showStr_worked : Worked shownFields m (m.showStr k) := by
  unfold Mach.showStr
  extract_lets m1 h was m2 m3 m4
  have h1 : Worked shownFields m m1 := m.showKiln_worked.put.put
  have h2 : Worked shownFields m m2 := Worked.ite h1.count h1
  have h3 : Worked shownFields m m3 := h2.setFlag.modStr
  have h4 : Worked shownFields m m4 := Worked.ite h3.event h3
  exact Worked.ite h4.kilnEvent h4

theorem Mach.closeHalf_worked : Worked ws m (m.closeHalf k) := (Worked.refl _ m).modStr

theorem Mach.slotComplete_worked (no : Nat) : Worked ws m (m.slotComplete k no) := by
  unfold Mach.slotComplete
  extract_lets m1 m2
  have h1 : Worked ws m m1 := (Worked.refl _ m).modSlot
  have h2 : Worked ws m m2 := Worked.ite h1.kilnPut h1
  exact Worked.ite (h2.trans (Mach.closeHalf_worked _ k)) h2

theorem Mach.setNext_worked (o : Nat) : Worked [STREAM.NEXT_OFFSET, STREAM.LAP] m (m.setNext k o) :=
  Worked.ite (Worked.refl _ m).put (Worked.refl _ m).put.put
end

end Sys2Proof.Machine
end

section
/-! SUPPORT. What padding a stream, reading its slots and issuing them write of the streams' registers (chapter "Kiln: capture", R127,
R136, R246, R247). -/
namespace Sys2Proof.Machine

section
variable (m : Mach) (k : Nat)

/-! ### Padding (R136) -/

/-- What padding writes once the pad is counted and its index entry made. -/
def paddedFields : List Field := indexFields ++ levelFields ++ [STREAM.NEXT_OFFSET, STREAM.LAP]

/-- The open stripe or line of stream `k` padded, when it holds a byte (R136). -/
def Mach.padOpen (m : Mach) (k : Nat) (mark : Bool) : Mach :=
  let o := m.nextOff k
  let n := m.span k - o % m.span k
  let m1 := (m.idxAppend k idxPad o).count STREAM.CNT_PAD_BYTES k n
  let m2 := (if mark then m.idxMarks k o n else []).foldl (fun m x => m.idxAppend k 0 x) m1
  let m3 := (m.takeLines k o n).foldl Mach.newValue m2
  (((m3.modSlot k (o / m.span k) fun x => { x with filled := x.filled + n }).setNext k (o + n)).slotComplete k (o / m.span k)).idxAge k

/-- The half that fills is closed and the levels shown. -/
def Mach.padShown (m0 m : Mach) (k : Nat) : Mach := (if m0.pingpong k then m.closeHalf k else m).showStr k

theorem Mach.kilnPad_open (mark : Bool) (h : m.nextOff k % m.span k ≠ 0) : m.kilnPad k mark = m.padShown (m.padOpen k mark) k := by
  simp only [Mach.kilnPad, h, if_false]
  rfl

theorem Mach.padShown_worked (x : Mach) : Worked shownFields x (m.padShown x k) :=
  (Worked.ite (x.closeHalf_worked k) (Worked.refl _ x)).trans (Mach.showStr_worked _ k)

/-- The pad is counted after its index entry; what follows leaves the count. -/
theorem Mach.padOpen_counted (mark : Bool) :
    Worked paddedFields ((m.idxAppend k idxPad (m.nextOff k)).count STREAM.CNT_PAD_BYTES k (m.span k - m.nextOff k % m.span k))
      (m.padOpen k mark) := by
  unfold Mach.padOpen
  extract_lets o n m1 m2 m3
  have hidx : ∀ {x y : Mach}, Worked indexFields x y → Worked paddedFields x y := fun h => h.mono (by decide)
  have h2 : Worked paddedFields m1 m2 := Worked.foldl _ (fun x y => hidx (x.idxAppend_worked k 0 y)) m1
  have h3 : Worked paddedFields m1 m3 := h2.trans (Worked.foldl _ (fun x y => x.newValue_worked y) m2)
  exact ((h3.modSlot.trans ((Mach.setNext_worked _ k _).mono (by decide))).trans (Mach.slotComplete_worked _ k _)).trans
    (hidx (Mach.idxAge_worked _ k))

theorem Mach.padOpen_nextOff (mark : Bool) {k : Nat} (hk : k < 32) :
    (m.padOpen k mark).nextOff k = (m.nextOff k + (m.span k - m.nextOff k % m.span k)) % 2 ^ 64 := by
  unfold Mach.padOpen
  extract_lets o n m1 m2 m3
  exact ((Mach.idxAge_worked _ k).get hk).trans ((Mach.slotComplete_nextOff _ k _).trans (Mach.setNext_nextOff _ k _))

/-- A stream whose stripe or line is open ends it: NEXT_OFFSET moves to its end and the pad is counted. -/
theorem Mach.kilnPad_padded (mark : Bool) {k : Nat} (hk : k < 32) (h : m.nextOff k % m.span k ≠ 0) :
    (m.kilnPad k mark).get STREAM.NEXT_OFFSET k = (m.nextOff k + (m.span k - m.nextOff k % m.span k)) % 2 ^ 64 ∧
    (m.kilnPad k mark).get STREAM.CNT_PAD_BYTES k =
      countUp (m.get STREAM.CNT_PAD_BYTES k) (m.span k - m.nextOff k % m.span k) % 2 ^ 64 := by
  have hshown := m.padShown_worked k (m.padOpen k mark)
  rw [m.kilnPad_open k mark h]
  constructor
  · exact (hshown.get hk).trans (m.padOpen_nextOff mark hk)
  · rw [hshown.get hk, (m.padOpen_counted k mark).get hk, Mach.count, Mach.get_put_same, (m.idxAppend_worked k idxPad _).get hk]
    rfl

/-! ### Slots read (R246, R247) -/

variable {ws : List Field}

theorem Mach.slotRead_worked (s : Slot) (d : Nat) (drain : Bool) (rq port : Nat) (demand : Bool) (at_ : Nat) :
    Worked ws m (m.slotRead k s d drain rq port demand at_).2.2.2 := by
  have hstaged : ∀ ri, Worked ws m (m.stagedRead k s d ri at_).2.2.2 := fun ri => by
    unfold Mach.stagedRead
    extract_lets mine others fix dur info m1 v
    have h1 : Worked ws m m1 := Worked.foldl _ (fun x _ => (x.sramFail_aside (w := true) _).worked) m
    split
    · exact Worked.refl ws m
    · split
      · exact h1.modSlot
      · exact h1.modSlot.trans (Mach.poisonLine_aside (w := true) _ _).worked
  unfold Mach.slotRead
  dsimp only
  split
  · exact Worked.refl ws m
  · split
    · exact hstaged _
    · exact (m.spilledRead_aside ..).worked

theorem Mach.strLost_worked (no d : Nat) : Worked ws m (m.strLost k no d) :=
  Worked.foldl _ (fun x _ => Worked.ite (Worked.refl ws x) (Worked.refl ws x).modPort) m

/-! ### Issue (R127) -/

theorem Mach.slotIssue_worked (s : Slot) : Worked offerFields m (m.slotIssue k s) := by
  unfold Mach.slotIssue
  extract_lets uk rd data par all src r lost m1 m2
  have hrd : Worked offerFields m rd.2 := by
    refine Worked.foldl_snd _ (fun a d => ?_) ([], m)
    exact a.2.slotRead_worked ..
  have hr : Worked offerFields m r.2 := hrd.trans (Worked.foldl_snd _ (fun a d => Worked.foldl_snd _ (fun (b : Nat × Mach) c => by
    dsimp only
    split
    · exact Worked.ite (b.2.keepPoison_aside ..).worked (b.2.setRebuild_aside ..).worked
    · exact (Worked.ite (b.2.setEntFlag_aside ..).worked (Worked.refl _ b.2)).trans (Mach.mQueue_aside (w := true) ..).worked) a) _)
  have h1 : Worked offerFields m m1 := Worked.ite (hr.trans (Mach.overtake_aside (w := true) ..).worked) hr
  have h2 : Worked offerFields m m2 := h1.trans (Worked.foldl _ (fun x d => x.strLost_worked k _ d) _)
  exact h2.modSlot.count

theorem Mach.issueStream_worked (fuel : Nat) : Worked offerFields m (m.issueStream k fuel) := by
  induction fuel generalizing m with
  | zero => exact Worked.refl _ m
  | succ fuel ih =>
    unfold Mach.issueStream
    split
    · exact Worked.ite ((m.slotIssue_worked k _).trans (ih _)) (Worked.refl _ m)
    · exact Worked.refl _ m

theorem Mach.kilnOffer_worked : Worked offerFields m m.kilnOffer := by
  have hsettle : Worked offerFields m m.settleGw := by
    have h0 : Worked offerFields m m := Worked.refl _ m
    exact (Worked.ite (h0.kilnPut (f := KILN.CNT_GROUP_WAIT)) h0).trans (Worked.of_regs rfl rfl)
  exact hsettle.trans (Worked.foldl _ (fun x j => (x.issueStream_worked j _).setFlag) _)

end

end Sys2Proof.Machine
end

section
/-! SUPPORT. The entry of a map unit just written, and what a stream holds while its slots are read and its levels shown (chapters
"Namespaces, the map and placement", R186 to R196, and "Kiln: capture", R124 to R146). -/
namespace Sys2Proof.Machine

section
variable (m : Mach)

/-! ### What leaves the map (R192, R238, R373) -/

theorem Mach.flipS_map (ram : Nat) : (m.flipS ram).2.map = m.map := by
  unfold Mach.flipS
  split
  · exact Mach.event_map ..
  · rfl

theorem Mach.hWrite_map (p : Nat × Nat) (line : Nat) (l : HLine) : (m.hWrite p line l).map = m.map := by
  unfold Mach.hWrite
  extract_lets hit mask t l' m1
  split
  · exact Mach.event_map ..
  · rfl

theorem Mach.mapCell_map (pg j : Nat) : (m.mapCell pg j).map = m.map := by
  unfold Mach.mapCell
  refine foldl_keeps Mach.map (fun x n => ?_) _ m
  exact x.hWrite_map ..

theorem Mach.spaceProg_map (x : Nat) (d : Line) (rq : Nat) (job : Job) : (m.spaceProg x d rq job).2.map = m.map := by
  unfold Mach.spaceProg Mach.storeProg
  dsimp only
  refine foldl_keeps Mach.map (fun x c => ?_) _ m
  rfl

theorem Mach.ledgerWrite_map (c s pos : Nat) : (m.ledgerWrite c s pos).map = m.map := m.spaceProg_map ..

theorem Mach.ckptPageWrite_map (pg : Nat) : (m.ckptPageWrite pg).2.map = m.map := by
  unfold Mach.ckptPageWrite
  refine foldl_keeps (fun a : Nat × Mach => a.2.map) (fun a j => ?_) _ (0, m)
  exact a.2.spaceProg_map ..

/-! ### What leaves the entries of the units (R186 to R196) -/

/-- The entries of the map units stand. -/
def SameEnts (a b : Mach) : Prop := b.map.ents = a.map.ents

theorem Mach.sramTouch_ents (key : Nat) : SameEnts m (m.sramTouch key) := rfl

theorem Mach.wordWrite_ents (key : Nat) : SameEnts m (m.wordWrite key) := by
  unfold Mach.wordWrite
  extract_lets f m1 m2 p
  have h1 : SameEnts m m1 := (f.2.sramTouch_ents key).trans (congrArg MapSt.ents (m.flipS_map 1))
  have h2 : SameEnts m m2 := by
    unfold m2
    split
    · exact h1
    · exact h1
  split
  · exact (congrArg MapSt.ents (m2.mapCell_map _ _)).trans h2
  · exact h2

theorem Mach.entCached_ents (uk : Nat) : SameEnts m (m.entCached uk) :=
  ((m.sramTouch _).wordWrite_ents _).trans (m.sramTouch_ents _)

theorem Mach.deltaLineOut_ents : SameEnts m m.deltaLineOut := by
  unfold Mach.deltaLineOut
  extract_lets d k r
  have hr : SameEnts m r.2 := congrArg MapSt.ents (m.spaceProg_map ..)
  split
  · rfl
  · exact hr

theorem Mach.deltaPut_ents (kind ns idx w : Nat) : SameEnts m (m.deltaPut kind ns idx w) := by
  unfold Mach.deltaPut
  extract_lets d r m1
  split
  · exact m1.deltaLineOut_ents
  · rfl

theorem Mach.ckptStart_ents : SameEnts m m.ckptStart := by
  unfold Mach.ckptStart
  split
  · rfl
  · split
    · rfl
    · extract_lets fill m1 pages ledger r m2 m3
      have h1 : SameEnts m m1 := (Mach.deltaLineOut_ents _).trans (m.deltaPut_ents ..)
      have hr : r.2.map = m1.map := by
        refine foldl_keeps (fun a : Nat × Mach => a.2.map) (fun a pg => ?_) _ (0, m1)
        exact a.2.ckptPageWrite_map pg
      have h2 : m2.map = r.2.map := foldl_keeps Mach.map (fun x _ => x.ledgerWrite_map ..) _ r.2
      have h3 : SameEnts m m3 := (congrArg MapSt.ents (h2.trans hr)).trans h1
      split
      · exact (congrArg MapSt.ents (Mach.event_map ..)).trans h3
      · exact h3

theorem Mach.delta_ents (kind ns idx w : Nat) : SameEnts m (m.delta kind ns idx w).2 := by
  have h1 : SameEnts m (m.deltaPut kind ns idx w) := m.deltaPut_ents ..
  unfold Mach.delta Mach.deltaCrossed
  dsimp only
  split
  · exact (Mach.ckptStart_ents _).trans ((congrArg MapSt.ents (Mach.event_map ..)).trans h1)
  · exact h1

/-- A unit's entry reads as it was written. -/
theorem Mach.setEnt_entry (uk e : Nat) : (m.setEnt uk e).2.map.ents.get uk = e := by
  unfold Mach.setEnt
  extract_lets m1 m2 r
  have hraw : (m1.setEntRaw uk e).map.ents.get uk = e := by
    unfold Mach.setEntRaw
    extract_lets old x kb x'
    have hx : x'.map.ents = x.map.ents := by
      unfold x'
      split <;> rfl
    exact (congrArg (Tab.get · uk) hx).trans (Tab.get_set_same ..)
  have h2 : SameEnts (m1.setEntRaw uk e) m2 := Mach.entCached_ents ((m1.setEntRaw uk e).dirtyPage (pgMap uk)) uk
  have hr : r.2.map.ents.get uk = e := by rw [(m2.delta_ents ..).trans h2, hraw]
  split
  · exact hr
  · exact hr

/-! ### A stream whose levels are shown (R130, R146) -/

variable (k : Nat)

theorem Mach.str_modStr (f : StrSt → StrSt) : (m.modStr k f).str k = f (m.str k) := Tab.get_upd_same ..

/-- A stream whose levels were shown at `now`, held up or not. -/
def StrSt.shown (s : StrSt) (now : Nat) (limited heldUp : Bool) : StrSt := { s with heldAt := now, limited := limited, heldUp := heldUp }

/-- Only registers change from `a` to `b`. -/
def RegsOnly (a b : Mach) : Prop := b = { a with regs := b.regs }

theorem RegsOnly.trans {a b c : Mach} (h : RegsOnly a b) (g : RegsOnly b c) : RegsOnly a c := by
  rw [RegsOnly, g, h]

/-- Showing a stream's levels changes registers and what that stream keeps for it. -/
theorem Mach.showStr_spec : ∃ l u, RegsOnly (m.modStr k fun s => s.shown m.now l u) (m.showStr k) := by
  unfold Mach.showStr
  extract_lets m1 h was m2 m3 m4
  have h2 : RegsOnly m m2 := by
    unfold m2
    split <;> rfl
  have h3 : RegsOnly (m.modStr k fun s => s.shown m.now h.1 h.2.1) m3 := by
    unfold m3
    rw [h2]
    rfl
  have h4 : RegsOnly m3 m4 := by
    unfold m4
    split
    · exact Mach.events_regsOnly ..
    · rfl
  refine ⟨h.1, h.2.1, (h3.trans h4).trans ?_⟩
  split
  · exact Mach.events_regsOnly ..
  · rfl

theorem Mach.showStr_map : (m.showStr k).map = m.map := by
  obtain ⟨_, _, h⟩ := m.showStr_spec k
  rw [h]
  rfl

theorem Mach.showStr_serial : (m.showStr k).serial = m.serial := by
  obtain ⟨_, _, h⟩ := m.showStr_spec k
  rw [h]
  rfl

theorem Mach.showStr_str : ∃ l u, (m.showStr k).str k = (m.str k).shown m.now l u := by
  obtain ⟨l, u, h⟩ := m.showStr_spec k
  refine ⟨l, u, ?_⟩
  rw [h]
  exact m.str_modStr ..

theorem Mach.showStr_slots : ((m.showStr k).str k).slots = (m.str k).slots := (m.showStr_streamed (j := k)).slots rfl

/-! ### The numbers of a stream's slots (R124) -/

/-- The numbers of the slots of stream `k`. -/
def Mach.slotNos (m : Mach) (k : Nat) : List Nat := (m.str k).slots.map Slot.no

theorem Mach.modSlot_slotNos {no : Nat} {f : Slot → Slot} (hf : ∀ x, (f x).no = x.no) : (m.modSlot k no f).slotNos k = m.slotNos k := by
  rw [Mach.slotNos, Mach.modSlot_slots, List.map_map, Mach.slotNos]
  refine List.map_congr_left fun x _ => ?_
  show (if x.no = no then f x else x).no = x.no
  split
  · exact hf x
  · rfl

theorem Aside.slotNos {w : Bool} {a b : Mach} (h : Aside w a b) : b.slotNos = a.slotNos := by
  funext k
  rw [Mach.slotNos, Mach.slotNos, Mach.str, Mach.str, h.kiln]

theorem Mach.stagedRead_slotNos (s : Slot) (d : Nat) (ri : RingInfo) (at_ : Nat) :
    (m.stagedRead k s d ri at_).2.2.2.slotNos k = m.slotNos k := by
  unfold Mach.stagedRead
  extract_lets mine others fix dur info m1 v
  have h1 : m1.slotNos k = m.slotNos k := congrFun (Aside.foldl (w := true) _ (fun _ x => x.sramFail_aside _) m).slotNos k
  have hmod : ∀ f : Slot → Slot, (∀ x, (f x).no = x.no) → (m1.modSlot k s.no f).slotNos k = m.slotNos k :=
    fun f hf => (m1.modSlot_slotNos k hf).trans h1
  split
  · rfl
  · split
    · exact hmod _ fun _ => rfl
    · exact (congrFun (Mach.poisonLine_aside (w := true) _ _).slotNos k).trans (hmod _ fun _ => rfl)

theorem Mach.slotRead_slotNos (s : Slot) (d : Nat) (drain : Bool) (rq port : Nat) (demand : Bool) (at_ : Nat) :
    (m.slotRead k s d drain rq port demand at_).2.2.2.slotNos k = m.slotNos k := by
  unfold Mach.slotRead
  dsimp only
  split
  · rfl
  · split
    · exact m.stagedRead_slotNos ..
    · exact congrFun (m.spilledRead_aside ..).slotNos k

/-- A slot that is changed is found again by its number. -/
theorem Mach.modSlot_mem {no : Nat} (h : no ∈ m.slotNos k) {f : Slot → Slot} :
    ∃ x, f x ∈ ((m.modSlot k no f).str k).slots ∧ x.no = no := by
  obtain ⟨x, hx, hno⟩ := List.mem_map.1 h
  refine ⟨x, ?_, hno⟩
  rw [Mach.modSlot_slots]
  exact List.mem_map.2 ⟨x, hx, if_pos hno⟩

end

end Sys2Proof.Machine
end

section
/-! SUPPORT. What the commands of spill, run-ahead and the durable tail come to (chapter "Kiln: capture", R128 to R137). -/
namespace Sys2Proof.Machine

section
variable {m : Mach} {k : Nat}

/-! ### A slot moves to spill (R128) -/

/-- The lines of slot `s` as they are read, in the spill region from its line `place` on. -/
def Mach.spillCopied (m : Mach) (k : Nat) (s : Slot) (place : Nat) : Mach :=
  (List.range (m.slotLines k)).foldl (fun (m : Mach) d =>
    let r := m.slotRead k (m.slotNow k s) d true 9 0 false m.now
    let p := m.spillPlace (place + d)
    (r.2.2.2.hWrite p (m.slotLine k s.no (if d = 15 then 0 else d))
      ⟨r.1, m.slotLine k s.no (if d = 15 then 0 else d), 0, 2, false, markX r.2.1, 0⟩).hQueue 9 p true) m

/-- A slot whose lines stand from line `place` of the spill region on. -/
def Slot.spilledAt (place : Nat) (s : Slot) : Slot := { s with spill := some place, closed := true, lines := [], bad := [], poison := [] }

/-- The machine once slot `s` has moved to that place. -/
def Mach.spillMoved (m : Mach) (k : Nat) (s : Slot) (place : Nat) : Mach :=
  (((m.spillCopied k s place).modSlot k s.no fun y => y.spilledAt place).count STREAM.CNT_SPILL_BYTES k (256 * m.slotLines k)).showStr k

theorem spillMove_moved {s : Slot} {place : Nat} (hup : m.fabricUp = true) (hspilling : m.flag STREAM.STAT_SPILLING k = true)
    (hhead : m.stgHead k = some s) (hissue : m.issuable k s = false) (hfull : m.slotFull k s = true) (hblocked : m.spillBlocked k = false)
    (hring : m.ringBlocked k = false) (hheld : m.undurable + m.dirtyBytes ≤ m.get POWER.HOLDUP_BYTES)
    (hplace : m.spillFree (m.slotLines k) = some place) : spillMove k m = m.spillMoved k s place := by
  have hheld : ¬m.get POWER.HOLDUP_BYTES < m.undurable + m.dirtyBytes := Nat.not_lt.2 hheld
  simp [spillMove, hup, hspilling, hhead, hissue, hfull, hblocked, hring, hheld, hplace, Mach.spillMoved, Mach.spillCopied,
    Slot.spilledAt]

theorem Mach.spillCopied_worked (s : Slot) (place : Nat) : Worked [] m (m.spillCopied k s place) := by
  refine Worked.foldl _ (fun x d => ?_) m
  exact ((x.slotRead_worked ..).trans (Mach.hWrite_aside ..).worked).trans (Mach.hQueue_aside (w := true) ..).worked

theorem Mach.spillCopied_slotNos (s : Slot) (place : Nat) : (m.spillCopied k s place).slotNos k = m.slotNos k := by
  refine foldl_keeps (fun x : Mach => x.slotNos k) (fun x d => ?_) _ m
  have hread := x.slotRead_slotNos k (x.slotNow k s) d true 9 0 false x.now
  exact (congrFun (((Mach.hWrite_aside ..).trans (Mach.hQueue_aside ..)).slotNos) k).trans hread

theorem Mach.spillMoved_bytes (hk : k < 32) (s : Slot) (place : Nat) :
    (m.spillMoved k s place).get STREAM.CNT_SPILL_BYTES k = countUp (m.get STREAM.CNT_SPILL_BYTES k) (256 * m.slotLines k) % 2 ^ 64 := by
  unfold Mach.spillMoved
  rw [(Mach.showStr_worked _ k).get hk, Mach.count, Mach.get_put_same, (Mach.spillCopied_worked s place).modSlot.get hk]
  rfl

theorem Mach.spillMoved_slot {s : Slot} (hs : s ∈ (m.str k).slots) (place : Nat) :
    ∃ y ∈ ((m.spillMoved k s place).str k).slots, y.no = s.no ∧ y.spill = some place := by
  have hno : s.no ∈ (m.spillCopied k s place).slotNos k := by
    rw [Mach.spillCopied_slotNos]
    exact List.mem_map_of_mem hs
  obtain ⟨y, hy, hyno⟩ := Mach.modSlot_mem _ k hno (f := fun y => y.spilledAt place)
  refine ⟨y.spilledAt place, ?_, hyno, rfl⟩
  unfold Mach.spillMoved
  rw [Mach.showStr_slots]
  exact hy

/-! ### The spill head is read (R129) -/

theorem spillDrain_read {s : Slot} (hup : m.fabricUp = true) (hstaged : ∀ y, m.stgHead k = some y → m.issuable k y = false)
    (hhead : m.spillHead k = some s) (hissue : m.issuable k s = true) : spillDrain k m = (m.drainSlot k s).showStr k := by
  cases hstg : m.stgHead k with
  | none => simp [spillDrain, hup, hstg, hhead, hissue]
  | some y => simp [spillDrain, hup, hstg, hhead, hissue, hstaged y hstg]

/-- The lines of slot `s` asked for at Hearth. -/
def Mach.drainAsked (m : Mach) (k : Nat) (s : Slot) : Mach :=
  (List.range (m.slotLines k)).foldl (fun (m : Mach) d => m.hQueue 9 (m.slotPlace s d) false (.spill k s.no)) m

theorem Mach.drainAsked_aside (s : Slot) : Aside true m (m.drainAsked k s) :=
  Aside.foldl _ (fun _ x => x.hQueue_aside ..) m

theorem Mach.drainAsked_serial (s : Slot) : (m.drainAsked k s).serial = m.serial + m.slotLines k := by
  have hqueued : ∀ (l : List Nat) (x : Mach),
      (l.foldl (fun (x : Mach) d => x.hQueue 9 (x.slotPlace s d) false (.spill k s.no)) x).serial = x.serial + l.length := by
    intro l
    induction l with
    | nil => exact fun x => rfl
    | cons d l ih =>
      intro x
      rw [List.foldl_cons, ih]
      show x.serial + 1 + l.length = x.serial + (l.length + 1)
      omega
  rw [Mach.drainAsked, hqueued, List.length_range]

theorem Mach.drainSlot_serial (s : Slot) : ((m.drainSlot k s).showStr k).serial = m.serial + m.slotLines k :=
  (Mach.showStr_serial _ k).trans (Mach.drainAsked_serial s)

theorem Mach.drainSlot_stripes (hk : k < 32) (s : Slot) :
    ((m.drainSlot k s).showStr k).get STREAM.CNT_STRIPES k = m.get STREAM.CNT_STRIPES k := by
  have hdrained : Worked shownFields m (m.drainSlot k s) := (Mach.drainAsked_aside s).worked.modSlot
  exact (hdrained.trans (Mach.showStr_worked _ k)).get hk

theorem Mach.drainSlot_slot {s : Slot} (hs : s ∈ (m.str k).slots) :
    { s with reading := m.slotLines k } ∈ (((m.drainSlot k s).showStr k).str k).slots := by
  have hasked : ((m.drainAsked k s).str k).slots = (m.str k).slots := by
    rw [Mach.str, (Mach.drainAsked_aside s).kiln, Mach.str]
  rw [Mach.showStr_slots]
  show _ ∈ (((m.drainAsked k s).modSlot k s.no fun x => { x with reading := m.slotLines k }).str k).slots
  rw [Mach.modSlot_slots, hasked]
  exact List.mem_map.2 ⟨s, hs, if_pos rfl⟩

/-! ### Spill ends (R129) and a stripe waits no longer (R136) -/

theorem spillExit_ended (hspilling : m.flag STREAM.STAT_SPILLING k = true) (hempty : m.spilled k = [])
    (hfill : 256 * m.stgFill k < m.get STREAM.SPILL_ON k * m.stgCap k) :
    spillExit k m = ((m.put STREAM.STAT_SPILLING k 0).event .stream k STREAM.EV_SPILL_EXIT).showStr k := by
  simp only [spillExit, hspilling, hempty, hfill, List.isEmpty_nil, decide_true, Bool.and_self, if_true]
  rfl

theorem padTimeout_padded {x : Slot} (hup : m.fabricUp = true) (hrun : m.strState k = 1) (hring : m.pingpong k = false)
    (ht : m.get STREAM.PAD_TIMEOUT k ≠ 0) (hopen : ((m.str k).slots.find? fun y => y.staged && !m.slotFull k y) = some x)
    (hdue : x.since + usec (m.get STREAM.PAD_TIMEOUT k) ≤ m.now) : padTimeout k m = (m.kilnPad k true).kilnOffer := by
  simp [padTimeout, hup, hrun, hring, ht, hopen, hdue]

/-! ### Run-ahead maps a unit (R131) -/

theorem Mach.takeSegs_aside (e : Nat) : Aside true m (m.takeSegs e) := by
  have hsegs : Aside true m (m.setUnitSegs e .mapped) := Aside.foldl _ (fun _ x => x.setSeg_aside ..) m
  unfold Mach.takeSegs
  exact Aside.ite hsegs.mapEvent hsegs

/-- The unit that the walker of stream `k` takes has the entry `e`. -/
def Mach.unitTaken (m : Mach) (k e : Nat) : Nat × Mach :=
  ((m.takeSegs e).count MAP.CNT_ALLOC).setEnt (m.strUnit k (m.str k).mapped) e

/-- The walker is one unit further on, which it took. -/
def StrSt.walked (s : StrSt) : StrSt := { s with mapped := s.mapped + 1, took := s.took ++ [s.mapped] }

section
variable (hrun : m.strState k = 1) (hwant : (m.str k).mapped < m.runWant k) (hfree : m.ent (m.strUnit k (m.str k).mapped) = 0)
  (hroom : m.deltaFull = false)
include hrun hwant hfree hroom

/-- The Woodshed holds no unit for the next place. -/
theorem Mach.runahead_short (hplace : m.strPlace k (m.str k).mapped = none) :
    m.runahead k = m.event .stream k STREAM.EV_WOODSHED_LOW := by
  simp [Mach.runahead, hrun, Nat.not_le.2 hwant, hfree, hroom, hplace]

theorem Mach.runahead_mapped {c sg : Nat} (hplace : m.strPlace k (m.str k).mapped = some (c, sg)) :
    m.runahead k = (m.unitTaken k (eMake (protKind (m.strProt k)) c sg true)).2.modStr k fun s => s.walked := by
  simp [Mach.runahead, hrun, Nat.not_le.2 hwant, hfree, hroom, hplace, Mach.unitTaken, StrSt.walked]
end

theorem Mach.unitTaken_aside (e : Nat) : Aside true m (m.unitTaken k e).2 := (Mach.takeSegs_aside e).count.trans (Mach.setEnt_aside ..)

theorem Mach.unitTaken_walked (e : Nat) : ∃ l u,
    (((m.unitTaken k e).2.modStr k fun s => s.walked).showStr k).str k = (m.str k).walked.shown m.now l u := by
  obtain ⟨l, u, hshown⟩ := Mach.showStr_str ((m.unitTaken k e).2.modStr k fun s => s.walked) k
  have haside : Aside true m (m.unitTaken k e).2 := Mach.unitTaken_aside e
  have hstr : (m.unitTaken k e).2.str k = m.str k := by rw [Mach.str, haside.kiln, Mach.str]
  have hnow : ((m.unitTaken k e).2.modStr k fun s => s.walked).now = m.now := haside.now
  refine ⟨l, u, ?_⟩
  rw [hshown, Mach.str_modStr, hstr, hnow]

theorem Mach.unitTaken_entry (e : Nat) :
    (((m.unitTaken k e).2.modStr k fun s => s.walked).showStr k).map.ents.get (m.strUnit k (m.str k).mapped) = e := by
  rw [Mach.showStr_map]
  exact Mach.setEnt_entry ..

/-! ### The tail moves on (R137) -/

/-- The AGE of unit `uk` when the lap that ends at `e` ends it (R224). -/
def Mach.lapAged (m : Mach) (k uk e : Nat) : Mach :=
  if m.place1 k e % unitBytes (m.strProt k) = 0 && eAge (m.ent uk) ≠ 0 then (m.setEnt uk (setBits (m.ent uk) 8 8 0)).2 else m

/-- The slots of stream `k` are `rest` and its tail stands at `tail`. -/
def Mach.tailAt (m : Mach) (k : Nat) (rest : List Slot) (tail : Nat) : Mach :=
  ((m.modStr k fun s => { s with slots := rest }).put STREAM.TAIL k tail).showStr k

theorem Mach.tailAt_slots (rest : List Slot) (tail : Nat) : ((m.tailAt k rest tail).str k).slots = rest := by
  unfold Mach.tailAt
  rw [Mach.showStr_slots]
  exact congrArg StrSt.slots (Mach.str_modStr ..)

theorem Mach.tailAt_tail (hk : k < 32) (rest : List Slot) (tail : Nat) : (m.tailAt k rest tail).get STREAM.TAIL k = tail % 2 ^ 64 := by
  unfold Mach.tailAt
  rw [(Mach.showStr_worked _ k).get hk]
  exact Mach.get_put_same ..

theorem tailAdvance_moved {s : Slot} {rest : List Slot} (hslots : (m.kilnOffer.str k).slots = s :: rest)
    (hactive : m.kilnOffer.strActive k = true) (hdone : s.done = true) (htail : s.no * m.kilnOffer.span k ≤ m.kilnOffer.get STREAM.TAIL k)
    (hlocated : m.kilnOffer.located (m.kilnOffer.unitOf (m.kilnOffer.slotLine k s.no 0)).1 = true) :
    let e := (s.no + 1) * m.kilnOffer.span k
    tailAdvance k m = (m.kilnOffer.lapAged k (m.kilnOffer.unitOf (m.kilnOffer.slotLine k s.no 0)).1 e).tailAt k rest
      (if m.kilnOffer.get STREAM.STAT_STATE k = 2 then min e (m.kilnOffer.get STREAM.END_OFFSET k) else e) := by
  simp only [tailAdvance, hslots, hactive, hdone, htail, hlocated, decide_true, Bool.and_self, if_true, Bool.not_true, Bool.false_eq_true,
    if_false, Mach.lapAged, Mach.tailAt, Mach.strState]
  rfl

end

end Sys2Proof.Machine
end

section
namespace Sys2Proof.Laws
open Sys2Proof.Machine

/-- Settles O21: each command comes to the machine that the lemmas above name, and of that machine they give the registers, slots and map
entries that the clauses speak of. That the lowest free place of the spill region is taken is the model's choice (log entries 36 and 75). -/
theorem spillPadAndTail : Obligations.SpillPadAndTail := by
  unfold Obligations.SpillPadAndTail
  refine ⟨fun s k5 x => ?spill, fun s k5 x => ?stream⟩
  case spill =>
    intro k head
    have hk : k < 32 := k5.isLt
    refine ⟨?move, ?drain, fun hspilling hempty hfill => completes_of_answer (exec_spillExit s k5) (spillExit_ended hspilling hempty hfill)⟩
    case move =>
      intro hup hspilling hhead hissue hfull hblocked hring hheld place hplace
      exact ⟨_, completes_of_answer (exec_spillSlotMove s k5)
        (spillMove_moved hup hspilling hhead hissue hfull hblocked hring hheld hplace),
        Mach.spillMoved_bytes hk x place, Mach.spillMoved_slot (List.mem_of_find?_eq_some hhead) place⟩
    case drain =>
      intro hup hstaged hhead hissue
      have hslot : x ∈ (s.m.str k).slots := (List.mem_filter.1 (List.mem_of_find?_eq_some hhead)).1
      have hopen : x.issued = false := (by simpa using List.find?_some hhead : x.issued = false ∧ x.reading = 0).1
      exact ⟨_, completes_of_answer (exec_spillDrain s k5) (spillDrain_read hup hstaged hhead hissue), Mach.drainSlot_serial x,
        Mach.drainSlot_stripes hk x, _, Mach.drainSlot_slot hslot, rfl, rfl, hopen⟩
  case stream =>
    intro k o span ub wants
    have hk : k < 32 := k5.isLt
    refine ⟨?pad, ?runahead, ?tail⟩
    case pad =>
      intro hup hrun hring ht hopen hdue hpart
      obtain ⟨hnext, hbytes⟩ := s.m.kilnPad_padded true hk hpart
      have hoffer := (s.m.kilnPad k true).kilnOffer_worked
      exact ⟨_, completes_of_answer (exec_padTimeout s k5) (padTimeout_padded hup hrun hring ht hopen hdue),
        (hoffer.get hk).trans hnext, (hoffer.get hk).trans hbytes⟩
    case runahead =>
      intro hup hrun hwant hfree hroom
      have hran : runaheadMap k s.m = (s.m.runahead k).showStr k := if_pos hup
      refine ⟨fun c sg hplace => ?_, fun hplace => completes_of_answer (exec_runaheadMap s k5)
        (hran.trans (congrArg (Mach.showStr · k) (Mach.runahead_short hrun hwant hfree hroom hplace)))⟩
      have hmapped := congrArg (Mach.showStr · k) (Mach.runahead_mapped hrun hwant hfree hroom hplace)
      obtain ⟨l, u, hstr⟩ := Mach.unitTaken_walked (m := s.m) (k := k) (eMake (protKind (s.m.strProt k)) c sg true)
      exact ⟨_, completes_of_answer (exec_runaheadMap s k5) (hran.trans hmapped), congrArg StrSt.mapped hstr, congrArg StrSt.took hstr,
        Mach.unitTaken_entry _⟩
    case tail =>
      intro m e rest hslots hactive hdone htail hlocated
      exact ⟨_, completes_of_answer (exec_tailAdvance s k5) (tailAdvance_moved hslots hactive hdone htail hlocated),
        Mach.tailAt_slots .., Mach.tailAt_tail hk ..⟩

end Sys2Proof.Laws
end

section
/-! SUPPORT. The registers of a list's page as Loom's work on the list writes them: a frame by the fields written, and what a list's result,
state and shown registers read back (chapter "Playback sequences (Loom)", R153, R171 to R173). -/
namespace Sys2Proof.Machine

/-! ### The frame -/

/-- The registers that work on list `k` may change when it writes the fields `ws` of the list's page: beside those the registers of the pages
below the lists'. -/
def listKey (ws : List Field) (k q : Nat) : Prop := q / 32768 < 144 ∨ ∃ g ∈ ws, q = g.key k

/-- Of the lists' registers, only the fields `ws` of list `k` change from `m` to `t`. -/
def ListKept (ws : List Field) (k : Nat) (m t : Mach) : Prop := KeptBut (listKey ws k) m t

/-- A field of the lists' pages that is none of `ws`. -/
def spared (ws : List Field) (f : Field) : Bool :=
  Decidable.decide (f.page = .seq ∧ f.place < 32768) && ws.all fun g => Decidable.decide (g.page = .seq ∧ g.place ≠ f.place)

/-- The event group of a list's page. -/
def listEventFields : List Field := [evField .seq, evFirstBit .seq, evFirstEst .seq, evFirstValid .seq, evTime .seq]

/-- The fields in which a list's walk and delivery show (R172). -/
def listShownFields : List Field :=
  [SEQ.CURSOR, SEQ.WALK_NEXT, SEQ.WALK_SPEC, SEQ.WALK_BRANCHES, SEQ.WALK_PINS, SEQ.DELIVER_ENTRY, SEQ.DELIVER_LINES]

/-- The fields of CMD_STAT (R172). -/
def listResultFields : List Field := [SEQ.CMD_RESULT, SEQ.CMD_REASON, SEQ.CMD_INDEX]

/-- The place of a list's field among the registers. -/
theorem Field.key_seq {f : Field} (hp : f.page = .seq) (k : Nat) : f.key k = (144 + k) * 32768 + f.place := by
  simp only [Field.key, Field.place, hp, Page.number]
  omega

section
variable {ws : List Field} {k : Nat} {a b c : Mach}

theorem ListKept.refl (ws : List Field) (k : Nat) (m : Mach) : ListKept ws k m m := KeptBut.refl _ m

theorem ListKept.trans (h : ListKept ws k a b) (g : ListKept ws k b c) : ListKept ws k a c := KeptBut.trans h g

/-- A change of the blocks' own state. -/
theorem ListKept.of_regs (hr : b.regs = a.regs) (hi : b.integ = a.integ) : ListKept ws k a b := KeptBut.of_regs hr hi

/-- A register that the work does not write. -/
theorem ListKept.get (h : ListKept ws k a b) (f : Field) (hf : spared ws f = true := by decide) : b.get f k = a.get f k := by
  obtain ⟨⟨hp, hplace⟩, hws⟩ : (f.page = .seq ∧ f.place < 32768) ∧ ∀ g ∈ ws, g.page = .seq ∧ g.place ≠ f.place := by
    simpa only [spared, Bool.and_eq_true, List.all_eq_true, decide_eq_true_eq] using hf
  refine h.2 f k ?_
  rintro (hq | ⟨g, hg, hq⟩)
  · rw [Field.key_seq hp] at hq
    omega
  · obtain ⟨hgp, hne⟩ := hws g hg
    rw [Field.key_seq hp, Field.key_seq hgp] at hq
    omega

section
variable (h : ListKept ws k a b)
include h

theorem ListKept.put {f : Field} {v : Nat} (hf : f ∈ ws := by decide) : ListKept ws k a (b.put f k v) :=
  h.trans (b.put_keptBut (.inr ⟨f, hf, rfl⟩) v)

theorem ListKept.count {f : Field} {v : Nat} (hf : f ∈ ws := by decide) : ListKept ws k a (b.count f k v) := h.put hf

/-- A register of a page below the lists'. -/
theorem ListKept.putBelow {f : Field} {v : Nat} (hf : f.key 0 / 32768 < 144 := by decide) : ListKept ws k a (b.put f 0 v) :=
  h.trans (b.put_keptBut (.inl hf) v)

theorem ListKept.event {v : Nat} (hs : listEventFields ⊆ ws := by decide) : ListKept ws k a (b.event .seq k v) :=
  h.trans (b.event_keptBut (fun q hq => by
    have hkey : ∀ g ∈ listEventFields, listKey ws k (g.key k) := fun g hg => .inr ⟨g, hs hg, rfl⟩
    have hest : listKey ws k (ALM.CNT_EST.key 0) := .inl (by decide)
    simp only [listEventFields, List.forall_mem_cons, List.not_mem_nil, false_imp_iff, implies_true, and_true] at hkey
    obtain ⟨hevent, hbit, hfirst, hvalid, htime⟩ := hkey
    simp only [eventKeys, List.mem_cons, List.not_mem_nil, or_false] at hq
    rcases hq with rfl | rfl | rfl | rfl | rfl | rfl
    exacts [hevent, hbit, hfirst, hvalid, htime, hest]) v)

theorem ListKept.modSeq {j : Nat} {f : SeqSt → SeqSt} : ListKept ws k a (b.modSeq j f) := h.trans (ListKept.of_regs rfl rfl)

theorem ListKept.loomDrop {p : LCopy → Bool} : ListKept ws k a (b.loomDrop p) := h.trans (ListKept.of_regs rfl rfl)
end
end

/-! ### What a list shows (R171, R172) -/

section
variable (m : Mach) (k : Nat)

theorem Mach.showLoom_listKept (ws : List Field) : ListKept ws k m m.showLoom :=
  (ListKept.refl ws k m).putBelow.putBelow.putBelow.putBelow.putBelow

theorem Mach.showSeq_listKept : ListKept listShownFields k m (m.showSeq k) := by
  unfold Mach.showSeq
  extract_lets s head m1
  have h1 : ListKept listShownFields k m m1 := (ListKept.refl _ k m).put.put.put.put.put
  refine ListKept.trans ?_ (Mach.showLoom_listKept _ k _)
  cases head with
  | none => exact h1
  | some e => exact h1.put.put

@[simp] theorem Mach.showSeq_loom : (m.showSeq k).loom = m.loom := by
  unfold Mach.showSeq Mach.showLoom
  extract_lets s head m1
  simp only [Mach.put_loom]
  cases head with
  | none => rfl
  | some e => rfl

/-! ### CMD_STAT (R153) -/

variable (res why i : Nat)

theorem Mach.seqStat_listKept : ListKept listResultFields k m (m.seqStat k res why i) := (ListKept.refl _ k m).put.put.put

@[simp] theorem Mach.seqStat_loom : (m.seqStat k res why i).loom = m.loom := rfl

end

/-! ### A register that an operation leaves alone -/

section
variable {m : Mach} {k : Nat} {f : Field}

theorem Mach.showSeq_get (hf : spared listShownFields f = true) : (m.showSeq k).get f k = m.get f k := (m.showSeq_listKept k).get f hf

theorem Mach.seqStat_get (hf : spared listResultFields f = true) (res why i : Nat) : (m.seqStat k res why i).get f k = m.get f k :=
  (m.seqStat_listKept k res why i).get f hf

theorem Mach.put_get_seq {g : Field} (hf : spared [g] f = true) (v : Nat) : (m.put g k v).get f k = m.get f k :=
  ((ListKept.refl [g] k m).put (List.mem_singleton_self g)).get f hf

theorem Mach.event_get_seq (hf : spared listEventFields f = true) (b : Nat) : (m.event .seq k b).get f k = m.get f k :=
  (ListKept.refl listEventFields k m).event.get f hf
end

section
variable (m : Mach) (k res why i : Nat)

theorem Mach.seqStat_result : (m.seqStat k res why i).get SEQ.CMD_RESULT k = res % 4 := by
  rw [Mach.seqStat, Mach.put_get_seq (by decide), Mach.put_get_seq (by decide), Mach.get_put_same]
  rfl

theorem Mach.seqStat_reason : (m.seqStat k res why i).get SEQ.CMD_REASON k = why % 16 := by
  rw [Mach.seqStat, Mach.put_get_seq (by decide), Mach.get_put_same]
  rfl

theorem Mach.seqStat_index : (m.seqStat k res why i).get SEQ.CMD_INDEX k = i % 4096 := Mach.get_put_same _ _ _ _
end

end Sys2Proof.Machine
end

section
/-! SUPPORT. The commands of a list, case by case: the branch that each takes and what the list's registers and state then read (chapter
"Playback sequences (Loom)", R152 to R155, R163, R170). -/
namespace Sys2Proof.Machine

/-! ### The shared operations on a list -/

theorem OnlyFields.listKept {a b : Mach} {ks : List Nat} (h : OnlyFields a b ks) (hk : ∀ q ∈ ks, q / 32768 < 144) (ws : List Field)
    (k : Nat) : ListKept ws k a b := (h.kept (List.Subset.refl _)).keptBut fun q hq => .inl (hk q hq)

section
variable (m : Mach) (k : Nat)

theorem Mach.showNext_listKept (ws : List Field) : ListKept ws k m m.showNext := m.showNext_onlyFields.listKept (by decide) ws k

theorem Mach.showLoomFull_listKept (ws : List Field) (w : Bool) : ListKept ws k m (m.showLoomFull w) :=
  (m.showLoomFull_onlyFields w).listKept (by decide) ws k

@[simp] theorem Mach.showLoomFull_loom (w : Bool) : (m.showLoomFull w).loom = m.loom := rfl

theorem Mach.seq_of_loom {a b : Mach} (h : b.loom = a.loom) : b.seq k = a.seq k := by rw [Mach.seq, h, Mach.seq]

/-- A result of CMD_STAT and nothing else (R153). -/
theorem Mach.seqStat_answer {res why : Nat} (hres : res < 4) (hwhy : why < 16) :
    let t := (m.seqStat k res why 0).showSeq k
    t.get SEQ.CMD_RESULT k = res ∧ t.get SEQ.CMD_REASON k = why ∧ t.get SEQ.STAT_STATE k = m.get SEQ.STAT_STATE k ∧ t.loom = m.loom := by
  refine ⟨?_, ?_, ?_, ?_⟩
  · rw [Mach.showSeq_get (by decide), Mach.seqStat_result, Nat.mod_eq_of_lt hres]
  · rw [Mach.showSeq_get (by decide), Mach.seqStat_reason, Nat.mod_eq_of_lt hwhy]
  · rw [Mach.showSeq_get (by decide), Mach.seqStat_get (by decide)]
  · rw [Mach.showSeq_loom, Mach.seqStat_loom]

/-- A refusal that EVENT reports: the result, its reason and the index, the list's state as it was (R153). -/
theorem Mach.seqStat_refused (why i : Nat) :
    let t := ((m.seqStat k 2 why i).event .seq k SEQ.EV_REFUSED).showSeq k
    t.get SEQ.STAT_STATE k = m.get SEQ.STAT_STATE k ∧ t.get SEQ.CMD_RESULT k = 2 ∧ t.get SEQ.CMD_REASON k = why % 16 ∧
      t.get SEQ.CMD_INDEX k = i % 4096 ∧ (t.get (evField .seq) k).testBit SEQ.EV_REFUSED = true := by
  refine ⟨?_, ?_, ?_, ?_, ?_⟩
  · rw [Mach.showSeq_get (by decide), Mach.event_get_seq (by decide), Mach.seqStat_get (by decide)]
  · rw [Mach.showSeq_get (by decide), Mach.event_get_seq (by decide), Mach.seqStat_result]
  · rw [Mach.showSeq_get (by decide), Mach.event_get_seq (by decide), Mach.seqStat_reason]
  · rw [Mach.showSeq_get (by decide), Mach.event_get_seq (by decide), Mach.seqStat_index]
  · rw [Mach.showSeq_get (by decide)]
    exact Mach.event_testBit_same _ _ _ (by decide)

/-- A command that completes with the list in state `st` (R153). -/
theorem Mach.seqStat_done (st : Nat) :
    let t := ((m.put SEQ.STAT_STATE k st).seqStat k 0 0 0).showSeq k
    t.get SEQ.STAT_STATE k = st % 8 ∧ t.get SEQ.CMD_RESULT k = 0 ∧ t.loom = m.loom := by
  refine ⟨?_, ?_, ?_⟩
  · rw [Mach.showSeq_get (by decide), Mach.seqStat_get (by decide), Mach.get_put_same]
    rfl
  · rw [Mach.showSeq_get (by decide), Mach.seqStat_result]
  · rw [Mach.showSeq_loom, Mach.seqStat_loom, Mach.put_loom]

theorem Mach.seqEmpty_state : (m.seqEmpty k).get SEQ.STAT_STATE k = 0 := Mach.get_put_same _ _ _ _

/-- A list that is EMPTY holds no copy, and of its own state only the recorded outcomes (R153, R163). -/
theorem Mach.seqEmpty_loom : (∀ c ∈ (m.seqEmpty k).loom.copies, c.seq ≠ k) ∧ ((m.seqEmpty k).seq k).hist = (m.seq k).hist := by
  refine ⟨fun c hc => ?_, ?_⟩
  · have hmem : c ∈ m.loom.copies.filter fun c => !Decidable.decide (c.seq = k) := hc
    simpa using (List.mem_filter.1 hmem).2
  · exact (congrArg SeqSt.hist (Mach.seq_modSeq (m.loomDrop fun c => c.seq = k) k
      fun s => { (default : SeqSt) with hist := s.hist })).trans rfl

/-- What shows that a list has stopped follows its registers and its state. -/
theorem Mach.stopShown_spec :
    let t := (m.showNext.showLoomFull false).showSeq k
    ListKept listShownFields k m t ∧ t.loom = m.loom := by
  refine ⟨?_, by rw [Mach.showSeq_loom, Mach.showLoomFull_loom, Mach.showNext_loom]⟩
  exact ((m.showNext_listKept k _).trans (Mach.showLoomFull_listKept _ k _ false)).trans (Mach.showSeq_listKept _ k)

/-- A list that stops: STOPPING with its reason and index, no speculation left and its walk ended (R153, R154). -/
theorem Mach.seqStop_spec (why i : Nat) (cut : Bool) :
    let t := m.seqStop k why i cut
    t.get SEQ.STAT_STATE k = 4 ∧ t.get SEQ.STOP_REASON k = why % 16 ∧ t.get SEQ.STOP_INDEX k = i % 4096 ∧ (t.seq k).brs = [] ∧
      (t.seq k).end_ = true := by
  unfold Mach.seqStop
  extract_lets m1 m2
  have hseq : m2.seq k = { (m1.clearDues k).seq k with
      brs := [], end_ := true, queue := ((m1.clearDues k).seq k).queue.map fun e => { e with cut := e.cut || (cut && e.begun) } } :=
    Mach.seq_modSeq _ k _
  clear_value m2
  obtain ⟨hkept, hloom⟩ := (((m2.put SEQ.STAT_STATE k 4).put SEQ.STOP_REASON k why).put SEQ.STOP_INDEX k i).stopShown_spec k
  have hlist : Mach.seq _ k = m2.seq k := Mach.seq_of_loom k hloom
  refine ⟨?_, ?_, ?_, ?_, ?_⟩
  · rw [hkept.get _ (by decide), Mach.put_get_seq (by decide), Mach.put_get_seq (by decide), Mach.get_put_same]
    rfl
  · rw [hkept.get _ (by decide), Mach.put_get_seq (by decide), Mach.get_put_same]
    rfl
  · rw [hkept.get _ (by decide), Mach.get_put_same]
    rfl
  · rw [hlist, hseq]
  · rw [hlist, hseq]
end

/-! ### The branch that a command takes (R153) -/

section
variable {m : Mach} {k : Nat}

/-- A command written while CMD_STAT reads BUSY. -/
theorem Mach.seqCmd_busy (h : m.get SEQ.CMD_RESULT k = 3) (act : Mach → Mach) : m.seqCmd k act = m.event .seq k SEQ.EV_PARAM_REJECT :=
  if_pos h

theorem Mach.seqCmd_taken (h : m.get SEQ.CMD_RESULT k ≠ 3) {act : Mach → Mach} {t : Mach} (ht : act m = t) : m.seqCmd k act = t.showSeq k :=
  ht ▸ if_neg h

/-- The image's place passes the checks of reason IMAGE that LOAD makes. -/
def Mach.imagePlaced (m : Mach) (k : Nat) : Prop :=
  let a := m.get SEQ.LIST_ADDR k
  let n := m.get SEQ.LIST_LEN k
  let d := m.nsDesc (a / 2 ^ 52)
  a % 256 = 0 ∧ 0 < n ∧ n ≤ 4096 ∧ d.exists_ = true ∧ a % 2 ^ 52 + 16 * n ≤ d.size

theorem Mach.imagePlaced_iff (m : Mach) (k : Nat) :
    ¬(let a := m.get SEQ.LIST_ADDR k
      let n := m.get SEQ.LIST_LEN k
      let d := m.nsDesc (a / 2 ^ 52)
      a % 256 ≠ 0 || n = 0 || 4096 < n || !d.exists_ || d.size < a % 2 ^ 52 + 16 * n) = true ↔ m.imagePlaced k := by
  simp only [Mach.imagePlaced, Bool.not_eq_true, Bool.or_eq_false_iff, decide_eq_false_iff_not, Bool.not_eq_false', Nat.pos_iff_ne_zero,
    not_lt, not_not, and_assoc]

/-- The list copy is lost, or a line of it cannot be read (R170). -/
def Mach.copyLost (m : Mach) (k : Nat) : Prop := (m.seq k).lost = true ∨ ∃ i < m.get SEQ.LIST_LEN k, m.seqEntry k i = none

theorem Mach.copyLost_iff (m : Mach) (k : Nat) :
    ((m.seq k).lost || (List.range (m.get SEQ.LIST_LEN k)).any fun i => (m.seqEntry k i).isNone) = true ↔ m.copyLost k := by
  simp [Mach.copyLost]

/-- The copies of the list's image that fail their Hearth check (R170). -/
def Mach.failingCopies (m : Mach) (k : Nat) : List LCopy :=
  m.loom.copies.filter fun c => c.seq = k && c.kind = 4 && (m.cell (m.loomPlace c.slot)).cls = 3

/-- A list as START lets it run from tick `t`: of its own state only the recorded outcomes are kept (R153). -/
def SeqSt.started (t : Tick) (s : SeqSt) : SeqSt := { (default : SeqSt) with hist := s.hist, t := t }

theorem Mach.seqBegin_lost (hl : m.copyLost k) : m.seqBegin k =
    ((((m.failingCopies k).foldl (fun (m : Mach) c => m.listFail k c) m).seqLost k).modSeq k fun x => { x with startWaits := true }).seqStat
      k 3 0 0 := if_pos ((m.copyLost_iff k).2 hl)

section
variable (hl : ¬m.copyLost k)
include hl

theorem Mach.seqBegin_refused {why i : Nat} (hc : m.seqCheck k = some (why, i)) :
    m.seqBegin k = (m.seqStat k 2 why i).event .seq k SEQ.EV_REFUSED :=
  (if_neg (mt (m.copyLost_iff k).1 hl)).trans (by rw [hc])

theorem Mach.seqBegin_runs (hc : m.seqCheck k = none) : m.seqBegin k =
    ((m.modSeq k (SeqSt.started (BitVec.ofNat 64 (m.get SEQ.START_TICK k)))).put SEQ.STAT_STATE k 3).seqStat k 0 0 0 :=
  (if_neg (mt (m.copyLost_iff k).1 hl)).trans (by
    rw [hc]
    rfl)
end

section
variable (h : m.get SEQ.CMD_RESULT k ≠ 3)
include h

theorem seqLoad_refused (h0 : m.get SEQ.STAT_STATE k ≠ 0) (h2 : m.get SEQ.STAT_STATE k ≠ 2) (h5 : m.get SEQ.STAT_STATE k ≠ 5) :
    seqLoad k m = (m.seqStat k 2 6 0).showSeq k :=
  Mach.seqCmd_taken h (if_pos (by simp [Mach.seqState, h0, h2, h5]))

section
variable (hst : m.get SEQ.STAT_STATE k = 0 ∨ m.get SEQ.STAT_STATE k = 2 ∨ m.get SEQ.STAT_STATE k = 5)
include hst

omit h in
theorem Mach.loadable : ¬(!(m.seqState k = 0 || m.seqState k = 2 || m.seqState k = 5)) = true := by
  rcases hst with hst | hst | hst <;> simp [Mach.seqState, hst]

theorem seqLoad_unplaced (hp : ¬m.imagePlaced k) :
    seqLoad k m = (((m.seqEmpty k).seqStat k 2 1 0).event .seq k SEQ.EV_REFUSED).showSeq k :=
  Mach.seqCmd_taken h ((if_neg (Mach.loadable hst)).trans (if_pos (not_not.1 (mt (m.imagePlaced_iff k).1 hp))))

theorem seqLoad_placed (hp : m.imagePlaced k) :
    seqLoad k m = ((((m.seqEmpty k).put SEQ.STAT_STATE k 1).seqStat k 3 0 0).imageRead k 1).showSeq k :=
  Mach.seqCmd_taken h ((if_neg (Mach.loadable hst)).trans (if_neg ((m.imagePlaced_iff k).2 hp)))
end

/-- START and PRED_CLEAR are taken in LOADED and DONE only. -/
theorem seqStart_predClear_refused (h2 : m.get SEQ.STAT_STATE k ≠ 2) (h5 : m.get SEQ.STAT_STATE k ≠ 5) :
    seqStart k m = (m.seqStat k 2 6 0).showSeq k ∧ predClear k m = (m.seqStat k 2 6 0).showSeq k := by
  have hnot : ¬(m.seqState k = 2 || m.seqState k = 5) = true := by simp [Mach.seqState, h2, h5]
  exact ⟨Mach.seqCmd_taken h (if_neg hnot), Mach.seqCmd_taken h (if_neg hnot)⟩

section
variable (hst : m.get SEQ.STAT_STATE k = 2 ∨ m.get SEQ.STAT_STATE k = 5)
include hst

omit h in
theorem Mach.startable : (m.seqState k = 2 || m.seqState k = 5) = true := by
  rcases hst with hst | hst <;> simp [Mach.seqState, hst]

theorem seqStart_begins : seqStart k m = (m.seqBegin k).showSeq k := Mach.seqCmd_taken h (if_pos (Mach.startable hst))

theorem predClear_done : predClear k m = ((m.modSeq k fun s => { s with hist := [] }).seqStat k 0 0 0).showSeq k :=
  Mach.seqCmd_taken h (if_pos (Mach.startable hst))

theorem seqUnload_done : seqUnload k m = ((m.seqEmpty k).seqStat k 0 0 0).showSeq k := by
  refine Mach.seqCmd_taken h ?_
  rcases hst with hst | hst <;> simp only [Mach.seqState, hst]
end

theorem seqUnload_already (h0 : m.get SEQ.STAT_STATE k = 0) : seqUnload k m = (m.seqStat k 1 0 0).showSeq k :=
  Mach.seqCmd_taken h (by simp only [Mach.seqState, h0])

theorem seqUnload_refused (h0 : m.get SEQ.STAT_STATE k ≠ 0) (h2 : m.get SEQ.STAT_STATE k ≠ 2) (h5 : m.get SEQ.STAT_STATE k ≠ 5) :
    seqUnload k m = (m.seqStat k 2 6 0).showSeq k := by
  refine Mach.seqCmd_taken h ?_
  dsimp only [Mach.seqState]
  split
  case h_1 heq => exact absurd heq h2
  case h_2 heq => exact absurd heq h5
  case h_3 heq => exact absurd heq h0
  case h_4 => rfl

theorem seqStop_runs (h3 : m.get SEQ.STAT_STATE k = 3) :
    seqStopCmd k m = ((m.seqStop k 2 (m.seq k).committed.1 false).seqStat k 0 0 0).showSeq k :=
  Mach.seqCmd_taken h (by simp only [Mach.seqState, h3])

theorem seqStop_already (hst : m.get SEQ.STAT_STATE k = 4 ∨ m.get SEQ.STAT_STATE k = 5) :
    seqStopCmd k m = (m.seqStat k 1 0 0).showSeq k := by
  refine Mach.seqCmd_taken h ?_
  rcases hst with hst | hst <;> simp only [Mach.seqState, hst]

theorem seqStop_refused (h3 : m.get SEQ.STAT_STATE k ≠ 3) (h4 : m.get SEQ.STAT_STATE k ≠ 4) (h5 : m.get SEQ.STAT_STATE k ≠ 5) :
    seqStopCmd k m = (m.seqStat k 2 6 0).showSeq k := by
  refine Mach.seqCmd_taken h ?_
  dsimp only [Mach.seqState]
  split
  case h_1 heq => exact absurd heq h3
  case h_2 heq => exact absurd heq h4
  case h_3 heq => exact absurd heq h5
  case h_4 => rfl
end
end

end Sys2Proof.Machine
end

section
/-! SUPPORT. The statement on the commands of a list. -/
namespace Sys2Proof.Laws
open Sys2Proof.Machine

/-! ### The access arrives at the list -/

section
variable {s : State} {k4 : BitVec 4} (ho : s.m.cfgOpen .seq k4.toNat) {a : BitVec 3} {t : Mach}
include ho

theorem completes_seqLoad (h : seqLoad k4.toNat (s.m.seen a.toNat) = t) : Completes (.seqLoad a k4) s t :=
  completes_of_answer (exec_seqLoad s a k4) ((Mach.viaCfg_open ho ..).trans h)

theorem completes_seqStart (h : seqStart k4.toNat (s.m.seen a.toNat) = t) : Completes (.seqStart a k4) s t :=
  completes_of_answer (exec_seqStart s a k4) ((Mach.viaCfg_open ho ..).trans h)

theorem completes_seqStop (h : seqStopCmd k4.toNat (s.m.seen a.toNat) = t) : Completes (.seqStop a k4) s t :=
  completes_of_answer (exec_seqStop s a k4) ((Mach.viaCfg_open ho ..).trans h)

theorem completes_seqUnload (h : seqUnload k4.toNat (s.m.seen a.toNat) = t) : Completes (.seqUnload a k4) s t :=
  completes_of_answer (exec_seqUnload s a k4) ((Mach.viaCfg_open ho ..).trans h)

theorem completes_predClear (h : predClear k4.toNat (s.m.seen a.toNat) = t) : Completes (.predClear a k4) s t :=
  completes_of_answer (exec_predClear s a k4) ((Mach.viaCfg_open ho ..).trans h)
end

/-- Settles O23: each command arrives at the list and takes the branch that CMD_STAT and the list's state name. That STOP_INDEX is the first
branch not committed, that a LOAD which fails in LOADED or DONE leaves the list EMPTY, and that START waits for a lost list copy is the
model's choice (log entries 37, 38 and 85). -/
theorem listCommands : Obligations.ListCommands := by
  intro s a k4 ho k m st addr len ns lost failing placed answers
  have answered {c : Instr} {res why : Nat} (hres : res < 4) (hwhy : why < 16)
      (hc : Completes c s ((m.seqStat k res why 0).showSeq k)) : answers c res why := ⟨_, hc, m.seqStat_answer k hres hwhy⟩
  refine ⟨fun hbusy => ?busy, fun h => ⟨fun h0 h2 h5 => ?loadState, fun hst hp => ?loadPlace, fun hst hp => ?load, fun h2 h5 => ?startState,
    fun hst => ⟨fun hl => ?lost, fun why i hl hc => ?startCheck, fun hl hc => ?start, ?predClear, ?unload⟩, fun h3 => ?stop,
    fun hst => ?stopAgain, fun h3 h4 h5 => ?stopState, fun h0 => ?unloadAgain, fun h0 h2 h5 => ?unloadState⟩⟩
  case busy =>
    simp only [List.forall_mem_cons, List.not_mem_nil, false_imp_iff, implies_true, and_true]
    exact ⟨completes_seqLoad ho (Mach.seqCmd_busy hbusy _), completes_seqStart ho (Mach.seqCmd_busy hbusy _),
      completes_seqStop ho (Mach.seqCmd_busy hbusy _), completes_seqUnload ho (Mach.seqCmd_busy hbusy _),
      completes_predClear ho (Mach.seqCmd_busy hbusy _)⟩
  case loadState => exact answered (by decide) (by decide) (completes_seqLoad ho (seqLoad_refused h h0 h2 h5))
  case loadPlace =>
    obtain ⟨hstate, hresult, hreason, -, hevent⟩ := (m.seqEmpty k).seqStat_refused k 1 0
    exact ⟨_, completes_seqLoad ho (seqLoad_unplaced h hst hp), hstate.trans (m.seqEmpty_state k), hresult, hreason, hevent⟩
  case load => exact completes_seqLoad ho (seqLoad_placed h hst hp)
  case startState =>
    obtain ⟨hstart, hclear⟩ := seqStart_predClear_refused h h2 h5
    exact ⟨answered (by decide) (by decide) (completes_seqStart ho hstart),
      answered (by decide) (by decide) (completes_predClear ho hclear)⟩
  case lost => exact completes_seqStart ho ((seqStart_begins h hst).trans (congrArg (Mach.showSeq · k) (Mach.seqBegin_lost hl)))
  case startCheck =>
    exact ⟨_, completes_seqStart ho ((seqStart_begins h hst).trans (congrArg (Mach.showSeq · k) (Mach.seqBegin_refused hl hc))),
      m.seqStat_refused k why i⟩
  case start =>
    obtain ⟨hstate, hresult, hloom⟩ := (m.modSeq k (SeqSt.started (BitVec.ofNat 64 (m.get SEQ.START_TICK k)))).seqStat_done k 3
    refine ⟨_, completes_seqStart ho ((seqStart_begins h hst).trans (congrArg (Mach.showSeq · k) (Mach.seqBegin_runs hl hc))), hstate,
      hresult, ?_⟩
    rw [Mach.seq_of_loom k hloom, Mach.seq_modSeq]
    exact ⟨rfl, rfl, rfl, rfl⟩
  case predClear =>
    obtain ⟨hresult, -, hstate, hloom⟩ := (m.modSeq k fun x => { x with hist := [] }).seqStat_answer k (res := 0) (why := 0) (by decide)
      (by decide)
    refine ⟨_, completes_predClear ho (predClear_done h hst), ?_, hstate, hresult⟩
    rw [Mach.seq_of_loom k hloom, Mach.seq_modSeq]
  case unload =>
    obtain ⟨hresult, -, hstate, hloom⟩ := (m.seqEmpty k).seqStat_answer k (res := 0) (why := 0) (by decide) (by decide)
    obtain ⟨hcopies, hhist⟩ := m.seqEmpty_loom k
    refine ⟨_, completes_seqUnload ho (seqUnload_done h hst), hstate.trans (m.seqEmpty_state k), hresult, ?_, ?_⟩
    · rw [hloom]
      exact hcopies
    · rw [Mach.seq_of_loom k hloom]
      exact hhist
  case stop =>
    obtain ⟨hstate, hreason, hindex, hbrs, hend⟩ := m.seqStop_spec k 2 (m.seq k).committed.1 false
    obtain ⟨hresult, -, hkept, hloom⟩ := Mach.seqStat_answer _ k (res := 0) (why := 0) (by decide) (by decide)
    have hseq := Mach.seq_of_loom k hloom
    refine ⟨_, completes_seqStop ho (seqStop_runs h h3), hkept.trans hstate, ?_, ?_, hresult, ?_, ?_⟩
    · rw [Mach.showSeq_get (by decide), Mach.seqStat_get (by decide)]
      exact hreason
    · rw [Mach.showSeq_get (by decide), Mach.seqStat_get (by decide)]
      exact hindex
    · rw [hseq]
      exact hbrs
    · rw [hseq]
      exact hend
  case stopAgain => exact answered (by decide) (by decide) (completes_seqStop ho (seqStop_already h hst))
  case stopState => exact answered (by decide) (by decide) (completes_seqStop ho (seqStop_refused h h3 h4 h5))
  case unloadAgain => exact answered (by decide) (by decide) (completes_seqUnload ho (seqUnload_already h h0))
  case unloadState => exact answered (by decide) (by decide) (completes_seqUnload ho (seqUnload_refused h h0 h2 h5))

end Sys2Proof.Laws
end

section
/-! SUPPORT. The list image and the end of a list: what an image that is here comes to, which registers the walked entries that leave a
list touch, and what is left when it is DONE (chapter "Playback sequences (Loom)", R152, R153, R157, R170). -/
namespace Sys2Proof.Machine

/-- A fold stays where none of its steps leaves. -/
theorem foldl_stays {σ α : Type} {f : σ → α → σ} {s : σ} {l : List α} (h : ∀ x ∈ l, f s x = s) : l.foldl f s = s :=
  List.foldlRecOn (motive := fun t => t = s) l f rfl fun _ hb x hx => by rw [hb, h x hx]

/-! ### The image (R153) -/

section
variable {m : Mach} {k : Nat}

/-- Of an image that is here no line is still to be asked for. -/
theorem Mach.imageStep_here (h : m.imageHere k = true) : m.imageStep k = m := by
  obtain ⟨hreading, hlines⟩ := (Bool.and_eq_true _ _).mp h
  refine (if_neg (by simpa using hreading)).trans (foldl_stays fun j hj => ?_)
  have hline := (List.all_eq_true.1 hlines) j hj
  simp only [Bool.and_eq_true, decide_eq_true_eq] at hline
  obtain ⟨hasked, hread⟩ := hline
  split
  case h_1 heq => exact absurd heq hasked
  case h_2 heq => omega
  case h_3 => rfl

/-- The first entry of the image as read that fails the checks of reason BAD_ENTRY. -/
def Mach.imageBadEntry (m : Mach) (k : Nat) : Option Nat :=
  (List.range (m.get SEQ.LIST_LEN k)).find? fun i => entryBad (m.get SEQ.LIST_LEN k) i (m.imageEntry k i).1 (m.imageEntry k i).2

/-- A LOAD ends refused: the list is EMPTY (R153). -/
def Mach.loadRefused (m : Mach) (k why i : Nat) : Mach := (((m.seqEmpty k).seqStat k 2 why i).event .seq k SEQ.EV_REFUSED).showSeq k

section
variable (h1 : m.get SEQ.STAT_STATE k = 1) (hhere : m.imageHere k = true)
include h1 hhere

/-- With the image here, LIST_LOAD_DONE judges its lines, then its entries. -/
theorem listLoadDone_here : listLoadDone k m =
    match m.imageBad k with
    | some j => m.loadRefused k 1 (16 * j)
    | none =>
      match m.imageBadEntry k with
      | some i => m.loadRefused k 2 i
      | none => ((((((m.put SEQ.LIST_CRC k (m.imageCrc k)).imageStore k).modSeq k fun s => { s with hist := [] }).put SEQ.STAT_STATE k
          2).seqStat k 0 0 0).event .seq k SEQ.EV_LOADED).showSeq k := by
  have hstep : (if m.seqState k = 1 then m.imageStep k else m) = m := (if_pos h1).trans (Mach.imageStep_here hhere)
  have hgo : (Decidable.decide (m.seqState k ≠ 1) || !m.imageHere k) = false := by simp [Mach.seqState, h1, hhere]
  unfold listLoadDone
  simp only [hstep, hgo, Bool.false_eq_true, if_false]
  rfl
end

theorem Mach.loadRefused_spec (m : Mach) (k why i : Nat) :
    let t := m.loadRefused k why i
    t.get SEQ.STAT_STATE k = 0 ∧ t.get SEQ.CMD_RESULT k = 2 ∧ t.get SEQ.CMD_REASON k = why % 16 ∧ t.get SEQ.CMD_INDEX k = i % 4096 := by
  obtain ⟨hstate, hresult, hreason, hindex, -⟩ := (m.seqEmpty k).seqStat_refused k why i
  exact ⟨hstate.trans (m.seqEmpty_state k), hresult, hreason, hindex⟩

/-- A list that is LOADED, whatever storing its image came to: no outcome is recorded (R153). -/
theorem Mach.loaded_spec (m : Mach) (k : Nat) :
    let t := ((((m.modSeq k fun s => { s with hist := [] }).put SEQ.STAT_STATE k 2).seqStat k 0 0 0).event .seq k SEQ.EV_LOADED).showSeq k
    t.get SEQ.STAT_STATE k = 2 ∧ t.get SEQ.CMD_RESULT k = 0 ∧ (t.seq k).hist = [] ∧
      (t.get (evField .seq) k).testBit SEQ.EV_LOADED = true := by
  refine ⟨?_, ?_, ?_, ?_⟩
  · rw [Mach.showSeq_get (by decide), Mach.event_get_seq (by decide), Mach.seqStat_get (by decide), Mach.get_put_same]
    rfl
  · rw [Mach.showSeq_get (by decide), Mach.event_get_seq (by decide), Mach.seqStat_result]
  · rw [Mach.seq_of_loom k (Mach.showSeq_loom _ k), Mach.seq_of_loom k (Mach.event_loom _ _ _ _)]
    exact congrArg SeqSt.hist (Mach.seq_modSeq m k _)
  · rw [Mach.showSeq_get (by decide)]
    exact Mach.event_testBit_same _ _ _ (by decide)

/-- A restored list copy whose CRC agrees is kept (R170). -/
theorem listRestore_kept (hup : m.fabricUp = true) (hlost : (m.seq k).lost = true) (hreading : (m.seq k).reading = 2)
    (hhere : m.imageHere k = true) (hbad : m.imageBad k = none) (hst : 2 ≤ m.get SEQ.STAT_STATE k)
    (hcrc : m.imageCrc k = m.get SEQ.LIST_CRC k) :
    listRestore k m = ((m.imageStore k).seqResume k (m.seq k).startWaits).showSeq k := by
  have hst2 : ¬m.seqState k < 2 := not_lt.2 hst
  simp [listRestore, hup, hlost, hreading, hst2, Mach.imageStep_here hhere, hhere, hbad, hcrc]
end

/-! ### Entries leave a list (R153, R157, R166) -/

section
variable {ws : List Field} {k : Nat} {a b : Mach}

theorem ListKept.foldl {α : Type} {f : Mach → α → Mach} (l : List α) (hf : ∀ m x, ListKept ws k m (f m x)) (m : Mach) :
    ListKept ws k m (l.foldl f m) :=
  List.foldlRecOn l f (ListKept.refl ws k m) fun b hb x _ => hb.trans (hf b x)
end

section
variable {m : Mach} {k : Nat} {gone : LEnt → Bool}

/-- A line request that entries which leave the list have queued or under way. -/
def Mach.dropsRead (m : Mach) (k : Nat) (gone : LEnt → Bool) (q : LineReq) : Bool :=
  let ids := ((m.seq k).queue.filter gone).map (·.id)
  match q.job with
  | .loom l n _ => l = k && ids.contains n
  | .loomH l n _ => l = k && ids.contains n
  | _ => false

/-- No line request of the entries that leave is queued at stage C. -/
def Mach.dropsNoRead (m : Mach) (k : Nat) (gone : LEnt → Bool) : Prop := ∀ e ∈ m.sc.queues, ∀ q ∈ e.2, m.dropsRead k gone q = false

theorem Mach.dropsNoRead_of_empty (h : (m.seq k).queue = []) : m.dropsNoRead k gone := fun e _ q _ => by
  unfold Mach.dropsRead
  simp only [h, List.filter_nil, List.map_nil, List.contains_nil, Bool.and_false]
  split <;> rfl

theorem Mach.dropsNoRead_of_reads (h : m.seqReads k = false) : m.dropsNoRead k gone := fun e he q hq => by
  simp only [Mach.seqReads, Bool.or_eq_false_iff, List.any_eq_false] at h
  obtain ⟨⟨⟨⟨⟨hqueues, -⟩, -⟩, -⟩, -⟩, -⟩ := h
  have hnot := hqueues e he
  simp only [List.any_eq_true, not_exists, not_and] at hnot
  have hjob := hnot q hq
  unfold Mach.dropsRead
  split
  case h_1 l n x heq =>
    simp only [heq, decide_eq_true_eq] at hjob
    simp [hjob]
  case h_2 l n x heq =>
    simp only [heq, decide_eq_true_eq] at hjob
    simp [hjob]
  case h_3 => rfl

/-- Where no queued line request is withdrawn no register changes. -/
theorem Mach.withdraw_listKept {p : LineReq → Bool} (h : ∀ e ∈ m.sc.queues, ∀ q ∈ e.2, p q = false) (ws : List Field) :
    ListKept ws k m (m.withdraw p) := by
  have hgone : (m.sc.queues.flatMap fun e => (e.2.filter p).map fun q => (e.1 / 64, q)) = [] := by
    rw [List.flatMap_eq_nil_iff]
    intro e he
    rw [List.filter_eq_nil_iff.2 fun q hq => by simp [h e he q hq], List.map_nil]
  unfold Mach.withdraw
  rw [hgone]
  exact ListKept.of_regs rfl rfl

theorem Mach.unpin_listKept (m : Mach) (us : List Nat) (ws : List Field) : ListKept ws k m (m.unpin us) :=
  ListKept.of_regs (by rw [m.unpin_rest]) (by rw [m.unpin_rest])

/-- Of the list's registers, entries that leave it with no read queued change SPEC_CANCEL only. -/
theorem Mach.dropEnts_listKept (h : m.dropsNoRead k gone) : ListKept [SEQ.SPEC_CANCEL] k m (m.dropEnts k gone) := by
  unfold Mach.dropEnts
  extract_lets es ids mine cancelled m1 m2
  have h1 : ListKept [SEQ.SPEC_CANCEL] k m m1 := (Mach.withdraw_listKept (p := mine) h _).count
  have h2 : ListKept [SEQ.SPEC_CANCEL] k m1 m2 := ListKept.foldl _ (fun x e => by
    refine (x.unpin_listKept e.pins _).trans ?_
    cases e.due <;> exact ListKept.of_regs rfl rfl) _
  exact (((h1.trans h2).loomDrop.modSeq).trans (Mach.showNext_listKept _ k _)).trans (Mach.showLoomFull_listKept _ k _ false)
end

/-! ### A list is DONE (R152, R153) -/

section
variable {m : Mach} {k ev : Nat}

/-- A list that ends keeps why it stopped, and nothing but its image stays in Hearth. -/
theorem Mach.seqEnd_spec (h : m.dropsNoRead k fun _ => true) (hev : ev < 64) :
    let t := m.seqEnd k ev
    t.get SEQ.STAT_STATE k = 5 ∧ t.get SEQ.STOP_REASON k = m.get SEQ.STOP_REASON k ∧ t.get SEQ.STOP_INDEX k = m.get SEQ.STOP_INDEX k ∧
      (t.get (evField .seq) k).testBit ev = true ∧ ∀ c ∈ t.loom.copies, c.seq = k → c.kind = 4 := by
  have hkept := Mach.dropEnts_listKept h
  unfold Mach.seqEnd
  extract_lets m1 m2
  have h2 : ListKept [SEQ.SPEC_CANCEL] k m m2 := hkept.loomDrop.modSeq
  have hcopies : ∀ c ∈ m2.loom.copies, c.seq = k → c.kind = 4 := fun c hc hk => by
    have hmem : c ∈ (m.dropEnts k fun _ => true).loom.copies.filter fun c =>
        !(Decidable.decide (c.seq = k) && Decidable.decide (c.kind ≠ 4)) := hc
    simpa [hk] using (List.mem_filter.1 hmem).2
  clear_value m2
  refine ⟨?_, ?_, ?_, ?_, ?_⟩
  · rw [Mach.showSeq_get (by decide), Mach.event_get_seq (by decide), Mach.put_get_seq (by decide), Mach.get_put_same]
    rfl
  · rw [Mach.showSeq_get (by decide), Mach.event_get_seq (by decide), Mach.put_get_seq (by decide), Mach.put_get_seq (by decide)]
    exact h2.get _ (by decide)
  · rw [Mach.showSeq_get (by decide), Mach.event_get_seq (by decide), Mach.put_get_seq (by decide), Mach.put_get_seq (by decide)]
    exact h2.get _ (by decide)
  · rw [Mach.showSeq_get (by decide)]
    exact Mach.event_testBit_same _ _ _ hev
  · rw [Mach.showSeq_loom, Mach.event_loom, Mach.put_loom, Mach.put_loom]
    exact hcopies
end

section
variable {m : Mach} {k : Nat}

theorem listDone_ended (h3 : m.get SEQ.STAT_STATE k = 3) (he : (m.seq k).end_ = true) (hb : (m.seq k).brs = [])
    (hq : (m.seq k).queue = []) :
    listDone k m = ((m.put SEQ.STOP_REASON k 1).put SEQ.STOP_INDEX k (m.seq k).idx).seqEnd k SEQ.EV_DONE :=
  if_pos (by simp [Mach.seqState, h3, he, hb, hq])

theorem listDone_stopped (h4 : m.get SEQ.STAT_STATE k = 4) (hq : (m.seq k).queue.any LEnt.begun = false) (hr : m.seqReads k = false) :
    listDone k m = m.seqEnd k SEQ.EV_STOPPED :=
  (if_neg (by simp [Mach.seqState, h4])).trans (if_pos (by simp [Mach.seqState, h4, hq, hr]))

theorem listDone_runs (h3 : m.get SEQ.STAT_STATE k = 3) (he : (m.seq k).end_ = false) : listDone k m = m :=
  (if_neg (by simp [he])).trans (if_neg (by simp [Mach.seqState, h3]))
end

end Sys2Proof.Machine
end

section
/-! SUPPORT. The statement on the list image and on the end of a list. -/
namespace Sys2Proof.Laws
open Sys2Proof.Machine

/-- Settles O24: an image that is here is judged line by line, then entry by entry; a list ends with nothing left of its queue, or with none
of its reads queued. That the index of a refused image is 16 times the line, that a lost copy may let a START wait, and that an end which is
not due changes nothing, is the model's choice (log entries 3, 4, 16, 38 and 85). -/
theorem listImageAndEnd : Obligations.ListImageAndEnd := by
  intro s k4 k st q bad refused
  have hload := exec_listLoadDone s k4
  have hdone := exec_listDone s k4
  refine ⟨fun h1 hhere => ⟨fun j hj => ?line, fun i hn hi => ?entry, fun hn hi => ?loaded⟩, fun h3 he hb hq => ?ended,
    fun h4 hq hr => ?stopped, fun h3 he => ?runs, fun hup hlost hreading hhere hbad hst hcrc => ?restored⟩
  case line =>
    exact ⟨_, completes_of_answer hload ((listLoadDone_here h1 hhere).trans (by rw [hj])), s.m.loadRefused_spec k 1 (16 * j)⟩
  case entry =>
    have hentry : s.m.imageBadEntry k = some i := hi
    exact ⟨_, completes_of_answer hload ((listLoadDone_here h1 hhere).trans (by rw [hn, hentry])), s.m.loadRefused_spec k 2 i⟩
  case loaded =>
    have hentry : s.m.imageBadEntry k = none := hi
    exact ⟨_, completes_of_answer hload ((listLoadDone_here h1 hhere).trans (by rw [hn, hentry])),
      Mach.loaded_spec ((s.m.put SEQ.LIST_CRC k (s.m.imageCrc k)).imageStore k) k⟩
  case ended =>
    obtain ⟨hstate, hreason, hindex, hevent, hcopies⟩ :=
      Mach.seqEnd_spec (m := (s.m.put SEQ.STOP_REASON k 1).put SEQ.STOP_INDEX k (s.m.seq k).idx) (ev := SEQ.EV_DONE)
        (Mach.dropsNoRead_of_empty hq) (by decide)
    refine ⟨_, completes_of_answer hdone (listDone_ended h3 he hb hq), hstate, hreason.trans ?_, hindex.trans ?_, hevent, hcopies⟩
    · rw [Mach.put_get_seq (by decide), Mach.get_put_same]
      rfl
    · exact Mach.get_put_same _ _ _ _
  case stopped =>
    obtain ⟨hstate, hreason, -, hevent, -⟩ := Mach.seqEnd_spec (ev := SEQ.EV_STOPPED) (Mach.dropsNoRead_of_reads hr) (by decide)
    exact ⟨_, completes_of_answer hdone (listDone_stopped h4 hq hr), hstate, hreason, hevent⟩
  case runs => exact completes_of_answer hdone (listDone_runs h3 he)
  case restored =>
    exact completes_of_answer (exec_listRestore s k4) (listRestore_kept hup hlost hreading hhere hbad hst hcrc)

end Sys2Proof.Laws
end

section
/-! SUPPORT. The fabric cycle that an idle step ends: what is judged in it leaves the registers of Reeve's page and all but the posts alone, and
with nothing to judge only the time moves on (R158, R378, R410, R414). -/
namespace Sys2Proof.Machine

/-- From `m` to `t` PLAYs, leases and posts have been judged: of the blocks' own state only the posts change, and of the registers none of
Reeve's page. -/
def CycleJudged (m t : Mach) : Prop := t = { m with regs := t.regs, post := t.post } ∧ KeptBut (fun q => q / 32768 ≠ 6) m t

section
variable {a b c : Mach}

theorem CycleJudged.refl (m : Mach) : CycleJudged m m := ⟨rfl, KeptBut.refl _ m⟩

theorem CycleJudged.trans (h : CycleJudged a b) (g : CycleJudged b c) : CycleJudged a c :=
  ⟨by rw [g.1, h.1], KeptBut.trans h.2 g.2⟩

theorem CycleJudged.foldl {α : Type} {f : Mach → α → Mach} (l : List α) (hf : ∀ m x, CycleJudged m (f m x)) (m : Mach) :
    CycleJudged m (l.foldl f m) :=
  List.foldlRecOn l f (CycleJudged.refl m) fun b hb x _ => hb.trans (hf b x)

theorem CycleJudged.commitResult (h : CycleJudged a b) : b.get REEVE.COMMIT_RESULT = a.get REEVE.COMMIT_RESULT := h.2.2 _ 0 (by decide)

theorem CycleJudged.reeve (h : CycleJudged a b) : b.reeve = a.reeve := by rw [h.1]

theorem CycleJudged.now (h : CycleJudged a b) : b.now = a.now := by rw [h.1]

section
variable (h : CycleJudged a b)
include h

theorem CycleJudged.put {f : Field} {n v : Nat} (hk : f.key n / 32768 ≠ 6) : CycleJudged a (b.put f n v) :=
  h.trans ⟨rfl, b.put_keptBut hk v⟩

theorem CycleJudged.event {p : Page} {n v : Nat} (hk : ∀ q ∈ eventKeys p n, q / 32768 ≠ 6) : CycleJudged a (b.event p n v) :=
  h.trans ⟨by rw [(b.event_onlyRegs (K := fun _ => True) (fun _ _ => trivial) v).1], b.event_keptBut hk v⟩

theorem CycleJudged.modPost {f : PostSt → PostSt} : CycleJudged a (b.modPost f) := h.trans ⟨rfl, KeptBut.of_regs rfl rfl⟩

theorem CycleJudged.postPut {f : Field} {v : Nat} (hk : f.key 0 / 32768 ≠ 6 := by decide) : CycleJudged a (b.put f 0 v) := h.put hk

theorem CycleJudged.postEvent {v : Nat} : CycleJudged a (b.event .post 0 v) := h.event (by decide)
end
end

/-- The event group and the late counters of a list are not on Reeve's page. -/
theorem lateKey_ne (k : Nat) : (∀ q ∈ eventKeys .seq k, q / 32768 ≠ 6) ∧ SEQ.CNT_LATE_DATA.key k / 32768 ≠ 6 ∧
    SEQ.CNT_LATE_CREDIT.key k / 32768 ≠ 6 := by
  refine ⟨fun q hq => ?_, ?_, ?_⟩
  · simp only [eventKeys, List.mem_cons, List.not_mem_nil, or_false, Field.key, Page.number, evField, evFirstBit, evFirstEst, evFirstValid,
      evTime, ALM.CNT_EST, Field.counter] at hq
    omega
  · simp only [Field.key, Page.number, SEQ.CNT_LATE_DATA, Field.counter]
    omega
  · simp only [Field.key, Page.number, SEQ.CNT_LATE_CREDIT, Field.counter]
    omega

section
variable (m : Mach)

theorem Mach.playLate_judged (k : Nat) (e : LEnt) : CycleJudged m (m.playLate k e) := by
  obtain ⟨hevent, hdata, hcredit⟩ := lateKey_ne k
  unfold Mach.playLate
  split
  · exact CycleJudged.refl m
  · extract_lets m2
    have h2 : CycleJudged m m2 := (CycleJudged.refl m).event hevent
    split
    · exact h2.put hdata
    · split
      · exact h2.put hcredit
      · exact h2

theorem Mach.loomEnd_judged : CycleJudged m m.loomEnd :=
  CycleJudged.foldl _ (fun x k => CycleJudged.foldl _ (fun y e => y.playLate_judged k e) x) m

theorem Mach.leaseBreak_judged (k : Nat) : CycleJudged m (m.leaseBreak k) := (CycleJudged.refl m).modPost.postPut.postPut.postPut

theorem Mach.postEnd_judged : CycleJudged m m.postEnd := by
  refine CycleJudged.foldl _ (fun x k => ?_) m
  extract_lets m1
  have h1 : CycleJudged x m1 := by
    unfold m1
    split
    · exact x.leaseBreak_judged k
    · exact CycleJudged.refl x
  split
  · exact h1
  · split
    · exact h1.modPost
    · exact h1.modPost.postEvent.postPut

/-! ### What a COMMIT shows once its cycle is over (R378) -/

theorem Mach.commitEnd_now : m.commitEnd.now = m.now := by
  unfold Mach.commitEnd
  split <;> rfl

@[simp] theorem Mach.passTime_get (f : Field) (n : Nat) : m.passTime.get f n = m.get f n := rfl

theorem Mach.cycleEnd_now : m.cycleEnd.now = m.now + 8 := by
  show m.loomEnd.commitEnd.postEnd.now + 8 = m.now + 8
  rw [(Mach.postEnd_judged _).now, Mach.commitEnd_now, m.loomEnd_judged.now]

theorem Mach.cycleEnd_commitResult (h : m.get REEVE.COMMIT_RESULT = 2) :
    m.cycleEnd.get REEVE.COMMIT_RESULT = m.reeve.outcome % 4 := by
  have hpending : m.loomEnd.get REEVE.COMMIT_RESULT = 2 := m.loomEnd_judged.commitResult.trans h
  rw [Mach.cycleEnd, Mach.passTime_get, (Mach.postEnd_judged _).commitResult, Mach.commitEnd, if_pos hpending, Mach.get_put_same, m.loomEnd_judged.reeve]
  rfl
end

/-! ### Nothing to judge -/

section
variable {m : Mach}

/-- A MARK, or an entry whose PLAY_DUE entry has not fired in this cycle, is not judged. -/
theorem Mach.playLate_idle {e : LEnt} (h : e.mark = true ∨ e.fired = false ∨ e.firedAt ≠ m.now) (k : Nat) : m.playLate k e = m := by
  refine if_pos ?_
  rcases h with h | h | h <;> simp [h]

theorem Mach.loomEnd_idle (h : ∀ k < 16, ∀ e ∈ (m.seq k).queue, e.mark = true ∨ e.fired = false ∨ e.firedAt ≠ m.now) : m.loomEnd = m :=
  foldl_stays fun k hk => foldl_stays fun e he => Mach.playLate_idle (h k (List.mem_range.1 hk) e he) k

theorem Mach.postEnd_idle (h : ∀ k < 8, (m.post.latches.get k).expiring = false ∧ (m.inPost k).due = false) : m.postEnd = m := by
  refine foldl_stays fun k hk => ?_
  obtain ⟨hlease, hdue⟩ := h k (List.mem_range.1 hk)
  simp [hlease, hdue]

theorem Mach.cycleEnd_idle (hplay : ∀ k < 16, ∀ e ∈ (m.seq k).queue, e.mark = true ∨ e.fired = false ∨ e.firedAt ≠ m.now)
    (hcommit : m.get REEVE.COMMIT_RESULT ≠ 2)
    (hpost : ∀ k < 8, (m.post.latches.get k).expiring = false ∧ (m.inPost k).due = false) : m.cycleEnd = { m with now := m.now + 8 } := by
  rw [Mach.cycleEnd, Mach.loomEnd_idle hplay, Mach.commitEnd, if_neg hcommit, Mach.postEnd_idle hpost]
  rfl
end

/-! ### A step (log entries 1 and 2) -/

theorem step_command {s : State} {c : Instr} {rest : List Instr} (h : s.pending = c :: rest) : step s = exec c { s with pending := rest } := by
  unfold step
  rw [h]

theorem step_idle {s : State} (h : s.pending = []) : step s = .next { s with m := s.m.cycleEnd } := by
  unfold step
  rw [h]

end Sys2Proof.Machine
end

section
/-! SUPPORT. The statement on one step. -/
namespace Sys2Proof.Laws
open Sys2Proof.Machine

/-- Settles O1: with a command waiting a step runs it; with none the cycle ends, whose judgements keep the time and Reeve's page. The queue
and the idle step are the model's choice (log entries 1, 2 and 101). -/
theorem stepRunsFrontCommand : Obligations.StepRunsFrontCommand :=
  ⟨fun _ _ _ h => step_command h, fun s h => ⟨s.m.cycleEnd, step_idle h, s.m.cycleEnd_now, s.m.cycleEnd_commitResult, Mach.cycleEnd_idle⟩⟩

end Sys2Proof.Laws
end

section
/-! SUPPORT. The walk of a list and the resolution of its branches, case by case: what an entry of each kind leaves, and which entry is walked
(chapter "Playback sequences (Loom)", R151, R152, R156 to R158, R162 to R166). -/
namespace Sys2Proof.Machine

/-- A tick that now is earlier than is not reached (R37). -/
theorem reached_of_tickBefore {a b : Tick} (h : tickBefore a b = true) : reached a b = false := by
  simp only [tickBefore, Bool.and_eq_true, decide_eq_true_eq, bne_iff_ne, ne_eq] at h
  obtain ⟨hlt, hne⟩ := h
  simp only [reached, decide_eq_false_iff_not]
  bv_omega

/-- Two changes of a list that come to the same on what it holds. -/
theorem Mach.modSeq_congr {m : Mach} {k : Nat} {f g : SeqSt → SeqSt} (h : f (m.seq k) = g (m.seq k)) : m.modSeq k f = m.modSeq k g := by
  have hupd : m.loom.seqs.upd k f = m.loom.seqs.upd k g := by
    rw [Tab.upd, Tab.upd]
    exact congrArg _ h
  rw [Mach.modSeq, Mach.modLoom, Mach.modSeq, Mach.modLoom, hupd]

/-! ### The PLAY_DUE entries that wait are placed (R158) -/

/-- From `m` to `t` PLAY_DUE entries of list `k` have been placed: of the list its queue alone changes, and trace time stands. -/
def DuesPlaced (k : Nat) (m t : Mach) : Prop := t.seq k = { m.seq k with queue := (t.seq k).queue } ∧ t.tb = m.tb

theorem DuesPlaced.refl (k : Nat) (m : Mach) : DuesPlaced k m m := ⟨rfl, rfl⟩

theorem DuesPlaced.trans {k : Nat} {a b c : Mach} (h : DuesPlaced k a b) (g : DuesPlaced k b c) : DuesPlaced k a c :=
  ⟨by rw [g.1, h.1], g.2.trans h.2⟩

theorem Mach.tb_of_onlyFields {m t : Mach} {ks : List Nat} (h : OnlyFields m t ks) (hk : ALM.TB_NOW.key 0 ∉ ks) : t.tb = m.tb := by
  rw [Mach.tb, h.2 _ _ hk, Mach.tb]

section
variable (m : Mach) (k : Nat)

theorem Mach.placeDue_placed (e : LEnt) : DuesPlaced k m (m.placeDue k e) := by
  unfold Mach.placeDue
  split
  · exact DuesPlaced.refl k m
  · cases m.freeDue with
    | none => exact ⟨rfl, Mach.tb_of_onlyFields (m.showLoomFull_onlyFields true) (by decide)⟩
    | some i =>
      dsimp only
      refine ⟨?_, (Mach.tb_of_onlyFields (Mach.showNext_onlyFields _) (by decide)).trans rfl⟩
      rw [Mach.seq_of_loom k (Mach.showNext_loom _), Mach.modEnt, Mach.seq_modSeq]
      rfl

theorem Mach.placeDues_placed : DuesPlaced k m (m.placeDues k) :=
  List.foldlRecOn (m.seq k).queue _ (DuesPlaced.refl k m) fun b hb e _ => hb.trans (b.placeDue_placed k e)
end

/-! ### What an entry leaves (R151, R152, R157, R158, R162) -/

section
variable {m : Mach} {k i w0 w1 : Nat}

theorem Mach.walkEntry_end (h : iKind w0 = 0) : m.walkEntry k i w0 w1 = m.modSeq k fun s => { s with end_ := true } := by
  simp only [Mach.walkEntry, h]

theorem Mach.walkEntry_always (h : iKind w0 = 3) (ha : bitAt w0 23 = true) :
    m.walkEntry k i w0 w1 = m.modSeq k fun s => { s with idx := iTarget w0 } := by
  simp only [Mach.walkEntry, h, ha, if_true]

theorem Mach.walkEntry_waitFor (h : iKind w0 = 4) (ha : bitAt w0 4 = false) :
    m.walkEntry k i w0 w1 = m.modSeq k fun s => { s with t := s.t + BitVec.ofNat 64 w1, idx := i + 1 } := by
  simp only [Mach.walkEntry, h, ha, Bool.false_eq_true, if_false]

theorem Mach.walkEntry_waitUntil (h : iKind w0 = 4) (ha : bitAt w0 4 = true) (ht : tickBefore (BitVec.ofNat 64 w1) (m.seq k).t = false) :
    m.walkEntry k i w0 w1 = m.modSeq k fun s => { s with t := BitVec.ofNat 64 w1, idx := i + 1 } := by
  simp only [Mach.walkEntry, h, ha, ht, Bool.false_eq_true, if_false, if_true]

/-- An entry that is walked joins the list with the cursor's tick and, on a predicted path, the branch it waits for. -/
def Mach.newEnt (m : Mach) (k i : Nat) : LEnt :=
  { (default : LEnt) with id := m.serial, idx := i, t := (m.seq k).t, spec := (m.seq k).brs.getLast?.map (·.id) }

/-- The entry that a PLAY leaves. -/
def Mach.playEnt (m : Mach) (k i w0 w1 : Nat) : LEnt :=
  { m.newEnt k i with line := iLine w0, lines := iLines w1, keep := iKeep w1, pins := m.rangeUnits (iLine w0) (iLines w1) }

/-- The entry that a MARK leaves. -/
def Mach.markEnt (m : Mach) (k i w0 w1 : Nat) : LEnt :=
  { m.newEnt k i with mark := true, ply := bitAt w0 4, evt := bitAt w0 5, arg := BitVec.ofNat 64 w1 }

section
variable (h : iKind w0 = 1) {us : List Nat} (hus : m.rangeUnits (iLine w0) (iLines w1) = us) {r : Bool × Mach} (hr : m.resolveUnits us = r)
include h hus hr

/-- A PLAY whose map entries are not all at hand waits for them. -/
theorem Mach.walkEntry_playWaits (hno : r.1 = false) : m.walkEntry k i w0 w1 = r.2 := by
  simp [Mach.walkEntry, h, hus, hr, hno]

/-- A PLAY whose map entries are at hand pins its units and joins the list. -/
theorem Mach.walkEntry_playJoins (hyes : r.1 = true) {e : LEnt} (he : m.playEnt k i w0 w1 = e) {adv : Nat} (hadv : iAdv w1 = adv) :
    m.walkEntry k i w0 w1 = ((({ r.2.pinUnits us with serial := m.serial + 1 } : Mach).modSeq k fun s => { s with
      queue := s.queue ++ [e], t := s.t + BitVec.ofNat 64 adv, idx := i + 1 }).placeDue k e) := by
  subst he hadv
  simp only [Mach.walkEntry, h, hus, hr, hyes, Bool.not_true, Bool.false_eq_true, if_false]
  subst hus
  rfl
end

theorem Mach.walkEntry_silentMark (h : iKind w0 = 5) (hp : bitAt w0 4 = false) (he : bitAt w0 5 = false) :
    m.walkEntry k i w0 w1 = m.modSeq k fun s => { s with idx := i + 1 } := by
  simp [Mach.walkEntry, h, hp, he]

theorem Mach.walkEntry_mark (h : iKind w0 = 5) (hm : bitAt w0 4 = true ∨ bitAt w0 5 = true) : m.walkEntry k i w0 w1 =
    let queued := (m.modSeq k fun s => { s with idx := i + 1 }).modSeq k fun s => { s with queue := s.queue ++ [m.markEnt k i w0 w1] }
    ({ queued with serial := m.serial + 1 } : Mach).placeDue k (m.markEnt k i w0 w1) := by
  have hsome : (!bitAt w0 4 && !bitAt w0 5) = false := by
    rcases hm with hm | hm <;> simp [hm]
  simp only [Mach.walkEntry, h, hsome, Bool.false_eq_true, if_false]
  rfl

theorem Mach.walkEntry_loop (h : iKind w0 = 2) {loops : Tab Nat} {loopT : Tab (Option Tick)} {j : Nat}
    (hl : (m.seq k).loopStep i w0 = .inr (loops, loopT, j)) :
    m.walkEntry k i w0 w1 = m.modSeq k fun s => { s with loops := loops, loopT := loopT, idx := j } := by
  simp only [Mach.walkEntry, h, hl]

/-- The last pass of a LOOP frees its counter (R151). -/
theorem SeqSt.loopStep_last (s : SeqSt) (hn : iCount w0 ≠ 0) (hc : iCount w0 ≤ s.loops.get i + 1) :
    s.loopStep i w0 = .inr (s.loops.erase i, s.loopT.erase i, i + 1) := by
  simp [SeqSt.loopStep, hn, hc]

/-- A pass that is not the last is counted, where a counter is free (R151, R152). -/
theorem SeqSt.loopStep_again (s : SeqSt) (hc : s.loops.get i + 1 < iCount w0) (hroom : s.loops.get i ≠ 0 ∨ s.loops.length < 8) :
    s.loopStep i w0 = .inr (s.loops.set i (s.loops.get i + 1), s.loopT.set i (some s.t), iTarget w0) := by
  have hmore : ¬iCount w0 ≤ s.loops.get i + 1 := not_le.2 hc
  have hpasses : iCount w0 ≠ 0 := by omega
  have hfull : ¬(s.loops.get i = 0 ∧ 8 ≤ s.loops.length) := by omega
  simp [SeqSt.loopStep, hmore, hpasses, hfull]

/-- The outcome that Loom predicts for a BRANCH (R163). -/
def SeqSt.predicts (s : SeqSt) (i w0 : Nat) : Bool :=
  if bitAt w0 22 && s.hist.get i % 2 = 1 then bitAt (s.hist.get i) 1 else bitAt w0 21

/-- The branch that a BRANCH whose sample tick is still to come leaves to be resolved (R162, R164). -/
def Mach.newBranch (m : Mach) (k i w0 w1 : Nat) : LBranch :=
  let s := m.seq k
  ⟨m.serial, i, if s.predicts i w0 then i + 1 else iTarget w0, s.t, s.loops, s.loopT, bits w0 16 4, bitAt w0 20, sampleTick64 s.t w1,
    s.predicts i w0, none, false, false, false, 0⟩

theorem Mach.walkEntry_branch (h : iKind w0 = 3) (ha : bitAt w0 23 = false) (hs : reached m.tb (sampleTick64 (m.seq k).t w1) = false) :
    m.walkEntry k i w0 w1 = { m.modSeq k fun s => { s with
      brs := s.brs ++ [m.newBranch k i w0 w1], idx := if (m.seq k).predicts i w0 then iTarget w0 else i + 1 } with
        serial := m.serial + 1 } := by
  simp only [Mach.walkEntry, h, ha, hs, Bool.false_and, Bool.false_eq_true, if_false]
  rfl
end

/-! ### Which entry is walked (R17, R156) -/

/-- The walk with its first unmet condition shown in STAT.HOLD, the PLAY_DUE entries that wait placed. -/
def Mach.holdShown (m : Mach) (k w0 : Nat) : Mach :=
  (m.placeDues k).put SEQ.STAT_HOLD k ((m.placeDues k).walkHold k (m.seq k) w0)

section
variable {m : Mach} {k w0 w1 : Nat}

theorem Mach.holdShown_placed : DuesPlaced k m (m.holdShown k w0) :=
  (m.placeDues_placed k).trans ⟨rfl, Mach.tb_of_onlyFields (Mach.put_onlyFields _ _ k _) (by
    simp only [List.mem_singleton, Field.key, Page.number, ALM.TB_NOW, SEQ.STAT_HOLD]
    omega)⟩

/-- The words of the entry that comes next: END beyond the list's end, none while its line has not been read (R17, R150). -/
def Mach.nextWords (m : Mach) (k : Nat) : Option (Nat × Nat) :=
  if (m.seq k).end_ || m.get SEQ.LIST_LEN k ≤ (m.seq k).idx then some (0, 0) else (m.seq k).entry (m.seq k).idx

theorem Mach.nextWords_ended (he : (m.seq k).end_ = true) : m.nextWords k = some (0, 0) := if_pos (by rw [he]; rfl)

theorem Mach.nextWords_inside (he : (m.seq k).end_ = false) (hi : (m.seq k).idx < m.get SEQ.LIST_LEN k) :
    m.nextWords k = (m.seq k).entry (m.seq k).idx := if_neg (by simp [he, hi])

variable (hup : m.fabricUp = true) (hawake : m.asleep = false) (h3 : m.get SEQ.STAT_STATE k = 3) (hlost : (m.seq k).lost = false)
include hup hawake h3 hlost

theorem loomWalk_runs : loomWalk k m =
    match m.nextWords k with
    | none => m.listFetch k ((m.seq k).idx / 16)
    | some (w0, w1) =>
      let h := (m.placeDues k).walkHold k (m.seq k) w0
      let m1 := m.holdShown k w0
      let m2 := if h = 0 then m1.walkEntry k (m.seq k).idx w0 w1 else if h = 4 then m1.showLoomFull true else m1
      (m2.specIssue k (m.get SEQ.SPEC_LINES k)).showSeq k :=
  if_neg (by simp [hup, hawake, Mach.seqState, h3, hlost])

theorem loomWalk_fetches (hw : m.nextWords k = none) : loomWalk k m = m.listFetch k ((m.seq k).idx / 16) := by
  rw [loomWalk_runs hup hawake h3 hlost, hw]

theorem loomWalk_walks (hw : m.nextWords k = some (w0, w1)) {x : Mach}
    (hx : (if (m.placeDues k).walkHold k (m.seq k) w0 = 0 then (m.holdShown k w0).walkEntry k (m.seq k).idx w0 w1
      else if (m.placeDues k).walkHold k (m.seq k) w0 = 4 then (m.holdShown k w0).showLoomFull true else m.holdShown k w0) = x) :
    loomWalk k m = (x.specIssue k (m.get SEQ.SPEC_LINES k)).showSeq k := by
  rw [loomWalk_runs hup hawake h3 hlost, hw]
  subst hx
  rfl
end

/-! ### Committed reads and outcomes (R159, R162 to R166) -/

section
variable {m : Mach} {k : Nat} (hup : m.fabricUp = true) (h3 : m.get SEQ.STAT_STATE k = 3)
include hup h3

theorem loomDueIssue_runs : loomDueIssue k m = (m.dueIssue k (m.get SEQ.FETCH_DEPTH k)).showSeq k :=
  if_neg (by simp [hup, Mach.seqState, h3])

/-- The first unresolved branch of a list whose sample tick is reached (R162). -/
def Mach.sampled (m : Mach) (k : Nat) : Option LBranch := (m.seq k).brs.find? fun b => b.out.isNone && reached m.tb b.sample

/-- What stands of a list once branch `b` has its outcome: its path, or everything up to it and the other entry (R164 to R166). -/
def Mach.resolved (m : Mach) (k cond : Nat) (b : LBranch) : Mach :=
  let o : Bool := bitAt cond b.cond = b.sense
  let b' := { b with out := some o, est := m.estimated }
  if o = b.pred then m.modSeq k fun s => { s with brs := s.brs.map fun x => if x.id = b.id then b' else x }
  else (m.squash k b).modSeq k fun s => { s with
    brs := (s.brs.takeWhile fun x => x.id ≠ b.id) ++ [b'], idx := b.other, t := b.t, loops := b.loops, loopT := b.loopT, end_ := false }

theorem branchResolve_none (cond : Nat) (hb : m.sampled k = none) : branchResolve k cond m = m := by
  unfold Mach.sampled at hb
  refine (if_neg (by simp [hup, Mach.seqState, h3])).trans ?_
  rw [hb]

theorem branchResolve_sampled (cond : Nat) {b : LBranch} (hb : m.sampled k = some b) : branchResolve k cond m =
    (((m.resolved k cond b).commitBranches k ((m.resolved k cond b).seq k).brs.length).loopCheck k).showSeq k := by
  unfold Mach.sampled at hb
  have hpred : ((bitAt cond b.cond = b.sense) = (b.pred = true)) ↔ Decidable.decide (bitAt cond b.cond = b.sense) = b.pred := by
    cases b.pred <;> simp
  refine (if_neg (by simp [hup, Mach.seqState, h3])).trans ?_
  rw [hb]
  simp only [hpred]
  rfl
end

end Sys2Proof.Machine
end

section
/-! SUPPORT. The statement on the walk of a list, its reads and its branches. -/
namespace Sys2Proof.Laws
open Sys2Proof.Machine

/-- Settles O25: the walk comes to the list once the PLAY_DUE entries that wait are placed, which leaves its cursor, counters and branches as
they were; its next entry then leaves what its kind says, or the first unmet condition shows. The requester of a read of the list copy, and
that a branch which is not due changes nothing, are the model's choice (log entries 3, 4, 16 and 104). -/
theorem listWalkAndBranches : Obligations.ListWalkAndBranches := by
  refine ⟨fun s k4 w0 w1 => ?walk, fun s k4 cond b => ?resolve⟩
  case walk =>
    intro k q m h shown walked hup hawake h3 hlost
    have hexec := exec_loomWalk s k4
    obtain ⟨hseq, htb⟩ : DuesPlaced k s.m shown := Mach.holdShown_placed
    have goes {v : Nat} (hw : s.m.nextWords k = some (w0, v)) {x : Mach}
        (hx : (if h = 0 then shown.walkEntry k q.idx w0 v else if h = 4 then shown.showLoomFull true else shown) = x) : walked x :=
      completes_of_answer hexec (loomWalk_walks hup hawake h3 hlost hw hx)
    refine ⟨fun hend hw0 hne0 hne4 => ?beyond, fun hend hlen hentry => ?next, fun hend hlen hentry => ?fetch⟩
    case beyond =>
      have hw : s.m.nextWords k = some (w0, 0) := hw0 ▸ Mach.nextWords_ended hend
      exact goes hw ((if_neg hne0).trans (if_neg hne4))
    case fetch =>
      have hw : s.m.nextWords k = none := (Mach.nextWords_inside hend hlen).trans hentry
      exact completes_of_answer hexec (loomWalk_fetches hup hawake h3 hlost hw)
    case next =>
      have hw : s.m.nextWords k = some (w0, w1) := (Mach.nextWords_inside hend hlen).trans hentry
      have walks (h0 : h = 0) {x : Mach} (hx : shown.walkEntry k q.idx w0 w1 = x) : walked x := goes hw ((if_pos h0).trans hx)
      have htick : (shown.seq k).t = q.t := by rw [hseq]
      refine ⟨fun hne0 hne4 => ?held, fun h4 => ?full, fun h0 hk => ?ends, fun h0 hk ha => ?always, fun h0 hk ha => ?waitFor,
        fun h0 hk ha ht => ?waitUntil, fun h0 hk hp he => ?silent, ?entries, fun h0 hk => ?loop, fun h0 hk ha hne hbefore => ?branch⟩
      case held => exact goes hw ((if_neg hne0).trans (if_neg hne4))
      case full => exact goes hw ((if_neg (by omega)).trans (if_pos h4))
      case ends => exact walks h0 (Mach.walkEntry_end hk)
      case always => exact walks h0 (Mach.walkEntry_always hk ha)
      case waitFor => exact walks h0 (Mach.walkEntry_waitFor hk ha)
      case waitUntil => exact walks h0 (Mach.walkEntry_waitUntil hk ha (htick ▸ ht))
      case silent => exact walks h0 (Mach.walkEntry_silentMark hk hp he)
      case entries =>
        intro new
        have hnew : shown.newEnt k q.idx = new := by rw [Mach.newEnt, hseq]
        refine ⟨?play, ?mark⟩
        case play =>
          intro h0 hk us r e
          have hline : iLine w0 = w0 / 2 ^ 8 % 2 ^ 52 := by rw [iLine, bits]
          have hlines : iLines w1 = w1 % 2 ^ 24 := by rw [iLines, bits, pow_zero, Nat.div_one]
          have hadv : iAdv w1 = w1 / 2 ^ 24 % 2 ^ 32 := by rw [iAdv, bits]
          have hkeep : iKeep w1 = w1.testBit 56 := rfl
          have he : shown.playEnt k q.idx w0 w1 = e := by rw [Mach.playEnt, hnew, hline, hlines, hkeep]
          have hus : shown.rangeUnits (iLine w0) (iLines w1) = us := by rw [hline, hlines]
          have hr : shown.resolveUnits us = r := rfl
          clear_value e r us
          exact ⟨fun hno => walks h0 (Mach.walkEntry_playWaits hk hus hr hno),
            fun hyes => walks h0 (Mach.walkEntry_playJoins hk hus hr hyes he hadv)⟩
        case mark =>
          intro h0 hk hm e queued
          have he : shown.markEnt k q.idx w0 w1 = e := by
            rw [Mach.markEnt, hnew]
          have hleft := Mach.walkEntry_mark (m := shown) (k := k) (i := q.idx) (w1 := w1) hk hm
          rw [he] at hleft
          exact walks h0 hleft
      case loop =>
        intro c n
        have hloops : (shown.seq k).loops = q.loops := by rw [hseq]
        refine ⟨fun hn hc => ?last, fun hc hroom => ?again⟩
        case last =>
          have hstep := (shown.seq k).loopStep_last (i := q.idx) (w0 := w0) hn (hloops ▸ hc)
          exact walks h0 ((Mach.walkEntry_loop hk hstep).trans (Mach.modSeq_congr rfl))
        case again =>
          have hstep := (shown.seq k).loopStep_again (i := q.idx) (w0 := w0) (hloops ▸ hc) (hloops ▸ hroom)
          refine walks h0 ((Mach.walkEntry_loop hk hstep).trans (Mach.modSeq_congr ?_))
          simp only [hloops, htick]
          rfl
      case branch =>
        intro o pred b
        have hlater : reached shown.tb (sampleTick64 (shown.seq k).t w1) = false := by
          rw [htb, htick]
          exact reached_of_tickBefore hbefore
        have hpred : (shown.seq k).predicts q.idx w0 = pred := by
          rw [SeqSt.predicts, hseq]
        have hb : shown.newBranch k q.idx w0 w1 = b := by
          simp only [Mach.newBranch, hpred]
          rw [hseq]
          rfl
        have hleft := Mach.walkEntry_branch (k := k) (i := q.idx) hk ha hlater
        rw [hb, hpred] at hleft
        exact walks h0 hleft
  case resolve =>
    intro k o b' committed hup h3
    have hexec := exec_branchResolve s k4 cond
    refine ⟨completes_of_answer (exec_loomDueIssue s k4) (loomDueIssue_runs hup h3), fun hb => ⟨fun ho => ?stands, fun ho => ?squashed⟩,
      fun hb => ?nothing⟩
    case stands =>
      refine completes_of_answer hexec ((branchResolve_sampled hup h3 cond.toNat (b := b) hb).trans ?_)
      rw [Mach.resolved, if_pos ho]
    case squashed =>
      refine completes_of_answer hexec ((branchResolve_sampled hup h3 cond.toNat (b := b) hb).trans ?_)
      rw [Mach.resolved, if_neg ho]
    case nothing => exact completes_of_answer hexec (branchResolve_none hup h3 cond.toNat hb)

end Sys2Proof.Laws
end

section
/-! SUPPORT. Where the lines of a unit lie: the position that a bundle's lines take in their group (chapter "Namespaces, the map and
placement", R183, R185). -/
namespace Sys2Proof.Machine

/-- The position in its group of line `c` of stripe `s`; `c` = 15 is the parity line (R185). -/
def bundlePos (s c : Nat) : Nat := if c = 15 then parityPos s else (parityPos s + 1 + c) % 16

theorem bundleChan_eq (g s c : Nat) : bundleChan g s c = 16 * g + bundlePos s c := rfl

/-- The parity line comes first and the data lines follow it round the group, so the parity line is line 15 of one rule for all. -/
theorem bundlePos_eq (s c : Nat) : bundlePos s c = (parityPos s + 1 + c) % 16 := by
  have hp : parityPos s < 16 := by unfold parityPos; omega
  unfold bundlePos
  split
  · omega
  · rfl

theorem bundlePos_inj {s c d : Nat} (hc : c < 16) (hd : d < 16) (h : bundlePos s c = bundlePos s d) : c = d := by
  rw [bundlePos_eq, bundlePos_eq] at h
  omega

/-- Every position of the group is taken. -/
theorem exists_bundlePos (s : Nat) {p : Nat} (hp : p < 16) : ∃ d < 16, bundlePos s d = p := by
  have hd : (p + 31 - parityPos s) % 16 < 16 := Nat.mod_lt _ (by decide)
  refine ⟨_, hd, ?_⟩
  rw [bundlePos_eq]
  unfold parityPos
  omega

theorem copiesOf_none {e : Nat} (h : eKind e = 1) (l : Nat) : copiesOf e l = [(eChan e, eSeg e, l)] := by simp [copiesOf, h]

theorem copiesOf_bundle {e : Nat} (h : eKind e = 3) (l : Nat) :
    copiesOf e l = [(bundleChan (eChan e % 2) (l / 15) (l % 15), eSeg e, l / 15)] := by simp [copiesOf, h]

end Sys2Proof.Machine
end

section
/-! SUPPORT. The statements on the placement of a unit's lines. -/
namespace Sys2Proof.Laws
open Sys2Proof.Machine

/-- Settles O58: an entry of kind 1 names one copy, in the fields of R182 and at the line's own position (R183). -/
theorem noneUnitPlacement : Obligations.NoneUnitPlacement := fun _ l hkind => copiesOf_none hkind l

/-- Settles O60: the positions of a stripe's lines run round the group from the parity line on (R185). -/
theorem bundlePlacement : Obligations.BundlePlacement := by
  refine ⟨fun g s d hd => ⟨rfl, ?data⟩, fun g s c d hc hd h => ?apart, fun g s c hlo hhi => ?taken, fun e l hkind => ?line⟩
  case data => rw [bundleChan_eq, bundlePos_eq, parityPos]
  case apart => exact bundlePos_inj hc hd (Nat.add_left_cancel h)
  case taken =>
    obtain ⟨d, hd, hpos⟩ := exists_bundlePos s (p := c - 16 * g) (by omega)
    exact ⟨d, hd, by rw [bundleChan_eq, hpos]; omega⟩
  case line =>
    have hgroup : eChan e % 2 = e / 2 ^ 55 % 2 := Nat.mod_mod_of_dvd _ (by decide)
    rw [copiesOf_bundle hkind l, hgroup]
    rfl

end Sys2Proof.Laws
end

section
/-! SUPPORT. The command blocks that change or query a namespace: the branch that each row takes (chapters "Namespaces, the map and
placement" and "Collier and the posts", R174 to R177, R201, R202, R419, R420). -/
namespace Sys2Proof.Machine

/-! ### A block that changes a namespace -/

/-- What lets such a row go on with a block: its broadcast is behind it, or its turn has come and the tree is free (R202, R420). -/
def Mach.nsTurn (m : Mach) (c : Cmd) : Bool := c.stage = 2 || (c.stage = 0 && m.inTurn c && !m.nsBusy)

section
variable {m : Mach} {op : Nat} {refused : Mach → Cmd → Option Nat} {after : Cmd → Mach → Mach} {c : Cmd}

theorem Mach.nsBlock_stopped (h : m.blocksRun = false) : m.nsBlock op refused after = m := Mach.serve_stopped h

theorem Mach.nsBlock_first (h : m.servesFirst op m.nsTurn c) : m.nsBlock op refused after =
    if c.stage = 2 then (after c m).finish c 2 0
    else (refused m c).elim (m.modCmd c.id fun x => { x with stage := 1 }) (m.finish c 4) := by
  rw [Mach.nsBlock]
  refine (Mach.serve_first h).trans ?_
  cases refused m c <;> rfl

theorem Mach.nsBlock_ends (h : m.servesFirst op m.nsTurn c) (h2 : c.stage = 2) : m.nsBlock op refused after = (after c m).finish c 2 0 := by
  rw [Mach.nsBlock_first h, if_pos h2]

theorem Mach.nsBlock_refused (h : m.servesFirst op m.nsTurn c) (h0 : c.stage = 0) {why : Nat} (hr : refused m c = some why) :
    m.nsBlock op refused after = m.finish c 4 why := by
  rw [Mach.nsBlock_first h, if_neg (by omega), hr, Option.elim_some]

theorem Mach.nsBlock_goes (h : m.servesFirst op m.nsTurn c) (h0 : c.stage = 0) (hr : refused m c = none) :
    m.nsBlock op refused after = m.modCmd c.id fun x => { x with stage := 1 } := by
  rw [Mach.nsBlock_first h, if_neg (by omega), hr, Option.elim_none]
end

/-! ### The reasons to refuse (R175 to R177, R201, R419) -/

/-- A SIZE that no namespace of this protection has, or that its field does not hold (R175, R419). -/
def Cmd.badLen (c : Cmd) (prot : Nat) : Prop := c.size = 0 ∨ c.size % unitBytes prot ≠ 0 ∨ 2 ^ 52 ≤ c.p1.toNat

theorem Cmd.badLen_iff (c : Cmd) (prot : Nat) : (badSize c.size prot || 2 ^ 52 ≤ c.p1.toNat) = true ↔ c.badLen prot := by
  simp [badSize, Cmd.badLen, or_assoc]

theorem Cmd.badLen_false {c : Cmd} {prot : Nat} (h : ¬c.badLen prot) : (badSize c.size prot || 2 ^ 52 ≤ c.p1.toNat) = false :=
  Bool.eq_false_iff.2 (h ∘ (c.badLen_iff prot).1)

/-- A resize that keeps HOME and does not grow passes the reservation check (R176). -/
def Mach.shrinks (m : Mach) (c : Cmd) : Prop := c.size ≤ (m.nsDesc c.ns).size ∧ c.home = m.nsHome c.ns

end Sys2Proof.Machine
end

section
/-! SUPPORT. What NS_CREATE, NS_DELETE, NS_RESIZE and SESSION_PURGE come to, reason by reason (R175 to R177, R201). -/
namespace Sys2Proof.Machine

variable {m : Mach} {c : Cmd}

/-! ### NS_CREATE (R175) -/

section
variable (h : m.servesFirst 1 m.nsTurn c) (h0 : c.stage = 0)
include h h0

theorem nsCreate_exists (he : (m.nsDesc c.ns).exists_ = true) : nsCreate m = m.finish c 4 2 := Mach.nsBlock_refused h h0 (by simp [he])

theorem nsCreate_protected (he : (m.nsDesc c.ns).exists_ = false) (hp : c.prot = 3) : nsCreate m = m.finish c 4 5 :=
  Mach.nsBlock_refused h h0 (by simp [he, hp])

theorem nsCreate_badLen (he : (m.nsDesc c.ns).exists_ = false) (hp : c.prot ≠ 3) (hb : c.badLen c.prot) : nsCreate m = m.finish c 4 4 :=
  Mach.nsBlock_refused h h0 (by simp only [he, hp, (c.badLen_iff _).2 hb, decide_false, firstReason_true, firstReason_false])

theorem nsCreate_noRoom (he : (m.nsDesc c.ns).exists_ = false) (hp : c.prot ≠ 3) (hb : ¬c.badLen c.prot) (hf : m.createFits c = false) :
    nsCreate m = m.finish c 4 6 :=
  Mach.nsBlock_refused h h0 (by
    simp only [he, hp, Cmd.badLen_false hb, hf, decide_false, Bool.not_false, firstReason_true, firstReason_false])

theorem nsCreate_goes (he : (m.nsDesc c.ns).exists_ = false) (hp : c.prot ≠ 3) (hb : ¬c.badLen c.prot) (hf : m.createFits c = true) :
    nsCreate m = m.modCmd c.id fun x => { x with stage := 1 } :=
  Mach.nsBlock_goes h h0 (by
    simp only [he, hp, Cmd.badLen_false hb, hf, decide_false, Bool.not_true, firstReason_nil, firstReason_false])
end

/-! ### NS_RESIZE (R176, R283) -/

/-- The directory entries of lines beyond the size of the block's namespace. -/
def Mach.beyondSize (m : Mach) (c : Cmd) : List Nat :=
  (m.ht.dir.filter fun e => e.2.valid && lineNs e.2.line = c.ns && (m.nsDesc c.ns).size ≤ lineOff e.2.line).map (·.1)

section
variable (h : m.servesFirst 4 m.nsTurn c)
include h

theorem nsResize_ends (h2 : c.stage = 2) : nsResize m = ((m.beyondSize c).foldl (fun m e => m.dirFreeEnt e) m).finish c 2 0 :=
  Mach.nsBlock_ends h h2

variable (h0 : c.stage = 0)
include h0

theorem nsResize_absent (he : (m.nsDesc c.ns).exists_ = false) : nsResize m = m.finish c 4 3 := Mach.nsBlock_refused h h0 (by simp [he])

variable (he : (m.nsDesc c.ns).exists_ = true)
include he

theorem nsResize_badLen (hb : c.badLen (m.nsDesc c.ns).prot) : nsResize m = m.finish c 4 4 :=
  Mach.nsBlock_refused h h0 (by simp only [he, (c.badLen_iff _).2 hb, Bool.not_true, firstReason_true, firstReason_false])

variable (hb : ¬c.badLen (m.nsDesc c.ns).prot)
include hb

theorem nsResize_noRoom (hs : ¬m.shrinks c)
    (hr : m.reserveOk c.ns (m.nsDesc c.ns).prot (c.size / unitBytes (m.nsDesc c.ns).prot) c.home = false) : nsResize m = m.finish c 4 6 :=
  Mach.nsBlock_refused h h0 (by
    have hcheck : (decide (c.size ≤ (m.nsDesc c.ns).size) && decide (c.home = m.nsHome c.ns)) = false := by
      rw [← Bool.decide_and]
      exact decide_eq_false hs
    simp only [he, Cmd.badLen_false hb, hcheck, hr, Bool.not_true, Bool.not_false, Bool.and_self, firstReason_true, firstReason_false])

theorem nsResize_goes
    (hr : m.shrinks c ∨ m.reserveOk c.ns (m.nsDesc c.ns).prot (c.size / unitBytes (m.nsDesc c.ns).prot) c.home = true) :
    nsResize m = m.modCmd c.id fun x => { x with stage := 1 } :=
  Mach.nsBlock_goes h h0 (by
    have hcheck : (!(decide (c.size ≤ (m.nsDesc c.ns).size) && decide (c.home = m.nsHome c.ns)) &&
        !m.reserveOk c.ns (m.nsDesc c.ns).prot (c.size / unitBytes (m.nsDesc c.ns).prot) c.home) = false := by
      rcases hr with ⟨hsize, hhome⟩ | hok
      · simp [hsize, hhome]
      · simp [hok]
    simp only [he, Cmd.badLen_false hb, hcheck, Bool.not_true, firstReason_nil, firstReason_false])
end

/-! ### NS_DELETE (R177) and SESSION_PURGE (R201) -/

theorem nsDelete_absent (h : m.servesFirst 2 m.nsTurn c) (h0 : c.stage = 0) (he : (m.nsDesc c.ns).exists_ = false) :
    nsDelete m = m.finish c 4 3 := Mach.nsBlock_refused h h0 (by simp [he])

theorem nsDelete_goes (h : m.servesFirst 2 m.nsTurn c) (h0 : c.stage = 0) (he : (m.nsDesc c.ns).exists_ = true) :
    nsDelete m = m.modCmd c.id fun x => { x with stage := 1 } := Mach.nsBlock_goes h h0 (by simp [he])

section
variable (h : m.servesFirst 5 m.nsTurn c) (h0 : c.stage = 0)
include h h0

theorem sessionPurge_absent (hone : bitAt c.p0.toNat 8 = false) (he : (m.nsDesc c.ns).exists_ = false) :
    sessionPurge m = m.finish c 4 3 := Mach.nsBlock_refused h h0 (by simp [hone, he])

theorem sessionPurge_notEphemeral (hone : bitAt c.p0.toNat 8 = false) (he : (m.nsDesc c.ns).exists_ = true)
    (hs : (m.nsDesc c.ns).ephemeral = false) : sessionPurge m = m.finish c 4 11 := Mach.nsBlock_refused h h0 (by simp [hone, he, hs])

theorem sessionPurge_goes
    (hp : bitAt c.p0.toNat 8 = true ∨ (m.nsDesc c.ns).exists_ = true ∧ (m.nsDesc c.ns).ephemeral = true) :
    sessionPurge m = m.modCmd c.id fun x => { x with stage := 1 } :=
  Mach.nsBlock_goes h h0 (by
    rcases hp with hall | ⟨he, hs⟩
    · simp [hall]
    · simp [he, hs])
end

end Sys2Proof.Machine
end

section
/-! SUPPORT. The statement on the blocks that change or query a namespace. -/
namespace Sys2Proof.Laws
open Sys2Proof.Machine

/-- While Collier works on no blocks, the rows of these blocks change nothing. -/
theorem namespaceBlocks_stopped {s : State} (h : s.m.blocksRun = false) : Completes .nsCreate s s.m ∧ Completes .nsDelete s s.m ∧
    Completes .nsQuery s s.m ∧ Completes .nsResize s s.m ∧ Completes .sessionPurge s s.m :=
  ⟨completes_of_answer (exec_nsCreate s) (Mach.nsBlock_stopped h), completes_of_answer (exec_nsDelete s) (Mach.nsBlock_stopped h),
    completes_of_answer (exec_nsQuery s) (Mach.serveOnce_stopped h), completes_of_answer (exec_nsResize s) (Mach.nsBlock_stopped h),
    completes_of_answer (exec_sessionPurge s) (Mach.nsBlock_stopped h)⟩

/-- Settles O44: each row serves the oldest block in turn, and refuses it for the first reason of its list that applies, sends it to its
broadcast, or ends it once that is past. That a row takes one phase of a change at a time is the model's choice (log entries 3, 4 and 16). -/
theorem namespaceBlocks : Obligations.NamespaceBlocks := by
  intro s c
  refine ⟨namespaceBlocks_stopped, fun h => ?create, fun h => ?delete, fun hrun hram hfind => ?query, fun h => ?resize, fun h => ?purge⟩
  case create =>
    exact ⟨fun h2 => completes_of_answer (exec_nsCreate s) (Mach.nsBlock_ends h h2),
      fun h0 he => completes_of_answer (exec_nsCreate s) (nsCreate_exists h h0 he),
      fun h0 he hp => completes_of_answer (exec_nsCreate s) (nsCreate_protected h h0 he hp),
      fun h0 he hp hb => completes_of_answer (exec_nsCreate s) (nsCreate_badLen h h0 he hp hb),
      fun h0 he hp hb hf => completes_of_answer (exec_nsCreate s) (nsCreate_noRoom h h0 he hp hb hf),
      fun h0 he hp hb hf => completes_of_answer (exec_nsCreate s) (nsCreate_goes h h0 he hp hb hf)⟩
  case delete =>
    exact ⟨fun h2 => completes_of_answer (exec_nsDelete s) (Mach.nsBlock_ends h h2),
      fun h0 he => completes_of_answer (exec_nsDelete s) (nsDelete_absent h h0 he),
      fun h0 he => completes_of_answer (exec_nsDelete s) (nsDelete_goes h h0 he)⟩
  case query => exact completes_of_answer (exec_nsQuery s) (Mach.serveOnce_done ⟨hrun, hram, hfind⟩ rfl)
  case resize =>
    exact ⟨fun h2 => completes_of_answer (exec_nsResize s) (nsResize_ends h h2),
      fun h0 he => completes_of_answer (exec_nsResize s) (nsResize_absent h h0 he),
      fun h0 he hb => completes_of_answer (exec_nsResize s) (nsResize_badLen h h0 he hb),
      fun h0 he hb hs hr => completes_of_answer (exec_nsResize s) (nsResize_noRoom h h0 he hb hs hr),
      fun h0 he hb hr => completes_of_answer (exec_nsResize s) (nsResize_goes h h0 he hb hr)⟩
  case purge =>
    exact ⟨fun h2 => completes_of_answer (exec_sessionPurge s) (Mach.nsBlock_ends h h2),
      fun h0 hone he => completes_of_answer (exec_sessionPurge s) (sessionPurge_absent h h0 hone he),
      fun h0 hone he hs => completes_of_answer (exec_sessionPurge s) (sessionPurge_notEphemeral h h0 hone he hs),
      fun h0 hp => completes_of_answer (exec_sessionPurge s) (sessionPurge_goes h h0 hp)⟩

end Sys2Proof.Laws
end

section
/-! SUPPORT. Formatting and reclaiming: what the two rows come to, case by case (chapters "Trace time and the Almanac" and "Namespaces, the
map and placement", R25, R194, R195, R203). -/
namespace Sys2Proof.Machine

variable {m : Mach}

/-! ### WOODSHED_FORMAT (R194) -/

section
variable {c g : Nat}

/-- The channel is below its Woodshed target and its hub takes another format (R194, R345). -/
def Mach.belowTarget (m : Mach) (c : Nat) : Prop :=
  m.woodshed c + (m.segsIn c .formatting).length < m.get MAP.WOODSHED_TARGET ∧ m.formatting c < 4

theorem woodshedFormat_stopped (h : m.linkServes c = false ∨ m.inGuar = true) : woodshedFormat c m = m := by
  rcases h with h | h <;> simp [woodshedFormat, h]

section
variable (hw : m.mayWork = true) (hl : m.linkServes c = true) (hg : m.inGuar = false) (hr : m.rowsNeeded = false)
include hw hl hg hr

/-- With no rows needed the channel's own target decides. -/
theorem woodshedFormat_own : woodshedFormat c m =
    if m.woodshed c + (m.segsIn c .formatting).length < m.get MAP.WOODSHED_TARGET && m.formatting c < 4 then
      (m.pickFormat c).elim m fun s => m.formatSeg c s false
    else m := by
  simp only [woodshedFormat, hw, hl, hg, hr, Bool.not_true, Bool.false_and, Bool.false_or, Bool.false_eq_true, if_false]
  cases m.pickFormat c <;> rfl

theorem woodshedFormat_full (h : ¬m.belowTarget c) : woodshedFormat c m = m := by
  rw [woodshedFormat_own hw hl hg hr, if_neg (by simpa [Mach.belowTarget] using h)]

theorem woodshedFormat_below (h : m.belowTarget c) : woodshedFormat c m = (m.pickFormat c).elim m fun s => m.formatSeg c s false := by
  rw [woodshedFormat_own hw hl hg hr, if_pos (by simpa [Mach.belowTarget] using h)]
end

theorem Mach.formatSeg_held (row : Bool) (h : m.chanRO c = true ∨ m.segBusy c g = true) : m.formatSeg c g row = m := by
  rcases h with h | h <;> simp [Mach.formatSeg, h]

section
variable (hl : m.linkServes c = true) (hro : m.chanRO c = false) (hb : m.segBusy c g = false) (row : Bool)
include hl hro hb

theorem Mach.formatSeg_sent (h : m.leaseOk c g 4097 = true) :
    m.formatSeg c g row = (m.setSeg c g .formatting).sendCmd c opFormat 0 0 g (.format g row) := by
  simp [Mach.formatSeg, hl, hro, hb, h]

theorem Mach.formatSeg_leased (h : m.leaseOk c g 4097 = false) : m.formatSeg c g row = m.leaseWant c g 4097 := by
  simp [Mach.formatSeg, hl, hro, hb, h]
end
end

/-! ### RECLAIM_VISIT (R25, R195, R203) -/

theorem reclaimVisit_stopped (h : m.mapUp = false ∨ m.inGuar = true) : reclaimVisit m = m := by
  rcases h with h | h <;> simp [reclaimVisit, h]

section
variable (hup : m.mapUp = true) (hg : m.inGuar = false)
include hup hg

theorem reclaimVisit_noRoom (hf : m.deltaFull = true) : reclaimVisit m = m.deltaStall := by
  simp [reclaimVisit, Mach.whenRoom, hup, hg, hf]

variable (hf : m.deltaFull = false)
include hf

theorem reclaimVisit_idle (hl : m.freeOrphans.map.reclaim = []) : reclaimVisit m = m.freeOrphans.releaseResv.showWarm := by
  simp [reclaimVisit, Mach.whenRoom, hup, hg, hf, hl]

theorem reclaimVisit_next {ns root lo hi : Nat} {rest : List (Nat × Nat × Nat × Nat)}
    (hl : m.freeOrphans.map.reclaim = (ns, root, lo, hi) :: rest) :
    let m1 := m.freeOrphans.reclaimRoot ns root lo hi
    reclaimVisit m = (m1.setReclaim
      (if (m1.unitsBelow ns root lo hi).isEmpty then rest else rest ++ [(ns, root, lo, hi)])).releaseResv.showWarm := by
  simp [reclaimVisit, Mach.whenRoom, hup, hg, hf, hl]
end

end Sys2Proof.Machine
end

section
/-! SUPPORT. The drift clock: a second passes, and a unit whose AGE is not due stays as it is (chapter "Wear and drift of the medium",
R223, R224). -/
namespace Sys2Proof.Machine

/-- A clock that has not passed the time from which promotions are judged promotes nothing. -/
theorem ageCatch_of_le (f j : Nat) {t now : Nat} (h : now ≤ t) : ageCatch f j t now = j := by
  cases f with
  | zero => rfl
  | succ f =>
    have hnext : t < (t / 2 ^ (j + 1) + 1) * 2 ^ (j + 1) := Nat.mul_comm .. ▸ Nat.lt_mul_div_succ t (Nat.two_pow_pos _)
    simp [ageCatch, h.trans_lt hnext]

variable {m : Mach}

/-- The unit's AGE is the one that the drift clock gives (R224). -/
def Mach.ageStands (m : Mach) (uk : Nat) : Prop :=
  ageCatch 32 (eAge (m.ent uk)) (max m.map.promoAt (m.map.promoUk.get uk)) (m.get MAP.AGE_NOW) = eAge (m.ent uk)

/-- The promotions of a unit have been made up to now. -/
def Mach.promoted (m : Mach) (uk : Nat) : Mach := m.modMap fun s => { s with promoUk := s.promoUk.set uk (m.get MAP.AGE_NOW) }

theorem Mach.promoteUnit_stands {uk : Nat} (h : m.ageStands uk) : m.promoteUnit uk = m.promoted uk := by
  rw [Mach.ageStands] at h
  simp only [Mach.promoteUnit, h, decide_true, Bool.or_true, if_true, Mach.promoted]

theorem Mach.promoted_stands {uk v : Nat} (h : m.ageStands v) : (m.promoted uk).ageStands v := by
  by_cases hv : v = uk
  · refine ageCatch_of_le _ _ (le_max_of_le_right ?_)
    rw [hv, Mach.promoted, Mach.modMap, Tab.get_set_same]
    exact le_rfl
  · have hkept : (m.promoted uk).map.promoUk.get v = m.map.promoUk.get v := Tab.get_set_ne _ hv _
    rw [Mach.ageStands, hkept]
    exact h

/-- The AGE of the units listed follows the drift clock, as far as DELTA_FILL stays below DELTA_HIGH (R224). -/
def Mach.followClock (m : Mach) (l : List Nat) : Mach := l.foldl (fun x uk => if x.deltaHigh then x else x.promoteUnit uk) m

theorem Mach.followClock_paused (h : m.deltaHigh = true) (l : List Nat) : m.followClock l = m :=
  List.foldl_fixed' (f := fun (x : Mach) uk => if x.deltaHigh then x else x.promoteUnit uk) (fun _ => if_pos h) l

/-- Where no unit is due, following the clock moves only the times from which promotions are judged. -/
theorem Mach.promoteUnits_stand {l : List Nat} (hlow : m.deltaHigh = false) (h : ∀ uk ∈ l, m.ageStands uk) :
    ∃ p, m.followClock l = m.modMap fun s => { s with promoUk := p } := by
  induction l generalizing m with
  | nil => exact ⟨m.map.promoUk, rfl⟩
  | cons uk l ih =>
    obtain ⟨hhead, htail⟩ := List.forall_mem_cons.1 h
    obtain ⟨p, hp⟩ := ih (m := m.promoted uk) hlow fun v hv => Mach.promoted_stands (htail v hv)
    refine ⟨p, ?_⟩
    rw [Mach.followClock, List.foldl_cons, if_neg (by rw [hlow]; decide), Mach.promoteUnit_stands hhead]
    exact hp

/-! ### DRIFT_CLOCK_TICK (R223) -/

/-- The always-on counter has moved on by a second. -/
def Mach.secondPassed (m : Mach) : Mach := m.put MAP.AGE_NOW 0 (m.get MAP.AGE_NOW + 1)

theorem Mach.secondPassed_get {f : Field} {n : Nat} (h : f.key n ≠ MAP.AGE_NOW.key 0) : m.secondPassed.get f n = m.get f n :=
  Mach.get_put_ne _ _ h

theorem Mach.secondPassed_now : m.secondPassed.get MAP.AGE_NOW = (m.get MAP.AGE_NOW + 1) % 2 ^ 48 := Mach.get_put_same ..

theorem Mach.secondPassed_mapUp : m.secondPassed.mapUp = m.mapUp := by
  simp (disch := decide) only [Mach.mapUp, Mach.fabricUp, Mach.running, Mach.released, Mach.asleep, Mach.mode, Mach.flag,
    Mach.secondPassed_get]
  rfl

theorem Mach.secondPassed_deltaHigh : m.secondPassed.deltaHigh = m.deltaHigh := by
  simp (disch := decide) only [Mach.deltaHigh, Mach.deltaSize, Mach.secondPassed_get]
  rfl

/-- Units whose promotions were made up to now have had all units' promotions made. -/
def Mach.allPromoted (m : Mach) (now : Nat) : Mach := m.modMap fun s => { s with promoAt := now, promoUk := [] }

theorem driftTick_inReset (h : m.porstN = false) : driftTick m = m := by simp [driftTick, h]

section
variable (hr : m.porstN = true)
include hr

theorem driftTick_eq : driftTick m =
    if !m.secondPassed.mapUp then m.secondPassed
    else if (m.secondPassed.followClock m.map.ents.keys).deltaHigh then m.secondPassed.followClock m.map.ents.keys
    else (m.secondPassed.followClock m.map.ents.keys).allPromoted (m.secondPassed.get MAP.AGE_NOW) := by
  rw [driftTick, hr]
  rfl

theorem driftTick_mapDown (hup : m.mapUp = false) : driftTick m = m.secondPassed := by
  rw [driftTick_eq hr, Mach.secondPassed_mapUp, hup, Bool.not_false, if_pos rfl]

/-- From DELTA_HIGH on promotion pauses. -/
theorem driftTick_paused (hhigh : m.deltaHigh = true) : driftTick m = m.secondPassed := by
  have hhigh' := Mach.secondPassed_deltaHigh.trans hhigh
  rw [driftTick_eq hr, Mach.followClock_paused hhigh', if_pos hhigh', ite_self]

theorem driftTick_stands (hup : m.mapUp = true) (hlow : m.deltaHigh = false)
    (h : ∀ uk ∈ m.map.ents.keys, m.secondPassed.ageStands uk) :
    driftTick m = m.secondPassed.allPromoted (m.secondPassed.get MAP.AGE_NOW) := by
  have hlow' := Mach.secondPassed_deltaHigh.trans hlow
  obtain ⟨p, hp⟩ := Mach.promoteUnits_stand hlow' h
  have hlow2 : (m.secondPassed.modMap fun s => { s with promoUk := p }).deltaHigh = false := hlow'
  rw [driftTick_eq hr, Mach.secondPassed_mapUp, hup, Bool.not_true, if_neg Bool.false_ne_true, hp, hlow2, if_neg Bool.false_ne_true]
  rfl
end

end Sys2Proof.Machine
end

section
/-! SUPPORT. The canaries: when one is programmed, which is sampled next, and the estimate of the drift clock at the start (chapter "Wear and
drift of the medium", R229, R230, R232). -/
namespace Sys2Proof.Machine

variable {m : Mach}

/-! ### CANARY_PROGRAM (R229) -/

section
variable {c k : Nat}

/-- The age of a canary has come: the drift clock has passed its interval since word 0 (R229). -/
def Mach.canaryCome (m : Mach) (c k : Nat) : Prop :=
  m.get MAP.CANARY_INTERVAL * 2 ^ k ≤ m.get MAP.AGE_NOW - ((m.map.canaries.get (canKey c k)).at_ - 1)

theorem canaryProgram_stopped (h : m.mayWork = false ∨ m.link c ≠ 4 ∨ m.map.estDone = false) : canaryProgram c k m = m := by
  rcases h with h | h | h <;> simp [canaryProgram, h]

theorem canaryProgram_young (h0 : (m.map.canaries.get (canKey c k)).at_ ≠ 0) (h : ¬m.canaryCome c k) : canaryProgram c k m = m := by
  rw [Mach.canaryCome] at h
  simp [canaryProgram, h0, h]

section
variable (hw : m.mayWork = true) (hl : m.link c = 4) (he : m.map.estDone = true)
include hw hl he

theorem canaryProgram_sought (h0 : (m.map.canaries.get (canKey c k)).at_ = 0) (hs : (m.map.ests.get (canKey c k)).stage = 0)
    (hfull : m.get ZML.LINK_RATE c = 0) :
    canaryProgram c k m = (m.modEst c k fun y => { y with stage := 1, bucket := 0 }).canaryData c k 0 := by
  simp [canaryProgram, hw, hl, he, h0, hs, hfull]

theorem canaryProgram_programmed
    (h : ((m.map.canaries.get (canKey c k)).at_ = 0 ∧ (m.map.ests.get (canKey c k)).stage = 4 ∧ m.get ZML.LINK_RATE c = 0) ∨
      ((m.map.canaries.get (canKey c k)).at_ ≠ 0 ∧ m.canaryCome c k))
    (hidle : m.canaryWaits c k = false) : canaryProgram c k m =
      m.mQueue c false 13 { (default : Media) with op := opWriteLine, area := 1, pos := k, nlines := 1, data := m.canaryLine c k }
        (.canaryWr k) := by
  rcases h with ⟨h0, hs, hfull⟩ | ⟨h0, hcome⟩
  · simp [canaryProgram, hw, hl, he, h0, hs, hfull, hidle]
  · rw [Mach.canaryCome] at hcome
    simp [canaryProgram, hw, hl, he, h0, hcome, hidle]
end
end

/-! ### CANARY_SAMPLE (R230) -/

theorem canarySample_stopped (hr : m.mode ≠ mRun) (hd : m.mode ≠ mDegraded) : canarySample m = m := by simp [canarySample, hr, hd]

theorem canarySample_idx (h : m.mode = mRun ∨ m.mode = mDegraded) :
    (canarySample m).map.canaryIdx = (m.map.canaryIdx + 1) % 8 := by
  rw [canarySample, if_neg (by simpa [Decidable.or_iff_not_imp_left] using h)]
  rfl

/-! ### AGE_ESTIMATE (R232) -/

/-- What the canaries gave that were read through. -/
def Mach.estimates (m : Mach) : List CanEst := (m.map.ests.map (·.2)).filter fun y => y.stage = 3

/-- The newest of the drift clocks that the canaries hold. -/
def newestClock (l : List CanEst) : Nat := l.foldl (fun a y => max a y.word0) 0

/-- The estimates in rising order. -/
def sortedAges (l : List CanEst) : List Nat := (l.map (·.est)).mergeSort (· ≤ ·)

/-- The drift clock that the estimates give, later than any of theirs, or the one found where there is none (R232). -/
def startAge (l : List CanEst) (found : Nat) : Nat :=
  if l.isEmpty then found else max ((sortedAges l).getD ((sortedAges l).length / 2) 0) (newestClock l + 1)

theorem startAge_eq (l : List CanEst) (found : Nat) :
    startAge l found = if l = [] then found else max ((sortedAges l).getD (l.length / 2) 0) (newestClock l + 1) := by
  simp only [startAge, List.isEmpty_iff, sortedAges, List.length_mergeSort, List.length_map]

/-- The clock from which promotions run after the estimate. -/
def startClock (l : List CanEst) (found : Nat) : Nat := if l.isEmpty then found else newestClock l

theorem startClock_eq (l : List CanEst) (found : Nat) : startClock l found = if l = [] then found else newestClock l := by
  simp only [startClock, List.isEmpty_iff]

/-- The drift clock is set to `age`, marked as estimated, and promotions run from `since`. -/
def Mach.ageSet (m : Mach) (age since : Nat) : Mach :=
  ((((m.put MAP.AGE_NOW 0 age).put MAP.AGE_EST 0 age).setFlag MAP.AGE_EST_ESTIMATED 0 true).wdEvent 4).modMap fun s =>
    { s with estDone := true, promoAt := since, promoUk := [] }

theorem ageEstimate_stopped (store : Nat) (h : m.mode ≠ mBringup ∨ m.map.estDone = true) : ageEstimate store m = m := by
  rcases h with h | h <;> simp [ageEstimate, h]

/-- Every hub at full rate has had its canaries asked for. -/
def Mach.canariesAsked (m : Mach) : Prop := ∀ c < 32, m.link c = 4 → m.get ZML.LINK_RATE c = 0 → (m.map.ests.get (canKey c 0)).stage ≠ 0

/-- What the map store or the start kind gives where no canary was read (R232, R433). -/
def Mach.foundAge (m : Mach) (store : Nat) : Nat := if m.get GLOBAL.STAT_START_KIND = 1 then 0 else store

section
variable (hr : m.running = true) (hm : m.mode = mBringup) (he : m.map.estDone = false) (ha : m.canariesAsked) (store : Nat)
include hr hm he ha

theorem ageEstimate_asked : ageEstimate store m =
    if !((List.range 32).all m.canSettled) || (m.estimates.isEmpty && m.get GLOBAL.STAT_START_KIND = 0) then m
    else m.ageSet (startAge m.estimates (m.foundAge store)) (startClock m.estimates (m.foundAge store)) := by
  have hfold : ∀ f : Mach → Nat → Mach, (List.range 32).foldl (fun (m : Mach) c =>
      if m.link c = 4 && m.get ZML.LINK_RATE c = 0 && (m.map.ests.get (canKey c 0)).stage = 0 then f m c else m) m = m := fun f =>
    List.foldlRecOn (motive := fun t => t = m) _ _ rfl fun t ht c hc => by
      have hasked := ha c (List.mem_range.1 hc)
      rw [ht]
      exact if_neg (by simpa using hasked)
  have hgo : (!m.running || m.mode ≠ mBringup || m.map.estDone) = false := by simp [hr, hm, he]
  rw [ageEstimate, hgo, if_neg Bool.false_ne_true, hfold]
  rfl

theorem ageEstimate_waits (h : (∃ c < 32, m.canSettled c = false) ∨ (m.estimates = [] ∧ m.get GLOBAL.STAT_START_KIND = 0)) :
    ageEstimate store m = m := by
  rw [ageEstimate_asked hr hm he ha]
  refine if_pos ?_
  rcases h with ⟨c, hc, hs⟩ | ⟨hn, hk⟩
  · have hall : (List.range 32).all m.canSettled = false := List.all_eq_false.2 ⟨c, List.mem_range.2 hc, by simp [hs]⟩
    simp [hall]
  · simp [hn, hk]

theorem ageEstimate_set (hs : ∀ c < 32, m.canSettled c = true) (hk : m.estimates ≠ [] ∨ m.get GLOBAL.STAT_START_KIND ≠ 0) :
    ageEstimate store m =
      m.ageSet (startAge m.estimates (m.foundAge store)) (startClock m.estimates (m.foundAge store)) := by
  have hall : (List.range 32).all m.canSettled = true := List.all_eq_true.2 fun c hc => hs c (List.mem_range.1 hc)
  rw [ageEstimate_asked hr hm he ha, hall]
  refine if_neg ?_
  rcases hk with hk | hk <;> simp [hk]
end

theorem Mach.ageSet_get (m : Mach) (age since : Nat) : (m.ageSet age since).get MAP.AGE_NOW = age % 2 ^ 48 ∧
    (m.ageSet age since).get MAP.AGE_EST = age % 2 ^ 48 ∧ (m.ageSet age since).flag MAP.AGE_EST_ESTIMATED = true ∧
    ((m.ageSet age since).get MAP.WD_EVENT).testBit 4 = true := by
  set marked := ((m.put MAP.AGE_NOW 0 age).put MAP.AGE_EST 0 age).setFlag MAP.AGE_EST_ESTIMATED 0 true with hmarked
  have hkept : ∀ {f : Field}, f.key 0 ≠ MAP.WD_EVENT.key 0 → (m.ageSet age since).get f = marked.get f := Mach.get_put_ne _ _
  have hevent : (m.ageSet age since).get MAP.WD_EVENT = (marked.get MAP.WD_EVENT ||| 2 ^ 4) % 2 ^ 7 := Mach.get_put_same ..
  refine ⟨?_, ?_, ?_, ?_⟩
  · rw [hkept (by decide), hmarked, Mach.get_setFlag_ne _ _ (by decide), Mach.get_put_ne _ _ (by decide), Mach.get_put_same]
    rfl
  · rw [hkept (by decide), hmarked, Mach.get_setFlag_ne _ _ (by decide), Mach.get_put_same]
    rfl
  · rw [Mach.flag, hkept (by decide)]
    exact Mach.flag_setFlag_same _ _ _ _ (by decide)
  · rw [hevent, Nat.testBit_mod_two_pow, Nat.testBit_or, Nat.testBit_two_pow_self]
    simp

end Sys2Proof.Machine
end

section
/-! SUPPORT. The statement on formatting, reclaiming, the drift clock and the canaries. -/
namespace Sys2Proof.Laws
open Sys2Proof.Machine

/-- Settles O28: each row takes the branch that its conditions name; a second that makes no unit's AGE due moves only the clocks from which
promotions run, and the estimate is set only once every channel has settled. At most four formats on a channel (log entry 40), the median as
element n/2 (42), the lease that a format waits for (89), the reading of a canary of unknown age (95), and that an event which is not due
changes nothing (3, 4 and 16) are the model's choices. -/
theorem reclaimAndDrift : Obligations.ReclaimAndDrift := by
  refine ⟨fun s c5 => ⟨fun hw hl hg hr => ⟨fun hb => ?full, fun hb hp => ?none, fun g hb hp hh => ?held, fun g hb hp hro hbusy => ?format⟩,
      fun h => ?stopped, fun h => ?asleep, fun hup hg => ⟨fun hf => ?noRoom, fun hf hl => ?idle, fun ns root lo hi rest hf hl => ?visit⟩⟩,
    fun s c5 k3 store => ⟨fun h => ?inReset, fun hr hup => ?mapDown, fun hr hhigh => ?paused, fun hr hup hlow hstand => ?tick,
      fun h => ?noProgram, fun hw hl he => ⟨fun h0 hs hfull => ?sought, fun h hidle => ?programmed⟩, fun hr hd => ?noSample,
      fun h => ?sampled, fun h => ?estimated, fun hr hm he ha => ⟨fun h => ?waits, fun hs hk => ?set⟩⟩⟩
  case full => exact completes_of_answer (exec_woodshedFormat s _) (woodshedFormat_full hw hl hg hr hb)
  case none => exact completes_of_answer (exec_woodshedFormat s _) (by rw [woodshedFormat_below hw hl hg hr hb, hp]; rfl)
  case held =>
    exact completes_of_answer (exec_woodshedFormat s _)
      (by rw [woodshedFormat_below hw hl hg hr hb, hp]; exact Mach.formatSeg_held false hh)
  case format =>
    have hformat : woodshedFormat c5.toNat s.m = s.m.formatSeg c5.toNat g false := by
      rw [woodshedFormat_below hw hl hg hr hb, hp]
      rfl
    exact ⟨fun h => completes_of_answer (exec_woodshedFormat s _) (hformat.trans (Mach.formatSeg_sent hl hro hbusy false h)),
      fun h => completes_of_answer (exec_woodshedFormat s _) (hformat.trans (Mach.formatSeg_leased hl hro hbusy false h))⟩
  case stopped => exact completes_of_answer (exec_woodshedFormat s _) (woodshedFormat_stopped h)
  case asleep =>
    exact completes_of_answer (exec_reclaimVisit s) (reclaimVisit_stopped (h.imp_right fun hg => by rw [Mach.inGuar, hg.1, hg.2]; rfl))
  case noRoom => exact completes_of_answer (exec_reclaimVisit s) (reclaimVisit_noRoom hup (by simp [Mach.inGuar, hg]) hf)
  case idle => exact completes_of_answer (exec_reclaimVisit s) (reclaimVisit_idle hup (by simp [Mach.inGuar, hg]) hf hl)
  case visit =>
    intro m1 left
    have hnext := reclaimVisit_next hup (by simp [Mach.inGuar, hg]) hf hl
    exact ⟨fun h => completes_of_answer (exec_reclaimVisit s) (hnext.trans (by rw [if_pos (by simpa using h)])),
      fun h => completes_of_answer (exec_reclaimVisit s) (hnext.trans (by rw [if_neg (by simpa using h)]))⟩
  case inReset => exact completes_of_answer (exec_driftClockTick s) (driftTick_inReset h)
  case mapDown => exact completes_of_answer (exec_driftClockTick s) (driftTick_mapDown hr hup)
  case paused => exact completes_of_answer (exec_driftClockTick s) (driftTick_paused hr hhigh)
  case tick =>
    have hstand' : ∀ uk ∈ s.m.map.ents.keys, s.m.secondPassed.ageStands uk := fun uk huk => by
      rw [Mach.ageStands, Mach.secondPassed_now]
      exact hstand uk huk
    refine ⟨_, completes_of_answer (exec_driftClockTick s) (driftTick_stands hr hup hlow hstand'), ?_, ?_, rfl⟩
    · exact Mach.secondPassed_now
    · exact Mach.secondPassed_now
  case noProgram =>
    refine completes_of_answer (exec_canaryProgram s _ _) ?_
    rcases h with h | h | h | ⟨h0, h⟩
    · exact canaryProgram_stopped (.inl h)
    · exact canaryProgram_stopped (.inr (.inl h))
    · exact canaryProgram_stopped (.inr (.inr h))
    · exact canaryProgram_young h0 h
  case sought => exact completes_of_answer (exec_canaryProgram s _ _) (canaryProgram_sought hw hl he h0 hs hfull)
  case programmed => exact completes_of_answer (exec_canaryProgram s _ _) (canaryProgram_programmed hw hl he h hidle)
  case noSample => exact completes_of_answer (exec_canarySample s) (canarySample_stopped hr hd)
  case sampled => exact ⟨_, completes_of_answer (exec_canarySample s) rfl, canarySample_idx h⟩
  case estimated => exact completes_of_answer (exec_ageEstimate s _) (ageEstimate_stopped _ h)
  case waits => exact completes_of_answer (exec_ageEstimate s _) (ageEstimate_waits hr hm he ha _ h)
  case set =>
    refine ⟨_, completes_of_answer (exec_ageEstimate s _) (ageEstimate_set hr hm he ha _ hs hk), ?_⟩
    obtain ⟨hnow, hest, hmark, hevent⟩ := s.m.ageSet_get (startAge s.m.estimates (s.m.foundAge store.toNat))
      (startClock s.m.estimates (s.m.foundAge store.toNat))
    have hage := congrArg (· % 2 ^ 48) (startAge_eq s.m.estimates (s.m.foundAge store.toNat))
    exact ⟨hnow.trans hage, hest.trans hage, hmark, hevent, rfl, startClock_eq _ _⟩

end Sys2Proof.Laws
end

section
/-! SUPPORT. What the engines, the ports, the streams and the lists leave of the namespaces: their descriptors, the count of mapped units
aside, and Collier's state (chapter "Namespaces, the map and placement", R174 to R178). -/
namespace Sys2Proof.Machine

/-- What a change of namespaces rests on: the descriptors, their count of mapped units aside, and Collier's state. -/
def Mach.charter (m : Mach) : (Nat → NsDesc) × PostSt := (fun k => { m.nsDesc k with mapped := 0 }, m.post)

variable (m : Mach)

/-- A change of registers or of the state of another block. -/
@[simp] theorem Mach.mod_charter : (∀ f n v, (m.put f n v).charter = m.charter) ∧ (∀ f n b, (m.setFlag f n b).charter = m.charter) ∧
    (∀ f n k, (m.count f n k).charter = m.charter) ∧ (∀ n f, (m.modPort n f).charter = m.charter) ∧
    (∀ f, (m.modAlm f).charter = m.charter) ∧ (∀ f, (m.modReeve f).charter = m.charter) ∧ (∀ f, (m.modSc f).charter = m.charter) ∧
    (∀ f, (m.modLoom f).charter = m.charter) ∧ (∀ f, (m.modHt f).charter = m.charter) ∧ (∀ f, (m.modMap f).charter = m.charter) ∧
    (∀ f, (m.modRota f).charter = m.charter) ∧ (∀ f, (m.modErr f).charter = m.charter) ∧ (∀ k f, (m.modStr k f).charter = m.charter) ∧
    (∀ n id f, (m.modReq n id f).charter = m.charter) ∧ (∀ k n f, (m.modSlot k n f).charter = m.charter) ∧
    (∀ k f, (m.modSeq k f).charter = m.charter) ∧ (∀ k id f, (m.modEnt k id f).charter = m.charter) ∧
    (∀ p, (m.loomDrop p).charter = m.charter) ∧ (∀ id f, (m.modLadder id f).charter = m.charter) ∧
    (∀ n id k f, (m.modLine n id k f).charter = m.charter) :=
  ⟨fun _ _ _ => rfl, fun _ _ _ => rfl, fun _ _ _ => rfl, fun _ _ => rfl, fun _ => rfl, fun _ => rfl, fun _ => rfl, fun _ => rfl,
    fun _ => rfl, fun _ => rfl, fun _ => rfl, fun _ => rfl, fun _ _ => rfl, fun _ _ _ => rfl, fun _ _ _ => rfl, fun _ _ => rfl,
    fun _ _ _ => rfl, fun _ => rfl, fun _ _ => rfl, fun _ _ _ _ => rfl⟩

@[simp] theorem Mach.events_charter (p : Page) (n v : Nat) : (m.events p n v).charter = m.charter := by rw [Mach.events_regsOnly]; rfl
@[simp] theorem Mach.event_charter (p : Page) (n v : Nat) : (m.event p n v).charter = m.charter := m.events_charter p n _
@[simp] theorem Mach.judgeEst_charter : m.judgeEst.charter = m.charter := by rw [Mach.judgeEst_regsOnly]; rfl

/-- A change of the model's own counters, of the error ring, of a media link or of the order. -/
@[simp] theorem Mach.with_charter : (∀ n, ({ m with serial := n } : Mach).charter = m.charter) ∧
    (∀ n, ({ m with free := n } : Mach).charter = m.charter) ∧ (∀ e, ({ m with err := e } : Mach).charter = m.charter) ∧
    (∀ z, ({ m with zml := z } : Mach).charter = m.charter) ∧ (∀ o, ({ m with order := o } : Mach).charter = m.charter) :=
  ⟨fun _ => rfl, fun _ => rfl, fun _ => rfl, fun _ => rfl, fun _ => rfl⟩

/-- A change of a descriptor that leaves all but its count of mapped units. -/
theorem Mach.modNs_charter {k : Nat} {f : NsDesc → NsDesc} (hf : ∀ d, { f d with mapped := 0 } = { d with mapped := 0 }) :
    (m.modNs k f).charter = m.charter := by
  unfold Mach.charter
  congr 1
  funext j
  by_cases hj : j = k
  · subst hj
    rw [Mach.nsDesc, Mach.modNs, Tab.get_upd_same, hf]
    rfl
  · rw [Mach.nsDesc, Mach.modNs, Tab.get_upd_ne _ hj]
    rfl

@[simp] theorem Mach.setEntRaw_charter (uk e : Nat) : (m.setEntRaw uk e).charter = m.charter := by
  unfold Mach.setEntRaw
  dsimp only
  split
  · exact Mach.modNs_charter _ fun _ => rfl
  · exact Mach.modNs_charter _ fun _ => rfl

@[simp] theorem Mach.ite_charter {p : Prop} [Decidable p] (a b : Mach) :
    (if p then a else b).charter = if p then a.charter else b.charter := apply_ite _ _ _ _

@[simp] theorem Mach.snd_ite_charter {α : Type} {p : Prop} [Decidable p] (a b : α × Mach) :
    (if p then a else b).2.charter = if p then a.2.charter else b.2.charter := apply_ite (fun x : α × Mach => x.2.charter) _ _ _

@[simp] theorem Mach.foldl_charter {α : Type} {f : Mach → α → Mach} (hf : ∀ m x, (f m x).charter = m.charter) (l : List α) :
    (l.foldl f m).charter = m.charter := foldl_keeps Mach.charter hf l m

@[simp] theorem Mach.foldl_snd_charter {α β : Type} {f : β × Mach → α → β × Mach} (hf : ∀ p x, (f p x).2.charter = p.2.charter) (l : List α)
    (p : β × Mach) : (l.foldl f p).2.charter = p.2.charter := foldl_keeps (fun p => p.2.charter) hf l p


/-! ### The schedule and overruns (R45 to R54) -/

@[simp] theorem Mach.recordLate_charter (ticks : Nat) : (m.recordLate ticks).charter = m.charter := by simp [Mach.recordLate]
@[simp] theorem Mach.unitsEnded_charter (m0 : Mach) (kind : Nat) : (m.unitsEnded m0 kind).charter = m.charter := by simp [Mach.unitsEnded]
@[simp] theorem Mach.setEntry_charter (i : Nat) (e : Entry) : (m.setEntry i e).charter = m.charter := by simp [Mach.setEntry]
@[simp] theorem Mach.showNext_charter : m.showNext.charter = m.charter := by
  unfold Mach.showNext
  split <;> rfl

@[simp] theorem Mach.showLoomFull_charter (wanted : Bool) : (m.showLoomFull wanted).charter = m.charter := by simp [Mach.showLoomFull]

/-! ### Line requests (R363) -/

@[simp] theorem Mach.enqueue_charter (k : Nat) (q : LineReq) : (m.enqueue k q).charter = m.charter := by simp [Mach.enqueue]
@[simp] theorem Mach.withdrawWhere_charter (p : LineReq → Bool) : (m.withdrawWhere p).charter = m.charter := by simp [Mach.withdrawWhere]

/-! ### The error ring, copies in Loom, and Hearth (R159, R254, R275 to R283) -/

@[simp] theorem Mach.showRing_charter : m.showRing.charter = m.charter := by simp [Mach.showRing]
@[simp] theorem Mach.ringAdd_charter (r : RingInfo) : (m.ringAdd r).charter = m.charter := by simp [Mach.ringAdd]
@[simp] theorem Mach.poisoned_charter (k : Nat) : (m.poisoned k).charter = m.charter := by simp [Mach.poisoned]
@[simp] theorem Mach.loomDiscard_charter (l : Nat) (flying : Bool) :
    (m.loomDiscard l flying).charter = m.charter := by simp [Mach.loomDiscard]

@[simp] theorem Mach.poisonLine_charter (l : Nat) : (m.poisonLine l).charter = m.charter := by simp [Mach.poisonLine]
@[simp] theorem Mach.hWrite_charter (p : Nat × Nat) (line : Nat) (l : HLine) :
    (m.hWrite p line l).charter = m.charter := by simp [Mach.hWrite]

@[simp] theorem Mach.bumpCgen_charter (ns : Nat) : (m.bumpCgen ns).charter = m.charter := by simp [Mach.bumpCgen]
@[simp] theorem Mach.setDir_charter (e : Nat) (d : DirEnt) : (m.setDir e d).charter = m.charter := by simp [Mach.setDir]
@[simp] theorem Mach.homeWrite_charter (l : Nat) (d : Line) (cls : Nat) (lastUse : Bool) :
    (m.homeWrite l d cls lastUse).charter = m.charter := by simp [Mach.homeWrite]

@[simp] theorem Mach.homeEmpty_charter (p : Nat × Nat) : (m.homeEmpty p).charter = m.charter := by simp [Mach.homeEmpty]
@[simp] theorem Mach.keepHome_charter (l : Nat) (d : Line) (cls : Nat) (noalloc lastUse fill : Bool) :
    (m.keepHome l d cls noalloc lastUse fill).charter = m.charter := by simp [Mach.keepHome]

@[simp] theorem Mach.hQueue_charter (rq : Nat) (p : Nat × Nat) (write : Bool) (job : Job) (port : Option Nat) (green : Bool) :
    (m.hQueue rq p write job port green).charter = m.charter := by simp [Mach.hQueue]

@[simp] theorem Mach.dirtyWrite_charter (e : Nat) (d : Line) (cls : Nat) :
    (m.dirtyWrite e d cls).charter = m.charter := by simp [Mach.dirtyWrite]

@[simp] theorem Mach.dirtyLadder_charter (e rq port : Nat) (demand merge : Bool) (at_ : Nat) :
    (m.dirtyLadder e rq port demand merge at_).2.charter = m.charter := by simp [Mach.dirtyLadder]

@[simp] theorem Mach.dirtyRead_charter (e rq port : Nat) (demand merge : Bool) (at_ : Nat) :
    (m.dirtyRead e rq port demand merge at_).2.2.charter = m.charter := by
  unfold Mach.dirtyRead
  dsimp only
  split
  · rfl
  · split
    · simp
    · rfl

@[simp] theorem Mach.dirFreeEnt_charter (e : Nat) : (m.dirFreeEnt e).charter = m.charter := by simp [Mach.dirFreeEnt]

/-! ### Warming (R191) -/

@[simp] theorem Mach.showWarm_charter : m.showWarm.charter = m.charter := by simp [Mach.showWarm]

/-! ### The map and its log (R181 to R204) -/

@[simp] theorem Mach.mQueue_charter (c : Nat) (rx : Bool) (rq : Nat) (md : Media) (job : Job) (port : Option Nat) (green : Bool) :
    (m.mQueue c rx rq md job port green).charter = m.charter := by simp [Mach.mQueue]

@[simp] theorem Mach.storeProg_charter (pair seg pos : Nat) (d : Line) (rq : Nat) (job : Job) :
    (m.storeProg pair seg pos d rq job).2.charter = m.charter := by simp [Mach.storeProg]

@[simp] theorem Mach.spaceProg_charter (x : Nat) (d : Line) (rq : Nat) (job : Job) :
    (m.spaceProg x d rq job).2.charter = m.charter := by simp [Mach.spaceProg]

@[simp] theorem Mach.setFill_charter (v : Nat) : (m.setFill v).charter = m.charter := by simp [Mach.setFill]
@[simp] theorem Mach.deltaLineOut_charter : m.deltaLineOut.charter = m.charter := by simp [Mach.deltaLineOut]
@[simp] theorem Mach.deltaStall_charter : m.deltaStall.charter = m.charter := by simp [Mach.deltaStall]
@[simp] theorem Mach.deltaPut_charter (kind ns idx w : Nat) : (m.deltaPut kind ns idx w).charter = m.charter := by simp [Mach.deltaPut]
@[simp] theorem Mach.ledgerWrite_charter (c s pos : Nat) : (m.ledgerWrite c s pos).charter = m.charter := by simp [Mach.ledgerWrite]
@[simp] theorem Mach.ckptPageWrite_charter (pg : Nat) : (m.ckptPageWrite pg).2.charter = m.charter := by simp [Mach.ckptPageWrite]
@[simp] theorem Mach.ckptStart_charter : m.ckptStart.charter = m.charter := by simp [Mach.ckptStart]
@[simp] theorem Mach.deltaCrossed_charter (m0 : Mach) : (m.deltaCrossed m0).charter = m.charter := by simp [Mach.deltaCrossed]
@[simp] theorem Mach.delta_charter (kind ns idx w : Nat) : (m.delta kind ns idx w).2.charter = m.charter := by simp [Mach.delta]
@[simp] theorem Mach.dirtyPage_charter (pg : Nat) : (m.dirtyPage pg).charter = m.charter := by simp [Mach.dirtyPage]
@[simp] theorem Mach.mapCell_charter (pg j : Nat) : (m.mapCell pg j).charter = m.charter := by simp [Mach.mapCell]
@[simp] theorem Mach.hmapAdd_charter (pg : Nat) : (m.hmapAdd pg).charter = m.charter := by simp [Mach.hmapAdd]
@[simp] theorem Mach.poolTake_charter : (m.poolTake).2.charter = m.charter := by simp [Mach.poolTake]
@[simp] theorem Mach.sramTouch_charter (key : Nat) : (m.sramTouch key).charter = m.charter := by simp [Mach.sramTouch]
@[simp] theorem Mach.flipS_charter (ram : Nat) : (m.flipS ram).2.charter = m.charter := by simp [Mach.flipS]
@[simp] theorem Mach.wordWrite_charter (key : Nat) : (m.wordWrite key).charter = m.charter := by simp [Mach.wordWrite]
@[simp] theorem Mach.entCached_charter (uk : Nat) : (m.entCached uk).charter = m.charter := by simp [Mach.entCached]
@[simp] theorem Mach.setSeg_charter (c s : Nat) (x : SegSt) : (m.setSeg c s x).charter = m.charter := by simp [Mach.setSeg]
@[simp] theorem Mach.freeSegs_charter (e : Nat) : (m.freeSegs e).charter = m.charter := by simp [Mach.freeSegs]
@[simp] theorem Mach.dropUnit_charter (uk : Nat) : (m.dropUnit uk).charter = m.charter := by simp [Mach.dropUnit]
@[simp] theorem Mach.clearWord_charter (pg ns idx : Nat) : (m.clearWord pg ns idx).charter = m.charter := by simp [Mach.clearWord]
@[simp] theorem Mach.reclaimRoot_charter (ns root lo hi : Nat) :
    (m.reclaimRoot ns root lo hi).charter = m.charter := by simp [Mach.reclaimRoot]

@[simp] theorem Mach.orphan_charter (ns root : Nat) : (m.orphan ns root).charter = m.charter := by simp [Mach.orphan]
@[simp] theorem Mach.setReclaim_charter (l : List (Nat × Nat × Nat × Nat)) :
    (m.setReclaim l).charter = m.charter := by simp [Mach.setReclaim]

@[simp] theorem Mach.addReclaim_charter (x : Nat × Nat × Nat × Nat) : (m.addReclaim x).charter = m.charter := by
  unfold Mach.addReclaim
  dsimp only
  split <;> simp

@[simp] theorem Mach.ensureTree_charter (uk : Nat) : (m.ensureTree uk).charter = m.charter := by simp [Mach.ensureTree]
@[simp] theorem Mach.setEnt_charter (uk e : Nat) : (m.setEnt uk e).2.charter = m.charter := by simp [Mach.setEnt]
@[simp] theorem Mach.setEntFlag_charter (uk k : Nat) (b : Bool) : (m.setEntFlag uk k b).2.charter = m.charter := by simp [Mach.setEntFlag]
@[simp] theorem Mach.sramFail_charter (r : RingInfo) : (m.sramFail r).charter = m.charter := by simp [Mach.sramFail]
@[simp] theorem Mach.ramWordFail_charter (path outcome rq : Nat) :
    (m.ramWordFail path outcome rq).charter = m.charter := by simp [Mach.ramWordFail]

@[simp] theorem Mach.mapFetchMedia_charter (key : Nat) : (m.mapFetchMedia key).charter = m.charter := by simp [Mach.mapFetchMedia]
@[simp] theorem Mach.mapFetch_charter (key : Nat) : (m.mapFetch key).charter = m.charter := by simp [Mach.mapFetch]
@[simp] theorem Mach.sramReload_charter (key : Nat) : (m.sramReload key).charter = m.charter := by simp [Mach.sramReload]
@[simp] theorem Mach.lookedUp_charter (key : Nat) : (m.lookedUp key).charter = m.charter := by simp [Mach.lookedUp]
@[simp] theorem Mach.lookup_charter (uk : Nat) : (m.lookup uk).2.charter = m.charter := by simp [Mach.lookup]

/-! ### Reservations and rebuilding (R182, R204) -/

@[simp] theorem Mach.setReserve_charter (ns prot units home : Nat) :
    (m.setReserve ns prot units home).charter = m.charter := by simp [Mach.setReserve]

@[simp] theorem Mach.setRebuild_charter (uk c : Nat) : (m.setRebuild uk c).charter = m.charter := by simp [Mach.setRebuild]

/-! ### Requests withdrawn (R373) -/

@[simp] theorem Mach.showMaxWait_charter (a : Nat) (q : LineReq) : (m.showMaxWait a q).charter = m.charter := by simp [Mach.showMaxWait]
@[simp] theorem Mach.withdraw_charter (p : LineReq → Bool) : (m.withdraw p).charter = m.charter := by simp [Mach.withdraw]

/-! ### Values overtaken (R246, R250) -/

@[simp] theorem Mach.gleanAdd_charter (key n : Nat) : (m.gleanAdd key n).charter = m.charter := by simp [Mach.gleanAdd]
@[simp] theorem Mach.gleanSub_charter (key n : Nat) : (m.gleanSub key n).charter = m.charter := by simp [Mach.gleanSub]
@[simp] theorem Mach.setBad_charter (l : List Nat) : (m.setBad l).charter = m.charter := by simp [Mach.setBad]
@[simp] theorem Mach.gleanDropped_charter (gs : List (Nat × Nat)) : (m.gleanDropped gs).charter = m.charter := by simp [Mach.gleanDropped]
@[simp] theorem Mach.dropRepairs_charter (key : Nat) : (m.dropRepairs key).charter = m.charter := by simp [Mach.dropRepairs]
@[simp] theorem Mach.dropRewrite_charter (uk key : Nat) : (m.dropRewrite uk key).charter = m.charter := by simp [Mach.dropRewrite]
@[simp] theorem Mach.markReads_charter (hit : Nat → Bool → Bool) : (m.markReads hit).charter = m.charter := rfl
@[simp] theorem Mach.overtake_charter (line : Nat) (par : Bool) : (m.overtake line par).charter = m.charter := by simp [Mach.overtake]
@[simp] theorem Mach.keepPoison_charter (uk : Nat) (p : Nat × Nat × Nat) (line : Nat) (par : Bool) (d : Line) :
    (m.keepPoison uk p line par d).charter = m.charter := by simp [Mach.keepPoison]

@[simp] theorem Mach.progLine_charter (rq uk i : Nat) (d : Line) (gen mark : Nat) (birth : Option Nat) (job : Job) :
    (m.progLine rq uk i d gen mark birth job).2.charter = m.charter := by simp [Mach.progLine]

/-! ### Dirty lines and streams (R124 to R142, R277) -/

@[simp] theorem Mach.putDirty_charter (rq l : Nat) (d : Line) (cls : Nat) (mirror lastUse : Bool) :
    (m.putDirty rq l d cls mirror lastUse).2.charter = m.charter := by
  unfold Mach.putDirty
  dsimp only
  split
  · simp
  · split
    · simp
    · split
      · split <;> simp
      · simp

@[simp] theorem Mach.showKiln_charter : m.showKiln.charter = m.charter := by simp [Mach.showKiln]
@[simp] theorem Mach.showStr_charter (k : Nat) : (m.showStr k).charter = m.charter := by simp [Mach.showStr]
@[simp] theorem Mach.newValue_charter (l : Nat) : (m.newValue l).charter = m.charter := by simp [Mach.newValue]
@[simp] theorem Mach.idxFlush_charter (k : Nat) (final : Bool) (fuel : Nat) : (m.idxFlush k final fuel).charter = m.charter := by
  induction fuel generalizing m with
  | zero => rfl
  | succ fuel ih =>
    unfold Mach.idxFlush
    simp [ih]

@[simp] theorem Mach.idxAppend_charter (k fl off : Nat) : (m.idxAppend k fl off).charter = m.charter := by simp [Mach.idxAppend]
@[simp] theorem Mach.strWindow_charter (k e : Nat) : (m.strWindow k e).charter = m.charter := by simp [Mach.strWindow]
@[simp] theorem Mach.strEnd_charter (k reason e : Nat) : (m.strEnd k reason e).charter = m.charter := by simp [Mach.strEnd]
@[simp] theorem Mach.strDiscard_charter (k reason : Nat) : (m.strDiscard k reason).charter = m.charter := by simp [Mach.strDiscard]
@[simp] theorem Mach.stagedRead_charter (k : Nat) (s : Slot) (d : Nat) (ri : RingInfo) (at_ : Nat) :
    (m.stagedRead k s d ri at_).2.2.2.charter = m.charter := by
  unfold Mach.stagedRead
  dsimp only
  split
  · rfl
  · split <;> simp

@[simp] theorem Mach.spilledRead_charter (k : Nat) (s : Slot) (d : Nat) (drain : Bool) (ri : RingInfo) (at_ : Nat) :
    (m.spilledRead k s d drain ri at_).2.2.2.charter = m.charter := by
  unfold Mach.spilledRead
  dsimp only
  split
  · rfl
  · split
    · rfl
    · split <;> simp

@[simp] theorem Mach.slotRead_charter (k : Nat) (s : Slot) (d : Nat) (drain : Bool) (rq port : Nat) (demand : Bool) (at_ : Nat) :
    (m.slotRead k s d drain rq port demand at_).2.2.2.charter = m.charter := by
  unfold Mach.slotRead
  dsimp only
  split
  · rfl
  · split <;> simp

theorem Mach.kilnRead_charter {l rq port : Nat} {demand : Bool} {at_ st : Nat} {d : Line} {t : Mach}
    (h : m.kilnRead l rq port demand at_ = some (st, d, t)) : t.charter = m.charter := by
  unfold Mach.kilnRead at h
  split at h
  · exact absurd h nofun
  · obtain ⟨-, -, rfl⟩ := by simpa using h
    simp

/-! ### Ladders (R240 to R250) -/

@[simp] theorem Mach.readLine_charter (rq uk : Nat) (p : Nat × Nat × Nat) (line bkt : Nat) (job : Job) (port : Option Nat)
    (green : Bool) (par : Bool) :
    (m.readLine rq uk p line bkt job port green par).charter = m.charter := by simp [Mach.readLine]

@[simp] theorem Mach.gleanProgs_charter (key gl n : Nat) : (m.gleanProgs key gl n).charter = m.charter := by simp [Mach.gleanProgs]
@[simp] theorem Mach.ladderEnd_charter (l : Ladder) (o : Out) (outcome : Nat) (restored : Bool) :
    (m.ladderEnd l o outcome restored).2.charter = m.charter := by
  unfold Mach.ladderEnd
  dsimp only
  split <;> simp

@[simp] theorem Mach.ladderLost_charter (l : Ladder) : (m.ladderLost l).2.charter = m.charter := by simp [Mach.ladderLost]
@[simp] theorem Mach.ladderStep4_charter (l : Ladder) : (m.ladderStep4 l).2.charter = m.charter := by
  unfold Mach.ladderStep4
  split
  · dsimp only
    split
    · simp
    · split <;> simp
  · simp

@[simp] theorem Mach.newLadder_charter (job : Job) (line uk : Nat) (p : Nat × Nat × Nat) (rq : Nat) (port : Option Nat)
    (demand merge noRepair own : Bool) (at_ : Nat) (first : Line) (gen birth : Nat) (todo : List Nat) (par : Bool) (newer : Bool) :
    (m.newLadder job line uk p rq port demand merge noRepair own at_ first gen birth todo par newer).2.charter = m.charter := rfl

@[simp] theorem Mach.joinLadder_charter (l : Ladder) (job : Job) (port : Option Nat) (demand merge : Bool) (at_ : Nat) :
    (m.joinLadder l job port demand merge at_).charter = m.charter := by simp [Mach.joinLadder]

@[simp] theorem Mach.startRead_charter (rq line : Nat) (job : Job) (port : Option Nat) (green demand merge noRepair : Bool) (at_ : Nat) :
    (m.startRead rq line job port green demand merge noRepair at_).2.charter = m.charter := by
  unfold Mach.startRead
  dsimp only
  split
  · simp
  · split <;> simp

/-! ### Lines of requests (R91 to R95) -/

@[simp] theorem Mach.coherent_charter (rq port l : Nat) (demand merge : Bool) (at_ : Nat) :
    (m.coherent rq port l demand merge at_).2.2.charter = m.charter := by
  unfold Mach.coherent
  split
  case h_1 st d m1 hk => exact Mach.kilnRead_charter _ hk
  case h_2 =>
    split
    · simp
    · dsimp only
      split
      · split <;> simp
      · rfl

@[simp] theorem Mach.refetched_charter (rq port : Nat) (demand merge : Bool) (at_ : Nat) (hf : HFail) (st bound : Nat) (lost : Bool) :
    (m.refetched rq port demand merge at_ hf st bound lost).charter = m.charter := by simp [Mach.refetched]

@[simp] theorem Mach.streamHint_charter (r : Req) : (m.streamHint r).charter = m.charter := by simp [Mach.streamHint]
@[simp] theorem Mach.lineDone_charter (port id k st : Nat) (d : Line) (cls : Nat) :
    (m.lineDone port id k st d cls).charter = m.charter := by
  unfold Mach.lineDone
  dsimp only
  split
  · simp
  · simp

@[simp] theorem Mach.readEffect_charter (port : Nat) (r : Req) (k st : Nat) (d : Line) (cls : Nat) :
    (m.readEffect port r k st d cls).charter = m.charter := by simp [Mach.readEffect]

@[simp] theorem Mach.markLastUse_charter (l : Nat) : (m.markLastUse l).charter = m.charter := by
  unfold Mach.markLastUse
  split <;> simp

@[simp] theorem Mach.recordWrite_charter (port id l serial : Nat) :
    (m.recordWrite port id l serial).charter = m.charter := by simp [Mach.recordWrite]

@[simp] theorem Mach.writeEffect_charter (port : Nat) (r : Req) (k st : Nat) (d : Line) (cls : Nat) :
    (m.writeEffect port r k st d cls).charter = m.charter := by simp [Mach.writeEffect]

@[simp] theorem Mach.keepFound_charter (port id k st : Nat) (d : Line) (cls : Nat) :
    (m.keepFound port id k st d cls).charter = m.charter := by simp [Mach.keepFound]

@[simp] theorem Mach.mergeEffect_charter (port : Nat) (r : Req) (k st : Nat) (old : Line) (cls : Nat) :
    (m.mergeEffect port r k st old cls).charter = m.charter := by simp [Mach.mergeEffect]

@[simp] theorem Mach.clearEffect_charter (port : Nat) (r : Req) (k found : Nat) :
    (m.clearEffect port r k found).charter = m.charter := by simp [Mach.clearEffect]

@[simp] theorem Mach.valueEffect_charter (port : Nat) (r : Req) (k st : Nat) (d : Line) (cls : Nat) :
    (m.valueEffect port r k st d cls).charter = m.charter := by simp [Mach.valueEffect]

@[simp] theorem Mach.missEffect_charter (port : Nat) (r : Req) (k : Nat) : (m.missEffect port r k).charter = m.charter := by
  unfold Mach.missEffect
  dsimp only
  split
  · simp
  · split
    · simp
    · split <;> simp

@[simp] theorem Mach.filledEffect_charter (port : Nat) (r : Req) (k : Nat) (x : LineSt) :
    (m.filledEffect port r k x).charter = m.charter := by
  unfold Mach.filledEffect
  dsimp only
  cases x.hfail <;> simp

@[simp] theorem Mach.lineStep_charter (port : Nat) (r : Req) (k : Nat) : (m.lineStep port r k).charter = m.charter := by
  unfold Mach.lineStep
  dsimp only
  split
  · simp
  · simp
  · split
    · rfl
    · split
      · simp
      · split
        · simp
        · split <;> simp
  · rfl

/-! ### Lists (R153 to R170) -/

@[simp] theorem Mach.showLoom_charter : m.showLoom.charter = m.charter := by simp [Mach.showLoom]
@[simp] theorem Mach.showSeq_charter (k : Nat) : (m.showSeq k).charter = m.charter := by
  unfold Mach.showSeq
  dsimp only
  split <;> simp

@[simp] theorem Mach.unpin_charter (us : List Nat) : (m.unpin us).charter = m.charter := by simp [Mach.unpin]
@[simp] theorem Mach.dropEnts_charter (k : Nat) (gone : LEnt → Bool) : (m.dropEnts k gone).charter = m.charter := by
  unfold Mach.dropEnts
  simp only [Mach.showLoomFull_charter, Mach.showNext_charter, Mach.mod_charter]
  refine (Mach.foldl_charter _ (fun m e => ?_) _).trans (by simp)
  split <;> simp

@[simp] theorem Mach.squashCopies_charter (k : Nat) (ids : List Nat) :
    (m.squashCopies k ids).charter = m.charter := by simp [Mach.squashCopies]

@[simp] theorem Mach.squash_charter (k : Nat) (b : LBranch) :
    (m.squash k b).charter = m.charter := ((Mach.with_charter _).2.1 _).trans (by simp)

@[simp] theorem Mach.clearDues_charter (k : Nat) : (m.clearDues k).charter = m.charter := by simp [Mach.clearDues]
@[simp] theorem Mach.seqStop_charter (k reason idx : Nat) (cut : Bool) : (m.seqStop k reason idx cut).charter = m.charter := by
  unfold Mach.seqStop
  dsimp only
  split <;> simp

@[simp] theorem Mach.seqNsStop_charter (hit : Nat → Nat → Nat → Bool) : (m.seqNsStop hit).charter = m.charter := by
  unfold Mach.seqNsStop
  refine Mach.foldl_charter _ (fun m k => ?_) _
  dsimp only
  split
  · simp
  · rfl

/-! ### Reservations released (R177) -/

@[simp] theorem Mach.releaseResv_charter : m.releaseResv.charter = m.charter := by simp [Mach.releaseResv]

/-! ### Holds (R114 to R116) -/

@[simp] theorem Mach.endHolds_charter (p : Hold → Bool) : (m.endHolds p).charter = m.charter := by simp [Mach.endHolds]

/-! ### The removed range (R178, R201, R509) -/

@[simp] theorem Mach.nsRecords_charter (k : Nat) : (m.nsRecords k).charter = m.charter := by simp [Mach.nsRecords]
@[simp] theorem Mach.unqueue_charter (port id : Nat) : (m.unqueue port id).charter = m.charter := by simp [Mach.unqueue]
@[simp] theorem Mach.abortReq_charter (port id : Nat) : (m.abortReq port id).charter = m.charter := by simp [Mach.abortReq]
@[simp] theorem Mach.forceLine_charter (port id k : Nat) : (m.forceLine port id k).charter = m.charter := by
  unfold Mach.forceLine
  split
  · rfl
  · split
    · rfl
    · extract_lets +lift m1 m2
      have h2 : m2.charter = m.charter := by
        dsimp only [m2]
        split <;> simp [m1]
      clear_value m2
      split
      · exact h2
      · extract_lets +lift x c
        split
        · exact h2
        · split
          · simp [h2]
          · split
            · split <;> simp [c, h2]
            · exact h2

@[simp] theorem Mach.cutRequests_charter (k lo : Nat) (ss : List Nat) :
    (m.cutRequests k lo ss).charter = m.charter := by simp [Mach.cutRequests]

@[simp] theorem Mach.removeRange_charter (k lo reason : Nat) :
    (m.removeRange k lo reason).charter = m.charter := by simp [Mach.removeRange]


end Sys2Proof.Machine
end

section
/-! SUPPORT. What each change of a namespace leaves in its descriptor, and that the block waiting for it is committed (chapter "Namespaces,
the map and placement", R174 to R178, R201, R202). -/
namespace Sys2Proof.Machine

/-! ### What the charter tells -/

section
variable {a b : Mach} (h : b.charter = a.charter)
include h

/-- Only the count of mapped units can have changed. -/
theorem Mach.nsDesc_of_charter (k : Nat) : ∃ n, b.nsDesc k = { a.nsDesc k with mapped := n } := by
  have hk : { b.nsDesc k with mapped := 0 } = { a.nsDesc k with mapped := 0 } := congrFun (congrArg Prod.fst h) k
  exact ⟨(b.nsDesc k).mapped, congrArg (fun d => { d with mapped := (b.nsDesc k).mapped }) hk⟩

theorem Mach.post_of_charter : b.post = a.post := congrArg Prod.snd h
end

variable (m : Mach) (c : Cmd)

theorem Mach.nsDesc_modNs (k : Nat) (f : NsDesc → NsDesc) : (m.modNs k f).nsDesc k = f (m.nsDesc k) := Tab.get_upd_same ..

theorem Mach.modNs_post (k : Nat) (f : NsDesc → NsDesc) : (m.modNs k f).post = m.post := rfl

/-- A descriptor changed once, and then left alone but for its count of mapped units. -/
theorem Mach.nsDesc_of_modNs {t : Mach} {k : Nat} {f : NsDesc → NsDesc} (h : t.charter = (m.modNs k f).charter) :
    ∃ n, t.nsDesc k = { f (m.nsDesc k) with mapped := n } := by
  obtain ⟨n, hn⟩ := Mach.nsDesc_of_charter h k
  exact ⟨n, by rw [hn, Mach.nsDesc_modNs]⟩

/-! ### The four changes (R175 to R177, R201) -/

/-- The EPOCH that an increment gives (R177). -/
def Mach.epochAfter (k : Nat) : Nat := (m.epoch k + 1) % 2 ^ 32

theorem Mach.nextEpoch_charter (k : Nat) :
    (m.nextEpoch k).charter = (m.modNs k fun d => { d with epoch := (d.epoch + 1) % 2 ^ 32, mapped := 0 }).charter := by
  simp [Mach.nextEpoch]

theorem Mach.nextEpoch_desc (k : Nat) :
    ∃ n, (m.nextEpoch k).nsDesc k = { m.nsDesc k with epoch := m.epochAfter k, mapped := n } :=
  m.nsDesc_of_modNs (m.nextEpoch_charter k)

/-- The descriptor that NS_CREATE gives (R175). -/
def Cmd.created (c : Cmd) (d : NsDesc) : NsDesc := { d with
  size := c.size, prot := c.prot, ephemeral := bitAt c.p0.toNat 10, faultPolicy := bitAt c.p0.toNat 11, exists_ := true,
  readPorts := bits c.p2.toNat 0 16, writePorts := bits c.p2.toNat 16 16, homeX := Nat.xor c.home (c.ns % 32) }

theorem Mach.nsCreated_charter : (m.nsCreated c).charter = ((m.nextEpoch c.ns).modNs c.ns c.created).charter := by
  simp only [Mach.nsCreated, Mach.nsRecords_charter, Mach.setReserve_charter]
  rfl

theorem Mach.nsCreated_desc :
    ∃ n, (m.nsCreated c).nsDesc c.ns = { c.created { m.nsDesc c.ns with epoch := m.epochAfter c.ns } with mapped := n } := by
  obtain ⟨n, hn⟩ := Mach.nsDesc_of_modNs _ (m.nsCreated_charter c)
  obtain ⟨j, hj⟩ := m.nextEpoch_desc c.ns
  exact ⟨n, by rw [hn, hj]; rfl⟩

theorem Mach.nsCreated_post : (m.nsCreated c).post = m.post := by
  rw [Mach.post_of_charter (m.nsCreated_charter c), Mach.modNs_post, Mach.post_of_charter (m.nextEpoch_charter c.ns), Mach.modNs_post]

theorem Mach.removeAll_desc (k reason : Nat) :
    ∃ n, (m.removeAll k reason).nsDesc k = { m.nsDesc k with epoch := m.epochAfter k, mapped := n } := by
  obtain ⟨j, hj⟩ := Mach.nsDesc_of_charter (m.removeRange_charter k 0 reason) k
  obtain ⟨n, hn⟩ := (m.removeRange k 0 reason).nextEpoch_desc k
  exact ⟨n, by rw [Mach.removeAll, hn, Mach.epochAfter, Mach.epoch, hj]; rfl⟩

theorem Mach.nsDeleted_desc (k : Nat) :
    ∃ n, (m.nsDeleted k).nsDesc k = { m.nsDesc k with epoch := m.epochAfter k, exists_ := false, mapped := n } := by
  have hdel : (m.nsDeleted k).charter = ((m.removeAll k 4).modNs k fun d => { d with exists_ := false }).charter := by
    simp only [Mach.nsDeleted, Mach.keepResv, Mach.releaseResv_charter, Mach.mod_charter, Mach.nsRecords_charter]
  obtain ⟨n, hn⟩ := Mach.nsDesc_of_modNs _ hdel
  obtain ⟨j, hj⟩ := m.removeAll_desc k 4
  exact ⟨n, by rw [hn, hj]⟩

/-- The descriptor that NS_RESIZE gives (R176). -/
def Cmd.resized (c : Cmd) (d : NsDesc) : NsDesc := { d with
  size := c.size, faultPolicy := bitAt c.p0.toNat 11, readPorts := bits c.p2.toNat 0 16, writePorts := bits c.p2.toNat 16 16,
  homeX := Nat.xor c.home (c.ns % 32) }

theorem Mach.nsResized_desc : ∃ n, (m.nsResized c).nsDesc c.ns = { c.resized (m.nsDesc c.ns) with mapped := n } := by
  unfold Mach.nsResized
  extract_lets k d rd u shrink m1 m2 gone roots m3
  have h2 : m2.charter = m.charter := by simp [m2, m1]
  obtain ⟨j, hj⟩ := Mach.nsDesc_of_charter h2 c.ns
  obtain ⟨n, hn⟩ := Mach.nsDesc_of_charter (a := m3)
    (b := ((roots.foldl (fun m x => m.addReclaim x) m3).setReserve k d.prot u c.home).nsRecords k) (by simp) c.ns
  refine ⟨n, hn.trans ?_⟩
  rw [Mach.nsDesc_modNs, hj]
  rfl

theorem Mach.purgedOne_desc (k : Nat) :
    ∃ n, ((m.removeAll k 5).nsRecords k).nsDesc k = { m.nsDesc k with epoch := m.epochAfter k, mapped := n } := by
  obtain ⟨n, hn⟩ := Mach.nsDesc_of_charter ((m.removeAll k 5).nsRecords_charter k) k
  obtain ⟨j, hj⟩ := m.removeAll_desc k 5
  exact ⟨n, by rw [hn, hj]⟩

/-! ### NS_BROADCAST (R178, R202) -/

/-- The namespaces that a block changes. -/
def Mach.changing : List Nat := if c.op = 5 then m.purged c else [c.ns]

/-- The change that a block asks for. -/
def Mach.nsChanged : Mach :=
  if c.op = 1 then m.nsCreated c
  else if c.op = 2 then m.nsDeleted c.ns
  else if c.op = 4 then m.nsResized c
  else (m.changing c).foldl (fun m k => (m.removeAll k 5).nsRecords k) m

/-- The block has passed its commit point. -/
def Mach.nsCommitted (m : Mach) (id : Nat) : Mach := m.modCmd id fun x => { x with stage := 2, committed := true }

theorem Mach.nsCommitted_mem {m : Mach} {c : Cmd} (h : c ∈ m.post.cmds) :
    ∃ x ∈ (m.nsCommitted c.id).post.cmds, x.id = c.id ∧ x.stage = 2 ∧ x.committed = true :=
  ⟨{ c with stage := 2, committed := true }, List.mem_map.2 ⟨c, h, if_pos rfl⟩, rfl, rfl, rfl⟩

/-- The block whose change the tree carries (R202). -/
def Mach.carried : Option Cmd := m.post.cmds.find? fun x => x.stage = 1 && (x.op = 1 || x.op = 2 || x.op = 4 || x.op = 5)

theorem nsBroadcast_done {m : Mach} {c : Cmd} (hc : m.carried = some c) (hup : m.mapUp = true) (hroom : m.deltaFull = false)
    (hepoch : c.op ≠ 4 → ∀ k ∈ m.changing c, m.epochWaits k = false) (hgrow : c.op = 4 → m.growWaits c = false) :
    nsBroadcast m = (m.nsChanged c).nsCommitted c.id := by
  have hfree : (c.op ≠ 4 && (m.changing c).any m.epochWaits) = false := by simpa using hepoch
  have hsize : (c.op = 4 && m.growWaits c) = false := by simpa using hgrow
  rw [Mach.carried] at hc
  rw [Mach.changing] at hfree
  simp only [nsBroadcast, hc, hup, hfree, hsize, Mach.whenRoom, hroom]
  rfl

theorem Mach.changing_one {m : Mach} {c : Cmd} (h : c.op = 5 → bitAt c.p0.toNat 8 = false) : m.changing c = [c.ns] := by
  rw [Mach.changing]
  split
  case isTrue h5 => rw [Mach.purged, h h5, if_neg Bool.false_ne_true]
  case isFalse => rfl

/-- A create, a delete or a purge of one namespace waits only for the EPOCH of that namespace (R203). -/
theorem nsBroadcast_one {m : Mach} {c : Cmd} (hc : m.carried = some c) (hup : m.mapUp = true) (hroom : m.deltaFull = false)
    (hepoch : m.epochWaits c.ns = false) (h4 : c.op ≠ 4) (h5 : c.op = 5 → bitAt c.p0.toNat 8 = false) :
    nsBroadcast m = (m.nsChanged c).nsCommitted c.id :=
  nsBroadcast_done hc hup hroom (fun _ k hk => by
    rw [Mach.changing_one h5, List.mem_singleton] at hk
    rw [hk, hepoch]) fun h => absurd h h4

theorem Mach.nsChanged_create {m : Mach} {c : Cmd} (h : c.op = 1) : m.nsChanged c = m.nsCreated c := if_pos h

theorem Mach.nsChanged_delete {m : Mach} {c : Cmd} (h : c.op = 2) : m.nsChanged c = m.nsDeleted c.ns := by simp [Mach.nsChanged, h]

theorem Mach.nsChanged_resize {m : Mach} {c : Cmd} (h : c.op = 4) : m.nsChanged c = m.nsResized c := by simp [Mach.nsChanged, h]

theorem Mach.nsChanged_purge {m : Mach} {c : Cmd} (h : c.op = 5) (hone : bitAt c.p0.toNat 8 = false) :
    m.nsChanged c = (m.removeAll c.ns 5).nsRecords c.ns := by
  rw [Mach.nsChanged, Mach.changing_one fun _ => hone]
  simp [h]

/-- The commit leaves the descriptors. -/
theorem Mach.nsCommitted_desc (m : Mach) (id k : Nat) : (m.nsCommitted id).nsDesc k = m.nsDesc k := rfl

end Sys2Proof.Machine
end

section
/-! SUPPORT. The statement on the broadcast of a namespace change. -/
namespace Sys2Proof.Laws
open Sys2Proof.Machine

/-- Settles O22: all that a change does besides writing its descriptor, and moving EPOCH on where content goes, leaves the descriptors but
for their counts of mapped units, and leaves Collier's blocks. That a change which is not due waits, and that it takes one phase at a time,
is the model's choice (log entries 3, 4 and 16). -/
theorem namespaceChangeTakesHold : Obligations.NamespaceChangeTakesHold := by
  intro s c hc hup hroom hepoch k next
  refine ⟨fun h => ?create, fun h => ?delete, fun h hgrow => ?resize, fun h hone => ?purge⟩
  case create =>
    have hdone := nsBroadcast_one hc hup hroom hepoch (by omega) (by omega)
    rw [Mach.nsChanged_create h] at hdone
    refine ⟨_, completes_of_answer (exec_nsBroadcast s) hdone, ?_⟩
    obtain ⟨n, hn⟩ := s.m.nsCreated_desc c
    have hcmd : c ∈ (s.m.nsCreated c).post.cmds := by
      rw [Mach.nsCreated_post]
      exact List.mem_of_find?_eq_some hc
    have hmem := Mach.nsCommitted_mem hcmd
    rw [Mach.nsHome, Mach.epoch, Mach.nsCommitted_desc, hn]
    exact ⟨rfl, rfl, rfl, rfl, rfl, Nat.xor_xor_cancel _ _, rfl, hmem⟩
  case delete =>
    have hdone := nsBroadcast_one hc hup hroom hepoch (by omega) (by omega)
    rw [Mach.nsChanged_delete h] at hdone
    refine ⟨_, completes_of_answer (exec_nsBroadcast s) hdone, ?_⟩
    obtain ⟨n, hn⟩ := s.m.nsDeleted_desc c.ns
    rw [Mach.epoch, Mach.nsCommitted_desc, hn]
    exact ⟨rfl, rfl⟩
  case resize =>
    have hdone := nsBroadcast_done hc hup hroom (fun h4 => absurd h h4) fun _ => hgrow
    rw [Mach.nsChanged_resize h] at hdone
    refine ⟨_, completes_of_answer (exec_nsBroadcast s) hdone, ?_⟩
    obtain ⟨n, hn⟩ := s.m.nsResized_desc c
    rw [Mach.epoch, Mach.nsCommitted_desc, hn]
    exact ⟨rfl, rfl, rfl⟩
  case purge =>
    have hdone := nsBroadcast_one hc hup hroom hepoch (by omega) fun _ => hone
    rw [Mach.nsChanged_purge h hone] at hdone
    refine ⟨_, completes_of_answer (exec_nsBroadcast s) hdone, ?_⟩
    obtain ⟨n, hn⟩ := s.m.purgedOne_desc c.ns
    rw [Mach.epoch, Mach.nsCommitted_desc, hn]
    exact ⟨rfl, rfl⟩

end Sys2Proof.Laws
end

section
/-! SUPPORT. Rotation: how a shift starts, moves and ends, case by case (chapter "Wear and drift of the medium", R212, R213), and what an
engine does that needs room in the delta log or a map entry (R190, R195). -/
namespace Sys2Proof.Machine

variable {m : Mach} {uk : Nat}

/-! ### Room in the delta log, and an entry at hand (R190, R195) -/

theorem Mach.whenRoom_full (f : Mach → Mach) (h : m.deltaFull = true) : m.whenRoom f = m.deltaStall := if_pos h

theorem Mach.whenRoom_free (f : Mach → Mach) (h : m.deltaFull = false) : m.whenRoom f = f m := if_neg (Bool.eq_false_iff.1 h)

theorem Mach.withEnt_fetched (f : Mach → Mach) (h : (m.lookup uk).1 = false) : m.withEnt uk f = (m.lookup uk).2 :=
  if_neg (Bool.eq_false_iff.1 h)

theorem Mach.withEnt_here (f : Mach → Mach) (h : (m.lookup uk).1 = true) : m.withEnt uk f = f (m.lookup uk).2 := if_pos h

/-- The engine reads a line copy under `rq`, and goes on with it where it is here at once. -/
def Mach.readThen (m : Mach) (rq uk i : Nat) (job : Job) (got : Mach → Out → Mach) : Mach :=
  match (m.copyRead rq uk i job false).1 with
  | some o => got (m.copyRead rq uk i job false).2 o
  | none => (m.copyRead rq uk i job false).2

/-! ### ROT_SHIFT_START (R212 step 1, R213) -/

/-- The first due unit that no condition keeps waiting (R213). -/
def Mach.rotPick (m : Mach) : Option Nat := m.map.rotDue.find? fun uk => m.ent uk ≠ 0 && m.unitFree uk && !m.unitRO uk

/-- The unit is marked MIGRATING, and its shift waits for the record of it (R212 step 1). -/
def Mach.shiftMarked (m : Mach) (uk : Nat) : Mach :=
  (m.setEntFlag uk fMigrating true).2.modMap fun s => { s with
    rotDue := s.rotDue.erase uk
    rots := s.rots.set uk { stage := 0, acked := 0, flight := 0, delta := (m.setEntFlag uk fMigrating true).1 + 1 } }

theorem rotShiftStart_closed (h : m.mayWork = false ∨ m.window 1 = false) : rotShiftStart m = m := by
  rcases h with h | h <;> simp [rotShiftStart, h]

section
variable (hw : m.mayWork = true) (hwin : m.window 1 = true)
include hw hwin

theorem rotShiftStart_noRoom (hf : m.deltaFull = true) : rotShiftStart m = m.deltaStall := by
  simp [rotShiftStart, hw, hwin, Mach.whenRoom_full _ hf]

theorem rotShiftStart_picked (hf : m.deltaFull = false) (h : m.rotPick = some uk) :
    rotShiftStart m = m.withEnt uk fun m => m.shiftMarked uk := by
  rw [Mach.rotPick] at h
  simp only [rotShiftStart, hw, hwin, Mach.whenRoom_free _ hf, h]
  rfl
end

/-- A marked unit's shift has made no move, and waits for the record of the mark. -/
theorem Mach.shiftMarked_rot : (m.shiftMarked uk).map.rots.get uk =
    { stage := 0, acked := 0, flight := 0, delta := (m.setEntFlag uk fMigrating true).1 + 1 } := by
  rw [Mach.shiftMarked, Mach.modMap, Tab.get_set_same]

/-! ### ROT_MOVE (R212 steps 2 to 5) -/

/-- The first shift that can go on: its mark is durable, or it stands between moves and is complete or does not rest. -/
def Mach.rotReady (m : Mach) : Option (Nat × RotSt) := m.map.rots.find? fun p =>
  (p.2.stage = 0 && m.deltaDurable (p.2.delta - 1)) || (p.2.stage = 1 && (p.2.acked = 4097 || !m.rotRests p.1))

/-- After its last move a shift ends with ROT one further (R212 step 5). -/
def Mach.shiftEnded (m : Mach) (uk : Nat) : Mach :=
  ((m.setEnt uk (eSetFlag (setBits (m.ent uk) 16 12 ((eRot (m.ent uk) + 1) % 4096)) fMigrating false)).2.modMap fun s =>
    { s with rots := s.rots.erase uk }).count MAP.CNT_ROT_SHIFTS

/-- One segment's part of a move: its line is read and programmed, or omitted. -/
def Mach.moveCopy (uk e : Nat) (m : Mach) (i : Nat) : Mach :=
  if m.omitsFor uk (unitCopy e i).1.1 then (m.setRebuild uk (unitCopy e i).1.1).rotAck uk
  else m.readThen 14 uk i (.rotRd uk i) fun t o => t.rotGot uk i o

/-- A move of the whole unit, whose entry is `e`, after `acked` moves (R212). -/
def Mach.shiftMove (uk e acked : Nat) (m : Mach) : Mach :=
  ((List.range (unitChans e).length).map fun j => moveLine (eRot e) acked * (unitChans e).length + j).foldl (Mach.moveCopy uk e)
    (m.modRot uk fun x => { x with stage := 2, flight := (unitChans e).length })

theorem rotMove_stopped (h : m.mayWork = false) : rotMove m = m := by simp [rotMove, h]

section
variable (hw : m.mayWork = true)
include hw

theorem rotMove_idle (h : m.rotReady = none) : rotMove m = m := by
  rw [Mach.rotReady] at h
  simp only [rotMove, hw, h]
  rfl

variable {r : RotSt} (h : m.rotReady = some (uk, r))
include h

theorem rotMove_ready : rotMove m =
    if r.acked = 4097 then m.whenRoom fun m' => m'.shiftEnded uk
    else if !m.window 1 || m.rebuildWaits uk (unitChans (m.ent uk)) then m
    else m.whenRoom fun m' => m'.withEnt uk (Mach.shiftMove uk (m.ent uk) r.acked) := by
  rw [Mach.rotReady] at h
  simp only [rotMove, hw, h]
  rfl

theorem rotMove_ended (hr : r.acked = 4097) (hf : m.deltaFull = false) : rotMove m = m.shiftEnded uk := by
  rw [rotMove_ready hw h, if_pos hr, Mach.whenRoom_free _ hf]

variable (hr : r.acked ≠ 4097)
include hr

theorem rotMove_waits (hwait : m.window 1 = false ∨ m.rebuildWaits uk (unitChans (m.ent uk)) = true) : rotMove m = m := by
  rw [rotMove_ready hw h, if_neg hr, if_pos (by simpa using hwait)]

theorem rotMove_moves (hwin : m.window 1 = true) (hb : m.rebuildWaits uk (unitChans (m.ent uk)) = false) (hf : m.deltaFull = false) :
    rotMove m = m.withEnt uk (Mach.shiftMove uk (m.ent uk) r.acked) := by
  rw [rotMove_ready hw h, if_neg hr, if_neg (by simp [hwin, hb]), Mach.whenRoom_free _ hf]
end

end Sys2Proof.Machine
end

section
/-! SUPPORT. Migration: the next copy, and the switch to the new place, case by case (chapter "Wear and drift of the medium", R216,
R217). -/
namespace Sys2Proof.Machine

variable {m : Mach} {uk : Nat} {x : MigSt}

/-! ### MIGRATE_COPY (R217) -/

/-- The migration under way that has a line left to copy, or one marked for recopy. -/
def Mach.migCopying (m : Mach) : Option (Nat × MigSt) :=
  m.map.migs.find? fun p => p.2.next < unitCopies (m.ent p.1) || !p.2.marked.isEmpty

/-- The line copy whose turn it is: the next in position order, or the first marked one after the last. -/
def Mach.copyIdx (m : Mach) (uk : Nat) (x : MigSt) : Nat := if x.next < unitCopies (m.ent uk) then x.next else x.marked.headD 0

/-- The channel of that copy's source. -/
def Mach.copyChan (m : Mach) (uk : Nat) (x : MigSt) : Nat := (unitCopy (m.ent uk) (m.copyIdx uk x)).1.1

/-- That copy's channel takes no part, and the unit has others that hold the line (R127, R219). -/
def Mach.copyOmitted (m : Mach) (uk : Nat) (x : MigSt) : Prop := 2 ≤ eKind (m.ent uk) ∧ m.omits (m.copyChan uk x) = true

/-- The copy has been taken up: the migration goes on behind it. -/
def Mach.copyTaken (m : Mach) (uk : Nat) (x : MigSt) : Mach := m.modMig uk fun z => { z with
  next := if x.next < unitCopies (m.ent uk) then z.next + 1 else z.next
  marked := if x.next < unitCopies (m.ent uk) then z.marked else z.marked.drop 1 }

/-- The copy's source is read, and programmed at its new place once it is here. -/
def Mach.copyMade (m : Mach) (uk : Nat) (x : MigSt) : Mach :=
  ((m.copyTaken uk x).modMig uk fun z => { z with flight := z.flight + 1 }).readThen 14 uk (m.copyIdx uk x)
    (.migRd uk (m.copyIdx uk x)) fun t o => t.migGot uk (m.copyIdx uk x) o

theorem migrateCopy_closed (h : m.mayWork = false ∨ m.window 1 = false) : migrateCopy m = m := by
  rcases h with h | h <;> simp [migrateCopy, h]

section
variable (hw : m.mayWork = true) (hwin : m.window 1 = true) (hf : m.deltaFull = false)
include hw hwin hf

/-- With no migration under way the next one begins. -/
theorem migrateCopy_begins (hn : m.map.migs = []) (hr : m.rowsNeeded = false) : migrateCopy m = m.migBegin := by
  simp only [migrateCopy, hw, hwin, Mach.whenRoom_free _ hf, hn, hr]
  rfl

theorem migrateCopy_copying (h : m.migCopying = some (uk, x)) : migrateCopy m = m.withEnt uk fun m =>
    if 2 ≤ eKind (m.ent uk) && m.omits (m.copyChan uk x) then
      if x.stale = 0 || x.stale = m.copyChan uk x + 1 then
        (m.copyTaken uk x).modMig uk fun z => { z with stale := m.copyChan uk x + 1 }
      else m
    else m.copyMade uk x := by
  rw [Mach.migCopying] at h
  simp only [migrateCopy, hw, hwin, Mach.whenRoom_free _ hf, h]
  rfl

variable (h : m.migCopying = some (uk, x))
include h

theorem migrateCopy_fetches (hl : (m.lookup uk).1 = false) : migrateCopy m = (m.lookup uk).2 := by
  rw [migrateCopy_copying hw hwin hf h, Mach.withEnt_fetched _ hl]

variable (hl : (m.lookup uk).1 = true)
include hl

theorem migrateCopy_made (ho : ¬(m.lookup uk).2.copyOmitted uk x) : migrateCopy m = (m.lookup uk).2.copyMade uk x := by
  rw [migrateCopy_copying hw hwin hf h, Mach.withEnt_here _ hl]
  exact if_neg (by simpa [Mach.copyOmitted] using ho)

variable (ho : (m.lookup uk).2.copyOmitted uk x)
include ho

/-- A unit's entry can carry one stale channel (R182), and the copies for it are omitted. -/
theorem migrateCopy_omits (hs : x.stale = 0 ∨ x.stale = (m.lookup uk).2.copyChan uk x + 1) : migrateCopy m =
    ((m.lookup uk).2.copyTaken uk x).modMig uk fun z => { z with stale := (m.lookup uk).2.copyChan uk x + 1 } := by
  rw [migrateCopy_copying hw hwin hf h, Mach.withEnt_here _ hl]
  exact (if_pos (by simpa [Mach.copyOmitted] using ho)).trans (if_pos (by simpa using hs))

theorem migrateCopy_waits (h0 : x.stale ≠ 0) (hs : x.stale ≠ (m.lookup uk).2.copyChan uk x + 1) : migrateCopy m = (m.lookup uk).2 := by
  rw [migrateCopy_copying hw hwin hf h, Mach.withEnt_here _ hl]
  exact (if_pos (by simpa [Mach.copyOmitted] using ho)).trans (if_neg (by simp [h0, hs]))
end

/-! ### MIGRATE_SWITCH (R217) -/

/-- The migration whose every line is copied, with no stripe update open and no program of the source in flight (R186, R217). -/
def Mach.migCopied (m : Mach) : Option (Nat × MigSt) := m.map.migs.find? fun p =>
  let e := m.ent p.1
  unitCopies e ≤ p.2.next && p.2.flight = 0 && p.2.marked.isEmpty && e ≠ 0 && !(m.map.stripes.any fun z => z.2.uk = p.1) &&
    !((unitChans e).any fun c => m.outOn c (eSeg e) true)

/-- The entry of a migrated unit: the new place with rotation 0, and REBUILD for a channel that was omitted. -/
def movedEnt (e : Nat) (x : MigSt) : Nat :=
  let made := eMake (eKind e) x.chanNew x.segNew (eFlag e fRunahead)
  let new := eSetFlag (eSetFlag made fPoison (eFlag e fPoison)) fFormatted (eFlag e fFormatted)
  if x.stale = 0 then new else eRebuild new (x.stale - 1)

/-- What waits for a migrated unit goes to its new place (R188). -/
def Mach.follow (m : Mach) (uk e : Nat) (x : MigSt) : Mach :=
  if eKind e = 1 ∧ eChan e ≠ x.chanNew then m.rechannel uk (eSeg e) (eChan e) x.segNew x.chanNew
  else m.redirect uk (eSeg e) x.segNew

/-- The map switch of a unit, and the old segments whose last reads have returned (R217). -/
def Mach.switched (m : Mach) (uk : Nat) (x : MigSt) : Mach :=
  let e := m.ent uk
  (((((m.setEnt uk (movedEnt e x)).2.follow uk e x).modMap fun z => { z with
    migs := z.migs.erase uk, rots := z.rots.erase uk
    oldSegs := z.oldSegs ++ (unitChans e).map fun c => (c, eSeg e, eFlag e fRetired) }).count
      MAP.CNT_MIGRATE).modMap fun z => { z with rwDue := z.rwDue.erase uk }).freeOld

/-- A copy has failed for good at the unit's new place (R329). -/
def Mach.switchFailed (m : Mach) (uk : Nat) (x : MigSt) : Prop :=
  ∃ c ∈ unitChans (movedEnt (m.ent uk) x), (m.switched uk x).map.bad.get (segKey c x.segNew) ≠ []

section
variable (hw : m.freeOld.mayWork = true)
include hw

theorem migrateSwitch_idle (h : m.freeOld.migCopied = none) : migrateSwitch m = m.freeOld := by
  rw [Mach.migCopied] at h
  simp only [migrateSwitch, hw, h]
  rfl

variable (h : m.freeOld.migCopied = some (uk, x)) (hf : m.freeOld.deltaFull = false)
include h hf

theorem migrateSwitch_copied : migrateSwitch m =
    if (unitChans (movedEnt (m.freeOld.ent uk) x)).any fun c =>
      !((m.freeOld.switched uk x).map.bad.get (segKey c x.segNew)).isEmpty
    then (m.freeOld.switched uk x).retireUnit uk else m.freeOld.switched uk x := by
  rw [Mach.migCopied] at h
  simp only [migrateSwitch, hw, h, Mach.whenRoom_free _ hf, Bool.and_eq_true, decide_eq_true_eq]
  rfl

theorem migrateSwitch_done (hb : ¬m.freeOld.switchFailed uk x) : migrateSwitch m = m.freeOld.switched uk x := by
  rw [migrateSwitch_copied hw h hf]
  exact if_neg (by simpa [Mach.switchFailed] using hb)

theorem migrateSwitch_failed (hb : m.freeOld.switchFailed uk x) : migrateSwitch m = (m.freeOld.switched uk x).retireUnit uk := by
  rw [migrateSwitch_copied hw h hf]
  exact if_pos (by simpa [Mach.switchFailed] using hb)
end

end Sys2Proof.Machine
end

section
/-! SUPPORT. Drift rewrite: how one is taken up and how it ends (chapter "Wear and drift of the medium", R227, R228). -/
namespace Sys2Proof.Machine

variable {m : Mach} {uk : Nat}

/-- The rewrite whose last line is acknowledged. -/
def Mach.rwWritten (m : Mach) : Option (Nat × RwSt) := m.map.rws.find? fun p => unitCopies (m.ent p.1) ≤ p.2.next - 1 && p.2.flight = 0

/-- The rewrite of a unit is no longer under way. -/
def Mach.rwGone (m : Mach) (uk : Nat) : Mach := m.modMap fun z => { z with rws := z.rws.erase uk }

/-- The rewrite of a unit is under way, at its first line. -/
def Mach.rwBegun (m : Mach) (uk : Nat) : Mach :=
  m.modMap fun s => { s with rwDue := s.rwDue.erase uk, rws := s.rws.set uk { next := 1, flight := 0, dropped := [] } }

theorem Mach.rwBegun_rw : (m.rwBegun uk).map.rws.get uk = { next := 1, flight := 0, dropped := [] } := by
  rw [Mach.rwBegun, Mach.modMap, Tab.get_set_same]

theorem rewriteLine_stopped (h : m.mayWork = false) : rewriteLine m = m := by simp [rewriteLine, h]

section
variable (hw : m.mayWork = true)
include hw

theorem rewriteLine_closed (h : m.rwWritten = none) (hwin : m.window 0 = false) : rewriteLine m = m := by
  rw [Mach.rwWritten] at h
  simp only [rewriteLine, hw, h, hwin]
  rfl

/-- With no rewrite under way the next one is taken up. -/
theorem rewriteLine_begins (hwin : m.window 0 = true) (hn : m.map.rws = []) (ht : m.takesPosts = true)
    (hp : m.rwPick = some uk) : rewriteLine m = m.withEnt uk fun m => m.rwBegun uk := by
  simp only [rewriteLine, hw, hwin, hn, ht, hp]
  rfl

variable {y : RwSt} (h : m.rwWritten = some (uk, y))
include h

theorem rewriteLine_written : rewriteLine m =
    if m.ent uk = 0 then m.rwGone uk else m.whenRoom fun _ => ((m.rwGone uk).setEnt uk (setBits (m.ent uk) 8 8 0)).2 := by
  rw [Mach.rwWritten] at h
  simp only [rewriteLine, hw, h]
  rfl

theorem rewriteLine_aged (h0 : m.ent uk ≠ 0) (hf : m.deltaFull = false) :
    rewriteLine m = ((m.rwGone uk).setEnt uk (setBits (m.ent uk) 8 8 0)).2 := by
  rw [rewriteLine_written hw h, if_neg h0, Mach.whenRoom_free _ hf]

theorem rewriteLine_gone (h0 : m.ent uk = 0) : rewriteLine m = m.rwGone uk := by
  rw [rewriteLine_written hw h, if_pos h0]
end

end Sys2Proof.Machine
end

section
/-! SUPPORT. The statement on rotation, migration and drift rewrite. -/
namespace Sys2Proof.Laws
open Sys2Proof.Machine

/-- Settles O29: each row takes the branch that its conditions name, on the first unit that can go on; where that unit's map entry is not at
hand it only has it fetched. One migration at a time, in window bit 1 and with the requests redirected at its switch (log entry 40), the
place of a unit that leaves a read-only channel (94), and that an event which is not due changes nothing while a row takes one phase at a
time (3, 4 and 16) are the model's choices; the order of the lines with the recopy (41) and the shift that rests (109) it deduces. -/
theorem rotationAndMigration : Obligations.RotationAndMigration := by
  refine ⟨fun s uk r => ⟨fun hw => ?stopped, fun hwin => ?shiftClosed, fun hw hwin hf => ?noRoom,
      fun hw hwin hf hp => ⟨fun hl => ?shiftFetches, fun hl => ?marked⟩, fun hw h => ?noShift, fun hw h hr hwin => ?moveClosed,
      fun hw h hr hf => ?shiftEnds, fun hw hwin h hr hb => ?moveWaits, fun hw hwin h hr hb hf => ?moves⟩,
    fun s uk x y => ⟨fun h => ?copyClosed,
      fun hw hwin hf => ⟨fun h hl => ?copyFetches, fun h hl => ⟨fun ho => ?copied, fun ho hs => ?omitted, fun ho h0 hs => ?copyWaits⟩,
        fun _ hn hr => ?begins⟩,
      fun hw h => ?noSwitch, fun hw h hf => ⟨fun hb => ?switched, fun hb => ?retired⟩,
      fun hw => ?rewriteStopped, fun hw h hwin => ?rewriteClosed, fun hw h => ⟨fun h0 hf => ?aged, fun h0 => ?gone⟩,
      fun hw _ hwin hn ht hp => ⟨fun hl => ?rewriteFetches, fun hl => ?rewriteBegins⟩⟩⟩
  case stopped =>
    exact ⟨completes_of_answer (exec_rotShiftStart s) (rotShiftStart_closed (.inl hw)),
      completes_of_answer (exec_rotMove s) (rotMove_stopped hw)⟩
  case shiftClosed => exact completes_of_answer (exec_rotShiftStart s) (rotShiftStart_closed (.inr hwin))
  case noRoom => exact completes_of_answer (exec_rotShiftStart s) (rotShiftStart_noRoom hw hwin hf)
  case shiftFetches =>
    exact completes_of_answer (exec_rotShiftStart s) ((rotShiftStart_picked hw hwin hf hp).trans (Mach.withEnt_fetched _ hl))
  case marked =>
    refine ⟨_, completes_of_answer (exec_rotShiftStart s) ((rotShiftStart_picked hw hwin hf hp).trans (Mach.withEnt_here _ hl)),
      _, _, rfl, rfl, ?_⟩
    rw [Mach.shiftMarked_rot]
    exact ⟨rfl, rfl, rfl⟩
  case noShift => exact completes_of_answer (exec_rotMove s) (rotMove_idle hw h)
  case moveClosed => exact completes_of_answer (exec_rotMove s) (rotMove_waits hw h hr (.inl hwin))
  case shiftEnds => exact completes_of_answer (exec_rotMove s) (rotMove_ended hw h hr hf)
  case moveWaits => exact completes_of_answer (exec_rotMove s) (rotMove_waits hw h hr (.inr hb))
  case moves =>
    have hmove := rotMove_moves hw h hr hwin hb hf
    exact ⟨fun hl => completes_of_answer (exec_rotMove s) (hmove.trans (Mach.withEnt_fetched _ hl)),
      fun hl => completes_of_answer (exec_rotMove s) (hmove.trans (Mach.withEnt_here _ hl))⟩
  case copyClosed => exact completes_of_answer (exec_migrateCopy s) (migrateCopy_closed h)
  case copyFetches => exact completes_of_answer (exec_migrateCopy s) (migrateCopy_fetches hw hwin hf h hl)
  case copied => exact completes_of_answer (exec_migrateCopy s) (migrateCopy_made hw hwin hf h hl ho)
  case omitted => exact completes_of_answer (exec_migrateCopy s) (migrateCopy_omits hw hwin hf h hl ho hs)
  case copyWaits => exact completes_of_answer (exec_migrateCopy s) (migrateCopy_waits hw hwin hf h hl ho h0 hs)
  case begins => exact completes_of_answer (exec_migrateCopy s) (migrateCopy_begins hw hwin hf hn hr)
  case noSwitch => exact completes_of_answer (exec_migrateSwitch s) (migrateSwitch_idle hw h)
  case switched => exact completes_of_answer (exec_migrateSwitch s) (migrateSwitch_done hw h hf hb)
  case retired => exact completes_of_answer (exec_migrateSwitch s) (migrateSwitch_failed hw h hf hb)
  case rewriteStopped => exact completes_of_answer (exec_rewriteLine s) (rewriteLine_stopped hw)
  case rewriteClosed => exact completes_of_answer (exec_rewriteLine s) (rewriteLine_closed hw h hwin)
  case aged => exact completes_of_answer (exec_rewriteLine s) (rewriteLine_aged hw h h0 hf)
  case gone => exact completes_of_answer (exec_rewriteLine s) (rewriteLine_gone hw h h0)
  case rewriteFetches =>
    exact completes_of_answer (exec_rewriteLine s) ((rewriteLine_begins hw hwin hn ht hp).trans (Mach.withEnt_fetched _ hl))
  case rewriteBegins =>
    refine ⟨_, completes_of_answer (exec_rewriteLine s) ((rewriteLine_begins hw hwin hn ht hp).trans (Mach.withEnt_here _ hl)), rfl, ?_⟩
    rw [Mach.rwBegun_rw]
    exact ⟨rfl, rfl, rfl⟩

end Sys2Proof.Laws
end

section
/-! REFUTATION of `Obligations.GleanerAndFlipMasks`: the state in which the end of a pass does not keep what ABORT_OUT reads (chapter "Line
integrity, recovery and scrubbing", R262 to R265). -/
namespace Sys2Proof.Machine

/-- A pass that has visited its whole range, with 4 in the two-bit field ABORT_OUT. No write puts that value there: it refutes a statement
over all states. -/
def passOver : Mach :=
  { Mach.reset with regs := [(GLN.RESULT_STATE.key 0, 1), (GLN.RESULT_ABORT_OUT.key 0, 2 ^ GLN.RESULT_ABORT_OUT.w)] }

theorem passOver_over : passOver.get GLN.RESULT_STATE = 1 ∧ passOver.err.gFly = [] ∧
    passOver.get GLN.START + passOver.get GLN.LENGTH ≤ passOver.get GLN.PROGRESS ∧ passOver.err.gAbort = false := by
  decide +kernel

/-- The end of the pass writes ABORT_OUT back, cut to the field's width. -/
theorem passOver_abortOut : (gleanerPassEnd passOver).get GLN.RESULT_ABORT_OUT ≠ passOver.get GLN.RESULT_ABORT_OUT := by
  decide +kernel

end Sys2Proof.Machine
end

section
namespace Sys2Proof.Laws
open Sys2Proof.Machine

/-- Refutes O30: on `passOver` the pass ends DONE, but ABORT_OUT then reads 0, not the 4 that stood there. The end of a pass writes the field's
own value back, which cuts it to the field's two bits. The clauses speak of every state; in the states that a run reaches every field holds a
value of its width, so this is a gap of the hypotheses. -/
theorem not_gleanerAndFlipMasks : ¬ Obligations.GleanerAndFlipMasks := by
  unfold Obligations.GleanerAndFlipMasks
  intro h
  obtain ⟨hstate, hfly, hover, habort⟩ := passOver_over
  obtain ⟨-, -, hrunning⟩ := h.1 ⟨passOver, []⟩ 0
  obtain ⟨-, -, -, -, hdone, -⟩ := hrunning hstate
  obtain ⟨t, hexec, -, hkept, -⟩ := hdone hfly hover habort
  have hcomp : Completes .gleanerPassEnd ⟨passOver, []⟩ (gleanerPassEnd passOver) := completes_of_answer (exec_gleanerPassEnd _) rfl
  have ht : t = gleanerPassEnd passOver := by
    rw [Completes, hexec] at hcomp
    injection hcomp with hstate
    injection hstate
  exact passOver_abortOut (ht ▸ hkept)

end Sys2Proof.Laws
end

section
/-! SUPPORT. What the engines, the streams and the lists leave of the registers of the Hearth tier's pages, DIR_COUNT aside (chapter
"Hearth: the HBM tier controller", R298): none of them takes back what a stack has reported. -/
namespace Sys2Proof.Machine

/-! ### The registers of the Hearth tier's pages -/

/-- A register of one of the two pages HT, DIR_COUNT aside. -/
def htKey (q : Nat) : Bool := (q / 32768 == 32 || q / 32768 == 33) && q != HT.DIR_COUNT.key 0

/-- What the registers of the two pages HT read, DIR_COUNT aside. -/
def Mach.htPages (m : Mach) (f : Field) (n : Nat) : Nat := if htKey (f.key n) then m.get f n else 0

/-- A page none of whose instances is taken for a page HT. -/
def Page.offHt : Page → Bool
  | .ht => false
  | .port => false
  | _ => true

/-- A field of such a page. -/
def Field.offHt (f : Field) : Bool := f.page.offHt && decide (f.off < 4096 ∧ f.lo < 64)

theorem Page.number_offHt {p : Page} (h : p.offHt = true) (n : Nat) : p.number n ≠ 32 ∧ p.number n ≠ 33 := by
  cases p <;> simp [Page.offHt, Page.number] at h ⊢ <;> omega

theorem Field.key_offHt {f : Field} (h : f.offHt = true) (n : Nat) : htKey (f.key n) = false := by
  obtain ⟨hpage, hoff, hlo⟩ : f.page.offHt = true ∧ f.off < 4096 ∧ f.lo < 64 := by
    simpa only [Field.offHt, Bool.and_eq_true, decide_eq_true_eq] using h
  have hnumber := Page.number_offHt hpage n
  rw [htKey, Field.key_div hoff hlo]
  simp [hnumber]

theorem eventKeys_offHt {p : Page} (h : p.offHt = true) (n : Nat) : ∀ q ∈ eventKeys p n, htKey q = false := by
  have hfield : ∀ f ∈ [evField p, evFirstBit p, evFirstEst p, evFirstValid p, evTime p], htKey (f.key n) = false := fun f hf =>
    Field.key_offHt (by
      simp only [List.mem_cons, List.not_mem_nil, or_false] at hf
      rcases hf with rfl | rfl | rfl | rfl | rfl <;> simp [Field.offHt, evField, evFirstBit, evFirstEst, evFirstValid, evTime, h]) n
  intro q hq
  simp only [eventKeys, List.mem_cons, List.not_mem_nil, or_false] at hq
  rcases hq with rfl | rfl | rfl | rfl | rfl | rfl
  case inr.inr.inr.inr.inr => decide
  all_goals exact hfield _ (by simp)

theorem KeptBut.htPages {K : Nat → Prop} {a b : Mach} (h : KeptBut K a b) (hK : ∀ q, K q → htKey q = false) : b.htPages = a.htPages := by
  funext f n
  unfold Mach.htPages
  split
  case isTrue hq => exact h.2 f n fun hk => by simp [hK _ hk] at hq
  case isFalse => rfl

/-- A register of the Hearth tier's pages reads as before. -/
theorem get_of_htPages {a b : Mach} (h : b.htPages = a.htPages) {f : Field} {n : Nat} (hf : htKey (f.key n) = true) :
    b.get f n = a.get f n := by
  have heq := congrFun (congrFun h f) n
  rwa [Mach.htPages, Mach.htPages, if_pos hf, if_pos hf] at heq

theorem engineKey_htKey {q : Nat} (h : engineKey q = true) : htKey q = false := by
  rcases (engineKey_iff q).1 h with hq | rfl | hq | hq
  case inr.inl => decide
  all_goals
    simp only [htKey, Bool.and_eq_false_imp, Bool.or_eq_true, beq_iff_eq]
    omega

/-- Work of the engines that leaves the Hearth tier alone. -/
theorem Aside.htPages {a b : Mach} (h : Aside false a b) : b.htPages = a.htPages :=
  h.regs.htPages fun _ hq => hq.elim engineKey_htKey fun hq => absurd hq.1 nofun

section
variable (m : Mach)

/-! ### Registers written, and steps taken together -/

@[simp] theorem Mach.put_htPages {f : Field} (h : f.offHt = true) (n v : Nat) : (m.put f n v).htPages = m.htPages :=
  (m.put_keptBut (K := fun q => htKey q = false) (Field.key_offHt h n) v).htPages fun _ => id

@[simp] theorem Mach.setFlag_htPages {f : Field} (h : f.offHt = true) (n : Nat) (b : Bool) : (m.setFlag f n b).htPages = m.htPages :=
  m.put_htPages h n _

@[simp] theorem Mach.count_htPages {f : Field} (h : f.offHt = true) (n k : Nat) : (m.count f n k).htPages = m.htPages :=
  m.put_htPages h n _

@[simp] theorem Mach.dirCount_htPages (v : Nat) : (m.put HT.DIR_COUNT 0 v).htPages = m.htPages :=
  (m.put_keptBut (K := fun q => htKey q = false) (by decide) v).htPages fun _ => id

@[simp] theorem Mach.event_htPages {p : Page} (h : p.offHt = true) (n b : Nat) : (m.event p n b).htPages = m.htPages :=
  (m.event_keptBut (K := fun q => htKey q = false) (eventKeys_offHt h n) b).htPages fun _ => id

/-- A change of the blocks' own state. -/
@[simp] theorem Mach.mod_htPages : (∀ n f, (m.modPort n f).htPages = m.htPages) ∧ (∀ f, (m.modSc f).htPages = m.htPages) ∧
    (∀ f, (m.modLoom f).htPages = m.htPages) ∧ (∀ f, (m.modHt f).htPages = m.htPages) ∧ (∀ f, (m.modMap f).htPages = m.htPages) ∧
    (∀ f, (m.modRota f).htPages = m.htPages) ∧ (∀ k f, (m.modStr k f).htPages = m.htPages) ∧
    (∀ k n f, (m.modSlot k n f).htPages = m.htPages) ∧ (∀ k f, (m.modSeq k f).htPages = m.htPages) ∧
    (∀ k id f, (m.modEnt k id f).htPages = m.htPages) ∧ (∀ p, (m.loomDrop p).htPages = m.htPages) ∧
    (∀ n id k f, (m.modLine n id k f).htPages = m.htPages) ∧ (∀ n f, (m.modPhy n f).htPages = m.htPages) ∧
    (∀ n, ({ m with serial := n } : Mach).htPages = m.htPages) :=
  ⟨fun _ _ => rfl, fun _ => rfl, fun _ => rfl, fun _ => rfl, fun _ => rfl, fun _ => rfl, fun _ _ => rfl, fun _ _ _ => rfl,
    fun _ _ => rfl, fun _ _ _ => rfl, fun _ => rfl, fun _ _ _ _ => rfl, fun _ _ => rfl, fun _ => rfl⟩

@[simp] theorem Mach.ite_htPages {p : Prop} [Decidable p] (a b : Mach) :
    (if p then a else b).htPages = if p then a.htPages else b.htPages := apply_ite _ _ _ _

@[simp] theorem Mach.snd_ite_htPages {α : Type} {p : Prop} [Decidable p] (a b : α × Mach) :
    (if p then a else b).2.htPages = if p then a.2.htPages else b.2.htPages := apply_ite (fun x : α × Mach => x.2.htPages) _ _ _

@[simp] theorem Mach.foldl_htPages {α : Type} {f : Mach → α → Mach} (hf : ∀ m x, (f m x).htPages = m.htPages) (l : List α) :
    (l.foldl f m).htPages = m.htPages := foldl_keeps Mach.htPages hf l m

@[simp] theorem Mach.foldl_snd_htPages {α β : Type} {f : β × Mach → α → β × Mach} (hf : ∀ p x, (f p x).2.htPages = p.2.htPages)
    (l : List α) (p : β × Mach) : (l.foldl f p).2.htPages = p.2.htPages := foldl_keeps (fun p => p.2.htPages) hf l p

/-! ### The engines (R187 to R250) -/

/-- Steps of the engines that leave the Hearth tier alone. -/
@[simp] theorem Mach.engines_htPages : m.judgeEst.htPages = m.htPages ∧ m.showWarm.htPages = m.htPages ∧
    m.deltaStall.htPages = m.htPages ∧ m.poolTake.2.htPages = m.htPages ∧ (∀ r, (m.ringAdd r).htPages = m.htPages) ∧
    (∀ r, (m.sramFail r).htPages = m.htPages) ∧ (∀ l, (m.poisonLine l).htPages = m.htPages) ∧ (∀ k, (m.poisoned k).htPages = m.htPages) ∧
    (∀ l b, (m.loomDiscard l b).htPages = m.htPages) ∧ (∀ a k, (m.unitsEnded a k).htPages = m.htPages) ∧
    (∀ l b, (m.overtake l b).htPages = m.htPages) ∧ (∀ k, (m.sramTouch k).htPages = m.htPages) ∧
    (∀ pg, (m.dirtyPage pg).htPages = m.htPages) ∧ (∀ r, (m.flipS r).2.htPages = m.htPages) ∧ (∀ e, (m.freeSegs e).htPages = m.htPages) ∧
    (∀ u, (m.dropUnit u).htPages = m.htPages) ∧ (∀ n r, (m.orphan n r).htPages = m.htPages) ∧
    (∀ l, (m.setReclaim l).htPages = m.htPages) ∧ (∀ u e, (m.setEntRaw u e).htPages = m.htPages) ∧
    (∀ k n i v, (m.delta k n i v).2.htPages = m.htPages) ∧
    (∀ rq p w j o g, (m.hQueue rq p w j o g).htPages = m.htPages) ∧
    ∀ c rx rq md j o g, (m.mQueue c rx rq md j o g).htPages = m.htPages :=
  ⟨(Aside.refl _ m).judgeEst.htPages, m.showWarm_aside.htPages, m.deltaStall_aside.htPages, m.poolTake_aside.htPages,
    fun _ => (m.ringAdd_aside _).htPages, fun _ => (m.sramFail_aside _).htPages, fun _ => (m.poisonLine_aside _).htPages,
    fun _ => (m.poisoned_aside _).htPages, fun _ _ => (m.loomDiscard_aside _ _).htPages, fun _ _ => (m.unitsEnded_aside _ _).htPages,
    fun _ _ => (m.overtake_aside _ _).htPages, fun _ => (m.sramTouch_aside _).htPages, fun _ => (m.dirtyPage_aside _).htPages,
    fun _ => (m.flipS_aside _).htPages, fun _ => (m.freeSegs_aside _).htPages, fun _ => (m.dropUnit_aside _).htPages,
    fun _ _ => (m.orphan_aside _ _).htPages, fun _ => (m.setReclaim_aside _).htPages, fun _ _ => (m.setEntRaw_aside _ _).htPages,
    fun _ _ _ _ => (m.delta_aside ..).htPages, fun _ _ _ _ _ _ => (m.hQueue_aside ..).htPages,
    fun _ _ _ _ _ _ _ => (m.mQueue_aside ..).htPages⟩

@[simp] theorem Mach.hWrite_htPages (p : Nat × Nat) (line : Nat) (l : HLine) : (m.hWrite p line l).htPages = m.htPages := by
  unfold Mach.hWrite
  dsimp only
  split
  · exact (Mach.event_htPages _ rfl _ _).trans (Mach.setFlag_htPages _ (by decide) _ _)
  · rfl

@[simp] theorem Mach.mapCell_htPages (pg j : Nat) : (m.mapCell pg j).htPages = m.htPages := by simp [Mach.mapCell]
@[simp] theorem Mach.hmapAdd_htPages (pg : Nat) : (m.hmapAdd pg).htPages = m.htPages := by simp [Mach.hmapAdd]
@[simp] theorem Mach.wordWrite_htPages (key : Nat) : (m.wordWrite key).htPages = m.htPages := by simp [Mach.wordWrite]
@[simp] theorem Mach.entCached_htPages (uk : Nat) : (m.entCached uk).htPages = m.htPages := by simp [Mach.entCached]
@[simp] theorem Mach.clearWord_htPages (pg ns idx : Nat) : (m.clearWord pg ns idx).htPages = m.htPages := by simp [Mach.clearWord]
@[simp] theorem Mach.reclaimRoot_htPages (ns root lo hi : Nat) : (m.reclaimRoot ns root lo hi).htPages = m.htPages := by
  simp [Mach.reclaimRoot]

@[simp] theorem Mach.ensureTree_htPages (uk : Nat) : (m.ensureTree uk).htPages = m.htPages := by simp [Mach.ensureTree]
@[simp] theorem Mach.setEnt_htPages (uk e : Nat) : (m.setEnt uk e).2.htPages = m.htPages := by simp [Mach.setEnt]
@[simp] theorem Mach.setEntFlag_htPages (uk k : Nat) (b : Bool) : (m.setEntFlag uk k b).2.htPages = m.htPages := by simp [Mach.setEntFlag]
@[simp] theorem Mach.keepPoison_htPages (uk : Nat) (p : Nat × Nat × Nat) (line : Nat) (par : Bool) (d : Line) :
    (m.keepPoison uk p line par d).htPages = m.htPages := by simp [Mach.keepPoison]

@[simp] theorem Mach.setRebuild_htPages (uk c : Nat) : (m.setRebuild uk c).htPages = m.htPages := by simp [Mach.setRebuild]
@[simp] theorem Mach.progLine_htPages (rq uk i : Nat) (d : Line) (gen mark : Nat) (birth : Option Nat) (job : Job) :
    (m.progLine rq uk i d gen mark birth job).2.htPages = m.htPages := by simp [Mach.progLine]

@[simp] theorem Mach.takeSegs_htPages (e : Nat) : (m.takeSegs e).htPages = m.htPages := by
  simp +decide [Mach.takeSegs, Mach.setUnitSegs, Mach.setSeg]

theorem Mach.snd_htPages {α : Type} (a : α) (x : Mach) : ((a, x) : α × Mach).2.htPages = x.htPages := rfl

/-- A unit takes its segments and its entry (R187). -/
theorem Mach.unitMade_htPages (uk e : Nat) : (((m.takeSegs e).count MAP.CNT_ALLOC).setEnt uk e).2.htPages = m.htPages :=
  (Mach.setEnt_htPages ..).trans ((Mach.count_htPages _ (by decide) 0 1).trans (m.takeSegs_htPages e))

@[simp] theorem Mach.allocate_htPages (uk : Nat) (runahead : Bool) : (m.allocate uk runahead).2.htPages = m.htPages := by
  have hevent : ∀ (x : Mach) b, (x.event .map 0 b).htPages = x.htPages := fun x b => x.event_htPages rfl 0 b
  unfold Mach.allocate
  extract_lets d
  split
  · exact (Mach.snd_htPages _ _).trans m.deltaStall_aside.htPages
  · split
    · refine (Mach.snd_htPages _ _).trans ((Mach.ite_htPages _ _).trans ?_)
      rw [hevent, ite_self]
      exact hevent m _
    · refine (Mach.snd_htPages _ _).trans ?_ -- an `exact` of the whole has the kernel evaluate `setEnt`
      exact m.unitMade_htPages uk _

/-! ### Dirty lines (R246, R281) -/

@[simp] theorem Mach.setDir_htPages (e : Nat) (d : DirEnt) : (m.setDir e d).htPages = m.htPages := by simp [Mach.setDir]
@[simp] theorem Mach.dirFreeEnt_htPages (e : Nat) : (m.dirFreeEnt e).htPages = m.htPages := by simp [Mach.dirFreeEnt]
@[simp] theorem Mach.dirtyLadder_htPages (e rq port : Nat) (demand merge : Bool) (at_ : Nat) :
    (m.dirtyLadder e rq port demand merge at_).2.htPages = m.htPages := by simp +decide [Mach.dirtyLadder]

@[simp] theorem Mach.dirtyRead_htPages (e rq port : Nat) (demand merge : Bool) (at_ : Nat) :
    (m.dirtyRead e rq port demand merge at_).2.2.htPages = m.htPages := by
  unfold Mach.dirtyRead
  dsimp only
  split
  · rfl
  · split
    · simp
    · rfl

@[simp] theorem Mach.wbBack_htPages (e : Nat) : (m.wbBack e).htPages = m.htPages := by simp [Mach.wbBack]
@[simp] theorem Mach.roQueue_htPages (uk : Nat) : (m.roQueue uk).htPages = m.htPages := by simp [Mach.roQueue]
@[simp] theorem Mach.wbProgram_htPages (e : Nat) : (m.wbProgram e).htPages = m.htPages := by simp [Mach.wbProgram]
@[simp] theorem Mach.wbArrive_htPages (e : Nat) : (m.wbArrive e).htPages = m.htPages := by simp [Mach.wbArrive]

/-! ### Streams (R127 to R130, R246, R247) -/

@[simp] theorem Mach.stagedRead_htPages (k : Nat) (s : Slot) (d : Nat) (ri : RingInfo) (at_ : Nat) :
    (m.stagedRead k s d ri at_).2.2.2.htPages = m.htPages := by
  unfold Mach.stagedRead
  dsimp only
  split
  · rfl
  · split <;> simp

@[simp] theorem Mach.spilledRead_htPages (k : Nat) (s : Slot) (d : Nat) (drain : Bool) (ri : RingInfo) (at_ : Nat) :
    (m.spilledRead k s d drain ri at_).2.2.2.htPages = m.htPages := by
  unfold Mach.spilledRead
  dsimp only
  split
  · rfl
  · split
    · rfl
    · split <;> simp +decide

@[simp] theorem Mach.slotRead_htPages (k : Nat) (s : Slot) (d : Nat) (drain : Bool) (rq port : Nat) (demand : Bool) (at_ : Nat) :
    (m.slotRead k s d drain rq port demand at_).2.2.2.htPages = m.htPages := by
  unfold Mach.slotRead
  dsimp only
  split
  · rfl
  · split <;> simp

@[simp] theorem Mach.strLost_htPages (k no d : Nat) : (m.strLost k no d).htPages = m.htPages := by simp [Mach.strLost]
@[simp] theorem Mach.slotIssue_htPages (k : Nat) (s : Slot) : (m.slotIssue k s).htPages = m.htPages := by
  have hcount : ∀ x : Mach, (x.count STREAM.CNT_STRIPES k).htPages = x.htPages := fun x => x.count_htPages (by decide) k 1
  simp [Mach.slotIssue, hcount]

@[simp] theorem Mach.showStr_htPages (k : Nat) : (m.showStr k).htPages = m.htPages := by simp +decide [Mach.showStr, Mach.showKiln]
@[simp] theorem Mach.spillArrive_htPages (k no : Nat) : (m.spillArrive k no).htPages = m.htPages := by
  unfold Mach.spillArrive
  split <;> simp

/-! ### Lists (R170 to R172) -/

@[simp] theorem Mach.showSeq_htPages (k : Nat) : (m.showSeq k).htPages = m.htPages := by
  unfold Mach.showSeq
  dsimp only
  split <;> simp +decide [Mach.showLoom]

@[simp] theorem Mach.loomForget_htPages (gone : Nat × Nat → Bool) : (m.loomForget gone).htPages = m.htPages := by
  simp [Mach.loomForget, Mach.seqLost]

/-! ### What a stack takes with it (R297, R298) -/

@[simp] theorem Mach.dirLost_htPages (keep : Nat → DirEnt → Option DirEnt) : (m.dirLost keep).htPages = m.htPages := by
  unfold Mach.dirLost
  dsimp only
  refine (Mach.foldl_htPages _ (fun x e => (x.poisonLine_aside _).htPages) _).trans (Mach.foldl_htPages _ (fun x e => ?_) _)
  split <;> simp

@[simp] theorem Mach.spillLost_htPages (gone : Nat × Nat → Bool) (half : Bool) : (m.spillLost gone half).htPages = m.htPages := by
  simp [Mach.spillLost]

@[simp] theorem Mach.readGone_htPages (q : LineReq) : (m.readGone q).htPages = m.htPages := by
  unfold Mach.readGone
  dsimp only
  split <;> simp

@[simp] theorem Mach.rerouteStack_htPages (n : Nat) : (m.rerouteStack n).htPages = m.htPages := by simp [Mach.rerouteStack]
@[simp] theorem Mach.hmapLost_htPages : m.hmapLost.htPages = m.htPages := by simp [Mach.hmapLost]
end

end Sys2Proof.Machine
end

section
/-! SUPPORT. A stack fails: what it has reported stays reported, and its temperature's flags (chapter "Hearth: the HBM tier controller",
R291, R293, R298). -/
namespace Sys2Proof.Machine

/-! ### Fields in different places of their pages -/

/-- The two fields lie in different places, whatever their pages. -/
def Field.elsewhere (f g : Field) : Bool := decide (f.place < 32768 ∧ g.place < 32768 ∧ f.place ≠ g.place)

theorem Field.key_elsewhere {f g : Field} (h : f.elsewhere g = true) (j n : Nat) : f.key j ≠ g.key n := by
  obtain ⟨hf, hg, hne⟩ := of_decide_eq_true h
  unfold Field.place at hf hg hne
  simp only [Field.key]
  omega

/-- The field lies in no place of the events. -/
def Field.noEvent (f : Field) : Bool :=
  [evField .ht, evFirstBit .ht, evFirstEst .ht, evFirstValid .ht, evTime .ht, ALM.CNT_EST].all fun g => f.elsewhere g

theorem Field.key_noEvent {f : Field} (h : f.noEvent = true) (j n : Nat) : f.key j ∉ eventKeys .ht n := by
  have hne : ∀ g ∈ [evField .ht, evFirstBit .ht, evFirstEst .ht, evFirstValid .ht, evTime .ht, ALM.CNT_EST], ∀ k, f.key j ≠ g.key k :=
    fun g hg k => Field.key_elsewhere (List.all_eq_true.1 h g hg) j k
  simp only [List.mem_cons, List.not_mem_nil, or_false, forall_eq_or_imp, forall_eq] at hne
  simp only [eventKeys, List.mem_cons, List.not_mem_nil, or_false, not_or]
  obtain ⟨h0, h1, h2, h3, h4, h5⟩ := hne
  exact ⟨h0 n, h1 n, h2 n, h3 n, h4 n, h5 0⟩

/-! ### What a stack reports (R298) -/

/-- EVENT and STAT.FAILED of stack `n` read as before. -/
def SameReport (n : Nat) (a b : Mach) : Prop := ∀ g ∈ [evField .ht, HT.STAT_FAILED], b.get g n = a.get g n

section
variable {n : Nat} {a b c : Mach}

theorem SameReport.trans (h : SameReport n a b) (g : SameReport n b c) : SameReport n a c := fun f hf => (g f hf).trans (h f hf)

theorem SameReport.refl (n : Nat) (m : Mach) : SameReport n m m := fun _ _ => rfl

theorem SameReport.of_htPages (hn : n < 2) (h : b.htPages = a.htPages) : SameReport n a b := by
  have hkey : ∀ n < 2, ∀ g ∈ [evField .ht, HT.STAT_FAILED], htKey (g.key n) = true := by decide
  exact fun g hg => get_of_htPages h (hkey n hn g hg)

theorem SameReport.put (h : SameReport n a b) {f : Field} {j v : Nat}
    (hf : ∀ g ∈ [evField .ht, HT.STAT_FAILED], g.elsewhere f = true := by decide) : SameReport n a (b.put f j v) :=
  h.trans fun g hg => Mach.get_put_ne _ _ (Field.key_elsewhere (hf g hg) n j)

theorem SameReport.setFlag (h : SameReport n a b) {f : Field} {j : Nat} {v : Bool}
    (hf : ∀ g ∈ [evField .ht, HT.STAT_FAILED], g.elsewhere f = true := by decide) : SameReport n a (b.setFlag f j v) := h.put hf

theorem SameReport.ite {p : Prop} [Decidable p] (h : SameReport n a b) (g : SameReport n a c) : SameReport n a (if p then b else c) := by
  split
  · exact h
  · exact g

theorem SameReport.showLayout (h : SameReport n a b) : SameReport n a b.showLayout := h.put.put.put.put.put.put
end

/-- A stack that fails has STAT.FAILED set, and the events that it has reported stay. -/
theorem Mach.stackFail_reports (m : Mach) {n : Nat} (hn : n < 2) : (m.stackFail n).flag HT.STAT_FAILED n = true ∧
    ∀ b < 64, (m.get (evField .ht) n).testBit b = true → ((m.stackFail n).get (evField .ht) n).testBit b = true := by
  unfold Mach.stackFail
  split
  case isTrue hf => exact ⟨hf, fun _ _ h => h⟩
  case isFalse =>
    extract_lets was other keep m1 m2 m3 m4 m5 m6 m7
    have h2 : m2.htPages = m.htPages := by simp [m2, m1]
    let left := m2.setFlag HT.STAT_IN_SERVICE n false
    let failed := left.setFlag HT.STAT_FAILED n true
    have hleft : SameReport n m left := (SameReport.of_htPages hn h2).setFlag
    have h3 : SameReport n failed m3 := SameReport.setFlag <| SameReport.setFlag <| SameReport.setFlag <| SameReport.setFlag <|
      SameReport.put <| SameReport.refl n failed
    have h4 : SameReport n failed m4 := h3.trans (SameReport.of_htPages hn (by simp [m4]))
    have h5 : SameReport n failed m5 := h4.setFlag.ite h4
    have h7 : SameReport n failed m7 := h5.trans (SameReport.of_htPages hn (by simp [m7, m6]))
    have hshown : SameReport n failed ((m7.showSingle.showCapability n).showLayout).showWarm := h7.setFlag.put.showLayout.setFlag
    refine ⟨?_, fun b hb h => Mach.event_testBit_of_set _ _ _ (by decide) hb ?_⟩
    · rw [Mach.flag, Mach.event_get_ne _ _ (Field.key_noEvent (by decide) n n), hshown _ (by simp)]
      exact left.flag_setFlag_same _ _ _ (by decide)
    · rw [hshown _ (by simp), Mach.get_setFlag_ne _ _ (Field.key_elsewhere (by decide) n n), hleft _ (by simp)]
      exact h

/-- An event reported just before a stack fails stays. -/
theorem Mach.event_stackFail (m : Mach) {n b : Nat} (hn : n < 2) (hb : b < 64) :
    ((m.event .ht n b).stackFail n).flag HT.STAT_FAILED n = true ∧
      (((m.event .ht n b).stackFail n).get (evField .ht) n).testBit b = true := by
  obtain ⟨hfailed, hkept⟩ := (m.event .ht n b).stackFail_reports hn
  exact ⟨hfailed, hkept b hb (m.event_testBit_same .ht n hb)⟩

/-! ### Temperature (R291, R293) -/

/-- The flag `f` follows the temperature `t` at `level`, with 5 degrees of hysteresis; `was` is what it showed. -/
def Mach.tempFollow (m : Mach) (n : Nat) (f : Field) (b : Nat) (was : Bool) (level t : Int) : Mach :=
  if level ≤ t then (if was then m else (m.setFlag f n true).event .ht n b)
  else if t ≤ level - 5 then m.setFlag f n false else m

/-- The temperature and what follows it are shown. -/
def Mach.tempShown (m : Mach) (n temp : Nat) : Mach :=
  let t := sx 8 temp
  let m1 := ((m.settleThrottle n).put HT.TEMP n temp).tempFollow n HT.STAT_HOT HT.EV_HOT (m.flag HT.STAT_HOT n) (m.get HT.REF_TEMP_HOT n) t
  (m1.tempFollow n HT.STAT_THROTTLED HT.EV_THROTTLE (m.flag HT.STAT_THROTTLED n) (m.get HT.REF_TEMP_THROTTLE n) t).showCapability n

section
variable {m : Mach} {n : Nat} {f g : Field} {b : Nat} {was : Bool} {level t : Int}

theorem Mach.tempFollow_get_ne (hf : g.elsewhere f = true) (hg : g.noEvent = true) (j : Nat) :
    (m.tempFollow n f b was level t).get g j = m.get g j := by
  have hset : ∀ v, (m.setFlag f n v).get g j = m.get g j := fun v => Mach.get_setFlag_ne _ _ (Field.key_elsewhere hf j n)
  unfold Mach.tempFollow
  split
  · split
    · rfl
    · rw [Mach.event_get_ne _ _ (Field.key_noEvent hg j n), hset]
  · split
    · exact hset _
    · rfl

theorem Mach.tempFollow_flag (hw : 0 < f.w) (hf : f.noEvent = true) (hwas : m.flag f n = was) :
    (level ≤ t → (m.tempFollow n f b was level t).flag f n = true) ∧ (t ≤ level - 5 → (m.tempFollow n f b was level t).flag f n = false) ∧
      (level - 5 < t → t < level → (m.tempFollow n f b was level t).flag f n = was) := by
  unfold Mach.tempFollow
  refine ⟨fun h => ?_, fun h => ?_, fun hlow hhigh => ?_⟩
  · rw [if_pos h]
    split
    case isTrue hset => exact hwas.trans hset
    case isFalse =>
      rw [Mach.flag, Mach.event_get_ne _ _ (Field.key_noEvent hf n n)]
      exact m.flag_setFlag_same _ _ _ hw
  · rw [if_neg (by omega), if_pos h]
    exact m.flag_setFlag_same _ _ _ hw
  · rw [if_neg (by omega), if_neg (by omega)]
    exact hwas
end

section
variable (m : Mach) (n temp : Nat)

theorem Mach.settleThrottle_get {g : Field} (hg : g.elsewhere HT.CNT_THROTTLE_CK = true) (j : Nat) :
    (m.settleThrottle n).get g j = m.get g j := by
  unfold Mach.settleThrottle
  dsimp only
  split
  · exact Mach.get_put_ne _ _ (Field.key_elsewhere hg j n)
  · rfl

theorem Mach.tempShown_temp : (m.tempShown n temp).get HT.TEMP n = temp % 2 ^ 8 := by
  have hplace : HT.TEMP.elsewhere HT.CAPABILITY = true := by decide
  refine (Mach.get_put_ne _ _ (Field.key_elsewhere hplace n n)).trans ?_
  rw [Mach.tempFollow_get_ne (by decide) (by decide), Mach.tempFollow_get_ne (by decide) (by decide)]
  exact Mach.get_put_same _ _ _ _

/-- HOT and THROTTLED follow the temperature. -/
theorem Mach.tempShown_flags : let t := sx 8 temp
    let hot : Int := m.get HT.REF_TEMP_HOT n
    let thr : Int := m.get HT.REF_TEMP_THROTTLE n
    (hot ≤ t → (m.tempShown n temp).flag HT.STAT_HOT n = true) ∧ (t ≤ hot - 5 → (m.tempShown n temp).flag HT.STAT_HOT n = false) ∧
      (thr ≤ t → (m.tempShown n temp).flag HT.STAT_THROTTLED n = true) ∧
      (t ≤ thr - 5 → (m.tempShown n temp).flag HT.STAT_THROTTLED n = false) ∧
      (hot - 5 < t → t < hot → (m.tempShown n temp).flag HT.STAT_HOT n = m.flag HT.STAT_HOT n) := by
  intro t hot thr
  let m0 := (m.settleThrottle n).put HT.TEMP n temp
  let m1 := m0.tempFollow n HT.STAT_HOT HT.EV_HOT (m.flag HT.STAT_HOT n) hot t
  let m2 := m1.tempFollow n HT.STAT_THROTTLED HT.EV_THROTTLE (m.flag HT.STAT_THROTTLED n) thr t
  have hread : ∀ g : Field, g.elsewhere HT.TEMP = true → g.elsewhere HT.CNT_THROTTLE_CK = true → m0.get g n = m.get g n :=
    fun g htemp hck => (Mach.get_put_ne _ _ (Field.key_elsewhere htemp n n)).trans (m.settleThrottle_get n hck n)
  have hshow : ∀ g : Field, g.elsewhere HT.CAPABILITY = true → (m.tempShown n temp).flag g n = m2.flag g n :=
    fun g hg => Mach.flag_put_ne _ _ (Field.key_elsewhere hg n n)
  have hhot : m2.flag HT.STAT_HOT n = m1.flag HT.STAT_HOT n := by rw [Mach.flag, Mach.tempFollow_get_ne (by decide) (by decide)]; rfl
  have hwas : m0.flag HT.STAT_HOT n = m.flag HT.STAT_HOT n := by rw [Mach.flag, hread _ (by decide) (by decide)]; rfl
  have hwasThr : m1.flag HT.STAT_THROTTLED n = m.flag HT.STAT_THROTTLED n := by
    rw [Mach.flag, Mach.tempFollow_get_ne (by decide) (by decide), hread _ (by decide) (by decide)]
    rfl
  obtain ⟨hotOn, hotOff, hotKept⟩ := Mach.tempFollow_flag (b := HT.EV_HOT) (level := hot) (t := t) (by decide) (by decide) hwas
  obtain ⟨thrOn, thrOff, -⟩ := Mach.tempFollow_flag (b := HT.EV_THROTTLE) (level := thr) (t := t) (by decide) (by decide) hwasThr
  rw [hshow _ (by decide), hshow _ (by decide), hhot]
  exact ⟨hotOn, hotOff, thrOn, thrOff, hotKept⟩

theorem hearthTempRead_reads (h : m.stackIn n = true ∧ m.mode ≠ mSafehold ∧ m.flag HT.STAT_SELF_REFRESH n = false) :
    hearthTempRead n temp m = if (m.get HT.REF_TEMP_TRIP n : Int) ≤ sx 8 temp then ((m.tempShown n temp).event .ht n HT.EV_TRIP).stackFail n
      else m.tempShown n temp := by
  obtain ⟨hin, hmode, hrefresh⟩ := h
  exact if_neg (by simp [hin, hmode, hrefresh])

theorem hearthTempRead_idle (h : ¬(m.stackIn n = true ∧ m.mode ≠ mSafehold ∧ m.flag HT.STAT_SELF_REFRESH n = false)) :
    hearthTempRead n temp m = m := by
  refine if_pos ?_
  simp only [Bool.or_eq_true, Bool.not_eq_true', decide_eq_true_eq]
  by_contra hread
  simp only [not_or, Bool.not_eq_false, Bool.not_eq_true, and_assoc] at hread
  exact h hread
end

end Sys2Proof.Machine
end

section
/-! SUPPORT. What a stack returns, and the fill: the branch that each row takes (chapters "Line integrity, recovery and scrubbing", R246,
"Hearth: the HBM tier controller", R296, and "Bring-up and reset", R428, R430). -/
namespace Sys2Proof.Machine

/-! ### A line comes back (R246) -/

/-- The flight of a read has ended, and its flipped bits stay in the cell. -/
def Mach.landed (m : Mach) (n : Nat) (f : HFlight) (xd : Line) (xt xm : BitVec 32) : Mach :=
  m.modHt fun h => { h with
    flights := h.flights.filter (fun x => !(x.stack = n && x.req.id = f.req.id)),
    cells := if xd = 0 ∧ xt = 0 ∧ xm = 0 then h.cells else h.cells.upd (cellKey (n, f.req.h)) fun c =>
      c.corrupt (n, f.req.h) xd xt.toNat xm.toNat }

/-- What waits for a line of Hearth, at place `p`, gets it. -/
def Mach.handed (m : Mach) (p : Nat × Nat) (q : LineReq) : Mach :=
  match q.job with
  | .client port id k => m.modLine port id k fun x => if x.phase = .hearth then { x with phase := .served } else x
  | .wbH e => m.wbArrive e
  | .spill k no => m.spillArrive k no
  | .loomH k id i => m.loomHearth k id i q.rq
  | .imageH k j => m.imageTake k j
  | .listH k j => m.listArrive k j
  | .mapLine key => if (m.cell p).cls = 3 then m.mapLineFail p key else m.mapGot key false
  | _ => m

theorem hearthReturn_none {m : Mach} {n : Nat} (h : (m.ht.flights.find? fun f => f.stack = n) = none) (xd : Line) (xt xm : Nat) :
    hearthReturn n xd xt xm m = m := by
  rw [hearthReturn, h]

theorem hearthReturn_handed {m : Mach} {n : Nat} {f : HFlight} (h : (m.ht.flights.find? fun f => f.stack = n) = some f) (xd : Line)
    (xt xm : BitVec 32) : hearthReturn n xd xt.toNat xm.toNat m = (m.landed n f xd xt xm).handed (n, f.req.h) f.req := by
  have hzero : ∀ x : BitVec 32, x.toNat = 0 ↔ x = 0 := fun x => by rw [← BitVec.toNat_inj]; rfl
  have hclean : (xd = 0 && xt.toNat = 0 && xm.toNat = 0 : Bool) = true ↔ xd = 0 ∧ xt = 0 ∧ xm = 0 := by
    simp only [Bool.and_eq_true, decide_eq_true_eq, hzero, and_assoc]
  have hland : (if xd = 0 && xt.toNat = 0 && xm.toNat = 0 then
        m.modHt fun h => { h with flights := h.flights.filter (fun x => !(x.stack = n && x.req.id = f.req.id)) }
      else (m.modHt fun h => { h with flights := h.flights.filter (fun x => !(x.stack = n && x.req.id = f.req.id)) }).modHt fun h =>
        { h with cells := h.cells.upd (cellKey (n, f.req.h)) fun c => c.corrupt (n, f.req.h) xd xt.toNat xm.toNat }) =
      m.landed n f xd xt xm := by
    unfold Mach.landed
    by_cases hx : xd = 0 ∧ xt = 0 ∧ xm = 0
    · rw [if_pos (hclean.2 hx)]
      simp only [if_pos hx]
    · rw [if_neg (hx ∘ hclean.1)]
      simp only [if_neg hx]
      rfl
  rw [hearthReturn, h]
  dsimp only
  rw [hland]
  unfold Mach.handed
  cases f.req.job
  case client => simp only [beq_iff_eq]
  case mapLine => exact ite_not ..
  all_goals rfl

/-! ### Parity errors (R298) -/

section
variable {m : Mach} {n errs : Nat}

theorem stackFailCmd_out (h : m.stackIn n = false ∨ m.mode = mSafehold) : stackFailCmd n errs m = m := if_pos (by simpa using h)

/-- The parity errors of the last millisecond, sixteen at most. -/
def Mach.parityErrs (m : Mach) (n errs : Nat) : List Nat :=
  ((List.replicate errs m.now ++ m.ht.parity.get n).filter fun x => m.now < x + 19200000).take 16

theorem stackFailCmd_counted (hin : m.stackIn n = true) (hmode : m.mode ≠ mSafehold) :
    let m1 := m.modHt fun h => { h with parity := h.parity.set n (m.parityErrs n errs) }
    stackFailCmd n errs m = if (m.parityErrs n errs).length < 16 then m1 else (m1.event .ht n HT.EV_PARITY).stackFail n :=
  if_neg (by simp [hin, hmode])

/-! ### The fill (R296) -/

theorem hearthFill_idle (h : m.mayFill n = false) (k : Nat) : hearthFill n k m = m := if_pos (by rw [h]; rfl)

/-- `k` more lines of stack `n` are zero, from where the fill stands. -/
def Mach.filled (m : Mach) (n k : Nat) : Mach :=
  let a := if m.flag HT.STAT_FILLING n then m.get HT.FILL_PROG n else 0
  let b := min m.stackLines (a + k)
  ((m.modHt fun h => { h with cells := h.cells.filter fun c => !(n * 2 ^ 28 + a ≤ c.1 && c.1 < n * 2 ^ 28 + b) }).put
    HT.STAT_FILLING n 1).put HT.FILL_PROG n b

/-- The fill step of the start begins with an empty directory (R428). -/
def Mach.fillStep (m : Mach) : Mach := ((m.modHt fun h => { h with dir := [], wbs := [] }).put HT.DIR_COUNT 0 0).put GLOBAL.STAT_BOOT_STEP 0 5

theorem hearthFill_on (h : m.mayFill n = true) (hboot : m.get GLOBAL.STAT_BOOT_STEP ≠ 4) (k : Nat) : hearthFill n k m = m.filled n k := by
  refine (if_neg (by simp [h])).trans ?_
  rw [if_neg hboot]
  rfl

theorem hearthFill_first (h : m.mayFill n = true) (hboot : m.get GLOBAL.STAT_BOOT_STEP = 4) (k : Nat) :
    hearthFill n k m = m.fillStep.filled n k := by
  refine (if_neg (by simp [h])).trans ?_
  rw [if_pos hboot]
  rfl

theorem Mach.filled_get (m : Mach) {g : Field} (hg : g.elsewhere HT.STAT_FILLING = true ∧ g.elsewhere HT.FILL_PROG = true) (n k j : Nat) :
    (m.filled n k).get g j = m.get g j :=
  (Mach.get_put_ne _ _ (Field.key_elsewhere hg.2 j n)).trans (Mach.get_put_ne _ _ (Field.key_elsewhere hg.1 j n))

theorem Mach.fillStep_spec (m : Mach) (n k : Nat) : let t := m.fillStep.filled n k
    t.get GLOBAL.STAT_BOOT_STEP = 5 ∧ t.ht.dir = [] ∧ t.get HT.DIR_COUNT = 0 ∧ t.flag HT.STAT_FILLING n = true := by
  refine ⟨?_, rfl, ?_, ?_⟩
  · exact (Mach.filled_get _ (by decide) n k 0).trans (Mach.get_put_same _ _ _ _)
  · exact (Mach.filled_get _ (by decide) n k 0).trans ((Mach.get_put_ne _ _ (by decide)).trans (Mach.get_put_same _ _ _ _))
  · have hplace : HT.STAT_FILLING.elsewhere HT.FILL_PROG = true := by decide
    rw [Mach.filled, Mach.flag_put_ne _ _ (Field.key_elsewhere hplace n n)]
    exact Mach.flag_setFlag_same _ _ _ true (by decide)

/-! ### The release (R428, R430) -/

theorem Mach.bootFilled_held (h : m.get GLOBAL.STAT_BOOT_STEP ≠ 5) : m.bootFilled = m := if_neg (by simp [h])

theorem Mach.bootFilled_released (hstep : m.get GLOBAL.STAT_BOOT_STEP = 5) (hin : 0 < m.stacksIn)
    (hfill : ∀ j ∈ m.inService, (m.phy j).fill = false) (hwarn : m.flag POWER.STAT_WARN = false) : m.bootFilled = m.coreRelease :=
  if_pos (by simpa [hstep, hin, Mach.bootFree, hwarn] using hfill)

/-- Changing the mode leaves the registers below those of POWER alone. -/
theorem Mach.setMode_get (m : Mach) {g : Field} {j : Nat} (hg : g.key j < 65536) (k : Nat) : (m.setMode k).get g j = m.get g j := by
  have hres : g.key j ≠ (POWER.RES m.mode).key 0 := by
    simp only [Field.key, POWER.RES, Page.number] at hg ⊢
    omega
  have hmode : g.key j ≠ POWER.STAT_MODE.key 0 := fun h => absurd (h ▸ hg) (by decide)
  exact (Mach.get_put_ne _ _ hmode).trans (Mach.get_put_ne m _ hres)

/-- What the release shows of the regions and of the map leaves every other register alone. -/
theorem Mach.showRegions_get (m : Mach) {g : Field} {j : Nat} (hg : ∀ f ∈ [HT.LAYOUT_MAP, HT.LAYOUT_SPILL, HT.LAYOUT_LOOM, HT.HOME_SLOTS,
      MAP.HMAP_SIZE, KILN.SPILL_REGION, MAP.STAT_WARM], g.key j ≠ f.key 0) : m.showLayout.showWarm.get g j = m.get g j := by
  simp only [List.mem_cons, List.not_mem_nil, or_false, forall_eq_or_imp, forall_eq] at hg
  obtain ⟨h0, h1, h2, h3, h4, h5, h6⟩ := hg
  rw [Mach.showWarm, Mach.get_setFlag_ne _ _ h6, Mach.showLayout, Mach.get_put_ne _ _ h5, Mach.get_put_ne _ _ h4, Mach.get_put_ne _ _ h3,
    Mach.get_put_ne _ _ h2, Mach.get_put_ne _ _ h1, Mach.get_put_ne _ _ h0]

theorem Mach.coreRelease_spec (m : Mach) : let t := m.coreRelease
    t.get GLOBAL.STAT_BOOT_STEP = 6 ∧ t.flag GLOBAL.STAT_RELEASED = true ∧ t.mode = mBringup ∧ t.get COLLIER.STAT_STATE = 1 ∧
      t.alm.aliveAt = m.now := by
  let m1 := (m.put GLOBAL.STAT_BOOT_STEP 0 6).setFlag GLOBAL.STAT_RELEASED 0 true
  have hlow : ∀ g : Field, g.key 0 < 65536 → g.key 0 ≠ COLLIER.STAT_STATE.key 0 → (∀ f ∈ [HT.LAYOUT_MAP, HT.LAYOUT_SPILL, HT.LAYOUT_LOOM,
      HT.HOME_SLOTS, MAP.HMAP_SIZE, KILN.SPILL_REGION, MAP.STAT_WARM], g.key 0 ≠ f.key 0) → m.coreRelease.get g = m1.get g :=
    fun g hg hstate hshown => (Mach.showRegions_get _ hshown).trans ((Mach.get_put_ne _ _ hstate).trans (m1.setMode_get hg _))
  refine ⟨?_, ?_, ?_, ?_, rfl⟩
  · rw [hlow _ (by decide) (by decide) (by decide)]
    exact (Mach.get_put_ne _ _ (by decide)).trans (Mach.get_put_same _ _ _ _)
  · rw [Mach.flag, hlow _ (by decide) (by decide) (by decide)]
    exact Mach.flag_setFlag_same _ _ _ true (by decide)
  · exact (Mach.showRegions_get _ (by decide)).trans ((Mach.get_put_ne _ _ (by decide)).trans (Mach.get_put_same _ _ _ _))
  · exact (Mach.showRegions_get _ (by decide)).trans (Mach.get_put_same _ _ _ _)

/-! ### The fill ends (R296) -/

/-- The fill of stack `n` has written its last line. -/
def Mach.fillComplete (m : Mach) (n : Nat) : Prop :=
  (m.phy n).fill = true ∧ m.flag HT.STAT_FILLING n = true ∧ m.get HT.FILL_PROG n = m.stackLines

theorem hearthFillDone_early (h : ¬m.fillComplete n) : hearthFillDone n m = m.bootFilled := by
  refine if_pos ?_
  rw [Bool.not_eq_true', ← Bool.not_eq_true]
  simpa only [Mach.fillComplete, Bool.and_eq_true, decide_eq_true_eq, and_assoc] using h

theorem hearthFillDone_complete (h : m.fillComplete n) (hlost : (m.phy n).lostFill = false) (hboot : m.get GLOBAL.STAT_BOOT_STEP ≠ 5) :
    hearthFillDone n m = ((m.put HT.STAT_FILLING n 0).modPhy n fun p => { p with fill := false, lostFill := false }).showCapability n := by
  obtain ⟨hfill, hfilling, hprog⟩ := h
  let m1 := (m.put HT.STAT_FILLING n 0).modPhy n fun p => { p with fill := false, lostFill := false }
  have hstep : (m1.showCapability n).get GLOBAL.STAT_BOOT_STEP = m.get GLOBAL.STAT_BOOT_STEP :=
    (Mach.get_put_ne _ _ (Field.key_elsewhere (by decide) 0 n)).trans (Mach.get_put_ne m _ (Field.key_elsewhere (by decide) 0 n))
  refine (if_neg (by simp [hfill, hfilling, hprog])).trans ?_
  rw [hlost]
  exact Mach.bootFilled_held (hstep ▸ hboot)
end

end Sys2Proof.Machine
end

section
/-! SUPPORT. The statement on the failure and the fill of a stack. -/
namespace Sys2Proof.Laws
open Sys2Proof.Machine

/-- Settles O33: each row takes the branch that the stack's flights, parity errors, temperature and fill name. What a failing stack takes
with it writes none of HT's registers but DIR_COUNT (`Mach.rerouteStack_htPages`), so the event that failed it stays reported. That the
silence of TB_ALIVE counts from the release (log entry 82), and that an event which is not due changes nothing (log entries 3, 4 and 16), is
the model's choice. -/
theorem stackFailureAndFill : Obligations.StackFailureAndFill := by
  refine ⟨?returns, ?fill⟩
  case returns =>
    intro s n1 xd xt xm errs temp n t8 hot thr trip recent reads
    have hn : n < 2 := n1.isLt
    have hread := exec_hearthLineReturn s n1 xd xt xm
    have hparity := exec_stackFail s n1 errs
    have htemp := exec_hearthTempRead s n1 temp
    refine ⟨fun h => completes_of_answer hread (hearthReturn_none h ..), fun f hf => ?flight,
      fun h => completes_of_answer hparity (stackFailCmd_out h), fun hin hmode => ⟨fun hfew => ?few, fun hmany => ?many⟩,
      fun h => completes_of_answer htemp (hearthTempRead_idle _ _ _ h), fun h hbelow => ?shown, fun h hover => ?trip⟩
    case flight =>
      have hcomp := completes_of_answer hread (hearthReturn_handed hf xd xt xm)
      refine ⟨fun _ _ _ hj => ?_, fun _ hj => ?_, fun _ hj => ?_, fun _ _ hj => ?_, fun _ _ _ hj => ?_, fun _ _ hj => ?_,
        fun _ _ hj => ?_, fun hj => ?_⟩
      all_goals
        rw [Mach.handed, hj] at hcomp
        exact hcomp
    case few => exact completes_of_answer hparity ((stackFailCmd_counted hin hmode).trans (if_pos hfew))
    case many =>
      exact ⟨_, completes_of_answer hparity ((stackFailCmd_counted hin hmode).trans (if_neg (Nat.not_lt.2 hmany))),
        Mach.event_stackFail _ hn (by decide)⟩
    case shown =>
      refine ⟨_, completes_of_answer htemp ((hearthTempRead_reads _ _ _ h).trans (if_neg (by omega))), ?_, s.m.tempShown_flags n _⟩
      exact (s.m.tempShown_temp n _).trans (Nat.mod_eq_of_lt temp.isLt)
    case trip =>
      exact ⟨_, completes_of_answer htemp ((hearthTempRead_reads _ _ _ h).trans (if_pos hover)), Mach.event_stackFail _ hn (by decide)⟩
  case fill =>
    intro s n1 k n m from_ upto complete
    have hfill := exec_hearthFill s n1 k
    have hdone := exec_hearthFillDone s n1
    refine ⟨fun h => completes_of_answer hfill (hearthFill_idle h _), fun h hboot => completes_of_answer hfill (hearthFill_on h hboot _),
      fun h hboot => ⟨_, completes_of_answer hfill (hearthFill_first h hboot _), Mach.fillStep_spec _ _ _⟩,
      fun h hboot => completes_of_answer hdone ((hearthFillDone_early h).trans (Mach.bootFilled_held hboot)),
      fun h hboot hin hall hwarn => ⟨_, completes_of_answer hdone
        ((hearthFillDone_early h).trans (Mach.bootFilled_released hboot hin hall hwarn)), m.coreRelease_spec⟩,
      fun h hlost hboot => completes_of_answer hdone (hearthFillDone_complete h hlost hboot)⟩

end Sys2Proof.Laws
end

section
/-! SUPPORT. Writebacks and stripe updates: what the rows come to, case by case (chapters "Hearth: the HBM tier controller", R281, R297, and
"Namespaces, the map and placement", R186). -/
namespace Sys2Proof.Machine

section
variable {m : Mach} {e : Nat}

/-! ### A writeback begins (R281) -/

theorem Mach.wbBegin_drops (h : m.wbDrops e = true) : m.wbBegin e = m.dirFreeEnt e := if_pos h

section
variable (hup : m.fabricUp = true) (hin : m.stacksIn ≠ 0)
include hup hin

theorem writebackStart_none (h : m.wbDue = []) : writebackStart m = m := by
  refine (if_neg (by simp [hup, hin])).trans ?_
  rw [h]
  rfl

theorem writebackStart_begins (h : m.wbDue.find? m.wbCan = some e) : writebackStart m = m.wbBegin e := by
  refine (if_neg (by simp [hup, hin])).trans ?_
  dsimp only
  rw [h]
end

/-! ### A writeback ends (R281, R297) -/

/-- The programs of entry `e`'s writeback are all acknowledged. -/
def Mach.wbEnded (m : Mach) (e : Nat) : Prop :=
  let w := m.ht.wbs.get e
  (m.dirEnt e).valid = true ∧ (m.dirEnt e).wb = true ∧ w.reading = false ∧ w.waiting = false ∧ w.stripe = none ∧ w.left = 0

/-- The delta record that entry `e`'s writeback waits for is durable. -/
def Mach.wbRecorded (m : Mach) (e : Nat) : Prop := ∀ n, (m.ht.wbs.get e).delta = some n → m.deltaDurable n = true

/-- What the end of entry `e`'s writeback tells the ports: whether the value of its line is durable, or poison is. -/
def Mach.wbTold (m : Mach) (e : Nat) : Mach :=
  let w := m.ht.wbs.get e
  if w.poison then m.lostWrites (m.dirEnt e).line w.serial else m.lostPast (m.dirEnt e).line

/-- Entry `e` stays dirty, rewritten since its line was read. -/
def Mach.wbRewritten (m : Mach) (e : Nat) (en : DirEnt) (serial : Nat) : Mach :=
  (m.setDir e { en with rewritten := false, wb := false, born := serial }).modHt fun h => { h with wbs := h.wbs.erase e }

theorem writebackDone_underWay (h : ¬m.wbEnded e) : writebackDone e m = m := by
  refine if_pos ?_
  rw [Bool.not_eq_true', ← Bool.not_eq_true]
  simpa only [Mach.wbEnded, Bool.and_eq_true, decide_eq_true_eq, Bool.not_eq_true', Option.isNone_iff_eq_none, and_assoc] using h

section
variable (h : m.wbEnded e)
include h

theorem Mach.wbEnded_test : ¬(!((m.dirEnt e).valid && (m.dirEnt e).wb && !(m.ht.wbs.get e).reading && !(m.ht.wbs.get e).waiting &&
    (m.ht.wbs.get e).stripe.isNone && (m.ht.wbs.get e).left = 0)) = true := by
  obtain ⟨hvalid, hwb, hread, hwait, hstripe, hleft⟩ := h
  simp [hvalid, hwb, hread, hwait, hstripe, hleft]

theorem writebackDone_unrecorded (hrec : ¬m.wbRecorded e) :
    writebackDone e m = if m.persistWants (m.dirEnt e).line then m.deltaFlush else m := by
  unfold Mach.wbRecorded at hrec
  push Not at hrec
  obtain ⟨n, hn, hdurable⟩ := hrec
  unfold writebackDone
  dsimp only
  rw [if_neg (Mach.wbEnded_test h), hn]
  exact if_pos (by simp [hdurable])

theorem writebackDone_recorded (hrec : m.wbRecorded e) : writebackDone e m =
    if (m.dirEnt e).rewritten then (m.wbTold e).wbRewritten e (m.dirEnt e) (m.ht.wbs.get e).serial
    else if (m.dirEnt e).lost && !(m.ht.wbs.get e).poison then (m.wbTold e).wbBack e
    else (((m.wbTold e).wbHome e).dirFreeEnt e).count HT.CNT_WB_LINES := by
  unfold writebackDone
  dsimp only
  rw [if_neg (Mach.wbEnded_test h)]
  cases hdelta : (m.ht.wbs.get e).delta with
  | none => rfl
  | some n => exact if_neg (by simp [hrec n hdelta])
end

theorem Mach.lostWrites_ht (l serial : Nat) : (m.lostWrites l serial).ht = m.ht := by
  refine foldl_keeps Mach.ht (fun x p => ?_) _ m
  dsimp only
  split <;> rfl

theorem Mach.lostPast_ht (l : Nat) : (m.lostPast l).ht = m.ht := by
  refine foldl_keeps Mach.ht (fun x p => ?_) _ m
  split <;> rfl

/-- What the ports are told leaves the Hearth tier alone. -/
theorem Mach.wbTold_ht : (m.wbTold e).ht = m.ht := by
  unfold Mach.wbTold
  dsimp only
  split
  · exact Mach.lostWrites_ht ..
  · exact Mach.lostPast_ht _

theorem Mach.wbTold_sound (h : (m.ht.wbs.get e).poison = false) : m.wbTold e = m.lostPast (m.dirEnt e).line :=
  if_neg (by simp [h])

theorem Mach.wbTold_poison (h : (m.ht.wbs.get e).poison = true) :
    m.wbTold e = m.lostWrites (m.dirEnt e).line (m.ht.wbs.get e).serial := if_pos h

theorem Mach.wbRewritten_ht (en : DirEnt) (serial : Nat) : (m.wbRewritten e en serial).ht.wbs = m.ht.wbs.erase e ∧
    (m.wbRewritten e en serial).dirEnt e = { en with rewritten := false, wb := false, born := serial } :=
  ⟨rfl, Tab.get_set_same m.ht.dir e _⟩

/-! ### Stripe updates (R186) -/

/-- Every open stripe update moves on. -/
def Mach.stripesOn (m : Mach) : Mach := m.map.stripes.keys.foldl (fun m k => m.stripeStage k) m

theorem stripeUpdate_gathers (hup : m.fabricUp = true) {x : Nat × WbSt}
    (h : ((m.stripesOn.ht.wbs.filter (·.2.waiting)).find? fun x => m.stripesOn.stripeReady x.1) = some x) :
    stripeUpdate m = m.stripesOn.stripeBegin x.1 := by
  refine (if_neg (by simp [hup])).trans ?_
  dsimp only
  rw [show m.map.stripes.keys.foldl (fun m k => m.stripeStage k) m = m.stripesOn from rfl, h]

theorem stripeUpdate_only (hup : m.fabricUp = true)
    (h : ((m.stripesOn.ht.wbs.filter (·.2.waiting)).find? fun x => m.stripesOn.stripeReady x.1) = none) :
    stripeUpdate m = m.stripesOn := by
  refine (if_neg (by simp [hup])).trans ?_
  dsimp only
  rw [show m.map.stripes.keys.foldl (fun m k => m.stripeStage k) m = m.stripesOn from rfl, h]
end

end Sys2Proof.Machine
end

section
/-! SUPPORT. The delta log's line in the making, and how a checkpoint starts and ends (chapter "Namespaces, the map and placement", R195,
R196). -/
namespace Sys2Proof.Machine

section
variable {m : Mach}

/-! ### The delta line (R195) -/

theorem deltaLineTimeout_due (hup : m.fabricUp = true) (hcur : m.map.delta.cur ≠ []) (h : m.map.delta.curAt + 38400 ≤ m.now) :
    deltaLineTimeout m = m.deltaFlush := if_pos (by simp [hup, hcur, usec, h])

theorem deltaLineTimeout_idle (h : m.map.delta.cur = [] ∨ ¬m.map.delta.curAt + 38400 ≤ m.now) : deltaLineTimeout m = m := by
  refine if_neg ?_
  rcases h with h | h <;> simp [usec, h]

/-! ### A checkpoint starts (R196, R200) -/

theorem Mach.ckptStart_flush (h : m.mode = mFlush) : m.ckptStart = m := if_pos h

theorem Mach.ckptStart_running (hmode : m.mode ≠ mFlush) (h : m.get MAP.CKPT_STATE ≠ 0) : m.ckptStart = m.put MAP.CKPT_PENDING 0 1 :=
  (if_neg hmode).trans (if_pos h)

/-- What a started checkpoint holds: the frozen pages, and no root record yet. -/
theorem Mach.ckptStart_freezes (hmode : m.mode ≠ mFlush) (h : m.get MAP.CKPT_STATE = 0) : let t := m.ckptStart
    t.get MAP.CKPT_STATE = 2 ∧ t.map.dirty = [] ∧ t.map.ckpt.pages = m.map.dirty.keys ∧
      t.map.ckpt.total = m.map.dirty.keys.length + m.map.ledgerDirty.length ∧ t.map.ckpt.startAt = m.now ∧ t.map.ckpt.root = 0 := by
  unfold Mach.ckptStart
  rw [if_neg hmode, if_neg (by simp [h, ckIdle])]
  extract_lets fill m1 pages ledger r m2 m3 t
  have hmap : t.map = m3.map := by
    unfold t
    split
    · exact Mach.event_map ..
    · rfl
  have hstate : t.get MAP.CKPT_STATE = m3.get MAP.CKPT_STATE := by
    unfold t
    split
    · rw [Mach.get_setFlag_ne _ _ (by decide), Mach.event_get_ne _ _ (by decide)]
    · rfl
  rw [hmap, hstate]
  exact ⟨Mach.get_put_same _ _ _ _, rfl, rfl, rfl, rfl, rfl⟩

/-- CKPT_DIRTY counts the dirty pages. -/
theorem Mach.viewMap_ckptDirty : m.viewMap 0x158 = some (m.map.dirty.length % 2 ^ 24) := rfl

theorem ckptIntervalExpire_due (hup : m.mapUp = true)
    (h : m.get MAP.CKPT_INTERVAL ≠ 0 ∧ m.map.ckptAt + 19200000000 * m.get MAP.CKPT_INTERVAL ≤ m.now) :
    ckptIntervalExpire m = { m.ckptStart with map := { m.ckptStart.map with ckptAt := m.now } } :=
  if_pos (by simp [hup, h, secs])

theorem ckptIntervalExpire_idle (h : ¬(m.get MAP.CKPT_INTERVAL ≠ 0 ∧ m.map.ckptAt + 19200000000 * m.get MAP.CKPT_INTERVAL ≤ m.now)) :
    ckptIntervalExpire m = m := by
  refine if_neg fun htest => h ?_
  simp only [Bool.and_eq_true, decide_eq_true_eq, and_assoc] at htest
  exact htest.2

/-! ### A checkpoint ends (R196) -/

theorem Mach.ckptAdvance_waits (h : m.get MAP.CKPT_STATE ≠ 2 ∨ m.map.ckpt.flight ≠ 0) : m.ckptAdvance = m := by
  refine if_neg ?_
  rcases h with h | h <;> simp [h]

theorem ckptDone_pages (h : m.get MAP.CKPT_STATE = 2) (hflight : m.map.ckpt.flight ≠ 0) : ckptDone m = m := by
  unfold ckptDone
  rw [Mach.ckptAdvance_waits (.inr hflight)]
  exact if_pos (by simp [h])

theorem ckptDone_root (h : m.get MAP.CKPT_STATE = 3) (hroot : m.map.ckpt.root ≠ 0) : ckptDone m = m := by
  unfold ckptDone
  rw [Mach.ckptAdvance_waits (.inl (by simp [h]))]
  exact if_pos (by simp [hroot])

/-- The ALT bits of the checkpoint's pages flip, and the log space before it is released. -/
def Mach.ckptReleased (m : Mach) : Mach :=
  let m1 := m.map.ckpt.pages.foldl (fun m pg => m.flipAlt pg) m
  m1.setFill (m1.get MAP.DELTA_FILL - m.map.ckpt.df)

/-- The generation advances, and the checkpoint is reported. -/
def Mach.ckptReported (m : Mach) (c : CkptSt) : Mach :=
  (((((m.put MAP.CKPT_GEN 0 (m.get MAP.CKPT_GEN + 1)).event .map 0 MAP.EV_CKPT_DONE).count MAP.CNT_CKPT).put MAP.CKPT_STATE 0 0).put
    MAP.CKPT_LAST_PAGES 0 c.total).put MAP.CKPT_LAST_TIME 0 (aonTicks c.startAt m.now)

theorem Mach.flips_stallAt (l : List Nat) : (l.foldl (fun m pg => m.flipAlt pg) m).map.stallAt = m.map.stallAt := by
  refine foldl_keeps (fun x : Mach => x.map.stallAt) (fun x pg => ?_) l m
  simp only [Mach.flipAlt, Mach.modMap]
  split
  · rfl
  · split <;> rfl

theorem Mach.flips_get (l : List Nat) (f : Field) : (l.foldl (fun m pg => m.flipAlt pg) m).get f = m.get f := by
  refine foldl_keeps (fun x : Mach => x.get f) (fun x pg => ?_) l m
  rfl

theorem Mach.flips_now (l : List Nat) : (l.foldl (fun m pg => m.flipAlt pg) m).now = m.now := by
  refine foldl_keeps Mach.now (fun x pg => ?_) l m
  rfl

/-- Releasing log space writes DELTA_FILL and STAT.DELTA_FULL. -/
theorem Mach.ckptReleased_get {f : Field} (h : f.key 0 ≠ MAP.DELTA_FILL.key 0 ∧ f.key 0 ≠ MAP.STAT_DELTA_FULL.key 0) :
    m.ckptReleased.get f = m.get f :=
  (Mach.get_setFlag_ne _ _ h.2).trans ((Mach.get_put_ne _ _ h.1).trans (m.flips_get _ f))

theorem Mach.ckptReleased_fill : m.ckptReleased.get MAP.DELTA_FILL = (m.get MAP.DELTA_FILL - m.map.ckpt.df) % 2 ^ 64 := by
  refine (Mach.get_setFlag_ne _ _ (by decide)).trans ((Mach.get_put_same _ _ _ _).trans ?_)
  rw [m.flips_get]
  rfl

/-- Reporting a checkpoint writes these fields. -/
theorem Mach.ckptReported_get {c : CkptSt} {f : Field} (h : f.key 0 ∉ [MAP.CKPT_GEN.key 0, MAP.CNT_CKPT.key 0, MAP.CKPT_STATE.key 0,
    MAP.CKPT_LAST_PAGES.key 0, MAP.CKPT_LAST_TIME.key 0] ++ eventKeys .map 0) : (m.ckptReported c).get f = m.get f := by
  simp only [List.mem_append, List.mem_cons, List.not_mem_nil, or_false, not_or] at h
  obtain ⟨⟨hgen, hcnt, hstate, hpages, htime⟩, hevent⟩ := h
  rw [Mach.ckptReported, Mach.get_put_ne _ _ htime, Mach.get_put_ne _ _ hpages, Mach.get_put_ne _ _ hstate, Mach.get_count_ne _ _ hcnt,
    Mach.event_get_ne _ _ hevent, Mach.get_put_ne _ _ hgen]

theorem Mach.ckptReported_spec (c : CkptSt) : let t := m.ckptReported c
    t.get MAP.CKPT_STATE = 0 ∧ t.get MAP.CKPT_GEN = (m.get MAP.CKPT_GEN + 1) % 2 ^ 64 ∧ t.get MAP.CKPT_LAST_PAGES = c.total % 2 ^ 25 ∧
      (t.get (evField .map) 0).testBit MAP.EV_CKPT_DONE = true := by
  refine ⟨?_, ?_, ?_, ?_⟩
  · rw [Mach.ckptReported, Mach.get_put_ne _ _ (by decide), Mach.get_put_ne _ _ (by decide), Mach.get_put_same]
    rfl
  · rw [Mach.ckptReported, Mach.get_put_ne _ _ (by decide), Mach.get_put_ne _ _ (by decide), Mach.get_put_ne _ _ (by decide),
      Mach.get_count_ne _ _ (by decide), Mach.event_get_ne _ _ (by decide), Mach.get_put_same]
    rfl
  · rw [Mach.ckptReported, Mach.get_put_ne _ _ (by decide), Mach.get_put_same]
    rfl
  · rw [Mach.ckptReported, Mach.get_put_ne _ _ (by decide), Mach.get_put_ne _ _ (by decide), Mach.get_put_ne _ _ (by decide),
      Mach.get_count_ne _ _ (by decide)]
    exact Mach.event_testBit_same _ _ _ (by decide)

/-- With the root record durable, no start pending and no map change waiting, the checkpoint is done. -/
theorem ckptDone_done (h : m.get MAP.CKPT_STATE = 3) (hroot : m.map.ckpt.root = 0) (hpending : m.flag MAP.CKPT_PENDING = false)
    (hstall : m.map.stallAt = 0) : ckptDone m = m.ckptReleased.ckptReported m.map.ckpt := by
  have hunstall : m.ckptReleased.deltaUnstall = m.ckptReleased := by
    refine if_pos ?_
    simp [Mach.ckptReleased, Mach.setFill, Mach.flips_stallAt, hstall]
  have hstill : (m.ckptReleased.ckptReported m.map.ckpt).flag MAP.CKPT_PENDING = false := by
    rw [Mach.flag, Mach.ckptReported_get (by decide), Mach.ckptReleased_get (by decide)]
    exact hpending
  have hnow : m.ckptReleased.now = m.now := m.flips_now _
  unfold ckptDone
  rw [Mach.ckptAdvance_waits (.inl (by simp [h]))]
  refine (if_neg (by simp [h, hroot])).trans ?_
  dsimp only
  rw [show ((m.map.ckpt.pages.foldl (fun m pg => m.flipAlt pg) m).setFill _).deltaUnstall = m.ckptReleased from hunstall, ← hnow]
  exact if_neg (Bool.eq_false_iff.1 hstill)
end

end Sys2Proof.Machine
end

section
/-! SUPPORT. The statement on writebacks, the delta log and checkpoints. -/
namespace Sys2Proof.Laws
open Sys2Proof.Machine

/-- Settles O27: each row takes the branch that the state of its writeback, of the line in the making or of the checkpoint names. Two frames
carry it: the ports are told of a writeback's end without a change of the Hearth tier (`Mach.wbTold_ht`), and a checkpoint that ends keeps
every register but those that `Mach.ckptReleased_get` and `Mach.ckptReported_get` name. That no checkpoint starts in FLUSH is deduced (log entry
49); that an event which is not due changes nothing, and that a row takes one phase at a time, is the model's choice (3, 4 and 16). -/
theorem writebackAndMapLog : Obligations.WritebackAndMapLog := by
  refine ⟨?writeback, ?log⟩
  case writeback =>
    intro s e18 e i en w ended durable
    have hstart := exec_writebackStart s
    have hdone := exec_writebackDone s e18
    refine ⟨fun hup hin => ⟨fun h => completes_of_answer hstart (writebackStart_none hup hin h), fun hfind =>
        ⟨fun h => ?drops, fun _ => completes_of_answer hstart (writebackStart_begins hup hin hfind)⟩⟩,
      fun h => completes_of_answer hdone (writebackDone_underWay h),
      fun h hrec hp => completes_of_answer hdone ((writebackDone_unrecorded h hrec).trans (if_neg (Bool.eq_false_iff.1 hp))),
      fun h hrec hp => completes_of_answer hdone ((writebackDone_unrecorded h hrec).trans (if_pos hp)),
      fun h hrec hre => ?rewritten,
      fun h hrec (hre : (s.m.dirEnt i).rewritten = false) (hpoison : (s.m.ht.wbs.get i).poison = false)
        (hlost : (s.m.dirEnt i).lost = true) => ?lost,
      fun h hrec (hre : (s.m.dirEnt i).rewritten = false) hpoison (hlost : (s.m.dirEnt i).lost = false) => ?sound,
      fun h hrec (hre : (s.m.dirEnt i).rewritten = false) (hpoison : (s.m.ht.wbs.get i).poison = true) => ?poison,
      fun hup => ⟨fun x h => completes_of_answer (exec_stripeUpdate s) (stripeUpdate_gathers hup h),
        fun h => completes_of_answer (exec_stripeUpdate s) (stripeUpdate_only hup h)⟩⟩
    case drops =>
      exact completes_of_answer hstart ((writebackStart_begins hup hin hfind).trans (Mach.wbBegin_drops h))
    all_goals have hended := writebackDone_recorded h hrec
    case rewritten =>
      rw [if_pos hre] at hended
      obtain ⟨hwbs, hent⟩ := Mach.wbRewritten_ht (m := s.m.wbTold i) (e := i) en w.serial
      exact ⟨_, completes_of_answer hdone hended, hwbs.trans (by rw [Mach.wbTold_ht]), hent⟩
    case lost =>
      rw [if_neg (by simp [hre]), if_pos (by simp [hpoison, hlost]), Mach.wbTold_sound hpoison] at hended
      exact completes_of_answer hdone hended
    case sound =>
      rw [if_neg (by simp [hre]), if_neg (by simp [hlost]), Mach.wbTold_sound hpoison] at hended
      exact completes_of_answer hdone hended
    case poison =>
      rw [if_neg (by simp [hre]), if_neg (by simp [hpoison]), Mach.wbTold_poison hpoison] at hended
      exact completes_of_answer hdone hended
  case log =>
    intro s a c line due
    have htimeout := exec_deltaLineTimeout s
    have hexpire := exec_ckptIntervalExpire s
    have hdone := exec_ckptDone s
    refine ⟨fun hup hcur h => completes_of_answer htimeout (deltaLineTimeout_due hup hcur h),
      fun h => completes_of_answer htimeout (deltaLineTimeout_idle h), fun ho => ?go,
      fun hup hmode h => ⟨fun hrun => ?pending, fun hidle => ?begun⟩,
      fun h => completes_of_answer hexpire (ckptIntervalExpire_idle h), fun h hf => completes_of_answer hdone (ckptDone_pages h hf),
      fun h hr => completes_of_answer hdone (ckptDone_root h hr), fun h hr hp hs => ?ended⟩
    case go =>
      have hgo : Completes (.ckptGo a) s (s.m.seen a.toNat).ckptStart := completes_of_answer (exec_ckptGo s a) (Mach.viaCfg_open ho ..)
      refine ⟨fun h => ?_, fun hmode h => ?_, fun hmode h => ?_⟩
      · rwa [Mach.ckptStart_flush h] at hgo
      · rwa [Mach.ckptStart_running hmode h] at hgo
      · obtain ⟨hstate, hdirty, hrest⟩ := Mach.ckptStart_freezes hmode h
        exact ⟨_, hgo, hstate, by rw [Mach.viewMap_ckptDirty, hdirty]; rfl, hdirty, hrest⟩
    case pending =>
      refine ⟨_, completes_of_answer hexpire (ckptIntervalExpire_due hup h), ?_⟩
      rw [Mach.ckptStart_running hmode hrun]
      exact ⟨rfl, Mach.flag_setFlag_same s.m _ _ true (by decide), rfl, fun f n hk => Mach.get_put_ne s.m _ (by simpa using hk)⟩
    case begun =>
      obtain ⟨hstate, hdirty, hpages, -⟩ := Mach.ckptStart_freezes hmode hidle
      exact ⟨_, completes_of_answer hexpire (ckptIntervalExpire_due hup h), rfl, hstate, hdirty, hpages⟩
    case ended =>
      obtain ⟨hstate, hgen, hpages, hevent⟩ := s.m.ckptReleased.ckptReported_spec c
      refine ⟨_, completes_of_answer hdone (ckptDone_done h hr hp hs), hstate, ?_, ?_, hpages, hevent⟩
      · rw [hgen, Mach.ckptReleased_get (by decide)]
      · rw [Mach.ckptReported_get (by decide), Mach.ckptReleased_fill]

end Sys2Proof.Laws
end

section
/-! SUPPORT. An RFM and the count of its bank: on a canonical table, closing the rows keeps every bank's count (chapter "Hearth: the HBM tier
controller", R286, R292). -/
namespace Sys2Proof.Machine

section
variable {α : Type} [Inhabited α]

/-- A key below all those listed reads as an unlisted one. -/
theorem Tab.get_of_above {t : Tab α} {n k : Nat} (h : Tab.above n t = true) (hk : k < n) : t.get k = default := by
  induction t with
  | nil => rfl
  | cons e t ih =>
    obtain ⟨j, v⟩ := e
    simp only [Tab.above, Bool.and_eq_true, decide_eq_true_eq] at h
    rw [Tab.get, if_neg (by omega), ih h.2]

theorem Tab.mapv_cons [DecidableEq α] (f : Nat → α → α) (j : Nat) (v : α) (t : Tab α) :
    Tab.mapv f ((j, v) :: t) = if f j v = default then Tab.mapv f t else (j, f j v) :: Tab.mapv f t := by
  rw [Tab.mapv, List.map_cons, List.filter_cons]
  by_cases h : f j v = default
  · rw [if_pos h, if_neg (by simp [h])]
    rfl
  · rw [if_neg h, if_pos (by simp [h])]
    rfl

/-- Changing every entry of a canonical table changes what each key reads, where what an unlisted key reads as stays. -/
theorem Tab.get_mapv [DecidableEq α] {t : Tab α} {f : Nat → α → α} {k : Nat} (h : t.wf = true) (hf : f k default = default) :
    (t.mapv f).get k = f k (t.get k) := by
  induction t with
  | nil => exact hf.symm
  | cons e t ih =>
    obtain ⟨j, v⟩ := e
    simp only [Tab.wf, Bool.and_eq_true] at h
    obtain ⟨⟨-, habove⟩, hwf⟩ := h
    rw [Tab.mapv_cons]
    by_cases hk : k = j
    · subst hk
      have hout : Tab.get t k = default := Tab.get_of_above habove (Nat.lt_succ_self k)
      rw [Tab.get, if_pos rfl]
      split
      next hdrop => rw [ih hwf, hout, hf, hdrop]
      next => rw [Tab.get, if_pos rfl]
    · rw [Tab.get, if_neg hk, ← ih hwf]
      split
      · rfl
      · rw [Tab.get, if_neg hk]
end

theorem Mach.pcSt_modPc_same (m : Mach) (n pc : Nat) (f : PcSt → PcSt) : (m.modPc n pc f).pcSt n pc = f (m.pcSt n pc) :=
  Tab.get_upd_same ..

/-- Bank `k` of pseudo-channel `p` of stack `n` once its row, where no queued request hits it, is closed. -/
def Mach.rowClosed (m : Mach) (n : Nat) (p : PcSt) (k : Nat) (b : BankSt) : BankSt :=
  if b.row ≠ 0 && m.preAt n b ≤ m.ck && !p.rowHit k b then { b with row := 0, pre := some (m.preAt n b) } else b

theorem Mach.closeRows_banks (m : Mach) (n pc : Nat) :
    ((m.closeRows n pc).pcSt n pc).banks = (m.pcSt n pc).banks.mapv (m.rowClosed n (m.pcSt n pc)) := by
  rw [Mach.closeRows, Mach.pcSt_modPc_same]
  rfl

/-- On a canonical table closing the rows keeps the count of every bank. -/
theorem Mach.closeRows_raa (m : Mach) (n pc k : Nat) (h : (m.pcSt n pc).banks.wf = true) :
    (((m.closeRows n pc).pcSt n pc).banks.get k).raa = ((m.pcSt n pc).banks.get k).raa := by
  rw [Mach.closeRows_banks, Tab.get_mapv h rfl, Mach.rowClosed]
  split <;> rfl

/-- An RFM takes RAAIMT from the count that its bank has once the rows are closed. -/
theorem Mach.rfm_raa (m : Mach) (n pc k : Nat) : (((m.rfm n pc k).pcSt n pc).banks.get k).raa =
    (((m.closeRows n pc).pcSt n pc).banks.get k).raa - m.get HT.RFM_RAAIMT n := by
  rw [Mach.rfm, Mach.pcSt, Mach.count_ht, Mach.count_ht, ← Mach.pcSt, Mach.pcSt_modPc_same, Tab.get_set_same]

end Sys2Proof.Machine
end

section
/-! REFUTATION of `Obligations.PseudoChannels`: the state in which an RFM does not take RAAIMT from the count that its bank shows (chapter
"Hearth: the HBM tier controller", R286, R292). -/
namespace Sys2Proof.Machine

/-- Stack 0 in service with refresh management on and RAAIMT 1, and on its pseudo-channel 0 a table that lists bank 0 twice: as at reset, then
with a count of 5. A canonical table lists a bank once, and never as at reset: this refutes a statement over all states. -/
def bankTwice : Mach :=
  let m := ([(HT.STAT_IN_SERVICE, 0, 1), (HT.RFM_ENABLE, 0, 1), (HT.RFM_RAAIMT, 0, 1)] : List (Field × Nat × Nat)).foldl
    (fun m x => m.put x.1 x.2.1 x.2.2) Mach.reset
  m.modHt fun h => { h with pcs := [(pcKey 0 0, { (default : PcSt) with banks := [(0, default), (0, { (default : BankSt) with raa := 5 })] })] }

/-- The pseudo-channel is free for an RFM, and one is due on bank 0, whose count reads 0. -/
theorem bankTwice_due : let m := bankTwice.turnMode 0 0
    bankTwice.stackUp 0 = true ∧ bankTwice.mode ≠ mSafehold ∧ (m.pcSt 0 0).hold = false ∧ (m.pcSt 0 0).pd = false ∧
      (m.pcSt 0 0).blocked ≤ bankTwice.ck ∧ m.rfmBank 0 0 = some 0 ∧ ((m.pcSt 0 0).banks.get 0).raa = 0 := by
  decide +kernel

/-- Closing the rows drops the entry that is as at reset, so that the RFM counts down the other one. -/
theorem bankTwice_raa : (((hearthIssue 0 0 bankTwice).pcSt 0 0).banks.get 0).raa = 4 := by decide +kernel

end Sys2Proof.Machine
end

section
namespace Sys2Proof.Laws
open Sys2Proof.Machine

/-- Refutes O31: on `bankTwice` an RFM is due on bank 0, whose count reads 0, but its count then reads 4. The table lists the bank twice, first
as at reset; closing the rows drops that entry, and the RFM takes RAAIMT from the 5 of the other. The clauses speak of every state; a table
that the model's operations have written is canonical, and on such a table closing the rows keeps every count, from which the RFM then takes
RAAIMT (`Mach.closeRows_raa`, `Mach.rfm_raa`), so this is a gap of the hypotheses. -/
theorem not_pseudoChannels : ¬ Obligations.PseudoChannels := by
  unfold Obligations.PseudoChannels
  intro h
  obtain ⟨hup, hmode, hhold, hpd, hblocked, hbank, hraa⟩ := bankTwice_due
  obtain ⟨-, -, hrfm, -⟩ := h.1 ⟨bankTwice, []⟩ 0 0 default
  obtain ⟨t, hexec, hcount, -⟩ := hrfm 0 hup hmode hhold hpd hblocked hbank
  have hcomp : Completes (.hearthCommandIssue 0 0) ⟨bankTwice, []⟩ (hearthIssue 0 0 bankTwice) :=
    completes_of_answer (exec_hearthCommandIssue _ 0 0) rfl
  have ht : t = hearthIssue 0 0 bankTwice := by
    rw [Completes, hexec] at hcomp
    injection hcomp with hstate
    injection hstate
  have hzero : (((hearthIssue 0 0 bankTwice).pcSt 0 0).banks.get 0).raa = 0 := by
    rw [← ht]
    exact hcount.trans (Nat.sub_eq_zero_of_le (hraa.le.trans (Nat.zero_le _)))
  rw [bankTwice_raa] at hzero
  exact absurd hzero (by decide)

end Sys2Proof.Laws
end

section
/-! SUPPORT. A change of the timing, the layout of the regions and the sweeper: what each comes to, case by case (chapter "Hearth: the HBM
tier controller", R274, R276, R285, R289). -/
namespace Sys2Proof.Machine

/-! ### Timing (R289, R290) -/

section
variable (m : Mach) (n : Nat)

/-- The timing values of stack `n` once those written are taken: a zero keeps the old value. -/
def Mach.timingTaken : List Nat :=
  List.zipWith (fun o v => if v = 0 then o else v)
    ((List.range 24).map fun i => (m.ht.timing.get n).getD i ((timingDefaults m.ht.bin).getD i 0)) (HT.timing.map fun f => m.get f n)

theorem Mach.timingTaken_getElem? {i : Nat} {f : Field} (h : HT.timing[i]? = some f) :
    (m.timingTaken n)[i]? = some (if m.get f n = 0 then (m.ht.timing.get n).getD i ((timingDefaults m.ht.bin).getD i 0) else m.get f n) := by
  obtain ⟨hi, -⟩ := List.getElem?_eq_some_iff.1 h
  have hlen : HT.timing.length = 24 := rfl
  simp [Mach.timingTaken, List.getElem?_zipWith, h, List.getElem?_range (hlen ▸ hi)]

theorem timingApply_timing : (timingApply n m).ht.timing.get n = m.timingTaken n := by
  unfold timingApply
  extract_lets old new eff m1 m2
  have hwritten : m2.ht = m1.ht := by
    refine foldl_keeps Mach.ht (fun x fv => ?_) _ m1
    rfl
  have htaken : m2.ht.timing.get n = m.timingTaken n :=
    (congrArg (fun h : HtSt => h.timing.get n) hwritten).trans (Tab.get_set_same m.ht.timing n eff)
  split
  · rw [Mach.event_ht]
    exact htaken
  · exact htaken

theorem timingApply_reject (h : ∃ f ∈ HT.timing, m.get f n = 0) :
    ((timingApply n m).get (evField .ht) n).testBit HT.EV_PARAM_REJECT = true := by
  obtain ⟨f, hf, h0⟩ := h
  unfold timingApply
  extract_lets old new eff m1 m2
  have hzero : new.any (· = 0) = true := List.any_eq_true.2 ⟨0, h0 ▸ List.mem_map_of_mem hf, rfl⟩
  rw [if_pos hzero]
  exact Mach.event_testBit_same _ _ _ (by decide)
end

/-! ### Layout (R274, R276) -/

section
variable {m : Mach}

/-- Streams, spill or lists are active. -/
def Mach.layoutBusy (m : Mach) : Prop := m.get KILN.ACTIVE ≠ 0 ∨ m.get KILN.SPILL_LEVEL ≠ 0 ∨ m.get LOOM.ACTIVE ≠ 0

/-- The sizes written for the regions. -/
def Mach.layoutWritten (m : Mach) : Layout := ⟨m.get HT.LAYOUT_MAP, m.get HT.LAYOUT_SPILL, m.get HT.LAYOUT_LOOM⟩

/-- The sizes leave less than 1 GiB for the home region, or one of them is no multiple of 64 MiB. -/
def Mach.layoutUnfit (m : Mach) : Prop :=
  let l := m.layoutWritten
  m.stackMiB < m.mapBase / 4096 + l.map + l.spill + l.loom + 1024 ∨ l.map % 64 ≠ 0 ∨ l.spill % 64 ≠ 0 ∨ l.loom % 64 ≠ 0

theorem layoutApply_busy (h : m.layoutBusy) : layoutApply m = (m.put HT.LAYOUT_RESULT 0 1).put HT.LAYOUT_REASON 0 1 :=
  if_pos (by simpa [Mach.layoutBusy, or_assoc] using h)

theorem layoutApply_unfit (hfree : ¬m.layoutBusy) (h : m.layoutUnfit) :
    layoutApply m = (m.put HT.LAYOUT_RESULT 0 1).put HT.LAYOUT_REASON 0 2 :=
  (if_neg (by simpa [Mach.layoutBusy, and_assoc] using hfree)).trans
    (if_pos (by simpa [Mach.layoutUnfit, Mach.layoutWritten, or_assoc] using h))

theorem layoutApply_applied (hfree : ¬m.layoutBusy) (h : ¬m.layoutUnfit) :
    let m1 := ((m.modHt fun h => { h with layout := some m.layoutWritten }).bumpAllCgen).showLayout
    layoutApply m = ((((m1.hmapLost.loomForget.setFlag MAP.STAT_WARM 0 false).put HT.LAYOUT_RESULT 0 0).put HT.LAYOUT_REASON 0 0).event .ht 0
      HT.EV_LAYOUT_DONE).warmUp :=
  (if_neg (by simpa [Mach.layoutBusy, and_assoc] using hfree)).trans
    (if_neg (by simpa [Mach.layoutUnfit, Mach.layoutWritten, and_assoc] using h))

/-! ### The sweeper (R285) -/

theorem sweepLine_off (h : m.running = false ∨ m.stacksIn = 0 ∨ m.homeSlots = 0) : sweepLine m = m :=
  if_pos (by simpa [or_assoc] using h)

/-- A CLEAN line whose namespace is gone, or of an older generation of it. -/
def Mach.homeStale (m : Mach) (c : HLine) : Prop :=
  c.st = 1 ∧ ((m.nsDesc (lineNs c.ltag)).exists_ = false ∨ c.gen ≠ m.cgen (lineNs c.ltag))

/-- The place of the home slot whose turn it is. -/
def Mach.sweepPlace (m : Mach) : Nat × Nat := m.spread m.homeBase (m.ht.sweep % m.homeSlots)

section
variable (hrun : m.running = true) (hin : m.stacksIn ≠ 0) (hslots : m.homeSlots ≠ 0) (hnext : m.ht.sweep + 1 < m.homeSlots)
  (hcls : (m.cell m.sweepPlace).cls ≠ 3)
include hrun hin hslots hnext hcls

theorem sweepLine_keeps (h : ¬m.homeStale (m.cell m.sweepPlace)) :
    sweepLine m = (m.hQueue 13 m.sweepPlace false).modHt fun h => { h with sweep := h.sweep + 1 } := by
  refine (if_neg (by simp [hrun, hin, hslots])).trans ((if_pos hnext).trans ?_)
  refine congrArg (fun x : Mach => x.modHt _) ((if_neg hcls).trans (if_neg ?_))
  simpa [Mach.homeStale, Mach.sweepPlace] using h

theorem sweepLine_empties (h : m.homeStale (m.cell m.sweepPlace)) :
    sweepLine m = (((m.hQueue 13 m.sweepPlace false).homeEmpty m.sweepPlace).count HT.CNT_SWEEP_EMPTIED).modHt fun h =>
      { h with sweep := h.sweep + 1 } := by
  refine (if_neg (by simp [hrun, hin, hslots])).trans ((if_pos hnext).trans ?_)
  refine congrArg (fun x : Mach => x.modHt _) ((if_neg hcls).trans (if_pos ?_))
  simpa [Mach.homeStale, Mach.sweepPlace] using h
end
end

end Sys2Proof.Machine
end

section
/-! SUPPORT. The statement on timing, layout and the sweeper. -/
namespace Sys2Proof.Laws
open Sys2Proof.Machine

/-- Settles O32: each row takes the branch that the values written, or the home slot whose turn it is, name. That SIZE also
answers a size that is no multiple of 64 MiB is deduced (log entry 31); that a layout applied queues the map's warm-up (61) and that a sweep
which is not due changes nothing (3, 4 and 16) is the model's choice. -/
theorem timingLayoutAndSweep : Obligations.TimingLayoutAndSweep := by
  intro s a n1 n
  refine ⟨fun ho => ?timing, fun ho => ?layout, fun h => completes_of_answer (exec_sweepLine s) (sweepLine_off h),
    fun hrun hin hslots hnext hcls => ?sweep⟩
  case timing =>
    exact ⟨_, completes_of_answer (exec_timingApply s a n1) (Mach.viaCfg_open ho ..),
      fun i f hf => by rw [timingApply_timing, Mach.timingTaken_getElem? _ _ hf], timingApply_reject _ n⟩
  case layout =>
    have hrow : ∀ {t : Mach}, layoutApply (s.m.seen a.toNat) = t → Completes (.layoutApply a) s t := fun h =>
      completes_of_answer (exec_layoutApply s a) ((Mach.viaCfg_open ho ..).trans h)
    exact ⟨fun hbusy => hrow (layoutApply_busy hbusy), fun hfree h => hrow (layoutApply_unfit hfree h),
      fun hfree hlarge hragged => hrow (layoutApply_applied hfree (not_or.2 ⟨hlarge, hragged⟩))⟩
  case sweep =>
    exact ⟨fun h => completes_of_answer (exec_sweepLine s) (sweepLine_keeps hrun hin hslots hnext hcls h),
      fun h => completes_of_answer (exec_sweepLine s) (sweepLine_empties hrun hin hslots hnext hcls h)⟩

end Sys2Proof.Laws
end
